-- ==== Sys2Proof/Word.lean ====
section
/-!
DEFINITION. Word.lean: the widths the spec's values have, and the sparse maps the state is made of.
A map is a list of (key, value) pairs with strictly rising keys; where a map has a default, no listed value equals it,
so that equal contents are equal data.
-/
namespace Sys2Proof

/-- A 64-bit word: a register of control space, a scalar register, a word of a packet header. -/
abbrev Word := BitVec 64
/-- One byte of memory or of a message. -/
abbrev Byte := BitVec 8
/-- A master identity (12_host_ports R324, 04_cores R84). -/
abbrev Ident := BitVec 16
/-- A global core number, 0 to 2,047 (R84). -/
abbrev CoreId := BitVec 11
/-- A sluice die, 0 to 3 (R16). -/
abbrev Die := BitVec 2
/-- A peer link number below 32 (R235). -/
abbrev Link := BitVec 5

/-- A sparse map: pairs in rising key order. -/
abbrev SMap (α : Type) := List (Nat × α)

namespace SMap

/-- The value listed for a key. -/
def find? {α : Type} : SMap α → Nat → Option α
  | [], _ => none
  | (k, v) :: m, x => if x = k then some v else SMap.find? m x

/-- List a value for a key, in place of the one it had. -/
def insert {α : Type} : SMap α → Nat → α → SMap α
  | [], x, v => [(x, v)]
  | (k, w) :: m, x, v =>
    if x = k then (x, v) :: m else if x < k then (x, v) :: (k, w) :: m else (k, w) :: SMap.insert m x v

/-- Take a key out. -/
def erase {α : Type} (m : SMap α) (x : Nat) : SMap α := m.filter fun e => !(e.1 == x)

/-- The value of a key in a map whose unlisted keys read as `d`. -/
def get {α : Type} (d : α) (m : SMap α) (k : Nat) : α := (SMap.find? m k).getD d

/-- Write a key in a map whose unlisted keys read as `d`: writing `d` takes the key out. -/
def put {α : Type} [DecidableEq α] (d : α) (m : SMap α) (k : Nat) (v : α) : SMap α :=
  if v = d then SMap.erase m k else SMap.insert m k v

/-- Change every listed value; those that become `d` go. -/
def mapV {α : Type} [DecidableEq α] (d : α) (f : α → α) (m : SMap α) : SMap α :=
  (m.map fun e => (e.1, f e.2)).filter fun e => !decide (e.2 = d)

/-- The keys rise strictly, starting above a bound. -/
def risingFrom {α : Type} : Option Nat → SMap α → Bool
  | _, [] => true
  | none, (k, _) :: m => SMap.risingFrom (some k) m
  | some b, (k, _) :: m => decide (b < k) && SMap.risingFrom (some k) m

/-- The canonical form of a map whose unlisted keys read as `d`. -/
def wf {α : Type} [DecidableEq α] (d : α) (m : SMap α) : Bool :=
  SMap.risingFrom none m && m.all fun e => !decide (e.2 = d)

end SMap

/-- Bit `n` of a natural number. -/
def natBit (v n : Nat) : Bool := v.testBit n

/-- The field of `w` bits of `v` that starts at bit `lo`. -/
def natField (v lo w : Nat) : Nat := (v >>> lo) % 2 ^ w

/-- `v` with the field of `w` bits at bit `lo` set to `x`. -/
def natSetField (v lo w x : Nat) : Nat := v - natField v lo w * 2 ^ lo + (x % 2 ^ w) * 2 ^ lo

/-- The field of `w` bits of a word that starts at bit `lo`, as a number. -/
def field {n : Nat} (v : BitVec n) (lo w : Nat) : Nat := natField v.toNat lo w

/-- Bit `i` of a word as a truth value. -/
def bit {n : Nat} (v : BitVec n) (i : Nat) : Bool := v.getLsbD i

/-- The number of a truth value. -/
def b2n (b : Bool) : Nat := if b then 1 else 0

/-- Round up to a whole number of units. -/
def ceilDiv (a b : Nat) : Nat := (a + b - 1) / b

/-- The little-endian number of a list of bytes (R4). -/
def leNat : List Byte → Nat
  | [] => 0
  | b :: bs => b.toNat + 256 * leNat bs

/-- The `n` bytes of a number, lowest first (R4). -/
def leBytes : Nat → Nat → List Byte
  | 0, _ => []
  | n + 1, v => BitVec.ofNat 8 v :: leBytes n (v / 256)

/-- The number of a list of bytes, most significant first (R291, R407, R414). -/
def beNat (bs : List Byte) : Nat := bs.foldl (fun a b => a * 256 + b.toNat) 0

/-- The `n` bytes of a number, most significant first. -/
def beBytes (n v : Nat) : List Byte := (leBytes n v).reverse

/-- The numbers `a, a + 1, …`, `n` of them. -/
def upFrom (a : Nat) : Nat → List Nat
  | 0 => []
  | n + 1 => a :: upFrom (a + 1) n

/-- Replace the `i`-th element of a list by a function of it. -/
def modifyAt {α : Type} (f : α → α) : List α → Nat → List α
  | [], _ => []
  | x :: xs, 0 => f x :: xs
  | x :: xs, i + 1 => x :: modifyAt f xs i

/-- Take the `i`-th element out of a list. -/
def removeAt {α : Type} : List α → Nat → List α
  | [], _ => []
  | _ :: xs, 0 => xs
  | x :: xs, i + 1 => x :: removeAt xs i

/-- The wrapped difference `a - b` modulo `2 ^ w` as a signed number; exactly half counts as before (R42, R207, R241). -/
def serialDiff (w a b : Nat) : Int :=
  let d := (a + 2 ^ w - b % 2 ^ w) % 2 ^ w
  if d ≥ 2 ^ (w - 1) then (d : Int) - 2 ^ w else d

/-- `v` limited to `2 ^ w - 1`: a saturating counter of `w` bits. -/
def satTo (w v : Nat) : Nat := min v (2 ^ w - 1)

/-- A number read as a two's-complement value of `w` bits. -/
def signedOf (w v : Nat) : Int := if (v % 2 ^ w) ≥ 2 ^ (w - 1) then (v % 2 ^ w : Nat) - (2 : Int) ^ w else ((v % 2 ^ w : Nat) : Int)

/-- The `w`-bit two's-complement code of an integer. -/
def codeOf (w : Nat) (x : Int) : Nat := (x % (2 : Int) ^ w).toNat

end Sys2Proof
end

