-- ==== Sys2Proof/Syntax.lean ====
section
/-!
DEFINITION. Syntax.lean: the commands of the module, one constructor of `Instr` for each row of spec/opcode_table.json, with the
operands each command carries.
-/
namespace Sys2Proof

/-- The causes of a core fault (R110). -/
inductive FaultCause where
  | illegal | align | addr | access | fetch | poison | hw | trap | timeout | extAbort
  deriving DecidableEq, Repr

/-- The units of a core, as the fault state names them (R113). -/
inductive Engine where
  | scalar | matrix | vector | dma
  deriving DecidableEq, Repr

/-- A packet (R261): four header words, the payload, the GCM tag. -/
structure Packet where
  w0 : Word
  w1 : Word
  w2 : Word
  w3 : Word
  payload : List Byte
  tag : BitVec 128
  deriving DecidableEq, Repr

/-- What may go wrong when a junction combines a yelm (R309, R317): a residue mismatch, or a byte that a buffer changes in the root's own yelm or
in the result. -/
inductive JunctionFault where
  | residue
  | own (pos : Nat) (flip : Byte)
  | output (pos : Nat) (flip : Byte)
  deriving DecidableEq, Repr

/-- A codeword as it arrives on a lane of a strand: the lane, and the 560 symbols in the order of transmission (R237). -/
structure Codeword where
  lane : BitVec 2
  symbols : List (BitVec 10)
  deriving DecidableEq, Repr

/-- A time message (R253). -/
structure TimeMsg where
  k : BitVec 5
  epoch : Bool
  gstate : BitVec 3
  hops : BitVec 8
  rootEpn : BitVec 16
  reqId : BitVec 16
  t1 : Word
  t2 : Word
  t3 : Word
  txDly : BitVec 32
  rxDly : BitVec 32
  deriving DecidableEq, Repr

/-- An identity message (the table "Identity message", R251). -/
structure IdentMsg where
  pid : BitVec 48
  epn : BitVec 16
  rack : BitVec 8
  slot : BitVec 3
  board : BitVec 3
  rackValid : Bool
  die : BitVec 2
  link : BitVec 6
  variant : BitVec 2
  deriving DecidableEq, Repr

/-- What a patrol scrubber reads (R356): one granule of a cistern channel, a tier or a core's scratch. -/
inductive ScrubUnit where
  | cistern (cis : BitVec 4) (chan : BitVec 5)
  | tier (t : BitVec 5)
  | scratch (core : BitVec 11)
  deriving DecidableEq, Repr

/-- What a read of a granule found against the bits that were written (R346 to R349, R354). In a cistern `flips` lists (codeword, die,
the XOR of that die's symbol); in a tier or scratch it lists (SEC-DED word, bit, 1). `suspects` are the dies whose EDC mismatched. -/
structure Observed where
  flips : List (Nat × Nat × Nat)
  suspects : List Nat
  deriving DecidableEq, Repr

/-- A finding of the start-up pattern test (R366). -/
inductive Finding where
  /-- A die of a cistern, and the channels that its failing granules span. -/
  | die (cis die : Nat) (channels : List Nat)
  /-- A DRAM row of a channel, and whether post-package repair mended it. -/
  | dramRow (cis chan : Nat) (repaired : Bool)
  | tierRow (tier bank row : Nat)
  | scratchRow (core bank row : Nat)
  deriving DecidableEq, Repr

/-- What a slate wave finds (R366, R430): the sites whose scan self-test fails, and the rows that the march finds. -/
structure WaveReading where
  failing : List (Nat × Nat)
  findings : List Finding
  deriving DecidableEq, Repr

/-- What a training stage finds: the lanes aligned, and in CAL the far end's calibrated delays (R248, R253). -/
structure StageReading where
  lanes : BitVec 4
  farTx : BitVec 32
  farRx : BitVec 32
  deriving DecidableEq, Repr

/-- A launch: the slot, and what goes wrong in the yelms that a reduce root combines at once. -/
structure Launch where
  slot : BitVec 12
  faults : List (Nat × JunctionFault)
  deriving DecidableEq, Repr

/-- The transports on which SPDM reaches the SP (R405): the DOE mailbox of a PF, the management port, MCTP over I3C. -/
inductive Transport where
  | doe (port : Bool) | mgmt | i3c
  deriving DecidableEq, Repr

/-- A signature with the key that made it, over a SHA-384 digest (R423). -/
structure Signature where
  digest : BitVec 384
  r : BitVec 384
  s : BitVec 384
  qx : BitVec 384
  qy : BitVec 384
  deriving DecidableEq, Repr

/-- A trust anchor to install (R419): the slot it goes to, and whether its role is OPERATOR. -/
structure AnchorReq where
  slot : BitVec 2
  operator : Bool
  deriving DecidableEq, Repr

/-- A debug-unlock token (R421). -/
structure UnlockToken where
  pid : BitVec 48
  nonce : Word
  sig : Signature
  deriving DecidableEq, Repr

/-- A signed fuse image (R421): the bits and entries it burns. -/
structure FuseImage where
  pid : BitVec 48
  sig : Signature
  revoke : BitVec 4
  spSvn : Word
  riderSvn : Word
  entries : List Word
  deriving DecidableEq, Repr

/-- A JTAG instruction (R485). -/
inductive JtagOp where
  | bypass | idcode | samplePreload | extest | other (code : Nat)
  deriving DecidableEq, Repr


/-- A 1 µs sample (R374): each feed's voltage in mV and current in 0.1 A; the rail power in mW of the 16 slates, the 16 cisterns, the
sluice dies, the optical engines and the rider die; the PWC's estimate of compensation on each slate in mW; whether the compensation is
all that the silicon can burn (R390, R391). -/
structure PowerReading where
  mvA : Nat
  daA : Nat
  mvB : Nat
  daB : Nat
  slates : List Nat
  cisterns : List Nat
  sluices : List Nat
  optics : List Nat
  rider : Nat
  comp : List Nat
  compMax : Bool
  deriving DecidableEq, Repr

/-- What a control interval counted (R381): for each slate its slate clocks by phase tag. -/
structure IntervalReading where
  counts : List (List (Nat × Nat))
  deriving DecidableEq, Repr

/-- A reading of the temperature sensors in °C (R395): the 8 of each slate, the 2 of each cistern, each sluice die, each optical engine,
the rider die, the coolant inlet and outlet. -/
structure ThermalReading where
  slates : List (List Nat)
  cisterns : List (List Nat)
  sluices : List Nat
  optics : List Nat
  rider : Nat
  inlet : Nat
  outlet : Nat
  deriving DecidableEq, Repr

/-- The commands: every operation and event of the table, under its own name. -/
inductive Instr where
  /-- REGISTER_WRITE (R5). -/
  | registerWrite (who : Ident) (off : BitVec 32) (val : Word)
  /-- TOP_MSIZE_WRITE (R10). -/
  | topMsizeWrite (who : Ident) (val : Word)
  /-- GAUGE_SET (R32). -/
  | gaugeSet (who : Ident) (val : Word)
  /-- GAUGE_LOCK (R38). -/
  | gaugeLock (who : Ident) (val : Word)
  /-- TIME_EXCHANGE_TICK (R34). -/
  | timeExchangeTick (link : Link)
  /-- TIME_REQ (R34). -/
  | timeReq (link : Link) (m : TimeMsg)
  /-- TIME_RSP (R35). -/
  | timeRsp (link : Link) (m : TimeMsg) (t4 : Word)
  /-- HOLDOVER_EXPIRY (R37). -/
  | holdoverExpiry
  /-- GAUGE_REACQUIRE (R38). -/
  | gaugeReacquire (step : Option Word)
  /-- GAUGE_WRAP (R50). -/
  | gaugeWrap
  /-- COURSE_BOUNDARY (R39). -/
  | courseBoundary
  /-- COURSE_CHANGE_ARM (R45). -/
  | courseChangeArm (who : Ident) (val : Word)
  /-- COURSE_CHANGE_CANCEL (R46). -/
  | courseChangeCancel (who : Ident) (val : Word)
  /-- COURSE_LENGTH_SWITCH (R45). -/
  | courseLengthSwitch
  /-- OLD_EPOCH_EXPIRY (R45). -/
  | oldEpochExpiry
  /-- LAG_FIFO_POP (R49). -/
  | lagFifoPop (who : Ident)
  /-- ALU (R93). -/
  | alu (core : CoreId) (rd rs1 rs2 : BitVec 5) (func : BitVec 11)
  /-- ADDI (R92). -/
  | addi (core : CoreId) (rd rs1 : BitVec 5) (imm : BitVec 16)
  /-- ANDI (R92). -/
  | andi (core : CoreId) (rd rs1 : BitVec 5) (imm : BitVec 16)
  /-- ORI (R92). -/
  | ori (core : CoreId) (rd rs1 : BitVec 5) (imm : BitVec 16)
  /-- XORI (R92). -/
  | xori (core : CoreId) (rd rs1 : BitVec 5) (imm : BitVec 16)
  /-- SHIFTI (R92). -/
  | shifti (core : CoreId) (rd rs1 rs2 : BitVec 5) (func : BitVec 11)
  /-- SLTI (R92). -/
  | slti (core : CoreId) (rd rs1 : BitVec 5) (imm : BitVec 16)
  /-- LUI (R92). -/
  | lui (core : CoreId) (rd rs1 : BitVec 5) (imm : BitVec 16)
  /-- SHIN (R92). -/
  | shin (core : CoreId) (rd rs1 : BitVec 5) (imm : BitVec 16)
  /-- CMP (R92). -/
  | cmp (core : CoreId) (rd rs1 rs2 : BitVec 5) (func : BitVec 11)
  /-- CMPI (R92). -/
  | cmpi (core : CoreId) (rd rs1 : BitVec 5) (imm : BitVec 16)
  /-- PLOG (R92). -/
  | plog (core : CoreId) (rd rs1 rs2 : BitVec 5) (func : BitVec 11)
  /-- LD_D (R95). -/
  | ldD (core : CoreId) (rd rs1 : BitVec 5) (imm : BitVec 16)
  /-- LD_W (R95). -/
  | ldW (core : CoreId) (rd rs1 : BitVec 5) (imm : BitVec 16)
  /-- LD_WU (R95). -/
  | ldWu (core : CoreId) (rd rs1 : BitVec 5) (imm : BitVec 16)
  /-- LD_H (R95). -/
  | ldH (core : CoreId) (rd rs1 : BitVec 5) (imm : BitVec 16)
  /-- LD_HU (R95). -/
  | ldHu (core : CoreId) (rd rs1 : BitVec 5) (imm : BitVec 16)
  /-- LD_B (R95). -/
  | ldB (core : CoreId) (rd rs1 : BitVec 5) (imm : BitVec 16)
  /-- LD_BU (R95). -/
  | ldBu (core : CoreId) (rd rs1 : BitVec 5) (imm : BitVec 16)
  /-- ST_D (R180). -/
  | stD (core : CoreId) (rd rs1 : BitVec 5) (imm : BitVec 16)
  /-- ST_W (R180). -/
  | stW (core : CoreId) (rd rs1 : BitVec 5) (imm : BitVec 16)
  /-- ST_H (R180). -/
  | stH (core : CoreId) (rd rs1 : BitVec 5) (imm : BitVec 16)
  /-- ST_B (R180). -/
  | stB (core : CoreId) (rd rs1 : BitVec 5) (imm : BitVec 16)
  /-- LDV_D (R181). -/
  | ldvD (core : CoreId) (rd rs1 : BitVec 5) (imm : BitVec 16)
  /-- LDV_W (R181). -/
  | ldvW (core : CoreId) (rd rs1 : BitVec 5) (imm : BitVec 16)
  /-- AMO (R96). -/
  | amo (core : CoreId) (rd rs1 rs2 : BitVec 5) (func : BitVec 11)
  /-- LOAD_RETURN (R105). -/
  | loadReturn (core : CoreId) (idx : Nat)
  /-- STORE_REACH_HOME (R180). -/
  | storeReachHome (core : CoreId)
  /-- HELD_SET_APPLY (R184). -/
  | heldSetApply (core : CoreId)
  /-- FENCE (R188). -/
  | fence (core : CoreId) (rd rs1 rs2 : BitVec 5) (func : BitVec 11)
  /-- JAL (R92). -/
  | jal (core : CoreId) (rd : BitVec 5) (imm : BitVec 21)
  /-- JALR (R92). -/
  | jalr (core : CoreId) (rd rs1 : BitVec 5) (imm : BitVec 16)
  /-- BEQ (R92). -/
  | beq (core : CoreId) (ra rb : BitVec 5) (off : BitVec 16)
  /-- BNE (R92). -/
  | bne (core : CoreId) (ra rb : BitVec 5) (off : BitVec 16)
  /-- BLT (R92). -/
  | blt (core : CoreId) (ra rb : BitVec 5) (off : BitVec 16)
  /-- BGE (R92). -/
  | bge (core : CoreId) (ra rb : BitVec 5) (off : BitVec 16)
  /-- BLTU (R92). -/
  | bltu (core : CoreId) (ra rb : BitVec 5) (off : BitVec 16)
  /-- BGEU (R92). -/
  | bgeu (core : CoreId) (ra rb : BitVec 5) (off : BitVec 16)
  /-- BP (R92). -/
  | bp (core : CoreId) (ra rb : BitVec 5) (off : BitVec 16)
  /-- CWR (R89). -/
  | cwr (core : CoreId) (rd rs1 rs2 : BitVec 5) (func : BitVec 11)
  /-- CWW (R89). -/
  | cww (core : CoreId) (rd rs1 rs2 : BitVec 5) (func : BitVec 11)
  /-- EWAIT (R106). -/
  | ewait (core : CoreId) (rd rs1 : BitVec 5) (imm : BitVec 16)
  /-- ESET (R184). -/
  | eset (core : CoreId) (rd rs1 : BitVec 5) (imm : BitVec 16)
  /-- ECLR (R184). -/
  | eclr (core : CoreId) (rd rs1 : BitVec 5) (imm : BitVec 16)
  /-- ETST (R92). -/
  | etst (core : CoreId) (rd rs1 : BitVec 5) (imm : BitVec 16)
  /-- BTN_RD (R208). -/
  | btnRd (core : CoreId) (rd rs1 rs2 : BitVec 5)
  /-- BTN_ADD (R208). -/
  | btnAdd (core : CoreId) (rd rs1 rs2 : BitVec 5)
  /-- BTN_SET (R208). -/
  | btnSet (core : CoreId) (rd rs1 rs2 : BitVec 5)
  /-- BTN_WAIT (R208). -/
  | btnWait (core : CoreId) (rd rs1 rs2 : BitVec 5)
  /-- BTN_TEST (R208). -/
  | btnTest (core : CoreId) (rd rs1 rs2 : BitVec 5)
  /-- SYS_NOP (R92). -/
  | sysNop (core : CoreId)
  /-- SYS_DONE (R114). -/
  | sysDone (core : CoreId) (rs1 : BitVec 5)
  /-- SYS_TRAP (R110). -/
  | sysTrap (core : CoreId) (rs1 : BitVec 5)
  /-- SYS_IINV (R109). -/
  | sysIinv (core : CoreId)
  /-- SEL (R92). -/
  | sel (core : CoreId) (rd rs1 rs2 : BitVec 5) (func : BitVec 11)
  /-- LIMM (R100). -/
  | limm (core : CoreId) (pred : BitVec 3) (rd : BitVec 5) (mbz : BitVec 2) (imm : BitVec 48)
  /-- MX (R98). -/
  | mx (core : CoreId) (w : Word)
  /-- VX (R98). -/
  | vx (core : CoreId) (w : Word)
  /-- DMA_SUBMIT (R99). -/
  | dmaSubmit (core : CoreId) (w : Word)
  /-- ICACHE_FILL (R108). -/
  | icacheFill (core : CoreId) (line : BitVec 15)
  /-- CORE_FAULT (R111). -/
  | coreFault (core : CoreId) (cause : FaultCause) (engine : Engine) (later : Nat)
  /-- ENGINE_POST (R103). -/
  | enginePost (core : CoreId) (engine : Engine)
  /-- MX_ZERO (R122). -/
  | mxZero (core : CoreId)
  /-- MX_MAC (R124). -/
  | mxMac (core : CoreId)
  /-- MX_OUT (R126). -/
  | mxOut (core : CoreId)
  /-- MX_STORE (R127). -/
  | mxStore (core : CoreId)
  /-- MX_ADDW (R128). -/
  | mxAddw (core : CoreId)
  /-- MX_BIAS (R129). -/
  | mxBias (core : CoreId)
  /-- MX_FLAGS (R130). -/
  | mxFlags (core : CoreId)
  /-- VADD (R139). -/
  | vadd (core : CoreId)
  /-- VSUB (R139). -/
  | vsub (core : CoreId)
  /-- VMUL (R139). -/
  | vmul (core : CoreId)
  /-- VFMA (R139). -/
  | vfma (core : CoreId)
  /-- VMIN (R139). -/
  | vmin (core : CoreId)
  /-- VMAX (R139). -/
  | vmax (core : CoreId)
  /-- VABS (R139). -/
  | vabs (core : CoreId)
  /-- VNEG (R139). -/
  | vneg (core : CoreId)
  /-- VAND (R139). -/
  | vand (core : CoreId)
  /-- VOR (R139). -/
  | vor (core : CoreId)
  /-- VXOR (R139). -/
  | vxor (core : CoreId)
  /-- VSHL (R139). -/
  | vshl (core : CoreId)
  /-- VSHR (R139). -/
  | vshr (core : CoreId)
  /-- VSEL (R139). -/
  | vsel (core : CoreId)
  /-- VMOV (R139). -/
  | vmov (core : CoreId)
  /-- VIDX (R139). -/
  | vidx (core : CoreId)
  /-- VCMP (R139). -/
  | vcmp (core : CoreId)
  /-- VMAND (R139). -/
  | vmand (core : CoreId)
  /-- VRCP (R141). -/
  | vrcp (core : CoreId)
  /-- VRSQRT (R141). -/
  | vrsqrt (core : CoreId)
  /-- VSQRT (R141). -/
  | vsqrt (core : CoreId)
  /-- VDIV (R141). -/
  | vdiv (core : CoreId)
  /-- VEXP2 (R141). -/
  | vexp2 (core : CoreId)
  /-- VLOG2 (R141). -/
  | vlog2 (core : CoreId)
  /-- VEXP (R141). -/
  | vexp (core : CoreId)
  /-- VTANH (R141). -/
  | vtanh (core : CoreId)
  /-- VSIG (R141). -/
  | vsig (core : CoreId)
  /-- VSINPI (R141). -/
  | vsinpi (core : CoreId)
  /-- VCOSPI (R141). -/
  | vcospi (core : CoreId)
  /-- VFTOI (R139). -/
  | vftoi (core : CoreId)
  /-- VITOF (R139). -/
  | vitof (core : CoreId)
  /-- VRSUM (R142). -/
  | vrsum (core : CoreId)
  /-- VRMAX (R142). -/
  | vrmax (core : CoreId)
  /-- VRMIN (R142). -/
  | vrmin (core : CoreId)
  /-- VRAMAX (R142). -/
  | vramax (core : CoreId)
  /-- VLD (R143). -/
  | vld (core : CoreId)
  /-- VST (R143). -/
  | vst (core : CoreId)
  /-- VLDS (R143). -/
  | vlds (core : CoreId)
  /-- VSTS (R143). -/
  | vsts (core : CoreId)
  /-- VGATHER (R143). -/
  | vgather (core : CoreId)
  /-- VSCATTER (R143). -/
  | vscatter (core : CoreId)
  /-- VLDM (R138). -/
  | vldm (core : CoreId)
  /-- VSTM (R138). -/
  | vstm (core : CoreId)
  /-- VCVT_IN (R145). -/
  | vcvtIn (core : CoreId)
  /-- VCVT_OUT (R145). -/
  | vcvtOut (core : CoreId)
  /-- VCVT_MXIN (R146). -/
  | vcvtMxin (core : CoreId)
  /-- VCVT_MXOUT (R146). -/
  | vcvtMxout (core : CoreId)
  /-- VSTREAM (R147). -/
  | vstream (core : CoreId)
  /-- DMA_COPY (R167). -/
  | dmaCopy (core : CoreId)
  /-- DMA_FILL (R167). -/
  | dmaFill (core : CoreId)
  /-- DMA_ACCUM (R160). -/
  | dmaAccum (core : CoreId)
  /-- TIER_ACCUM_APPLY (R162). -/
  | tierAccumApply (idx : Nat)
  /-- DMA_PUT (R281). -/
  | dmaPut (core : CoreId)
  /-- DMA_GET (R285). -/
  | dmaGet (core : CoreId)
  /-- DMA_SIGNAL (R286). -/
  | dmaSignal (core : CoreId)
  /-- DMA_COMPLETE (R167). -/
  | dmaComplete (core : CoreId) (idx : Nat)
  /-- DMA_TIMEOUT (R170). -/
  | dmaTimeout (core : CoreId) (idx : Nat)
  /-- AWIN_WRITE (R163). -/
  | awinWrite (who : Ident) (slate : BitVec 4) (win : BitVec 3) (val : Word)
  /-- TOP_CIL_WRITE (R155). -/
  | topCilWrite (who : Ident) (val : Word)
  /-- PLACE (R173). -/
  | place (chan : BitVec 6)
  /-- BATTEN_WATCH_WAKE (R211). -/
  | battenWatchWake (idx : Nat)
  /-- WATCH_RETRY (R211). -/
  | watchRetry (idx : Nat)
  /-- BTN_HOST_ADD (R214). -/
  | btnHostAdd (who : Ident) (val : Word)
  /-- BTN_HOST_SET (R214). -/
  | btnHostSet (who : Ident) (val : Word)
  /-- QUEUE_ENABLE (R217). -/
  | queueEnable (who : Ident) (queue : BitVec 20) (val : Word)
  /-- QUEUE_DISABLE (R217). -/
  | queueDisable (who : Ident) (queue : BitVec 20) (val : Word)
  /-- QM_DOORBELL (R218). -/
  | qmDoorbell (who : Ident) (val : Word)
  /-- QM_FLUSH (R222). -/
  | qmFlush (who : Ident) (val : Word)
  /-- QM_CANCEL (R224). -/
  | qmCancel (who : Ident) (val : Word)
  /-- OWED_COMPLETION_WRITE (R222). -/
  | owedCompletionWrite
  /-- SHADOW_WRITE (R220). -/
  | shadowWrite (queue : BitVec 20)
  /-- WORK_ITEM_READ (R228). -/
  | workItemRead (queue : BitVec 20)
  /-- TASK_GRANT (R231). -/
  | taskGrant (slate : BitVec 4)
  /-- TASK_FINISH (R233). -/
  | taskFinish (core : CoreId)
  /-- TASK_TIMEOUT (R232). -/
  | taskTimeout (core : CoreId)
  /-- FLIT_RECEIVE (R241): codewords that have arrived on the strand's lanes since the last flit, none as often as not, and then the next flit
of the stream (R238). -/
  | flitReceive (die : Die) (link : Link) (codes : List Codeword)
  /-- REPLAY_TIMEOUT (R242). -/
  | replayTimeout (die : Die) (link : Link)
  /-- CREDIT_SEND (R246). -/
  | creditSend (die : Die) (link : Link)
  /-- CREDIT (R246). -/
  | credit (die : Die) (link : Link) (freed : List Nat)
  /-- INIT (R250). -/
  | init (die : Die) (link : Link) (expSeq : BitVec 12) (freed : List Nat)
  /-- IDENT (R251). -/
  | ident (die : Die) (link : Link) (m : IdentMsg)
  /-- SWAP (R256). -/
  | swap (die : Die) (link : Link) (pos : BitVec 2)
  /-- STRAND_TRAINING_STAGE_DONE (R248). -/
  | strandTrainingStageDone (die : Die) (link : Link) (found : StageReading)
  /-- TRAINING_STAGE_TIMEOUT (R249). -/
  | trainingStageTimeout (die : Die) (link : Link)
  /-- LSTATE_SEND (R271). -/
  | lstateSend (link : Link)
  /-- LSTATE (R271). -/
  | lstate (die : Die) (link : Link) (pkt : Packet)
  /-- TRAINING_PATTERN_DETECT (R249). -/
  | trainingPatternDetect (die : Die) (link : Link)
  /-- STRAND_EN (R259). -/
  | strandEn (who : Ident) (die : Die) (link : Link) (val : Word)
  /-- STRAND_RETRAIN (R249). -/
  | strandRetrain (who : Ident) (die : Die) (link : Link) (val : Word)
  /-- STRAND_LOOP (R259). -/
  | strandLoop (who : Ident) (die : Die) (link : Link) (val : Word)
  /-- SLU_OPT_EXP_WRITE (R252). -/
  | sluOptExpWrite (who : Ident) (die : Die) (link : Link) (val : Word)
  /-- LANE_FAIL (R255). -/
  | laneFail (die : Die) (link : Link) (pos : BitVec 2)
  /-- LOOPBACK_TEST_DONE (R255). -/
  | loopbackTestDone (die : Die) (link : Link) (pos : BitVec 2) (passed : Bool)
  /-- SWAP_COMPLETE (R256). -/
  | swapComplete (die : Die) (link : Link)
  /-- ROUTE_SET_VALIDATE (R265). -/
  | routeSetValidate (who : Ident) (rset : BitVec 4) (val : Word)
  /-- ROUTE_SET_INVALIDATE (R266). -/
  | routeSetInvalidate (who : Ident) (rset : BitVec 4) (val : Word)
  /-- SCHED_ENTRY_VALIDATE (R280). -/
  | schedEntryValidate (who : Ident) (n : BitVec 12) (val : Word)
  /-- BANK_SWAP_ARM (R279). -/
  | bankSwapArm (who : Ident) (val : Word)
  /-- BANK_SWAP_CANCEL (R279). -/
  | bankSwapCancel (who : Ident) (val : Word)
  /-- BANK_SWAP (R279). -/
  | bankSwap
  /-- PACKET_FORWARD (R270). -/
  | packetForward (die : Die) (link : Link) (pkt : Packet)
  /-- PUT_PACKET (R282). -/
  | putPacket (die : Die) (link : Link) (pkt : Packet)
  /-- HELD_WRITE_LAND (R284). -/
  | heldWriteLand (idx : Nat)
  /-- FINAL_HOLD_EXPIRY (R199). -/
  | finalHoldExpiry (idx : Nat)
  /-- GET_PACKET (R285). -/
  | getPacket (die : Die) (link : Link) (pkt : Packet)
  /-- GET_RSP (R285). -/
  | getRsp (die : Die) (link : Link) (pkt : Packet)
  /-- SIGNAL_PACKET (R286). -/
  | signalPacket (die : Die) (link : Link) (pkt : Packet)
  /-- ACK (R282). -/
  | ack (die : Die) (link : Link) (pkt : Packet)
  /-- GROUP_VALIDATE (R297). -/
  | groupValidate (who : Ident) (group : BitVec 10) (val : Word)
  /-- TRIGGER_ARM (R299). -/
  | triggerArm (who : Ident) (slot : BitVec 12) (val : Word)
  /-- TRIGGER_DISARM (R304). -/
  | triggerDisarm (who : Ident) (slot : BitVec 12) (val : Word)
  /-- JUNCTION_RESERVE (R316). -/
  | junctionReserve (slot : BitVec 12)
  /-- CCTL_GRANT (R300). -/
  | cctlGrant (die : Die) (link : Link) (pkt : Packet)
  /-- CCTL_READY (R300). -/
  | cctlReady (die : Die) (link : Link) (pkt : Packet)
  /-- TRIGGER_LAUNCH (R301). -/
  | triggerLaunch (launch : Launch)
  /-- CBCAST (R309). -/
  | cbcast (die : Die) (link : Link) (pkt : Packet)
  /-- CREDUCE (R314), with what goes wrong in the junction. -/
  | creduce (die : Die) (link : Link) (pkt : Packet) (faults : List JunctionFault)
  /-- CCTL_YACK (R316). -/
  | cctlYack (die : Die) (link : Link) (pkt : Packet)
  /-- CCTL_DONE (R302). -/
  | cctlDone (die : Die) (link : Link) (pkt : Packet)
  /-- CNAK (R319). -/
  | cnak (die : Die) (link : Link) (pkt : Packet)
  /-- TRIGGER_COMPLETE (R302). -/
  | triggerComplete (slot : BitVec 12)
  /-- COLLECTIVE_TIMEOUT (R320). -/
  | collectiveTimeout (slot : BitVec 12)
  /-- APERTURE_READ (R330). -/
  | apertureRead (fn : Ident) (off : BitVec 42) (len : BitVec 13)
  /-- APERTURE_WRITE (R331). -/
  | apertureWrite (fn : Ident) (off : BitVec 42) (data : List Byte) (ep : Bool)
  /-- APERTURE_BASE_WRITE (R329). -/
  | apertureBaseWrite (who fn : Ident) (val : Word)
  /-- PARTITION_OWNER_WRITE (R325). -/
  | partitionOwnerWrite (who : Ident) (part : BitVec 4) (val : Word)
  /-- COPY_SUBMIT (R333). -/
  | copySubmit (fn : Ident) (data : List Byte)
  /-- COPY_START (R335). -/
  | copyStart (fn : Ident) (tlps : List (List Byte × Bool)) (busError : Bool)
  /-- COPY_COMPLETE (R334). -/
  | copyComplete (fn : Ident)
  /-- FUNCTION_LEVEL_RESET (R333). -/
  | functionLevelReset (fn : Ident)
  /-- PORT_RESET (R323). -/
  | portReset (port : Bool)
  /-- VF_REMOVE (R327). -/
  | vfRemove (fn : Ident)
  /-- MSIX_INTERVAL_END (R337). -/
  | msixIntervalEnd (fn : Ident) (vec : BitVec 11)
  /-- MAILBOX_BIND (R339). -/
  | mailboxBind (who : Ident) (chan : BitVec 6) (val : Word)
  /-- MBX_SEND (R340). -/
  | mbxSend (who : Ident) (chan : BitVec 6)
  /-- MBX_POP (R340). -/
  | mbxPop (who : Ident) (chan : BitVec 6)
  /-- MBX_RESET (R340). -/
  | mbxReset (who : Ident) (chan : BitVec 6)
  /-- MBX_TAKE (R341). -/
  | mbxTake (who : Ident) (chan : BitVec 6) (token : BitVec 16)
  /-- MBX_GIVE (R341). -/
  | mbxGive (who : Ident) (chan : BitVec 6) (token : BitVec 16)
  /-- MAILBOX_TIMEOUT (R342). -/
  | mailboxTimeout (chan : BitVec 6)
  /-- MAILBOX_BAD_OPCODE (R343). -/
  | mailboxBadOpcode (chan : BitVec 6)
  /-- ECHO (R343). -/
  | echo (chan : BitVec 6)
  /-- INFO (R343). -/
  | info (chan : BitVec 6)
  /-- DIE_ERASE_WRITE (R350). -/
  | dieEraseWrite (who : Ident) (cis : BitVec 4) (val : Word)
  /-- DIE_MARK (R351). -/
  | dieMark (cis : BitVec 4) (die : BitVec 5)
  /-- MERGE_WRITEBACK (R352). -/
  | mergeWriteback (cis : BitVec 4) (chan : BitVec 5) (idx : Nat)
  /-- ROW_REPAIR (R355). -/
  | rowRepair (tier : BitVec 5) (bank : BitVec 8) (row : BitVec 13)
  /-- SCRUB_READ (R356). -/
  | scrubRead (unit : ScrubUnit) (obs : Observed)
  /-- CISTERN_FAIL (R360). -/
  | cisternFail (cis : BitVec 4)
  /-- RECORD_FLASH_COPY (R364). -/
  | recordFlashCopy (seq : BitVec 32)
  /-- LOG_SELECT (R364). -/
  | logSelect (who : Ident) (val : Word)
  /-- RAW_READ (R365). -/
  | rawRead (who : Ident) (val : Word)
  /-- RAW_WRITE (R365). -/
  | rawWrite (who : Ident) (val : Word)
  /-- PATTERN_TEST (R366). -/
  | patternTest (findings : List Finding)
  /-- PILOT_FRAME (R369). -/
  | pilotFrame (feedB : Bool) (b0 b1 b2 b3 : Byte)
  /-- PILOT_LOST (R369). -/
  | pilotLost (feedB : Bool)
  /-- FEED_OUT_OF_SPEC (R368). -/
  | feedOutOfSpec (feedB : Bool)
  /-- FEED_IN_SPEC (R368). -/
  | feedInSpec (feedB : Bool)
  /-- HOLD_END (R371). -/
  | holdEnd
  /-- FEED_RETURN (R372). -/
  | feedReturn
  /-- POWER_LOSS_STOP (R373). -/
  | powerLossStop
  /-- BUS_HOLDUP_EXHAUSTED (R373). -/
  | busHoldupExhausted
  /-- POWER_SAMPLE (R374). -/
  | powerSample (m : PowerReading)
  /-- FAST_LIMITER_RELEASE (R376). -/
  | fastLimiterRelease
  /-- CONTROL_INTERVAL (R385). -/
  | controlInterval (m : IntervalReading)
  /-- CAP_WRITE (R378). -/
  | capWrite (who : Ident) (val : Word)
  /-- CAP_ARM (R378). -/
  | capArm (who : Ident) (val : Word)
  /-- CAP_CANCEL (R378). -/
  | capCancel (who : Ident) (val : Word)
  /-- CAP_APPLY (R378). -/
  | capApply
  /-- ENERGY_VIEW_UPDATE (R393). -/
  | energyViewUpdate
  /-- DEMAND_SNAPSHOT (R394). -/
  | demandSnapshot
  /-- SNAP (R394). -/
  | snap (who : Ident) (val : Word)
  /-- THERMAL_SAMPLE (R395). -/
  | thermalSample (m : ThermalReading)
  /-- ENERGY (R398). -/
  | energy (chan : BitVec 6)
  /-- SNAPSHOT (R398). -/
  | snapshot (chan : BitVec 6)
  /-- POWER (R398). -/
  | power (chan : BitVec 6)
  /-- CAPS (R398). -/
  | caps (chan : BitVec 6)
  /-- GET_VERSION (R405). -/
  | getVersion (t : Transport)
  /-- GET_CAPABILITIES (R405). -/
  | getCapabilities (t : Transport)
  /-- NEGOTIATE_ALGORITHMS (R405). -/
  | negotiateAlgorithms (t : Transport) (supported : Bool)
  /-- GET_DIGESTS (R405). -/
  | getDigests (t : Transport)
  /-- GET_CERTIFICATE (R404). -/
  | getCertificate (t : Transport) (slot : BitVec 8) (offset length : BitVec 16)
  /-- CHALLENGE (R404). -/
  | challenge (t : Transport) (slot : BitVec 8) (nonce : BitVec 256)
  /-- GET_MEASUREMENTS (R403). -/
  | getMeasurements (t : Transport) (index : BitVec 8) (nonce : BitVec 256)
  /-- KEY_EXCHANGE (R405). -/
  | keyExchange (t : Transport) (random : BitVec 256) (exchange : List Byte)
  /-- FINISH (R405). -/
  | finish (t : Transport) (session : BitVec 8) (chain : Option Nat) (verified : Bool)
  /-- HEARTBEAT (R405). -/
  | heartbeat (t : Transport) (session : BitVec 8)
  /-- KEY_UPDATE (R405). -/
  | keyUpdate (t : Transport) (session : BitVec 8)
  /-- END_SESSION (R405). -/
  | endSession (t : Transport) (session : BitVec 8)
  /-- KEY_DELIVER (R406). -/
  | keyDeliver (t : Transport) (session : Option (BitVec 8)) (body : List Byte)
  /-- BIND (R411). -/
  | bind (chan : BitVec 6)
  /-- UNBIND (R413). -/
  | unbind (chan : BitVec 6)
  /-- UNBIND_CLEAR_DONE (R413). -/
  | unbindClearDone (part : BitVec 4)
  /-- BIND_STATUS (R425). -/
  | bindStatus (chan : BitVec 6)
  /-- KEY_STATUS (R425). -/
  | keyStatus (chan : BitVec 6)
  /-- KEY_ADVANCE (R408). -/
  | keyAdvance (chan : BitVec 6)
  /-- KEY_DROP (R409). -/
  | keyDrop (chan : BitVec 6)
  /-- KEY_SLOT_AUTO_DESTROY (R409). -/
  | keySlotAutoDestroy (slot : BitVec 12)
  /-- UNSEAL (R415). -/
  | unsealBlob (chan : BitVec 6)
  /-- UNSEAL_COMPLETE (R415). -/
  | unsealComplete (part : BitVec 4)
  /-- LOCK_INTERFACE_REQUEST (R416). -/
  | lockInterfaceRequest (vf : BitVec 10) (session : Option (BitVec 8)) (stream : Option (BitVec 8))
  /-- GET_DEVICE_INTERFACE_REPORT (R416). -/
  | getDeviceInterfaceReport (vf : BitVec 10) (session : Option (BitVec 8))
  /-- STOP_INTERFACE_REQUEST (R417). -/
  | stopInterfaceRequest (vf : BitVec 10) (session : Option (BitVec 8))
  /-- TDI_TLP_VIOLATION (R417). -/
  | tdiTlpViolation (vf : BitVec 10)
  /-- IDE_KM (R418). -/
  | ideKm (port : Bool) (session : Option (BitVec 8)) (stream : BitVec 8) (key : BitVec 256)
  /-- FABRIC_KEY_INSTALL (R410). -/
  | fabricKeyInstall (session : BitVec 2) (gen : Bool) (key : BitVec 256)
  /-- MGMT_SESSION_OPEN (R419). -/
  | mgmtSessionOpen (anchor : Option (BitVec 2)) (newAnchor : Option AnchorReq)
  /-- MGMT_FRAME (R474). -/
  | mgmtFrame (session : BitVec 2) (frame : List Byte)
  /-- DEBUG_UNLOCK (R422). -/
  | debugUnlock (token : UnlockToken)
  /-- FUSE_PROGRAMMING (R421). -/
  | fuseProgramming (image : FuseImage)
  /-- FORCED_RECOVERY_BOOT (R421). -/
  | forcedRecoveryBoot (session : BitVec 2)
  /-- CREDENTIAL_RESET (R421). -/
  | credentialReset
  /-- PRESENCE_DEASSERT (R421). -/
  | presenceDeassert
  /-- BUS_POWER_UP (R428). -/
  | busPowerUp (feedB : Bool) (straps : BitVec 6) (presence : Bool)
  /-- RIDER_RELEASE (R428). -/
  | riderRelease
  /-- CONSISTENCY_CHECK (R434). -/
  | consistencyCheck
  /-- CONSISTENCY_TIMEOUT (R434). -/
  | consistencyTimeout
  /-- SLATE_WAVE (R430). -/
  | slateWave (found : WaveReading)
  /-- CORE_BOOT_REPORT (R431). -/
  | coreBootReport (slate : BitVec 4) (site : BitVec 8) (pass : Bool)
  /-- TOPOLOGY_CHECK (R435). -/
  | topologyCheck
  /-- PART_RESET (R440). -/
  | partReset (chan : BitVec 6)
  /-- PART_RESET_COMPLETE (R440). -/
  | partResetComplete (part : BitVec 4)
  /-- COMPUTE_RESET (R441). -/
  | computeReset (chan : BitVec 6)
  /-- COMPUTE_RESET_COMPLETE (R441). -/
  | computeResetComplete
  /-- ABORT (R445). -/
  | abort (chan : BitVec 6)
  /-- ABORT_PACKET (R447). -/
  | abortPacket (die : Die) (link : Link) (pkt : Packet)
  /-- ABORT_FENCE_END (R447). -/
  | abortFenceEnd (job : BitVec 16)
  /-- ABORT_WINDOW_END (R447). -/
  | abortWindowEnd (job : BitVec 16)
  /-- ABORT_QUIESCE_TIMEOUT (R450). -/
  | abortQuiesceTimeout (part : BitVec 4)
  /-- PART_RESET_TIMEOUT (R450). -/
  | partResetTimeout (part : BitVec 4)
  /-- COMPUTE_RESET_TIMEOUT (R450). -/
  | computeResetTimeout
  /-- RESET_STATUS (R454). -/
  | resetStatus (chan : BitVec 6)
  /-- RESTORE (R453). -/
  | restore (chan : BitVec 6)
  /-- TOPO_RECHECK (R454). -/
  | topoRecheck (chan : BitVec 6)
  /-- FMAP_READ (R454). -/
  | fmapRead (chan : BitVec 6)
  /-- RIDER_LOAD_WINDOW (R457). -/
  | riderLoadWindow (load : BitVec 8)
  /-- WATCHDOG_KICK (R458). -/
  | watchdogKick (who : Ident)
  /-- RIDER_WATCHDOG_EXPIRY (R458). -/
  | riderWatchdogExpiry
  /-- FLASH_ERASE_DONE (R460). -/
  | flashEraseDone (sector : BitVec 13)
  /-- UPD_BEGIN (R464). -/
  | updBegin (chan : BitVec 6)
  /-- UPD_BLOCK (R465). -/
  | updBlock (chan : BitVec 6)
  /-- STAGING_PROGRAM (R465). -/
  | stagingProgram
  /-- UPD_VERIFY (R466). -/
  | updVerify (chan : BitVec 6)
  /-- UPD_VERIFY_DONE (R466). -/
  | updVerifyDone
  /-- UPD_ACTIVATE (R467). -/
  | updActivate (chan : BitVec 6)
  /-- UPD_STATUS (R477). -/
  | updStatus (chan : BitVec 6)
  /-- UPD_CANCEL (R477). -/
  | updCancel (chan : BitVec 6)
  /-- CONFIRM (R470). -/
  | confirm (chan : BitVec 6)
  /-- TRIAL_CONFIRM_TIMER (R470). -/
  | trialConfirmTimer
  /-- SET_READ (R477). -/
  | setRead (chan : BitVec 6)
  /-- SET_RESET (R477). -/
  | setReset (chan : BitVec 6)
  /-- SETTINGS_SAVE (R472). -/
  | settingsSave
  /-- DUMP_LIST (R477). -/
  | dumpList (chan : BitVec 6)
  /-- DUMP_READ (R477). -/
  | dumpRead (chan : BitVec 6)
  /-- UPDATE_COMPONENT (R475). -/
  | updateComponent (session : BitVec 2) (header : List Byte)
  /-- REQUEST_FIRMWARE_DATA (R475). -/
  | requestFirmwareData (session : BitVec 2) (offset : BitVec 32) (data : List Byte)
  /-- TRANSFER_COMPLETE (R475). -/
  | transferComplete (session : BitVec 2)
  /-- ACTIVATE_FIRMWARE (R475). -/
  | activateFirmware (session : BitVec 2) (selfContained : Bool)
  /-- TELEMETRY_FRAME (R476). -/
  | telemetryFrame
  /-- I3C_ENTDAA (R473). -/
  | i3cEntdaa (addr : BitVec 7)
  /-- I3C_RSTDAA (R473). -/
  | i3cRstdaa
  /-- I3C_BOARD_W (R473). -/
  | i3cBoardW (watts : BitVec 16)
  /-- I3C_SNAPSHOT (R473). -/
  | i3cSnapshot
  /-- MOD_RST_ASSERT (R483). -/
  | modRstAssert (lowNs : BitVec 64)
  /-- SLOT_ID_CHANGE (R482). -/
  | slotIdChange (straps : BitVec 6)
  /-- JTAG_INSTRUCTION (R485). -/
  | jtagInstruction (op : JtagOp)
  /-- FLIT_BOUNDARY (R247). -/
  | flitBoundary (die : Die) (link : Link)
  /-- MOD_RST_RELEASE (R483). -/
  | modRstRelease
  /-- TDI_RUN_REQUEST (R416). -/
  | tdiRunRequest (vf : BitVec 10) (session : Option (BitVec 8))
  /-- TRIAL_READY_TIMEOUT (R470). -/
  | trialReadyTimeout
  deriving DecidableEq, Repr

end Sys2Proof
end

