-- ==== Sys2Proof/Decode.lean ====
section
/-!
DEFINITION. Decode.lean: commands read from words by the bits of the opcode table, which gives none to any row.
-/
namespace Sys2Proof

/-- No row of spec/opcode_table.json has bits: the commands reach the module as events and messages, not as encoded words. -/
def decodeTableWord (_nbits _w : Nat) : Option Instr := none

end Sys2Proof
end

