-- ==== Sys2Proof/Config.lean ====
section
/-!
DEFINITION. Config.lean: what one module has fixed in it (fuses, straps; the assumption log names each), and the free values: opaque
functions with no body, for what the spec leaves open.
-/
namespace Sys2Proof.Config

/-- A fresh open number, by the state's counter of free values: nothing constrains it. -/
opaque freeNat : Nat → Nat

/-- A fresh open 64-bit value, by the state's counter of free values. -/
opaque freeWord : Nat → Word

/-- The result of a transcendental vector command (by its FUNC) where the spec gives a bound and no value (R141). -/
opaque trans : Nat → BitVec 32 → BitVec 32

/-- The order of the columns of the Hsiao SEC-DED (137,128) code: the spec names the code and not its matrix (R354). -/
opaque hsiaoPick : Nat → Nat

/-- The bootstrap key, which every module derives from a public constant that the spec does not print (R410). -/
opaque bootstrapKey : BitVec 256

/-- A fused root key hash, 0 to 3 (R401). -/
opaque rootHash : Nat → BitVec 384

/-- A measurement of the words that its row names: the spec gives SHA-384 and not the layout of what is hashed (R403). -/
opaque measure : Nat → List Word → BitVec 384

/-- The signature of an SPDM response under the alias key, and the certificate chain of slot 0; the alias key follows from measurement
0x02 (R404). -/
opaque aliasSign : BitVec 384 → List Byte → List Byte
opaque certChain : BitVec 384 → List Byte

/-- What a signer's certificate chain says: its leaf key (Qx, Qy) and the SHA-384 hash of the root key it ends at, where it is a valid
chain. The spec does not give the form of certificates (R402, R461, R462). -/
opaque chainKey : List Byte → Option (BitVec 384 × BitVec 384 × BitVec 384)

/-- PID, variant (0 is Ridge P, R2) and stepping (R485's example) of this module: DESIGN CHOICE, log entry 5. -/
def pid : Nat := 0
def variant : Nat := 0
def step : Nat := 1
/-- The release of manufacture in slot A: its BUILD, the handover format that its rider writes and the settings format that it writes and
reads (R461): DESIGN CHOICE, log entry 5. -/
def riderVersion : Nat := 1
def handover : Nat := 1
def settingsFormat : Nat := 1
/-- The bytes of an image whose layout the spec does not give (a crash dump, the settings record), by the image's number, and the length
of each kind: 0 a dump, 1 the settings record (R442, R472, R477). -/
opaque imageByte : Nat → Nat → Byte
opaque imageSize : Nat → Nat

/-- The fused sustained limit of the variant in W (R24). -/
def fusedLimit : Nat := match variant with | 0 => 7000 | 1 => 5800 | _ => 4600
/-- The fused V–F points of a slate in MHz and mV: the typical ones the spec prints (R379): DESIGN CHOICE, log entry 5. -/
def vfFreq (i : Nat) : Nat := [400, 500, 550, 600, 650, 700, 750, 800, 850, 900, 950, 1000, 1050, 1100, 1175, 1250].getD i 0
def vfVolt (i : Nat) : Nat := [600, 620, 635, 650, 665, 680, 695, 710, 725, 740, 760, 780, 800, 820, 850, 880].getD i 0
/-- The top valid point of the variant: Ridge T has 14 valid points and Ridge E has 11. -/
def vfTop : Nat := match variant with | 0 => 15 | 1 => 13 | _ => 10
def vfValid (i : Nat) : Nat := if i ≤ vfTop then 1 else 0
/-- The fused default of a phase coefficient, which the spec does not print (R382): DESIGN CHOICE, log entry 5. -/
def phaseC : Nat := 0
/-- The fused leakage model of a slate: mW at a voltage in mV and a temperature in °C (R382). -/
opaque leak : Nat → Nat → Nat → Nat

end Sys2Proof.Config
end

