-- ==== Sys2Proof/Machine/Ecc.lean ====
section
/-!
DEFINITION. Machine/Ecc.lean: the codes of the stores as functions of bits: the die-kill code of a cistern granule (R346, R347, R349,
R358) and the SEC-DED code of a tier or scratch granule (R354).
-/
namespace Sys2Proof.Machine

/-! ## The field GF(2^16) (R347) -/

/-- Multiply by x modulo x^16 + x^12 + x^3 + x + 1. -/
def rsX (a : Nat) : Nat := if natBit a 15 then ((2 * a) % 65536) ^^^ 0x100B else (2 * a) % 65536

/-- The product, over the low `n` bits of `b`. -/
def rsMulN : Nat → Nat → Nat → Nat
  | 0, _, _ => 0
  | n + 1, a, b => (if natBit b 0 then a else 0) ^^^ rsMulN n (rsX a) (b / 2)

def rsMul (a b : Nat) : Nat := rsMulN 16 (a % 65536) b

/-- α to the j. -/
def rsAlpha : Nat → Nat
  | 0 => 1
  | j + 1 => rsX (rsAlpha j)

/-- The product of `a^2, a^4, …, a^(2^n)`: for n = 15 the inverse of `a`. -/
def rsInvN : Nat → Nat → Nat
  | 0, _ => 1
  | n + 1, a => rsMul (rsMul a a) (rsInvN n (rsMul a a))

def rsInv (a : Nat) : Nat := rsInvN 15 a
def rsDiv (a b : Nat) : Nat := rsMul a (rsInv b)

/-- S0 and S1 of a codeword (R347). -/
def synd0 (c : List Nat) : Nat := c.foldl (fun x v => x ^^^ v) 0
def synd1 (c : List Nat) : Nat := ((List.range c.length).zip c).foldl (fun x e => x ^^^ rsMul e.2 (rsAlpha e.1)) 0

/-- The check symbols 16 and 17 of 16 data symbols (R347). -/
def checkSyms (d : List Nat) : List Nat :=
  let d0 := synd0 d
  let c17 := rsDiv (synd1 d ^^^ rsMul d0 0x100B) 0x301D
  [d0 ^^^ c17, c17]

/-! ## A cistern granule as it is stored: 64 data bytes and 8 check bytes -/

/-- The symbol of data of two bytes, low byte first. -/
def symsOf : List Byte → List Nat
  | a :: b :: bs => (a.toNat + 256 * b.toNat) :: symsOf bs
  | _ => []

/-- The two codewords of a granule's bytes (R346). -/
def cisEncode (bs : List Byte) : List (List Nat) :=
  [(bs.take 32), (bs.drop 32)].map fun h => symsOf h ++ checkSyms (symsOf h)

/-- The codewords of a poisoned granule (R358). -/
def cisPoison (cw : List (List Nat)) : List (List Nat) :=
  cw.map fun c => modifyAt (fun v => v ^^^ 1) (modifyAt (fun v => v ^^^ 1) c 16) 17

/-- The nine raw words of two codewords (R365). -/
def cisWords (cw : List (List Nat)) : List Word :=
  let bs := cw.flatMap fun c => (c.take 16).flatMap fun v => leBytes 2 v
  let chk := cw.flatMap fun c => (c.drop 16).flatMap fun v => leBytes 2 v
  (upFrom 0 9).map fun i => BitVec.ofNat 64 (leNat (((bs ++ chk).drop (8 * i)).take 8))

/-- The bytes of a list of words. -/
def wordsToBytes (ws : List Word) : List Byte := ws.flatMap fun w => leBytes 8 w.toNat

/-- The two codewords of nine raw words. -/
def cisOfWords (ws : List Word) : List (List Nat) :=
  let bs := wordsToBytes ws
  [0, 1].map fun w => symsOf ((bs.drop (32 * w)).take 32) ++ symsOf ((bs.drop (64 + 4 * w)).take 4)

/-- XOR of symbols: (codeword, die, value). -/
def cisFlip (cw : List (List Nat)) (fs : List (Nat × Nat × Nat)) : List (List Nat) :=
  fs.foldl (fun cw f => modifyAt (fun c => modifyAt (fun v => (v ^^^ f.2.2) % 65536) c f.2.1) cw f.1) cw

/-- What a decode returned: for a correction the symbols corrected, as (codeword, die, value XORed in), and the dies it named. -/
inductive DecodeKind where
  | clean | poison | uncorrectable | corrected (syms : List (Nat × Nat × Nat)) (dies : List Nat)
  deriving DecidableEq, Repr

/-- The die that a codeword's nonzero syndromes name, where they name one (R349). -/
def namedDie (c : List Nat) : Option Nat :=
  if synd0 c = 0 || synd1 c = 0 then none else (upFrom 0 18).find? fun j => rsMul (synd0 c) (rsAlpha j) == synd1 c

/-- The decode of R349: the erased die or none, and the dies whose EDC mismatched. -/
def cisDecode (erased : Option Nat) (suspects : List Nat) (cw : List (List Nat)) : DecodeKind :=
  let at_ := (List.range cw.length).zip cw
  match erased with
  | none =>
    let hit := at_.filter fun w => !(synd0 w.2 == 0 && synd1 w.2 == 0)
    if hit.isEmpty then .clean
    else if cw.all fun c => synd0 c == 0 && synd1 c == 0x301D then .poison
    else match (hit.map fun w => namedDie w.2).eraseDups with
      | [some j] => .corrected (hit.map fun w => (w.1, j, synd0 w.2)) [j]
      | _ => .uncorrectable
  | some e =>
    let res := fun c => synd1 c ^^^ rsMul (synd0 c) (rsAlpha e)
    if cw.all fun c => res c == 0 then
      let fixed := (at_.filter fun w => synd0 w.2 != 0).map fun w => (w.1, e, synd0 w.2)
      if fixed.isEmpty then .clean else .corrected fixed [e]
    else if cw.all fun c => res c == 0x301D then .poison
    else match (suspects.filter fun f => f != e).eraseDups with
      | [f] =>
        let syms := at_.flatMap fun w =>
          let b := rsDiv (res w.2) (rsAlpha e ^^^ rsAlpha f)
          [(w.1, f, b), (w.1, e, synd0 w.2 ^^^ b)]
        .corrected (syms.filter fun x => x.2.2 != 0) [e, f]
      | _ => .uncorrectable

/-! ## A tier or scratch granule: four SEC-DED words of 128 + 9 bits (R354) -/

/-- The 9-bit columns with a number of ones. -/
def hsWeight (w : Nat) : List Nat := (upFrom 1 511).filter fun c => ((upFrom 0 9).filter fun b => natBit c b).length == w

/-- A number of columns from a list, each once, in an open order. -/
def hsPick : Nat → Nat → List Nat → List Nat
  | 0, _, _ => []
  | n + 1, k, l => l.getD (Config.hsiaoPick k % l.length) 0 :: hsPick n (k + 1) (removeAt l (Config.hsiaoPick k % l.length))

/-- The columns of the data bits: a Hsiao code of 9 check bits takes the 84 columns of three ones and 44 of those of five; which 44, and the order,
are open (R354). -/
def hsCols : List Nat := hsPick 128 0 (hsWeight 3 ++ hsPick 44 128 (hsWeight 5))

/-- The 9 check bits of 128 data bits: the sum of the columns of the ones. -/
def hsiao (d : BitVec 128) : BitVec 9 :=
  BitVec.ofNat 9 (((List.range 128).zip hsCols).foldl (fun x e => if d.getLsbD e.1 then x ^^^ e.2 else x) 0)

/-- The 128 data bits of SEC-DED word `w` of nine raw words, and its check field. -/
def hsData (ws : List Word) (w : Nat) : BitVec 128 := BitVec.ofNat 128 (leNat (((wordsToBytes ws).drop (16 * w)).take 16))
def hsCheck (ws : List Word) (w : Nat) : BitVec 9 := BitVec.ofNat 9 (natField ((ws.getD 8 0).toNat) (9 * w) 9)

/-- The raw words of a tier granule (R365): data, four check fields, three poison bits. -/
def tierWords (bs : List Byte) (poisoned : Bool) : List Word :=
  let d := (upFrom 0 8).map fun i => BitVec.ofNat 64 (leNat ((bs.drop (8 * i)).take 8))
  let chk := ((upFrom 0 4).map fun w => (hsiao (hsData d w)).toNat * 2 ^ (9 * w)).sum
  d ++ [BitVec.ofNat 64 (chk + (if poisoned then 7 * 2 ^ 36 else 0))]

/-- Flip bits of raw tier words: (SEC-DED word, bit), 0 to 127 data and 128 to 136 check. -/
def tierFlip (ws : List Word) (fs : List (Nat × Nat)) : List Word :=
  fs.foldl (fun ws f =>
    if f.2 < 128 then modifyAt (fun v => v ^^^ BitVec.ofNat 64 (2 ^ (f.2 % 64))) ws (2 * f.1 + f.2 / 64)
    else modifyAt (fun v => v ^^^ BitVec.ofNat 64 (2 ^ (9 * f.1 + f.2 - 128))) ws 8) ws

/-- What the SEC-DED code makes of one word: the bit it corrects, none where the word is a codeword; `some none` where it cannot. -/
def hsDecode (d : BitVec 128) (c : BitVec 9) : Option (Option Nat) :=
  let ok := fun b => if b < 128 then hsiao (d ^^^ BitVec.ofNat 128 (2 ^ b)) == c
                     else hsiao d == (c ^^^ BitVec.ofNat 9 (2 ^ (b - 128)))
  if hsiao d = c then none else some ((upFrom 0 137).find? ok)

/-- The decode of a tier or scratch granule: poison by majority of its three flag bits; the words corrected are given as (word, bit, 1). -/
def tierDecode (ws : List Word) : DecodeKind :=
  let p := natField ((ws.getD 8 0).toNat) 36 3
  let found := (upFrom 0 4).filterMap fun w => (hsDecode (hsData ws w) (hsCheck ws w)).map fun b => (w, b)
  if p = 3 || p ≥ 5 then .poison
  else if found.isEmpty then .clean
  else if found.any fun f => f.2.isNone then .uncorrectable
  else .corrected (found.map fun f => (f.1, f.2.getD 0, 1)) []

end Sys2Proof.Machine
end

