-- ==== Sys2Proof/Machine/Regs.lean ====
section
/-!
DEFINITION. Machine/Regs.lean: the register map of control space (06_tiers_cisterns_and_address_map R149): every register table of the
spec as one name of `Reg`, its place, its fields with their access types (R5), and the value each word has at reset.
-/
namespace Sys2Proof

/-- A register (or an array of registers) of control space, under the spec's own name. The energy snapshot words of R393 are `PWC_SNAP`,
the partition counters of PWC_EN are `PWC_EN_P`. -/
inductive Reg where
  | TOP_MSIZE | GAUGE_NOW | GAUGE_SET | GAUGE_CTL | GAUGE_STAT | CRS_STALE
  | CRS_FUTURE | CRS_NOW | CRS_CHG | CRS_CHG_AT | CRS_LAG_LO | CRS_LAG_HI
  | CRS_LAG_STAT | TOP_SITES_LO | TOP_SITES_MID | TOP_SITES_HI | TSK_CFLT_A | TSK_CFLT_B
  | TSK_CFLT_C | TSK_CFLT_D | TOP_CIL | TOP_CGRANT | TOP_AWIN | TSK_DMA_TMO
  | TSK_SORD | BTN_CNT | BTN_HOSTOP | BTN_DROP | QM_CTX | QM_DOORBELL
  | QM_FLUSH | QM_CANCEL | TSK_TASK_TMO | SLU_STR_CTL | SLU_STR_STAT | SLU_STR_PEER
  | SLU_STR_CNT0 | SLU_STR_CNT1 | SLU_OPT_EXP | SLU_SPARE | RTE_SELF | RTE_RSET_A
  | RTE_RSET_B | RTE_RACK | RTE_SCHED_A | RTE_SCHED_B | RTE_BANKSW | RTE_BANKSW_AT
  | RTE_DROP0 | RTE_DROP1 | COL_GRP_A | COL_GMASK | COL_TRG | COL_TRG_STAT
  | COL_TMO | COL_CNT | HIF_POWN | HIF_FN_A | HIF_FN_B | HIF_FN_C
  | MBX_BIND | MBX_CTL | MBX_STAT | MBX_LOCK | MBX_TMO | ECC_ERASE
  | ECC_DIE_CNT | ECC_CIS_STAT | ECC_THR | SCRB_CTL | SCRB_STAT | ECC_LOG_STAT
  | ECC_LOG_SEL | ECC_LOG_REC | ECC_RAW_CTL | ECC_RAW_DATA | FEED_CTL | FEED_STAT
  | FEED_MEAS | FEED_LAST | PWC_CAP | PWC_CAP_NEXT | PWC_CAP_AT | PWC_EFF
  | PWC_VF | PWC_CTL | PWC_SHARE | PWC_SLATE | PWC_PHASE | PWC_EN
  | PWC_EN_P | PWC_DINT | PWC_SNAP | PWC_CNT | THM_SLATE | THM_CIS
  | THM_MISC | SEC_ID | SEC_KSLOT | SEC_TDI | SEC_STATE | BOOT_STAT
  | BOOT_CTL | BOOT_TOPO | BOOT_EXP | RST_JOB | RST_STAT | RST_ESC
  | RST_PART | RDR_STAT | RDR_WDOG | UPD_STAT | UPD_BUILD | RDR_TELE
  | TOP_PINS
  deriving DecidableEq, Repr

/-- The access types of the table "Register access types" (R5). -/
inductive Acc where
  | ro | rw | rwl | w1c | w1s | wo | rc
  deriving DecidableEq, Repr

/-- A field of a register: the register, its lowest bit, its width, its word (0 unless the register has several), its access type. -/
structure Fld where
  reg : Reg
  lo : Nat
  w : Nat
  word : Nat
  acc : Acc
  deriving DecidableEq, Repr

/-! TOP_MSIZE, TOP block base 0x0300_0000_0000 -/
def TOP_MSIZE.RACKS_M1 : Fld := ⟨.TOP_MSIZE, 0, 8, 0, .rwl⟩
def TOP_MSIZE.BOARDS_M1 : Fld := ⟨.TOP_MSIZE, 8, 3, 0, .rwl⟩
def TOP_MSIZE.MODS_M1 : Fld := ⟨.TOP_MSIZE, 16, 3, 0, .rwl⟩
def TOP_MSIZE.OPT_PLANES : Fld := ⟨.TOP_MSIZE, 24, 5, 0, .rwl⟩
def TOP_MSIZE.CORES : Fld := ⟨.TOP_MSIZE, 32, 12, 0, .ro⟩
def TOP_MSIZE.COURSE_K : Fld := ⟨.TOP_MSIZE, 48, 5, 0, .ro⟩

/-! GAUGE_NOW, GAUGE block base 0x0300_0000_1000 -/
def GAUGE_NOW.NOW : Fld := ⟨.GAUGE_NOW, 0, 64, 0, .ro⟩

/-! GAUGE_SET, GAUGE block base 0x0300_0000_1000 -/
def GAUGE_SET.VALUE : Fld := ⟨.GAUGE_SET, 0, 64, 0, .wo⟩

/-! GAUGE_CTL, GAUGE block base 0x0300_0000_1000 -/
def GAUGE_CTL.SYNC_EN : Fld := ⟨.GAUGE_CTL, 0, 1, 0, .rwl⟩
def GAUGE_CTL.ROOT_ELIG : Fld := ⟨.GAUGE_CTL, 1, 1, 0, .rwl⟩
def GAUGE_CTL.LOCK : Fld := ⟨.GAUGE_CTL, 8, 1, 0, .w1s⟩

/-! GAUGE_STAT, GAUGE block base 0x0300_0000_1000 -/
def GAUGE_STAT.STATE : Fld := ⟨.GAUGE_STAT, 0, 3, 0, .ro⟩
def GAUGE_STAT.IS_ROOT : Fld := ⟨.GAUGE_STAT, 3, 1, 0, .ro⟩
def GAUGE_STAT.STEPPED : Fld := ⟨.GAUGE_STAT, 4, 1, 0, .w1c⟩
def GAUGE_STAT.WRAPPED : Fld := ⟨.GAUGE_STAT, 5, 1, 0, .w1c⟩
def GAUGE_STAT.PARENT_LINK : Fld := ⟨.GAUGE_STAT, 8, 8, 0, .ro⟩
def GAUGE_STAT.HOPS : Fld := ⟨.GAUGE_STAT, 16, 8, 0, .ro⟩
def GAUGE_STAT.ROOT_EPN : Fld := ⟨.GAUGE_STAT, 32, 16, 0, .ro⟩
def GAUGE_STAT.OFFSET : Fld := ⟨.GAUGE_STAT, 48, 16, 0, .ro⟩

/-! CRS_STALE, CRS block base 0x0300_0000_2000 -/
def CRS_STALE.COUNT : Fld := ⟨.CRS_STALE, 0, 32, 0, .rc⟩

/-! CRS_FUTURE, CRS block base 0x0300_0000_2000 -/
def CRS_FUTURE.COUNT : Fld := ⟨.CRS_FUTURE, 0, 32, 0, .rc⟩

/-! CRS_NOW, CRS block base 0x0300_0000_2000 -/
def CRS_NOW.COURSE : Fld := ⟨.CRS_NOW, 0, 64, 0, .ro⟩

/-! CRS_CHG, CRS block base 0x0300_0000_2000 -/
def CRS_CHG.K_NEXT : Fld := ⟨.CRS_CHG, 0, 5, 0, .rw⟩
def CRS_CHG.ARM : Fld := ⟨.CRS_CHG, 8, 1, 0, .w1s⟩
def CRS_CHG.CANCEL : Fld := ⟨.CRS_CHG, 9, 1, 0, .w1s⟩
def CRS_CHG.STATUS : Fld := ⟨.CRS_CHG, 16, 8, 0, .ro⟩
def CRS_CHG.EPOCH : Fld := ⟨.CRS_CHG, 24, 1, 0, .ro⟩
def CRS_CHG.K_PREV : Fld := ⟨.CRS_CHG, 32, 5, 0, .ro⟩

/-! CRS_CHG_AT, CRS block base 0x0300_0000_2000 -/
def CRS_CHG_AT.AT : Fld := ⟨.CRS_CHG_AT, 0, 64, 0, .rw⟩

/-! CRS_LAG_LO, CRS block base 0x0300_0000_2000 -/
def CRS_LAG_LO.LO : Fld := ⟨.CRS_LAG_LO, 0, 64, 0, .ro⟩

/-! CRS_LAG_HI, CRS block base 0x0300_0000_2000 -/
def CRS_LAG_HI.HI : Fld := ⟨.CRS_LAG_HI, 0, 64, 0, .rc⟩

/-! CRS_LAG_STAT, CRS block base 0x0300_0000_2000 -/
def CRS_LAG_STAT.FILL : Fld := ⟨.CRS_LAG_STAT, 0, 7, 0, .ro⟩
def CRS_LAG_STAT.LOST : Fld := ⟨.CRS_LAG_STAT, 16, 16, 0, .rc⟩

/-! TOP_SITES_LO, TOP block base 0x0300_0000_0000 -/
def TOP_SITES_LO.SITES : Fld := ⟨.TOP_SITES_LO, 0, 64, 0, .ro⟩

/-! TOP_SITES_MID, TOP block base 0x0300_0000_0000 -/
def TOP_SITES_MID.SITES : Fld := ⟨.TOP_SITES_MID, 0, 64, 0, .ro⟩

/-! TOP_SITES_HI, TOP block base 0x0300_0000_0000 -/
def TOP_SITES_HI.SITES : Fld := ⟨.TOP_SITES_HI, 0, 8, 0, .ro⟩
def TOP_SITES_HI.SPARE : Fld := ⟨.TOP_SITES_HI, 8, 8, 0, .ro⟩
def TOP_SITES_HI.FUSED_OFF : Fld := ⟨.TOP_SITES_HI, 16, 8, 0, .ro⟩
def TOP_SITES_HI.RUN_OFF : Fld := ⟨.TOP_SITES_HI, 24, 8, 0, .ro⟩
def TOP_SITES_HI.OK : Fld := ⟨.TOP_SITES_HI, 32, 1, 0, .ro⟩

/-! TSK_CFLT_A, TSK block base 0x0300_0010_0000 -/
def TSK_CFLT_A.VALID : Fld := ⟨.TSK_CFLT_A, 0, 1, 0, .ro⟩
def TSK_CFLT_A.PRECISE : Fld := ⟨.TSK_CFLT_A, 1, 1, 0, .ro⟩
def TSK_CFLT_A.ENGINE : Fld := ⟨.TSK_CFLT_A, 2, 2, 0, .ro⟩
def TSK_CFLT_A.MORE : Fld := ⟨.TSK_CFLT_A, 4, 4, 0, .ro⟩
def TSK_CFLT_A.CAUSE : Fld := ⟨.TSK_CFLT_A, 8, 8, 0, .ro⟩
def TSK_CFLT_A.STATUS : Fld := ⟨.TSK_CFLT_A, 16, 8, 0, .ro⟩
def TSK_CFLT_A.PC : Fld := ⟨.TSK_CFLT_A, 32, 21, 0, .ro⟩

/-! TSK_CFLT_B, TSK block base 0x0300_0010_0000 -/
def TSK_CFLT_B.INSTR : Fld := ⟨.TSK_CFLT_B, 0, 32, 0, .ro⟩
def TSK_CFLT_B.TRAPCODE : Fld := ⟨.TSK_CFLT_B, 32, 16, 0, .ro⟩

/-! TSK_CFLT_C, TSK block base 0x0300_0010_0000 -/
def TSK_CFLT_C.ADDR : Fld := ⟨.TSK_CFLT_C, 0, 64, 0, .ro⟩

/-! TSK_CFLT_D, TSK block base 0x0300_0010_0000 -/
def TSK_CFLT_D.JOB : Fld := ⟨.TSK_CFLT_D, 0, 16, 0, .ro⟩
def TSK_CFLT_D.GEN : Fld := ⟨.TSK_CFLT_D, 16, 8, 0, .ro⟩

/-! TOP_CIL, TOP block base 0x0300_0000_0000 -/
def TOP_CIL.MODE : Fld := ⟨.TOP_CIL, 0, 2, 0, .rwl⟩
def TOP_CIL.GRAN : Fld := ⟨.TOP_CIL, 4, 2, 0, .rwl⟩

/-! TOP_CGRANT, TOP block base 0x0300_0000_0000 -/
def TOP_CGRANT.EN : Fld := ⟨.TOP_CGRANT, 0, 1, 0, .rwl⟩
def TOP_CGRANT.BASE_GIB : Fld := ⟨.TOP_CGRANT, 16, 10, 0, .rwl⟩
def TOP_CGRANT.LIMIT_GIB : Fld := ⟨.TOP_CGRANT, 32, 10, 0, .rwl⟩

/-! TOP_AWIN, TOP block base 0x0300_0000_0000 -/
def TOP_AWIN.EN : Fld := ⟨.TOP_AWIN, 0, 1, 0, .rw⟩
def TOP_AWIN.BASE_MIB : Fld := ⟨.TOP_AWIN, 1, 12, 0, .rw⟩
def TOP_AWIN.LIMIT_MIB : Fld := ⟨.TOP_AWIN, 13, 12, 0, .rw⟩
def TOP_AWIN.ANCHOR : Fld := ⟨.TOP_AWIN, 25, 16, 0, .rw⟩
def TOP_AWIN.UNDERRUN : Fld := ⟨.TOP_AWIN, 41, 1, 0, .w1c⟩
def TOP_AWIN.OVERFLOW : Fld := ⟨.TOP_AWIN, 42, 1, 0, .w1c⟩
def TOP_AWIN.NAN : Fld := ⟨.TOP_AWIN, 43, 1, 0, .w1c⟩

/-! TSK_DMA_TMO, TSK block base 0x0300_0010_0000 -/
def TSK_DMA_TMO.COURSES : Fld := ⟨.TSK_DMA_TMO, 0, 16, 0, .rw⟩

/-! TSK_SORD, TSK block base 0x0300_0010_0000 -/
def TSK_SORD.RCACHE_EN : Fld := ⟨.TSK_SORD, 0, 1, 0, .rw⟩

/-! BTN_CNT, BTN block base 0x0300_0020_0000 -/
def BTN_CNT.COUNT : Fld := ⟨.BTN_CNT, 0, 32, 0, .ro⟩

/-! BTN_HOSTOP, BTN block base 0x0300_0020_0000 -/
def BTN_HOSTOP.BATTEN : Fld := ⟨.BTN_HOSTOP, 0, 16, 0, .wo⟩
def BTN_HOSTOP.OP : Fld := ⟨.BTN_HOSTOP, 16, 2, 0, .wo⟩
def BTN_HOSTOP.OPERAND : Fld := ⟨.BTN_HOSTOP, 32, 32, 0, .wo⟩

/-! BTN_DROP, BTN block base 0x0300_0020_0000 -/
def BTN_DROP.COUNT : Fld := ⟨.BTN_DROP, 0, 32, 0, .rc⟩

/-! QM_CTX, QM block base 0x0300_4000_0000 -/
def QM_CTX.EN : Fld := ⟨.QM_CTX, 0, 1, 0, .rw⟩
def QM_CTX.TYPE : Fld := ⟨.QM_CTX, 1, 1, 0, .rw⟩
def QM_CTX.SLATE : Fld := ⟨.QM_CTX, 4, 4, 0, .rw⟩
def QM_CTX.PRIO : Fld := ⟨.QM_CTX, 8, 3, 0, .rw⟩
def QM_CTX.LOG2_E : Fld := ⟨.QM_CTX, 12, 5, 0, .rw⟩
def QM_CTX.PART : Fld := ⟨.QM_CTX, 20, 4, 0, .rw⟩
def QM_CTX.OWNER : Fld := ⟨.QM_CTX, 32, 16, 0, .rw⟩
def QM_CTX.VEC : Fld := ⟨.QM_CTX, 48, 11, 0, .rw⟩
def QM_CTX.VEC_EN : Fld := ⟨.QM_CTX, 59, 1, 0, .rw⟩
def QM_CTX.BASE : Fld := ⟨.QM_CTX, 0, 42, 1, .rw⟩
def QM_CTX.PROD : Fld := ⟨.QM_CTX, 0, 16, 2, .ro⟩
def QM_CTX.CONS : Fld := ⟨.QM_CTX, 16, 16, 2, .ro⟩
def QM_CTX.STATE : Fld := ⟨.QM_CTX, 32, 3, 2, .ro⟩
def QM_CTX.BAD_DB : Fld := ⟨.QM_CTX, 40, 16, 2, .rc⟩
def QM_CTX.LAST_CANCEL : Fld := ⟨.QM_CTX, 56, 8, 2, .ro⟩
def QM_CTX.SHADOW : Fld := ⟨.QM_CTX, 0, 42, 3, .rw⟩
def QM_CTX.SHADOW_EN : Fld := ⟨.QM_CTX, 42, 1, 3, .rw⟩

/-! QM_DOORBELL, QM block base 0x0300_4000_0000 -/
def QM_DOORBELL.QUEUE : Fld := ⟨.QM_DOORBELL, 0, 20, 0, .wo⟩
def QM_DOORBELL.INDEX : Fld := ⟨.QM_DOORBELL, 32, 16, 0, .wo⟩

/-! QM_FLUSH, QM block base 0x0300_4000_0000 -/
def QM_FLUSH.QUEUE : Fld := ⟨.QM_FLUSH, 0, 20, 0, .wo⟩

/-! QM_CANCEL, QM block base 0x0300_4000_0000 -/
def QM_CANCEL.QUEUE : Fld := ⟨.QM_CANCEL, 0, 20, 0, .wo⟩
def QM_CANCEL.INDEX : Fld := ⟨.QM_CANCEL, 32, 16, 0, .wo⟩

/-! TSK_TASK_TMO, TSK block base 0x0300_0010_0000 -/
def TSK_TASK_TMO.COURSES : Fld := ⟨.TSK_TASK_TMO, 0, 16, 0, .rw⟩

/-! SLU_STR_CTL, SLU block base 0x0300_0100_0000 + q × 0x1_0000 -/
def SLU_STR_CTL.EN : Fld := ⟨.SLU_STR_CTL, 0, 1, 0, .rw⟩
def SLU_STR_CTL.RETRAIN : Fld := ⟨.SLU_STR_CTL, 1, 1, 0, .w1s⟩
def SLU_STR_CTL.LOOP : Fld := ⟨.SLU_STR_CTL, 2, 1, 0, .rw⟩

/-! SLU_STR_STAT, SLU block base 0x0300_0100_0000 + q × 0x1_0000 -/
def SLU_STR_STAT.STATE : Fld := ⟨.SLU_STR_STAT, 0, 4, 0, .ro⟩
def SLU_STR_STAT.LANES_OK : Fld := ⟨.SLU_STR_STAT, 4, 4, 0, .ro⟩
def SLU_STR_STAT.SPARED : Fld := ⟨.SLU_STR_STAT, 8, 1, 0, .ro⟩
def SLU_STR_STAT.SPARED_POS : Fld := ⟨.SLU_STR_STAT, 9, 2, 0, .ro⟩
def SLU_STR_STAT.FAST : Fld := ⟨.SLU_STR_STAT, 11, 1, 0, .ro⟩
def SLU_STR_STAT.ATTEMPTS : Fld := ⟨.SLU_STR_STAT, 12, 4, 0, .ro⟩
def SLU_STR_STAT.FLIGHT : Fld := ⟨.SLU_STR_STAT, 16, 16, 0, .ro⟩
def SLU_STR_STAT.PLINK : Fld := ⟨.SLU_STR_STAT, 32, 8, 0, .ro⟩
def SLU_STR_STAT.PDIE : Fld := ⟨.SLU_STR_STAT, 40, 2, 0, .ro⟩

/-! SLU_STR_PEER, SLU block base 0x0300_0100_0000 + q × 0x1_0000 -/
def SLU_STR_PEER.PID : Fld := ⟨.SLU_STR_PEER, 0, 48, 0, .ro⟩
def SLU_STR_PEER.EPN : Fld := ⟨.SLU_STR_PEER, 48, 16, 0, .ro⟩

/-! SLU_STR_CNT0, SLU block base 0x0300_0100_0000 + q × 0x1_0000 -/
def SLU_STR_CNT0.FEC_SYM : Fld := ⟨.SLU_STR_CNT0, 0, 32, 0, .rc⟩
def SLU_STR_CNT0.FEC_UNC : Fld := ⟨.SLU_STR_CNT0, 32, 16, 0, .rc⟩
def SLU_STR_CNT0.CRC_BAD : Fld := ⟨.SLU_STR_CNT0, 48, 16, 0, .rc⟩

/-! SLU_STR_CNT1, SLU block base 0x0300_0100_0000 + q × 0x1_0000 -/
def SLU_STR_CNT1.REPLAY : Fld := ⟨.SLU_STR_CNT1, 0, 16, 0, .rc⟩
def SLU_STR_CNT1.STALL : Fld := ⟨.SLU_STR_CNT1, 16, 16, 0, .rc⟩
def SLU_STR_CNT1.RETRAINS : Fld := ⟨.SLU_STR_CNT1, 32, 8, 0, .rc⟩
def SLU_STR_CNT1.SWAPS : Fld := ⟨.SLU_STR_CNT1, 40, 8, 0, .rc⟩

/-! SLU_OPT_EXP, SLU block base 0x0300_0100_0000 + q × 0x1_0000 -/
def SLU_OPT_EXP.EXP_PID : Fld := ⟨.SLU_OPT_EXP, 0, 48, 0, .rw⟩
def SLU_OPT_EXP.EXP_LINK : Fld := ⟨.SLU_OPT_EXP, 48, 6, 0, .rw⟩
def SLU_OPT_EXP.EXP_VALID : Fld := ⟨.SLU_OPT_EXP, 56, 1, 0, .rw⟩

/-! SLU_SPARE, SLU block base 0x0300_0100_0000 + q × 0x1_0000 -/
def SLU_SPARE.LANE0 : Fld := ⟨.SLU_SPARE, 0, 7, 0, .ro⟩
def SLU_SPARE.USE0 : Fld := ⟨.SLU_SPARE, 7, 1, 0, .ro⟩
def SLU_SPARE.LANE1 : Fld := ⟨.SLU_SPARE, 8, 7, 0, .ro⟩
def SLU_SPARE.USE1 : Fld := ⟨.SLU_SPARE, 15, 1, 0, .ro⟩
def SLU_SPARE.LANE2 : Fld := ⟨.SLU_SPARE, 16, 7, 0, .ro⟩
def SLU_SPARE.USE2 : Fld := ⟨.SLU_SPARE, 23, 1, 0, .ro⟩
def SLU_SPARE.LANE3 : Fld := ⟨.SLU_SPARE, 24, 7, 0, .ro⟩
def SLU_SPARE.USE3 : Fld := ⟨.SLU_SPARE, 31, 1, 0, .ro⟩

/-! RTE_SELF, RTE block base 0x0300_0200_0000 -/
def RTE_SELF.EPN : Fld := ⟨.RTE_SELF, 0, 16, 0, .ro⟩
def RTE_SELF.RACK : Fld := ⟨.RTE_SELF, 16, 8, 0, .rwl⟩
def RTE_SELF.RACK_VALID : Fld := ⟨.RTE_SELF, 24, 1, 0, .rwl⟩
def RTE_SELF.BOARD : Fld := ⟨.RTE_SELF, 25, 3, 0, .ro⟩
def RTE_SELF.SLOT : Fld := ⟨.RTE_SELF, 28, 3, 0, .ro⟩

/-! RTE_RSET_A, RTE block base 0x0300_0200_0000 -/
def RTE_RSET_A.VALID : Fld := ⟨.RTE_RSET_A, 0, 1, 0, .rwl⟩
def RTE_RSET_A.MODE : Fld := ⟨.RTE_RSET_A, 1, 1, 0, .rwl⟩
def RTE_RSET_A.ORD_DETOUR : Fld := ⟨.RTE_RSET_A, 2, 1, 0, .rw⟩
def RTE_RSET_A.KGEN_TX : Fld := ⟨.RTE_RSET_A, 3, 1, 0, .rw⟩
def RTE_RSET_A.KGEN_RX : Fld := ⟨.RTE_RSET_A, 4, 2, 0, .rw⟩
def RTE_RSET_A.JOB : Fld := ⟨.RTE_RSET_A, 16, 16, 0, .rwl⟩
def RTE_RSET_A.KEY : Fld := ⟨.RTE_RSET_A, 32, 12, 0, .rwl⟩

/-! RTE_RSET_B, RTE block base 0x0300_0200_0000 -/
def RTE_RSET_B.BOARD_LO : Fld := ⟨.RTE_RSET_B, 0, 3, 0, .rwl⟩
def RTE_RSET_B.BOARD_HI : Fld := ⟨.RTE_RSET_B, 3, 3, 0, .rwl⟩
def RTE_RSET_B.SLOT_LO : Fld := ⟨.RTE_RSET_B, 6, 3, 0, .rwl⟩
def RTE_RSET_B.SLOT_HI : Fld := ⟨.RTE_RSET_B, 9, 3, 0, .rwl⟩
def RTE_RSET_B.ORD_CHANS_M1 : Fld := ⟨.RTE_RSET_B, 16, 8, 0, .rwl⟩

/-! RTE_RACK, RTE block base 0x0300_0200_0000 -/
def RTE_RACK.RACK_0 : Fld := ⟨.RTE_RACK, 0, 8, 0, .rwl⟩
def RTE_RACK.RACK_1 : Fld := ⟨.RTE_RACK, 8, 8, 0, .rwl⟩
def RTE_RACK.RACK_2 : Fld := ⟨.RTE_RACK, 16, 8, 0, .rwl⟩
def RTE_RACK.RACK_3 : Fld := ⟨.RTE_RACK, 24, 8, 0, .rwl⟩
def RTE_RACK.RACK_4 : Fld := ⟨.RTE_RACK, 32, 8, 0, .rwl⟩
def RTE_RACK.RACK_5 : Fld := ⟨.RTE_RACK, 40, 8, 0, .rwl⟩
def RTE_RACK.RACK_6 : Fld := ⟨.RTE_RACK, 48, 8, 0, .rwl⟩
def RTE_RACK.RACK_7 : Fld := ⟨.RTE_RACK, 56, 8, 0, .rwl⟩

/-! RTE_SCHED_A, RTE block base 0x0300_0200_0000 -/
def RTE_SCHED_A.VALID : Fld := ⟨.RTE_SCHED_A, 0, 1, 0, .rw⟩
def RTE_SCHED_A.BANK : Fld := ⟨.RTE_SCHED_A, 1, 1, 0, .rw⟩
def RTE_SCHED_A.TRANSIT : Fld := ⟨.RTE_SCHED_A, 2, 1, 0, .rw⟩
def RTE_SCHED_A.RSET : Fld := ⟨.RTE_SCHED_A, 4, 4, 0, .rw⟩
def RTE_SCHED_A.LINK : Fld := ⟨.RTE_SCHED_A, 8, 8, 0, .rw⟩
def RTE_SCHED_A.STRANDS : Fld := ⟨.RTE_SCHED_A, 16, 4, 0, .rw⟩
def RTE_SCHED_A.PERIOD_LOG2 : Fld := ⟨.RTE_SCHED_A, 20, 4, 0, .rw⟩
def RTE_SCHED_A.PHASE : Fld := ⟨.RTE_SCHED_A, 24, 16, 0, .rw⟩

/-! RTE_SCHED_B, RTE block base 0x0300_0200_0000 -/
def RTE_SCHED_B.SLOTS : Fld := ⟨.RTE_SCHED_B, 0, 64, 0, .rw⟩

/-! RTE_BANKSW, RTE block base 0x0300_0200_0000 -/
def RTE_BANKSW.ARM : Fld := ⟨.RTE_BANKSW, 0, 1, 0, .w1s⟩
def RTE_BANKSW.CANCEL : Fld := ⟨.RTE_BANKSW, 1, 1, 0, .w1s⟩
def RTE_BANKSW.STATUS : Fld := ⟨.RTE_BANKSW, 8, 8, 0, .ro⟩
def RTE_BANKSW.ACTIVE : Fld := ⟨.RTE_BANKSW, 16, 1, 0, .ro⟩

/-! RTE_BANKSW_AT, RTE block base 0x0300_0200_0000 -/
def RTE_BANKSW_AT.AT : Fld := ⟨.RTE_BANKSW_AT, 0, 64, 0, .rw⟩

/-! RTE_DROP0, RTE block base 0x0300_0200_0000 -/
def RTE_DROP0.BAD_HDR : Fld := ⟨.RTE_DROP0, 0, 16, 0, .rc⟩
def RTE_DROP0.FOREIGN : Fld := ⟨.RTE_DROP0, 16, 16, 0, .rc⟩
def RTE_DROP0.NO_ROUTE : Fld := ⟨.RTE_DROP0, 32, 16, 0, .rc⟩
def RTE_DROP0.AUTH : Fld := ⟨.RTE_DROP0, 48, 16, 0, .rc⟩

/-! RTE_DROP1, RTE block base 0x0300_0200_0000 -/
def RTE_DROP1.LATE : Fld := ⟨.RTE_DROP1, 0, 16, 0, .rc⟩
def RTE_DROP1.DENIED : Fld := ⟨.RTE_DROP1, 16, 16, 0, .rc⟩
def RTE_DROP1.PARKED : Fld := ⟨.RTE_DROP1, 32, 16, 0, .rc⟩

/-! COL_GRP_A, COL block base 0x0300_0300_0000 -/
def COL_GRP_A.VALID : Fld := ⟨.COL_GRP_A, 0, 1, 0, .rw⟩
def COL_GRP_A.AXIS : Fld := ⟨.COL_GRP_A, 2, 2, 0, .rw⟩
def COL_GRP_A.RSET : Fld := ⟨.COL_GRP_A, 4, 4, 0, .rw⟩
def COL_GRP_A.LO : Fld := ⟨.COL_GRP_A, 8, 3, 0, .rw⟩
def COL_GRP_A.HI : Fld := ⟨.COL_GRP_A, 11, 3, 0, .rw⟩
def COL_GRP_A.ROOT : Fld := ⟨.COL_GRP_A, 14, 8, 0, .rw⟩

/-! COL_GMASK, COL block base 0x0300_0300_0000 -/
def COL_GMASK.RACKS : Fld := ⟨.COL_GMASK, 0, 64, 0, .rw⟩

/-! COL_TRG, COL block base 0x0300_0300_0000 -/
def COL_TRG.OP : Fld := ⟨.COL_TRG, 0, 4, 0, .rw⟩
def COL_TRG.DTYPE : Fld := ⟨.COL_TRG, 4, 2, 0, .rw⟩
def COL_TRG.YELM_LOG2 : Fld := ⟨.COL_TRG, 6, 4, 0, .rw⟩
def COL_TRG.SCHED : Fld := ⟨.COL_TRG, 10, 1, 0, .rw⟩
def COL_TRG.CHAIN : Fld := ⟨.COL_TRG, 11, 1, 0, .rw⟩
def COL_TRG.REARM : Fld := ⟨.COL_TRG, 12, 1, 0, .rw⟩
def COL_TRG.GROUP : Fld := ⟨.COL_TRG, 16, 10, 0, .rw⟩
def COL_TRG.NEXT : Fld := ⟨.COL_TRG, 32, 12, 0, .rw⟩
def COL_TRG.TRIG_BTN : Fld := ⟨.COL_TRG, 48, 16, 0, .rw⟩
def COL_TRG.TRIG_COUNT : Fld := ⟨.COL_TRG, 0, 32, 1, .rw⟩
def COL_TRG.DONE_BTN : Fld := ⟨.COL_TRG, 32, 16, 1, .rw⟩
def COL_TRG.DONE_EN : Fld := ⟨.COL_TRG, 48, 1, 1, .rw⟩
def COL_TRG.TRIG_EN : Fld := ⟨.COL_TRG, 49, 1, 1, .rw⟩
def COL_TRG.SRC : Fld := ⟨.COL_TRG, 0, 42, 2, .rw⟩
def COL_TRG.DST : Fld := ⟨.COL_TRG, 0, 42, 3, .rw⟩
def COL_TRG.SRC_TAGS : Fld := ⟨.COL_TRG, 0, 42, 4, .rw⟩
def COL_TRG.RES_TAGS : Fld := ⟨.COL_TRG, 0, 42, 5, .rw⟩
def COL_TRG.BYTES : Fld := ⟨.COL_TRG, 0, 32, 6, .rw⟩
def COL_TRG.COUNT_STEP : Fld := ⟨.COL_TRG, 32, 32, 6, .rw⟩
def COL_TRG.DEADLINE : Fld := ⟨.COL_TRG, 0, 48, 7, .rw⟩
def COL_TRG.DL_STEP : Fld := ⟨.COL_TRG, 48, 16, 7, .rw⟩

/-! COL_TRG_STAT, COL block base 0x0300_0300_0000 -/
def COL_TRG_STAT.STATE : Fld := ⟨.COL_TRG_STAT, 0, 3, 0, .ro⟩
def COL_TRG_STAT.ARM : Fld := ⟨.COL_TRG_STAT, 3, 1, 0, .w1s⟩
def COL_TRG_STAT.DISARM : Fld := ⟨.COL_TRG_STAT, 4, 1, 0, .w1s⟩
def COL_TRG_STAT.INST : Fld := ⟨.COL_TRG_STAT, 8, 4, 0, .ro⟩
def COL_TRG_STAT.STATUS : Fld := ⟨.COL_TRG_STAT, 16, 8, 0, .ro⟩
def COL_TRG_STAT.WAFLAGS : Fld := ⟨.COL_TRG_STAT, 24, 3, 0, .ro⟩
def COL_TRG_STAT.RESENDS : Fld := ⟨.COL_TRG_STAT, 32, 16, 0, .rc⟩

/-! COL_TMO, COL block base 0x0300_0300_0000 -/
def COL_TMO.COURSES : Fld := ⟨.COL_TMO, 0, 16, 0, .rw⟩

/-! COL_CNT, COL block base 0x0300_0300_0000 -/
def COL_CNT.CRC_BAD : Fld := ⟨.COL_CNT, 0, 16, 0, .rc⟩
def COL_CNT.STRAY : Fld := ⟨.COL_CNT, 16, 16, 0, .rc⟩
def COL_CNT.RESID : Fld := ⟨.COL_CNT, 32, 16, 0, .rc⟩
def COL_CNT.TMO : Fld := ⟨.COL_CNT, 48, 16, 0, .rc⟩

/-! HIF_POWN, HIF block base 0x0300_0500_0000 -/
def HIF_POWN.OWNER : Fld := ⟨.HIF_POWN, 0, 16, 0, .rw⟩
def HIF_POWN.SLATES : Fld := ⟨.HIF_POWN, 16, 16, 0, .rw⟩
def HIF_POWN.BOUND : Fld := ⟨.HIF_POWN, 32, 1, 0, .ro⟩

/-! HIF_FN_A, HIF block base 0x0300_0500_0000 -/
def HIF_FN_A.APBASE_GIB : Fld := ⟨.HIF_FN_A, 0, 12, 0, .rw⟩

/-! HIF_FN_B, HIF block base 0x0300_0500_0000 -/
def HIF_FN_B.EVEC : Fld := ⟨.HIF_FN_B, 0, 11, 0, .rw⟩
def HIF_FN_B.EVEC_EN : Fld := ⟨.HIF_FN_B, 11, 1, 0, .rw⟩
def HIF_FN_B.IMOD_US : Fld := ⟨.HIF_FN_B, 12, 8, 0, .rw⟩
def HIF_FN_B.CFREE : Fld := ⟨.HIF_FN_B, 32, 9, 0, .ro⟩

/-! HIF_FN_C, HIF block base 0x0300_0500_0000 -/
def HIF_FN_C.BAD_ACCESS : Fld := ⟨.HIF_FN_C, 0, 16, 0, .rc⟩
def HIF_FN_C.CPY_DROP : Fld := ⟨.HIF_FN_C, 16, 16, 0, .rc⟩
def HIF_FN_C.IRQ_LOST : Fld := ⟨.HIF_FN_C, 32, 16, 0, .rc⟩

/-! MBX_BIND, MBX block base 0x0300_0600_0000 -/
def MBX_BIND.IDENT : Fld := ⟨.MBX_BIND, 0, 16, 0, .rw⟩
def MBX_BIND.VEC : Fld := ⟨.MBX_BIND, 16, 11, 0, .rw⟩
def MBX_BIND.VEC_EN : Fld := ⟨.MBX_BIND, 27, 1, 0, .rw⟩

/-! MBX_CTL, MBX block base 0x0300_0600_0000 -/
def MBX_CTL.SEND : Fld := ⟨.MBX_CTL, 0, 1, 0, .w1s⟩
def MBX_CTL.POP : Fld := ⟨.MBX_CTL, 1, 1, 0, .w1s⟩
def MBX_CTL.RESET : Fld := ⟨.MBX_CTL, 2, 1, 0, .w1s⟩

/-! MBX_STAT, MBX block base 0x0300_0600_0000 -/
def MBX_STAT.REQ_FILL : Fld := ⟨.MBX_STAT, 0, 3, 0, .ro⟩
def MBX_STAT.RSP_FILL : Fld := ⟨.MBX_STAT, 3, 3, 0, .ro⟩
def MBX_STAT.FULL : Fld := ⟨.MBX_STAT, 6, 1, 0, .ro⟩
def MBX_STAT.RSP_VALID : Fld := ⟨.MBX_STAT, 7, 1, 0, .ro⟩
def MBX_STAT.TMO : Fld := ⟨.MBX_STAT, 8, 1, 0, .w1c⟩
def MBX_STAT.LATE : Fld := ⟨.MBX_STAT, 9, 1, 0, .w1c⟩
def MBX_STAT.LAST : Fld := ⟨.MBX_STAT, 16, 8, 0, .ro⟩

/-! MBX_LOCK, MBX block base 0x0300_0600_0000 -/
def MBX_LOCK.HOLDER : Fld := ⟨.MBX_LOCK, 0, 16, 0, .ro⟩
def MBX_LOCK.HELD : Fld := ⟨.MBX_LOCK, 16, 1, 0, .ro⟩
def MBX_LOCK.TOKEN : Fld := ⟨.MBX_LOCK, 32, 16, 0, .rw⟩
def MBX_LOCK.TAKE : Fld := ⟨.MBX_LOCK, 48, 1, 0, .w1s⟩
def MBX_LOCK.GIVE : Fld := ⟨.MBX_LOCK, 49, 1, 0, .w1s⟩

/-! MBX_TMO, MBX block base 0x0300_0600_0000 -/
def MBX_TMO.MS : Fld := ⟨.MBX_TMO, 0, 16, 0, .rw⟩

/-! ECC_ERASE, ECC block base 0x0300_0700_0000 -/
def ECC_ERASE.DIE : Fld := ⟨.ECC_ERASE, 0, 5, 0, .rw⟩
def ECC_ERASE.VALID : Fld := ⟨.ECC_ERASE, 5, 1, 0, .rw⟩

/-! ECC_DIE_CNT, ECC block base 0x0300_0700_0000 -/
def ECC_DIE_CNT.CORR : Fld := ⟨.ECC_DIE_CNT, 0, 32, 0, .rc⟩
def ECC_DIE_CNT.EDC : Fld := ⟨.ECC_DIE_CNT, 32, 16, 0, .rc⟩

/-! ECC_CIS_STAT, ECC block base 0x0300_0700_0000 -/
def ECC_CIS_STAT.UNCORR : Fld := ⟨.ECC_CIS_STAT, 0, 16, 0, .rc⟩
def ECC_CIS_STAT.POISON_RD : Fld := ⟨.ECC_CIS_STAT, 16, 16, 0, .rc⟩
def ECC_CIS_STAT.TWO_DIE : Fld := ⟨.ECC_CIS_STAT, 32, 16, 0, .rc⟩

/-! ECC_THR, ECC block base 0x0300_0700_0000 -/
def ECC_THR.DIE_MARK : Fld := ⟨.ECC_THR, 0, 16, 0, .rw⟩
def ECC_THR.ROW : Fld := ⟨.ECC_THR, 16, 8, 0, .rw⟩
def ECC_THR.CIS_FAIL : Fld := ⟨.ECC_THR, 32, 16, 0, .rw⟩

/-! SCRB_CTL, SCRB block base 0x0300_0710_0000 -/
def SCRB_CTL.CIS_EN : Fld := ⟨.SCRB_CTL, 0, 1, 0, .rw⟩
def SCRB_CTL.TIER_EN : Fld := ⟨.SCRB_CTL, 1, 1, 0, .rw⟩
def SCRB_CTL.SCR_EN : Fld := ⟨.SCRB_CTL, 2, 1, 0, .rw⟩
def SCRB_CTL.CIS_PASS_H : Fld := ⟨.SCRB_CTL, 8, 8, 0, .rw⟩
def SCRB_CTL.TIER_PASS_MIN : Fld := ⟨.SCRB_CTL, 16, 16, 0, .rw⟩
def SCRB_CTL.SCR_PASS_MIN : Fld := ⟨.SCRB_CTL, 32, 16, 0, .rw⟩

/-! SCRB_STAT, SCRB block base 0x0300_0710_0000 -/
def SCRB_STAT.CIS_PASSES : Fld := ⟨.SCRB_STAT, 0, 16, 0, .ro⟩
def SCRB_STAT.TIER_PASSES : Fld := ⟨.SCRB_STAT, 16, 16, 0, .ro⟩

/-! ECC_LOG_STAT, ECC block base 0x0300_0700_0000 -/
def ECC_LOG_STAT.NEXT_SEQ : Fld := ⟨.ECC_LOG_STAT, 0, 32, 0, .ro⟩
def ECC_LOG_STAT.LOST : Fld := ⟨.ECC_LOG_STAT, 32, 16, 0, .rc⟩

/-! ECC_LOG_SEL, ECC block base 0x0300_0700_0000 -/
def ECC_LOG_SEL.SEQ : Fld := ⟨.ECC_LOG_SEL, 0, 32, 0, .rw⟩
def ECC_LOG_SEL.HELD : Fld := ⟨.ECC_LOG_SEL, 32, 1, 0, .ro⟩

/-! ECC_LOG_REC, ECC block base 0x0300_0700_0000 -/
def ECC_LOG_REC.WORD : Fld := ⟨.ECC_LOG_REC, 0, 64, 0, .ro⟩

/-! ECC_RAW_CTL, ECC block base 0x0300_0700_0000 -/
def ECC_RAW_CTL.ADDR : Fld := ⟨.ECC_RAW_CTL, 0, 42, 0, .rw⟩
def ECC_RAW_CTL.WRITE : Fld := ⟨.ECC_RAW_CTL, 48, 1, 0, .rw⟩
def ECC_RAW_CTL.GO : Fld := ⟨.ECC_RAW_CTL, 49, 1, 0, .w1s⟩
def ECC_RAW_CTL.BUSY : Fld := ⟨.ECC_RAW_CTL, 50, 1, 0, .ro⟩
def ECC_RAW_CTL.HOLD : Fld := ⟨.ECC_RAW_CTL, 51, 1, 0, .rw⟩
def ECC_RAW_CTL.STATUS : Fld := ⟨.ECC_RAW_CTL, 56, 8, 0, .ro⟩

/-! ECC_RAW_DATA, ECC block base 0x0300_0700_0000 -/
def ECC_RAW_DATA.DATA : Fld := ⟨.ECC_RAW_DATA, 0, 64, 0, .rw⟩

/-! FEED_CTL, FEED block base 0x0300_0800_0000 -/
def FEED_CTL.RETURN_MS : Fld := ⟨.FEED_CTL, 0, 16, 0, .rw⟩

/-! FEED_STAT, FEED block base 0x0300_0800_0000 -/
def FEED_STAT.COND : Fld := ⟨.FEED_STAT, 0, 1, 0, .ro⟩
def FEED_STAT.A_OK : Fld := ⟨.FEED_STAT, 1, 1, 0, .ro⟩
def FEED_STAT.B_OK : Fld := ⟨.FEED_STAT, 2, 1, 0, .ro⟩
def FEED_STAT.HELD : Fld := ⟨.FEED_STAT, 3, 1, 0, .ro⟩
def FEED_STAT.STABLE : Fld := ⟨.FEED_STAT, 4, 1, 0, .ro⟩
def FEED_STAT.A_PILOT_LOST : Fld := ⟨.FEED_STAT, 5, 1, 0, .ro⟩
def FEED_STAT.B_PILOT_LOST : Fld := ⟨.FEED_STAT, 6, 1, 0, .ro⟩
def FEED_STAT.RAMP_REQ : Fld := ⟨.FEED_STAT, 7, 1, 0, .ro⟩
def FEED_STAT.A_CLAIM : Fld := ⟨.FEED_STAT, 8, 8, 0, .ro⟩
def FEED_STAT.B_CLAIM : Fld := ⟨.FEED_STAT, 16, 8, 0, .ro⟩
def FEED_STAT.SWITCHES : Fld := ⟨.FEED_STAT, 32, 16, 0, .rc⟩

/-! FEED_MEAS, FEED block base 0x0300_0800_0000 -/
def FEED_MEAS.MV : Fld := ⟨.FEED_MEAS, 0, 16, 0, .ro⟩
def FEED_MEAS.DECIAMP : Fld := ⟨.FEED_MEAS, 16, 16, 0, .ro⟩

/-! FEED_LAST, FEED block base 0x0300_0800_0000 -/
def FEED_LAST.GAUGE : Fld := ⟨.FEED_LAST, 0, 64, 0, .ro⟩

/-! PWC_CAP, PWC block base 0x0300_0810_0000 -/
def PWC_CAP.GRID_W : Fld := ⟨.PWC_CAP, 0, 16, 0, .rw⟩
def PWC_CAP.JOB_W : Fld := ⟨.PWC_CAP, 16, 16, 0, .rw⟩
def PWC_CAP.BOARD_W : Fld := ⟨.PWC_CAP, 32, 16, 0, .ro⟩

/-! PWC_CAP_NEXT, PWC block base 0x0300_0810_0000 -/
def PWC_CAP_NEXT.GRID_W : Fld := ⟨.PWC_CAP_NEXT, 0, 16, 0, .rw⟩
def PWC_CAP_NEXT.ARM : Fld := ⟨.PWC_CAP_NEXT, 16, 1, 0, .w1s⟩
def PWC_CAP_NEXT.CANCEL : Fld := ⟨.PWC_CAP_NEXT, 17, 1, 0, .w1s⟩
def PWC_CAP_NEXT.STATUS : Fld := ⟨.PWC_CAP_NEXT, 24, 8, 0, .ro⟩

/-! PWC_CAP_AT, PWC block base 0x0300_0810_0000 -/
def PWC_CAP_AT.AT : Fld := ⟨.PWC_CAP_AT, 0, 64, 0, .rw⟩

/-! PWC_EFF, PWC block base 0x0300_0810_0000 -/
def PWC_EFF.EFF_W : Fld := ⟨.PWC_EFF, 0, 16, 0, .ro⟩
def PWC_EFF.LIMIT : Fld := ⟨.PWC_EFF, 16, 3, 0, .ro⟩
def PWC_EFF.P1MS_W : Fld := ⟨.PWC_EFF, 32, 16, 0, .ro⟩
def PWC_EFF.P1S_W : Fld := ⟨.PWC_EFF, 48, 16, 0, .ro⟩

/-! PWC_VF, PWC block base 0x0300_0810_0000 -/
def PWC_VF.FREQ_MHZ : Fld := ⟨.PWC_VF, 0, 12, 0, .ro⟩
def PWC_VF.VOLT_MV : Fld := ⟨.PWC_VF, 12, 12, 0, .ro⟩
def PWC_VF.VALID : Fld := ⟨.PWC_VF, 24, 1, 0, .ro⟩

/-! PWC_CTL, PWC block base 0x0300_0810_0000 -/
def PWC_CTL.INTERVAL : Fld := ⟨.PWC_CTL, 0, 10, 0, .rw⟩
def PWC_CTL.RAMP_RATE : Fld := ⟨.PWC_CTL, 16, 13, 0, .rw⟩
def PWC_CTL.RAMP_EN : Fld := ⟨.PWC_CTL, 29, 1, 0, .rw⟩
def PWC_CTL.LEARN_EN : Fld := ⟨.PWC_CTL, 30, 1, 0, .rw⟩
def PWC_CTL.RAMP_HOLD_MS : Fld := ⟨.PWC_CTL, 32, 16, 0, .rw⟩
def PWC_CTL.RAMP : Fld := ⟨.PWC_CTL, 48, 1, 0, .ro⟩

/-! PWC_SHARE, PWC block base 0x0300_0810_0000 -/
def PWC_SHARE.SHARE_W : Fld := ⟨.PWC_SHARE, 0, 16, 0, .rw⟩

/-! PWC_SLATE, PWC block base 0x0300_0810_0000 -/
def PWC_SLATE.POINT : Fld := ⟨.PWC_SLATE, 0, 4, 0, .ro⟩
def PWC_SLATE.CEIL : Fld := ⟨.PWC_SLATE, 4, 4, 0, .ro⟩
def PWC_SLATE.PHASE : Fld := ⟨.PWC_SLATE, 8, 8, 0, .ro⟩
def PWC_SLATE.LAG : Fld := ⟨.PWC_SLATE, 16, 4, 0, .ro⟩
def PWC_SLATE.IDLE : Fld := ⟨.PWC_SLATE, 20, 1, 0, .ro⟩
def PWC_SLATE.POWER_W : Fld := ⟨.PWC_SLATE, 32, 12, 0, .ro⟩
def PWC_SLATE.PRED_W : Fld := ⟨.PWC_SLATE, 44, 12, 0, .ro⟩

/-! PWC_PHASE, PWC block base 0x0300_0810_0000 -/
def PWC_PHASE.C : Fld := ⟨.PWC_PHASE, 0, 16, 0, .rw⟩
def PWC_PHASE.SAMPLES : Fld := ⟨.PWC_PHASE, 16, 16, 0, .ro⟩

/-! PWC_EN, PWC block base 0x0300_0810_0000 -/
def PWC_EN.MJ : Fld := ⟨.PWC_EN, 0, 64, 0, .ro⟩

/-! PWC_EN, PWC block base 0x0300_0810_0000 -/
def PWC_EN_P.MJ : Fld := ⟨.PWC_EN_P, 0, 64, 0, .ro⟩

/-! PWC_DINT, PWC block base 0x0300_0810_0000 -/
def PWC_DINT.PERIOD_S : Fld := ⟨.PWC_DINT, 0, 12, 0, .rw⟩
def PWC_DINT.SNAP : Fld := ⟨.PWC_DINT, 12, 1, 0, .w1s⟩
def PWC_DINT.LATEST : Fld := ⟨.PWC_DINT, 13, 1, 0, .ro⟩
def PWC_DINT.SEQ : Fld := ⟨.PWC_DINT, 16, 16, 0, .ro⟩

/-! Energy snapshot, 32 words, at PWC block offset 0x2400 + 0x100 × b + 0x08 × w, bank b 0–1 -/
def PWC_SNAP.WORD : Fld := ⟨.PWC_SNAP, 0, 64, 0, .ro⟩

/-! PWC_CNT, PWC block base 0x0300_0810_0000 -/
def PWC_CNT.FASTLIM : Fld := ⟨.PWC_CNT, 0, 16, 0, .rc⟩
def PWC_CNT.COMP_SHORT : Fld := ⟨.PWC_CNT, 16, 16, 0, .rc⟩
def PWC_CNT.BREACH : Fld := ⟨.PWC_CNT, 32, 16, 0, .rc⟩

/-! THM_SLATE, THM block base 0x0300_0820_0000 -/
def THM_SLATE.MAX_C : Fld := ⟨.THM_SLATE, 0, 8, 0, .ro⟩
def THM_SLATE.THR_C : Fld := ⟨.THM_SLATE, 8, 8, 0, .rw⟩
def THM_SLATE.THROTTLE : Fld := ⟨.THM_SLATE, 16, 1, 0, .ro⟩
def THM_SLATE.TRIP : Fld := ⟨.THM_SLATE, 17, 1, 0, .ro⟩

/-! THM_SLATE, THM block base 0x0300_0820_0000 -/
def THM_CIS.MAX_C : Fld := ⟨.THM_CIS, 0, 8, 0, .ro⟩
def THM_CIS.THR_C : Fld := ⟨.THM_CIS, 8, 8, 0, .rw⟩
def THM_CIS.THROTTLE : Fld := ⟨.THM_CIS, 16, 1, 0, .ro⟩
def THM_CIS.TRIP : Fld := ⟨.THM_CIS, 17, 1, 0, .ro⟩

/-! THM_MISC, THM block base 0x0300_0820_0000 -/
def THM_MISC.SLUICE_C : Fld := ⟨.THM_MISC, 0, 8, 0, .ro⟩
def THM_MISC.OPTIC_C : Fld := ⟨.THM_MISC, 8, 8, 0, .ro⟩
def THM_MISC.RIDER_C : Fld := ⟨.THM_MISC, 16, 8, 0, .ro⟩
def THM_MISC.INLET_C : Fld := ⟨.THM_MISC, 24, 8, 0, .ro⟩
def THM_MISC.OUTLET_C : Fld := ⟨.THM_MISC, 32, 8, 0, .ro⟩
def THM_MISC.COOLANT_ALERT : Fld := ⟨.THM_MISC, 40, 1, 0, .ro⟩

/-! SEC_ID, SEC block base 0x0300_0900_0000 -/
def SEC_ID.PID : Fld := ⟨.SEC_ID, 0, 48, 0, .ro⟩
def SEC_ID.VARIANT : Fld := ⟨.SEC_ID, 48, 2, 0, .ro⟩
def SEC_ID.STEP : Fld := ⟨.SEC_ID, 50, 6, 0, .ro⟩

/-! SEC_KSLOT, SEC block base 0x0300_0900_0000 -/
def SEC_KSLOT.JOB : Fld := ⟨.SEC_KSLOT, 0, 16, 0, .ro⟩
def SEC_KSLOT.GEN0 : Fld := ⟨.SEC_KSLOT, 16, 1, 0, .ro⟩
def SEC_KSLOT.GEN1 : Fld := ⟨.SEC_KSLOT, 17, 1, 0, .ro⟩
def SEC_KSLOT.NDATA : Fld := ⟨.SEC_KSLOT, 18, 3, 0, .ro⟩
def SEC_KSLOT.KCV : Fld := ⟨.SEC_KSLOT, 32, 32, 0, .ro⟩

/-! SEC_TDI, SEC block base 0x0300_0900_0000 -/
def SEC_TDI.STATE : Fld := ⟨.SEC_TDI, 0, 2, 0, .ro⟩
def SEC_TDI.STREAM_VALID : Fld := ⟨.SEC_TDI, 2, 1, 0, .ro⟩
def SEC_TDI.STREAM : Fld := ⟨.SEC_TDI, 8, 8, 0, .ro⟩

/-! SEC_STATE, SEC block base 0x0300_0900_0000 -/
def SEC_STATE.PRESENCE : Fld := ⟨.SEC_STATE, 0, 1, 0, .ro⟩
def SEC_STATE.DEBUG : Fld := ⟨.SEC_STATE, 1, 1, 0, .ro⟩
def SEC_STATE.RECOVERY : Fld := ⟨.SEC_STATE, 2, 1, 0, .ro⟩
def SEC_STATE.FABRIC_KEY : Fld := ⟨.SEC_STATE, 3, 1, 0, .ro⟩
def SEC_STATE.REQ_MUTUAL : Fld := ⟨.SEC_STATE, 4, 1, 0, .ro⟩
def SEC_STATE.SP_SVN : Fld := ⟨.SEC_STATE, 8, 8, 0, .ro⟩
def SEC_STATE.RIDER_SVN : Fld := ⟨.SEC_STATE, 16, 8, 0, .ro⟩
def SEC_STATE.SLOTS_USED : Fld := ⟨.SEC_STATE, 32, 13, 0, .ro⟩

/-! BOOT_STAT, BOOT block base 0x0300_0A10_0000 -/
def BOOT_STAT.STAGE : Fld := ⟨.BOOT_STAT, 0, 4, 0, .ro⟩
def BOOT_STAT.CIS_DONE : Fld := ⟨.BOOT_STAT, 4, 1, 0, .ro⟩
def BOOT_STAT.WAVES : Fld := ⟨.BOOT_STAT, 8, 3, 0, .ro⟩
def BOOT_STAT.SLATES_OK : Fld := ⟨.BOOT_STAT, 16, 16, 0, .ro⟩
def BOOT_STAT.READY_MS : Fld := ⟨.BOOT_STAT, 32, 16, 0, .ro⟩

/-! BOOT_CTL, BOOT block base 0x0300_0A10_0000 -/
def BOOT_CTL.STAGGER_MS : Fld := ⟨.BOOT_CTL, 0, 8, 0, .rw⟩
def BOOT_CTL.EXP_VALID : Fld := ⟨.BOOT_CTL, 8, 1, 0, .rw⟩

/-! BOOT_TOPO, BOOT block base 0x0300_0A10_0000 -/
def BOOT_TOPO.MISMATCH : Fld := ⟨.BOOT_TOPO, 0, 16, 0, .ro⟩
def BOOT_TOPO.UNCHECKED : Fld := ⟨.BOOT_TOPO, 16, 1, 0, .ro⟩
def BOOT_TOPO.ROW_CONS : Fld := ⟨.BOOT_TOPO, 17, 1, 0, .ro⟩
def BOOT_TOPO.COL_CONS : Fld := ⟨.BOOT_TOPO, 18, 1, 0, .ro⟩

/-! BOOT_EXP, BOOT block base 0x0300_0A10_0000 -/
def BOOT_EXP.PID : Fld := ⟨.BOOT_EXP, 0, 48, 0, .rw⟩
def BOOT_EXP.VARIANT : Fld := ⟨.BOOT_EXP, 48, 2, 0, .rw⟩
def BOOT_EXP.PRESENT : Fld := ⟨.BOOT_EXP, 50, 1, 0, .rw⟩

/-! RST_JOB, RST block base 0x0300_0A00_0000 -/
def RST_JOB.ABORTED : Fld := ⟨.RST_JOB, 0, 1, 0, .ro⟩
def RST_JOB.HOLD : Fld := ⟨.RST_JOB, 1, 1, 0, .ro⟩
def RST_JOB.STATUS : Fld := ⟨.RST_JOB, 8, 8, 0, .ro⟩
def RST_JOB.FENCE : Fld := ⟨.RST_JOB, 16, 16, 0, .ro⟩
def RST_JOB.FEPOCH : Fld := ⟨.RST_JOB, 32, 1, 0, .ro⟩
def RST_JOB.ORIGIN : Fld := ⟨.RST_JOB, 48, 16, 0, .ro⟩

/-! RST_STAT, RST block base 0x0300_0A00_0000 -/
def RST_STAT.COMP_BUSY : Fld := ⟨.RST_STAT, 0, 1, 0, .ro⟩
def RST_STAT.OFFLINE : Fld := ⟨.RST_STAT, 1, 1, 0, .ro⟩
def RST_STAT.COMP_COUNT : Fld := ⟨.RST_STAT, 8, 4, 0, .ro⟩
def RST_STAT.LAST_CAUSE : Fld := ⟨.RST_STAT, 16, 8, 0, .ro⟩

/-! RST_ESC, RST block base 0x0300_0A00_0000 -/
def RST_ESC.PART_N : Fld := ⟨.RST_ESC, 0, 4, 0, .rw⟩
def RST_ESC.PART_WIN_S : Fld := ⟨.RST_ESC, 8, 12, 0, .rw⟩
def RST_ESC.MOD_N : Fld := ⟨.RST_ESC, 24, 4, 0, .rw⟩
def RST_ESC.MOD_WIN_MIN : Fld := ⟨.RST_ESC, 32, 8, 0, .rw⟩
def RST_ESC.HOST_RESTORE : Fld := ⟨.RST_ESC, 40, 1, 0, .rw⟩

/-! RST_PART, RST block base 0x0300_0A00_0000 -/
def RST_PART.STATE : Fld := ⟨.RST_PART, 0, 2, 0, .ro⟩
def RST_PART.GEN : Fld := ⟨.RST_PART, 8, 8, 0, .ro⟩
def RST_PART.RESETS : Fld := ⟨.RST_PART, 16, 4, 0, .ro⟩
def RST_PART.LAST_CAUSE : Fld := ⟨.RST_PART, 24, 8, 0, .ro⟩

/-! RDR_STAT, RDR block base 0x0300_0B00_0000 -/
def RDR_STAT.LOAD : Fld := ⟨.RDR_STAT, 0, 8, 0, .ro⟩
def RDR_STAT.DECIM : Fld := ⟨.RDR_STAT, 8, 3, 0, .ro⟩
def RDR_STAT.MBX_BUSY : Fld := ⟨.RDR_STAT, 11, 1, 0, .ro⟩
def RDR_STAT.PAUSED : Fld := ⟨.RDR_STAT, 12, 1, 0, .ro⟩
def RDR_STAT.WDOG : Fld := ⟨.RDR_STAT, 16, 8, 0, .ro⟩

/-! RDR_WDOG, RDR block base 0x0300_0B00_0000 -/
def RDR_WDOG.KICK : Fld := ⟨.RDR_WDOG, 0, 1, 0, .w1s⟩

/-! UPD_STAT, UPD block base 0x0300_0B10_0000 -/
def UPD_STAT.STATE_A : Fld := ⟨.UPD_STAT, 0, 3, 0, .ro⟩
def UPD_STAT.STATE_B : Fld := ⟨.UPD_STAT, 3, 3, 0, .ro⟩
def UPD_STAT.RUNNING : Fld := ⟨.UPD_STAT, 6, 1, 0, .ro⟩
def UPD_STAT.PREFERRED : Fld := ⟨.UPD_STAT, 7, 1, 0, .ro⟩
def UPD_STAT.TRIAL : Fld := ⟨.UPD_STAT, 8, 1, 0, .ro⟩
def UPD_STAT.LAST : Fld := ⟨.UPD_STAT, 16, 8, 0, .ro⟩
def UPD_STAT.PROGRESS : Fld := ⟨.UPD_STAT, 24, 16, 0, .ro⟩

/-! UPD_BUILD, UPD block base 0x0300_0B10_0000 -/
def UPD_BUILD.RUN : Fld := ⟨.UPD_BUILD, 0, 32, 0, .ro⟩
def UPD_BUILD.OTHER : Fld := ⟨.UPD_BUILD, 32, 32, 0, .ro⟩

/-! RDR_TELE, RDR block base 0x0300_0B00_0000 -/
def RDR_TELE.PERIOD_MS : Fld := ⟨.RDR_TELE, 0, 14, 0, .rw⟩
def RDR_TELE.EN : Fld := ⟨.RDR_TELE, 14, 1, 0, .rw⟩

/-! TOP_PINS, TOP block base 0x0300_0000_0000 -/
def TOP_PINS.SLOT_BOOT : Fld := ⟨.TOP_PINS, 0, 6, 0, .ro⟩
def TOP_PINS.SLOT_NOW : Fld := ⟨.TOP_PINS, 6, 6, 0, .ro⟩
def TOP_PINS.PRESENCE : Fld := ⟨.TOP_PINS, 12, 1, 0, .ro⟩
def TOP_PINS.PERST0 : Fld := ⟨.TOP_PINS, 13, 1, 0, .ro⟩
def TOP_PINS.PERST1 : Fld := ⟨.TOP_PINS, 14, 1, 0, .ro⟩
def TOP_PINS.ALERT : Fld := ⟨.TOP_PINS, 15, 1, 0, .ro⟩
def TOP_PINS.THERMTRIP : Fld := ⟨.TOP_PINS, 16, 1, 0, .ro⟩
def TOP_PINS.SLOT_MOVED : Fld := ⟨.TOP_PINS, 17, 1, 0, .w1c⟩

def Reg.part0 : List Reg := [.TOP_MSIZE, .GAUGE_NOW, .GAUGE_SET, .GAUGE_CTL, .GAUGE_STAT, .CRS_STALE, .CRS_FUTURE, .CRS_NOW, .CRS_CHG, .CRS_CHG_AT, .CRS_LAG_LO, .CRS_LAG_HI, .CRS_LAG_STAT, .TOP_SITES_LO, .TOP_SITES_MID, .TOP_SITES_HI, .TSK_CFLT_A, .TSK_CFLT_B, .TSK_CFLT_C, .TSK_CFLT_D, .TOP_CIL, .TOP_CGRANT, .TOP_AWIN]
def Reg.part1 : List Reg := [.TSK_DMA_TMO, .TSK_SORD, .BTN_CNT, .BTN_HOSTOP, .BTN_DROP, .QM_CTX, .QM_DOORBELL, .QM_FLUSH, .QM_CANCEL, .TSK_TASK_TMO, .SLU_STR_CTL, .SLU_STR_STAT, .SLU_STR_PEER, .SLU_STR_CNT0, .SLU_STR_CNT1, .SLU_OPT_EXP, .SLU_SPARE, .RTE_SELF, .RTE_RSET_A, .RTE_RSET_B, .RTE_RACK, .RTE_SCHED_A, .RTE_SCHED_B]
def Reg.part2 : List Reg := [.RTE_BANKSW, .RTE_BANKSW_AT, .RTE_DROP0, .RTE_DROP1, .COL_GRP_A, .COL_GMASK, .COL_TRG, .COL_TRG_STAT, .COL_TMO, .COL_CNT, .HIF_POWN, .HIF_FN_A, .HIF_FN_B, .HIF_FN_C, .MBX_BIND, .MBX_CTL, .MBX_STAT, .MBX_LOCK, .MBX_TMO, .ECC_ERASE, .ECC_DIE_CNT, .ECC_CIS_STAT, .ECC_THR]
def Reg.part3 : List Reg := [.SCRB_CTL, .SCRB_STAT, .ECC_LOG_STAT, .ECC_LOG_SEL, .ECC_LOG_REC, .ECC_RAW_CTL, .ECC_RAW_DATA, .FEED_CTL, .FEED_STAT, .FEED_MEAS, .FEED_LAST, .PWC_CAP, .PWC_CAP_NEXT, .PWC_CAP_AT, .PWC_EFF, .PWC_VF, .PWC_CTL, .PWC_SHARE, .PWC_SLATE, .PWC_PHASE, .PWC_EN, .PWC_EN_P, .PWC_DINT]
def Reg.part4 : List Reg := [.PWC_SNAP, .PWC_CNT, .THM_SLATE, .THM_CIS, .THM_MISC, .SEC_ID, .SEC_KSLOT, .SEC_TDI, .SEC_STATE, .BOOT_STAT, .BOOT_CTL, .BOOT_TOPO, .BOOT_EXP, .RST_JOB, .RST_STAT, .RST_ESC, .RST_PART, .RDR_STAT, .RDR_WDOG, .UPD_STAT, .UPD_BUILD, .RDR_TELE, .TOP_PINS]
/-- Every register name, in the order of `Reg`. -/
def Reg.all : List Reg := [Reg.part0, Reg.part1, Reg.part2, Reg.part3, Reg.part4].flatten

/-- The number of a register name. -/
def Reg.num : Reg → Nat
  | .TOP_MSIZE => 0
  | .GAUGE_NOW => 1
  | .GAUGE_SET => 2
  | .GAUGE_CTL => 3
  | .GAUGE_STAT => 4
  | .CRS_STALE => 5
  | .CRS_FUTURE => 6
  | .CRS_NOW => 7
  | .CRS_CHG => 8
  | .CRS_CHG_AT => 9
  | .CRS_LAG_LO => 10
  | .CRS_LAG_HI => 11
  | .CRS_LAG_STAT => 12
  | .TOP_SITES_LO => 13
  | .TOP_SITES_MID => 14
  | .TOP_SITES_HI => 15
  | .TSK_CFLT_A => 16
  | .TSK_CFLT_B => 17
  | .TSK_CFLT_C => 18
  | .TSK_CFLT_D => 19
  | .TOP_CIL => 20
  | .TOP_CGRANT => 21
  | .TOP_AWIN => 22
  | .TSK_DMA_TMO => 23
  | .TSK_SORD => 24
  | .BTN_CNT => 25
  | .BTN_HOSTOP => 26
  | .BTN_DROP => 27
  | .QM_CTX => 28
  | .QM_DOORBELL => 29
  | .QM_FLUSH => 30
  | .QM_CANCEL => 31
  | .TSK_TASK_TMO => 32
  | .SLU_STR_CTL => 33
  | .SLU_STR_STAT => 34
  | .SLU_STR_PEER => 35
  | .SLU_STR_CNT0 => 36
  | .SLU_STR_CNT1 => 37
  | .SLU_OPT_EXP => 38
  | .SLU_SPARE => 39
  | .RTE_SELF => 40
  | .RTE_RSET_A => 41
  | .RTE_RSET_B => 42
  | .RTE_RACK => 43
  | .RTE_SCHED_A => 44
  | .RTE_SCHED_B => 45
  | .RTE_BANKSW => 46
  | .RTE_BANKSW_AT => 47
  | .RTE_DROP0 => 48
  | .RTE_DROP1 => 49
  | .COL_GRP_A => 50
  | .COL_GMASK => 51
  | .COL_TRG => 52
  | .COL_TRG_STAT => 53
  | .COL_TMO => 54
  | .COL_CNT => 55
  | .HIF_POWN => 56
  | .HIF_FN_A => 57
  | .HIF_FN_B => 58
  | .HIF_FN_C => 59
  | .MBX_BIND => 60
  | .MBX_CTL => 61
  | .MBX_STAT => 62
  | .MBX_LOCK => 63
  | .MBX_TMO => 64
  | .ECC_ERASE => 65
  | .ECC_DIE_CNT => 66
  | .ECC_CIS_STAT => 67
  | .ECC_THR => 68
  | .SCRB_CTL => 69
  | .SCRB_STAT => 70
  | .ECC_LOG_STAT => 71
  | .ECC_LOG_SEL => 72
  | .ECC_LOG_REC => 73
  | .ECC_RAW_CTL => 74
  | .ECC_RAW_DATA => 75
  | .FEED_CTL => 76
  | .FEED_STAT => 77
  | .FEED_MEAS => 78
  | .FEED_LAST => 79
  | .PWC_CAP => 80
  | .PWC_CAP_NEXT => 81
  | .PWC_CAP_AT => 82
  | .PWC_EFF => 83
  | .PWC_VF => 84
  | .PWC_CTL => 85
  | .PWC_SHARE => 86
  | .PWC_SLATE => 87
  | .PWC_PHASE => 88
  | .PWC_EN => 89
  | .PWC_EN_P => 90
  | .PWC_DINT => 91
  | .PWC_SNAP => 92
  | .PWC_CNT => 93
  | .THM_SLATE => 94
  | .THM_CIS => 95
  | .THM_MISC => 96
  | .SEC_ID => 97
  | .SEC_KSLOT => 98
  | .SEC_TDI => 99
  | .SEC_STATE => 100
  | .BOOT_STAT => 101
  | .BOOT_CTL => 102
  | .BOOT_TOPO => 103
  | .BOOT_EXP => 104
  | .RST_JOB => 105
  | .RST_STAT => 106
  | .RST_ESC => 107
  | .RST_PART => 108
  | .RDR_STAT => 109
  | .RDR_WDOG => 110
  | .UPD_STAT => 111
  | .UPD_BUILD => 112
  | .RDR_TELE => 113
  | .TOP_PINS => 114

/-- Where a register stands: offset of its first word from 0x0300_0000_0000, its array dimensions (stride, count) from the widest
stride down, and how many 64-bit words it has. -/
structure RegPlace where
  base : Nat
  dims : List (Nat × Nat)
  words : Nat
  deriving DecidableEq, Repr

/-- The place of each register. -/
def Reg.place : Reg → RegPlace
  | .TOP_MSIZE => ⟨0x40, [], 1⟩
  | .GAUGE_NOW => ⟨0x1000, [], 1⟩
  | .GAUGE_SET => ⟨0x1008, [], 1⟩
  | .GAUGE_CTL => ⟨0x1010, [], 1⟩
  | .GAUGE_STAT => ⟨0x1018, [], 1⟩
  | .CRS_STALE => ⟨0x2040, [], 1⟩
  | .CRS_FUTURE => ⟨0x2048, [], 1⟩
  | .CRS_NOW => ⟨0x2000, [], 1⟩
  | .CRS_CHG => ⟨0x2008, [], 1⟩
  | .CRS_CHG_AT => ⟨0x2010, [], 1⟩
  | .CRS_LAG_LO => ⟨0x2020, [], 1⟩
  | .CRS_LAG_HI => ⟨0x2028, [], 1⟩
  | .CRS_LAG_STAT => ⟨0x2030, [], 1⟩
  | .TOP_SITES_LO => ⟨0x200, [(0x20, 16)], 1⟩
  | .TOP_SITES_MID => ⟨0x208, [(0x20, 16)], 1⟩
  | .TOP_SITES_HI => ⟨0x210, [(0x20, 16)], 1⟩
  | .TSK_CFLT_A => ⟨0x180000, [(0x20, 2048)], 1⟩
  | .TSK_CFLT_B => ⟨0x180008, [(0x20, 2048)], 1⟩
  | .TSK_CFLT_C => ⟨0x180010, [(0x20, 2048)], 1⟩
  | .TSK_CFLT_D => ⟨0x180018, [(0x20, 2048)], 1⟩
  | .TOP_CIL => ⟨0x80, [], 1⟩
  | .TOP_CGRANT => ⟨0x400, [(0x20, 16), (0x8, 4)], 1⟩
  | .TOP_AWIN => ⟨0x800, [(0x40, 16), (0x8, 8)], 1⟩
  | .TSK_DMA_TMO => ⟨0x100800, [(0x8, 16)], 1⟩
  | .TSK_SORD => ⟨0x100880, [(0x8, 16)], 1⟩
  | .BTN_CNT => ⟨0x200000, [(0x8, 65536)], 1⟩
  | .BTN_HOSTOP => ⟨0x280000, [], 1⟩
  | .BTN_DROP => ⟨0x280008, [], 1⟩
  | .QM_CTX => ⟨0x40000000, [(0x20, 1048576)], 4⟩
  | .QM_DOORBELL => ⟨0x42000000, [], 1⟩
  | .QM_FLUSH => ⟨0x42000008, [], 1⟩
  | .QM_CANCEL => ⟨0x42000010, [], 1⟩
  | .TSK_TASK_TMO => ⟨0x100900, [(0x8, 16)], 1⟩
  | .SLU_STR_CTL => ⟨0x1000000, [(0x10000, 4), (0x40, 32)], 1⟩
  | .SLU_STR_STAT => ⟨0x1000008, [(0x10000, 4), (0x40, 32)], 1⟩
  | .SLU_STR_PEER => ⟨0x1000010, [(0x10000, 4), (0x40, 32)], 1⟩
  | .SLU_STR_CNT0 => ⟨0x1000018, [(0x10000, 4), (0x40, 32)], 1⟩
  | .SLU_STR_CNT1 => ⟨0x1000020, [(0x10000, 4), (0x40, 32)], 1⟩
  | .SLU_OPT_EXP => ⟨0x1000028, [(0x10000, 4), (0x40, 32)], 1⟩
  | .SLU_SPARE => ⟨0x1000800, [(0x10000, 4)], 1⟩
  | .RTE_SELF => ⟨0x2000000, [], 1⟩
  | .RTE_RSET_A => ⟨0x2001000, [(0x40, 16)], 1⟩
  | .RTE_RSET_B => ⟨0x2001008, [(0x40, 16)], 1⟩
  | .RTE_RACK => ⟨0x2020000, [(0x100, 16), (0x8, 32)], 1⟩
  | .RTE_SCHED_A => ⟨0x2100000, [(0x10, 4096)], 1⟩
  | .RTE_SCHED_B => ⟨0x2100008, [(0x10, 4096)], 1⟩
  | .RTE_BANKSW => ⟨0x2000010, [], 1⟩
  | .RTE_BANKSW_AT => ⟨0x2000018, [], 1⟩
  | .RTE_DROP0 => ⟨0x2000020, [], 1⟩
  | .RTE_DROP1 => ⟨0x2000028, [], 1⟩
  | .COL_GRP_A => ⟨0x3000000, [(0x40, 1024)], 1⟩
  | .COL_GMASK => ⟨0x3000008, [(0x40, 1024), (0x8, 4)], 1⟩
  | .COL_TRG => ⟨0x3100000, [(0x40, 4096)], 8⟩
  | .COL_TRG_STAT => ⟨0x3200000, [(0x8, 4096)], 1⟩
  | .COL_TMO => ⟨0x3010000, [(0x8, 16)], 1⟩
  | .COL_CNT => ⟨0x3010100, [], 1⟩
  | .HIF_POWN => ⟨0x5000100, [(0x8, 16)], 1⟩
  | .HIF_FN_A => ⟨0x5010000, [(0x20, 1027)], 1⟩
  | .HIF_FN_B => ⟨0x5010008, [(0x20, 1027)], 1⟩
  | .HIF_FN_C => ⟨0x5010010, [(0x20, 1027)], 1⟩
  | .MBX_BIND => ⟨0x6040000, [(0x8, 64)], 1⟩
  | .MBX_CTL => ⟨0x6000080, [(0x1000, 64)], 1⟩
  | .MBX_STAT => ⟨0x6000088, [(0x1000, 64)], 1⟩
  | .MBX_LOCK => ⟨0x6000090, [(0x1000, 64)], 1⟩
  | .MBX_TMO => ⟨0x6000098, [(0x1000, 64)], 1⟩
  | .ECC_ERASE => ⟨0x7000000, [(0x8, 16)], 1⟩
  | .ECC_DIE_CNT => ⟨0x7001000, [(0x100, 16), (0x8, 18)], 1⟩
  | .ECC_CIS_STAT => ⟨0x7000100, [(0x8, 16)], 1⟩
  | .ECC_THR => ⟨0x7003000, [], 1⟩
  | .SCRB_CTL => ⟨0x7100000, [], 1⟩
  | .SCRB_STAT => ⟨0x7100008, [], 1⟩
  | .ECC_LOG_STAT => ⟨0x7005000, [], 1⟩
  | .ECC_LOG_SEL => ⟨0x7005008, [], 1⟩
  | .ECC_LOG_REC => ⟨0x7005040, [(0x8, 8)], 1⟩
  | .ECC_RAW_CTL => ⟨0x7004000, [], 1⟩
  | .ECC_RAW_DATA => ⟨0x7004008, [(0x8, 9)], 1⟩
  | .FEED_CTL => ⟨0x8000000, [], 1⟩
  | .FEED_STAT => ⟨0x8000008, [], 1⟩
  | .FEED_MEAS => ⟨0x8000010, [(0x8, 2)], 1⟩
  | .FEED_LAST => ⟨0x8000020, [], 1⟩
  | .PWC_CAP => ⟨0x8100000, [], 1⟩
  | .PWC_CAP_NEXT => ⟨0x8100008, [], 1⟩
  | .PWC_CAP_AT => ⟨0x8100010, [], 1⟩
  | .PWC_EFF => ⟨0x8100018, [], 1⟩
  | .PWC_VF => ⟨0x8100400, [(0x80, 16), (0x8, 16)], 1⟩
  | .PWC_CTL => ⟨0x8100020, [], 1⟩
  | .PWC_SHARE => ⟨0x8100100, [(0x8, 16)], 1⟩
  | .PWC_SLATE => ⟨0x8100200, [(0x8, 16)], 1⟩
  | .PWC_PHASE => ⟨0x8110000, [(0x800, 16), (0x8, 256)], 1⟩
  | .PWC_EN => ⟨0x8102000, [(0x8, 3)], 1⟩
  | .PWC_EN_P => ⟨0x8102100, [(0x8, 16)], 1⟩
  | .PWC_DINT => ⟨0x8102200, [], 1⟩
  | .PWC_SNAP => ⟨0x8102400, [(0x100, 2)], 32⟩
  | .PWC_CNT => ⟨0x8102300, [], 1⟩
  | .THM_SLATE => ⟨0x8200000, [(0x8, 16)], 1⟩
  | .THM_CIS => ⟨0x8200080, [(0x8, 16)], 1⟩
  | .THM_MISC => ⟨0x8200100, [], 1⟩
  | .SEC_ID => ⟨0x9000000, [], 1⟩
  | .SEC_KSLOT => ⟨0x9001000, [(0x8, 4096)], 1⟩
  | .SEC_TDI => ⟨0x9009000, [(0x8, 1024)], 1⟩
  | .SEC_STATE => ⟨0x9000008, [], 1⟩
  | .BOOT_STAT => ⟨0xA100000, [], 1⟩
  | .BOOT_CTL => ⟨0xA100008, [], 1⟩
  | .BOOT_TOPO => ⟨0xA100010, [], 1⟩
  | .BOOT_EXP => ⟨0xA100100, [(0x8, 16)], 1⟩
  | .RST_JOB => ⟨0xA000200, [(0x8, 16)], 1⟩
  | .RST_STAT => ⟨0xA000000, [], 1⟩
  | .RST_ESC => ⟨0xA000008, [], 1⟩
  | .RST_PART => ⟨0xA000100, [(0x8, 16)], 1⟩
  | .RDR_STAT => ⟨0xB000000, [], 1⟩
  | .RDR_WDOG => ⟨0xB000008, [], 1⟩
  | .UPD_STAT => ⟨0xB100000, [], 1⟩
  | .UPD_BUILD => ⟨0xB100008, [], 1⟩
  | .RDR_TELE => ⟨0xB000010, [], 1⟩
  | .TOP_PINS => ⟨0xC0, [], 1⟩

/-- The fields of each register. -/
def Reg.fields : Reg → List Fld
  | .TOP_MSIZE => [TOP_MSIZE.RACKS_M1, TOP_MSIZE.BOARDS_M1, TOP_MSIZE.MODS_M1, TOP_MSIZE.OPT_PLANES, TOP_MSIZE.CORES, TOP_MSIZE.COURSE_K]
  | .GAUGE_NOW => [GAUGE_NOW.NOW]
  | .GAUGE_SET => [GAUGE_SET.VALUE]
  | .GAUGE_CTL => [GAUGE_CTL.SYNC_EN, GAUGE_CTL.ROOT_ELIG, GAUGE_CTL.LOCK]
  | .GAUGE_STAT => [GAUGE_STAT.STATE, GAUGE_STAT.IS_ROOT, GAUGE_STAT.STEPPED, GAUGE_STAT.WRAPPED, GAUGE_STAT.PARENT_LINK, GAUGE_STAT.HOPS, GAUGE_STAT.ROOT_EPN, GAUGE_STAT.OFFSET]
  | .CRS_STALE => [CRS_STALE.COUNT]
  | .CRS_FUTURE => [CRS_FUTURE.COUNT]
  | .CRS_NOW => [CRS_NOW.COURSE]
  | .CRS_CHG => [CRS_CHG.K_NEXT, CRS_CHG.ARM, CRS_CHG.CANCEL, CRS_CHG.STATUS, CRS_CHG.EPOCH, CRS_CHG.K_PREV]
  | .CRS_CHG_AT => [CRS_CHG_AT.AT]
  | .CRS_LAG_LO => [CRS_LAG_LO.LO]
  | .CRS_LAG_HI => [CRS_LAG_HI.HI]
  | .CRS_LAG_STAT => [CRS_LAG_STAT.FILL, CRS_LAG_STAT.LOST]
  | .TOP_SITES_LO => [TOP_SITES_LO.SITES]
  | .TOP_SITES_MID => [TOP_SITES_MID.SITES]
  | .TOP_SITES_HI => [TOP_SITES_HI.SITES, TOP_SITES_HI.SPARE, TOP_SITES_HI.FUSED_OFF, TOP_SITES_HI.RUN_OFF, TOP_SITES_HI.OK]
  | .TSK_CFLT_A => [TSK_CFLT_A.VALID, TSK_CFLT_A.PRECISE, TSK_CFLT_A.ENGINE, TSK_CFLT_A.MORE, TSK_CFLT_A.CAUSE, TSK_CFLT_A.STATUS, TSK_CFLT_A.PC]
  | .TSK_CFLT_B => [TSK_CFLT_B.INSTR, TSK_CFLT_B.TRAPCODE]
  | .TSK_CFLT_C => [TSK_CFLT_C.ADDR]
  | .TSK_CFLT_D => [TSK_CFLT_D.JOB, TSK_CFLT_D.GEN]
  | .TOP_CIL => [TOP_CIL.MODE, TOP_CIL.GRAN]
  | .TOP_CGRANT => [TOP_CGRANT.EN, TOP_CGRANT.BASE_GIB, TOP_CGRANT.LIMIT_GIB]
  | .TOP_AWIN => [TOP_AWIN.EN, TOP_AWIN.BASE_MIB, TOP_AWIN.LIMIT_MIB, TOP_AWIN.ANCHOR, TOP_AWIN.UNDERRUN, TOP_AWIN.OVERFLOW, TOP_AWIN.NAN]
  | .TSK_DMA_TMO => [TSK_DMA_TMO.COURSES]
  | .TSK_SORD => [TSK_SORD.RCACHE_EN]
  | .BTN_CNT => [BTN_CNT.COUNT]
  | .BTN_HOSTOP => [BTN_HOSTOP.BATTEN, BTN_HOSTOP.OP, BTN_HOSTOP.OPERAND]
  | .BTN_DROP => [BTN_DROP.COUNT]
  | .QM_CTX => [QM_CTX.EN, QM_CTX.TYPE, QM_CTX.SLATE, QM_CTX.PRIO, QM_CTX.LOG2_E, QM_CTX.PART, QM_CTX.OWNER, QM_CTX.VEC, QM_CTX.VEC_EN, QM_CTX.BASE, QM_CTX.PROD, QM_CTX.CONS, QM_CTX.STATE, QM_CTX.BAD_DB, QM_CTX.LAST_CANCEL, QM_CTX.SHADOW, QM_CTX.SHADOW_EN]
  | .QM_DOORBELL => [QM_DOORBELL.QUEUE, QM_DOORBELL.INDEX]
  | .QM_FLUSH => [QM_FLUSH.QUEUE]
  | .QM_CANCEL => [QM_CANCEL.QUEUE, QM_CANCEL.INDEX]
  | .TSK_TASK_TMO => [TSK_TASK_TMO.COURSES]
  | .SLU_STR_CTL => [SLU_STR_CTL.EN, SLU_STR_CTL.RETRAIN, SLU_STR_CTL.LOOP]
  | .SLU_STR_STAT => [SLU_STR_STAT.STATE, SLU_STR_STAT.LANES_OK, SLU_STR_STAT.SPARED, SLU_STR_STAT.SPARED_POS, SLU_STR_STAT.FAST, SLU_STR_STAT.ATTEMPTS, SLU_STR_STAT.FLIGHT, SLU_STR_STAT.PLINK, SLU_STR_STAT.PDIE]
  | .SLU_STR_PEER => [SLU_STR_PEER.PID, SLU_STR_PEER.EPN]
  | .SLU_STR_CNT0 => [SLU_STR_CNT0.FEC_SYM, SLU_STR_CNT0.FEC_UNC, SLU_STR_CNT0.CRC_BAD]
  | .SLU_STR_CNT1 => [SLU_STR_CNT1.REPLAY, SLU_STR_CNT1.STALL, SLU_STR_CNT1.RETRAINS, SLU_STR_CNT1.SWAPS]
  | .SLU_OPT_EXP => [SLU_OPT_EXP.EXP_PID, SLU_OPT_EXP.EXP_LINK, SLU_OPT_EXP.EXP_VALID]
  | .SLU_SPARE => [SLU_SPARE.LANE0, SLU_SPARE.USE0, SLU_SPARE.LANE1, SLU_SPARE.USE1, SLU_SPARE.LANE2, SLU_SPARE.USE2, SLU_SPARE.LANE3, SLU_SPARE.USE3]
  | .RTE_SELF => [RTE_SELF.EPN, RTE_SELF.RACK, RTE_SELF.RACK_VALID, RTE_SELF.BOARD, RTE_SELF.SLOT]
  | .RTE_RSET_A => [RTE_RSET_A.VALID, RTE_RSET_A.MODE, RTE_RSET_A.ORD_DETOUR, RTE_RSET_A.KGEN_TX, RTE_RSET_A.KGEN_RX, RTE_RSET_A.JOB, RTE_RSET_A.KEY]
  | .RTE_RSET_B => [RTE_RSET_B.BOARD_LO, RTE_RSET_B.BOARD_HI, RTE_RSET_B.SLOT_LO, RTE_RSET_B.SLOT_HI, RTE_RSET_B.ORD_CHANS_M1]
  | .RTE_RACK => [RTE_RACK.RACK_0, RTE_RACK.RACK_1, RTE_RACK.RACK_2, RTE_RACK.RACK_3, RTE_RACK.RACK_4, RTE_RACK.RACK_5, RTE_RACK.RACK_6, RTE_RACK.RACK_7]
  | .RTE_SCHED_A => [RTE_SCHED_A.VALID, RTE_SCHED_A.BANK, RTE_SCHED_A.TRANSIT, RTE_SCHED_A.RSET, RTE_SCHED_A.LINK, RTE_SCHED_A.STRANDS, RTE_SCHED_A.PERIOD_LOG2, RTE_SCHED_A.PHASE]
  | .RTE_SCHED_B => [RTE_SCHED_B.SLOTS]
  | .RTE_BANKSW => [RTE_BANKSW.ARM, RTE_BANKSW.CANCEL, RTE_BANKSW.STATUS, RTE_BANKSW.ACTIVE]
  | .RTE_BANKSW_AT => [RTE_BANKSW_AT.AT]
  | .RTE_DROP0 => [RTE_DROP0.BAD_HDR, RTE_DROP0.FOREIGN, RTE_DROP0.NO_ROUTE, RTE_DROP0.AUTH]
  | .RTE_DROP1 => [RTE_DROP1.LATE, RTE_DROP1.DENIED, RTE_DROP1.PARKED]
  | .COL_GRP_A => [COL_GRP_A.VALID, COL_GRP_A.AXIS, COL_GRP_A.RSET, COL_GRP_A.LO, COL_GRP_A.HI, COL_GRP_A.ROOT]
  | .COL_GMASK => [COL_GMASK.RACKS]
  | .COL_TRG => [COL_TRG.OP, COL_TRG.DTYPE, COL_TRG.YELM_LOG2, COL_TRG.SCHED, COL_TRG.CHAIN, COL_TRG.REARM, COL_TRG.GROUP, COL_TRG.NEXT, COL_TRG.TRIG_BTN, COL_TRG.TRIG_COUNT, COL_TRG.DONE_BTN, COL_TRG.DONE_EN, COL_TRG.TRIG_EN, COL_TRG.SRC, COL_TRG.DST, COL_TRG.SRC_TAGS, COL_TRG.RES_TAGS, COL_TRG.BYTES, COL_TRG.COUNT_STEP, COL_TRG.DEADLINE, COL_TRG.DL_STEP]
  | .COL_TRG_STAT => [COL_TRG_STAT.STATE, COL_TRG_STAT.ARM, COL_TRG_STAT.DISARM, COL_TRG_STAT.INST, COL_TRG_STAT.STATUS, COL_TRG_STAT.WAFLAGS, COL_TRG_STAT.RESENDS]
  | .COL_TMO => [COL_TMO.COURSES]
  | .COL_CNT => [COL_CNT.CRC_BAD, COL_CNT.STRAY, COL_CNT.RESID, COL_CNT.TMO]
  | .HIF_POWN => [HIF_POWN.OWNER, HIF_POWN.SLATES, HIF_POWN.BOUND]
  | .HIF_FN_A => [HIF_FN_A.APBASE_GIB]
  | .HIF_FN_B => [HIF_FN_B.EVEC, HIF_FN_B.EVEC_EN, HIF_FN_B.IMOD_US, HIF_FN_B.CFREE]
  | .HIF_FN_C => [HIF_FN_C.BAD_ACCESS, HIF_FN_C.CPY_DROP, HIF_FN_C.IRQ_LOST]
  | .MBX_BIND => [MBX_BIND.IDENT, MBX_BIND.VEC, MBX_BIND.VEC_EN]
  | .MBX_CTL => [MBX_CTL.SEND, MBX_CTL.POP, MBX_CTL.RESET]
  | .MBX_STAT => [MBX_STAT.REQ_FILL, MBX_STAT.RSP_FILL, MBX_STAT.FULL, MBX_STAT.RSP_VALID, MBX_STAT.TMO, MBX_STAT.LATE, MBX_STAT.LAST]
  | .MBX_LOCK => [MBX_LOCK.HOLDER, MBX_LOCK.HELD, MBX_LOCK.TOKEN, MBX_LOCK.TAKE, MBX_LOCK.GIVE]
  | .MBX_TMO => [MBX_TMO.MS]
  | .ECC_ERASE => [ECC_ERASE.DIE, ECC_ERASE.VALID]
  | .ECC_DIE_CNT => [ECC_DIE_CNT.CORR, ECC_DIE_CNT.EDC]
  | .ECC_CIS_STAT => [ECC_CIS_STAT.UNCORR, ECC_CIS_STAT.POISON_RD, ECC_CIS_STAT.TWO_DIE]
  | .ECC_THR => [ECC_THR.DIE_MARK, ECC_THR.ROW, ECC_THR.CIS_FAIL]
  | .SCRB_CTL => [SCRB_CTL.CIS_EN, SCRB_CTL.TIER_EN, SCRB_CTL.SCR_EN, SCRB_CTL.CIS_PASS_H, SCRB_CTL.TIER_PASS_MIN, SCRB_CTL.SCR_PASS_MIN]
  | .SCRB_STAT => [SCRB_STAT.CIS_PASSES, SCRB_STAT.TIER_PASSES]
  | .ECC_LOG_STAT => [ECC_LOG_STAT.NEXT_SEQ, ECC_LOG_STAT.LOST]
  | .ECC_LOG_SEL => [ECC_LOG_SEL.SEQ, ECC_LOG_SEL.HELD]
  | .ECC_LOG_REC => [ECC_LOG_REC.WORD]
  | .ECC_RAW_CTL => [ECC_RAW_CTL.ADDR, ECC_RAW_CTL.WRITE, ECC_RAW_CTL.GO, ECC_RAW_CTL.BUSY, ECC_RAW_CTL.HOLD, ECC_RAW_CTL.STATUS]
  | .ECC_RAW_DATA => [ECC_RAW_DATA.DATA]
  | .FEED_CTL => [FEED_CTL.RETURN_MS]
  | .FEED_STAT => [FEED_STAT.COND, FEED_STAT.A_OK, FEED_STAT.B_OK, FEED_STAT.HELD, FEED_STAT.STABLE, FEED_STAT.A_PILOT_LOST, FEED_STAT.B_PILOT_LOST, FEED_STAT.RAMP_REQ, FEED_STAT.A_CLAIM, FEED_STAT.B_CLAIM, FEED_STAT.SWITCHES]
  | .FEED_MEAS => [FEED_MEAS.MV, FEED_MEAS.DECIAMP]
  | .FEED_LAST => [FEED_LAST.GAUGE]
  | .PWC_CAP => [PWC_CAP.GRID_W, PWC_CAP.JOB_W, PWC_CAP.BOARD_W]
  | .PWC_CAP_NEXT => [PWC_CAP_NEXT.GRID_W, PWC_CAP_NEXT.ARM, PWC_CAP_NEXT.CANCEL, PWC_CAP_NEXT.STATUS]
  | .PWC_CAP_AT => [PWC_CAP_AT.AT]
  | .PWC_EFF => [PWC_EFF.EFF_W, PWC_EFF.LIMIT, PWC_EFF.P1MS_W, PWC_EFF.P1S_W]
  | .PWC_VF => [PWC_VF.FREQ_MHZ, PWC_VF.VOLT_MV, PWC_VF.VALID]
  | .PWC_CTL => [PWC_CTL.INTERVAL, PWC_CTL.RAMP_RATE, PWC_CTL.RAMP_EN, PWC_CTL.LEARN_EN, PWC_CTL.RAMP_HOLD_MS, PWC_CTL.RAMP]
  | .PWC_SHARE => [PWC_SHARE.SHARE_W]
  | .PWC_SLATE => [PWC_SLATE.POINT, PWC_SLATE.CEIL, PWC_SLATE.PHASE, PWC_SLATE.LAG, PWC_SLATE.IDLE, PWC_SLATE.POWER_W, PWC_SLATE.PRED_W]
  | .PWC_PHASE => [PWC_PHASE.C, PWC_PHASE.SAMPLES]
  | .PWC_EN => [PWC_EN.MJ]
  | .PWC_EN_P => [PWC_EN_P.MJ]
  | .PWC_DINT => [PWC_DINT.PERIOD_S, PWC_DINT.SNAP, PWC_DINT.LATEST, PWC_DINT.SEQ]
  | .PWC_SNAP => [PWC_SNAP.WORD]
  | .PWC_CNT => [PWC_CNT.FASTLIM, PWC_CNT.COMP_SHORT, PWC_CNT.BREACH]
  | .THM_SLATE => [THM_SLATE.MAX_C, THM_SLATE.THR_C, THM_SLATE.THROTTLE, THM_SLATE.TRIP]
  | .THM_CIS => [THM_CIS.MAX_C, THM_CIS.THR_C, THM_CIS.THROTTLE, THM_CIS.TRIP]
  | .THM_MISC => [THM_MISC.SLUICE_C, THM_MISC.OPTIC_C, THM_MISC.RIDER_C, THM_MISC.INLET_C, THM_MISC.OUTLET_C, THM_MISC.COOLANT_ALERT]
  | .SEC_ID => [SEC_ID.PID, SEC_ID.VARIANT, SEC_ID.STEP]
  | .SEC_KSLOT => [SEC_KSLOT.JOB, SEC_KSLOT.GEN0, SEC_KSLOT.GEN1, SEC_KSLOT.NDATA, SEC_KSLOT.KCV]
  | .SEC_TDI => [SEC_TDI.STATE, SEC_TDI.STREAM_VALID, SEC_TDI.STREAM]
  | .SEC_STATE => [SEC_STATE.PRESENCE, SEC_STATE.DEBUG, SEC_STATE.RECOVERY, SEC_STATE.FABRIC_KEY, SEC_STATE.REQ_MUTUAL, SEC_STATE.SP_SVN, SEC_STATE.RIDER_SVN, SEC_STATE.SLOTS_USED]
  | .BOOT_STAT => [BOOT_STAT.STAGE, BOOT_STAT.CIS_DONE, BOOT_STAT.WAVES, BOOT_STAT.SLATES_OK, BOOT_STAT.READY_MS]
  | .BOOT_CTL => [BOOT_CTL.STAGGER_MS, BOOT_CTL.EXP_VALID]
  | .BOOT_TOPO => [BOOT_TOPO.MISMATCH, BOOT_TOPO.UNCHECKED, BOOT_TOPO.ROW_CONS, BOOT_TOPO.COL_CONS]
  | .BOOT_EXP => [BOOT_EXP.PID, BOOT_EXP.VARIANT, BOOT_EXP.PRESENT]
  | .RST_JOB => [RST_JOB.ABORTED, RST_JOB.HOLD, RST_JOB.STATUS, RST_JOB.FENCE, RST_JOB.FEPOCH, RST_JOB.ORIGIN]
  | .RST_STAT => [RST_STAT.COMP_BUSY, RST_STAT.OFFLINE, RST_STAT.COMP_COUNT, RST_STAT.LAST_CAUSE]
  | .RST_ESC => [RST_ESC.PART_N, RST_ESC.PART_WIN_S, RST_ESC.MOD_N, RST_ESC.MOD_WIN_MIN, RST_ESC.HOST_RESTORE]
  | .RST_PART => [RST_PART.STATE, RST_PART.GEN, RST_PART.RESETS, RST_PART.LAST_CAUSE]
  | .RDR_STAT => [RDR_STAT.LOAD, RDR_STAT.DECIM, RDR_STAT.MBX_BUSY, RDR_STAT.PAUSED, RDR_STAT.WDOG]
  | .RDR_WDOG => [RDR_WDOG.KICK]
  | .UPD_STAT => [UPD_STAT.STATE_A, UPD_STAT.STATE_B, UPD_STAT.RUNNING, UPD_STAT.PREFERRED, UPD_STAT.TRIAL, UPD_STAT.LAST, UPD_STAT.PROGRESS]
  | .UPD_BUILD => [UPD_BUILD.RUN, UPD_BUILD.OTHER]
  | .RDR_TELE => [RDR_TELE.PERIOD_MS, RDR_TELE.EN]
  | .TOP_PINS => [TOP_PINS.SLOT_BOOT, TOP_PINS.SLOT_NOW, TOP_PINS.PRESENCE, TOP_PINS.PERST0, TOP_PINS.PERST1, TOP_PINS.ALERT, TOP_PINS.THERMTRIP, TOP_PINS.SLOT_MOVED]

/-- The value a word of a register has at reset; `i` is the register's index times its number of words, plus the word. -/
def Reg.reset (r : Reg) (i : Nat) : Word :=
  match r with
  | .TOP_MSIZE => BitVec.ofNat 64 (0x800 * 2 ^ 32 + 0xC * 2 ^ 48)
  | .GAUGE_CTL => BitVec.ofNat 64 (0x1 + 0x1 * 2 ^ 1)
  | .GAUGE_STAT => BitVec.ofNat 64 (0xFF * 2 ^ 8 + 0xFFFF * 2 ^ 32)
  | .CRS_CHG => BitVec.ofNat 64 (0xC + 0xC * 2 ^ 32)
  | .TOP_CIL => BitVec.ofNat 64 (0x1 * 2 ^ 4)
  | .TSK_DMA_TMO => BitVec.ofNat 64 (0x400)
  | .TSK_SORD => BitVec.ofNat 64 (0x1)
  | .TSK_TASK_TMO => BitVec.ofNat 64 (0x1000)
  | .SLU_STR_CTL => BitVec.ofNat 64 (0x1)
  | .SLU_STR_STAT => BitVec.ofNat 64 (0x1 + 0xFF * 2 ^ 32)
  | .SLU_STR_PEER => BitVec.ofNat 64 (0xFFFF * 2 ^ 48)
  | .RTE_SELF => BitVec.ofNat 64 (0xFFFF)
  | .RTE_RSET_A => BitVec.ofNat 64 (0x1 * 2 ^ 4)
  | .RTE_SCHED_A => BitVec.ofNat 64 (0xFF * 2 ^ 8 + 0xF * 2 ^ 16)
  | .COL_TMO => BitVec.ofNat 64 (0x400)
  | .HIF_FN_B => BitVec.ofNat 64 ((if i ≥ 0x401 then 256 else 32) * 2 ^ 32)
  | .MBX_BIND => BitVec.ofNat 64 ((if i = 0 then 0x401 else if i = 1 then 0x402 else 0))
  | .MBX_TMO => BitVec.ofNat 64 (0xA)
  | .ECC_THR => BitVec.ofNat 64 (0x1000 + 0x8 * 2 ^ 16 + 0x400 * 2 ^ 32)
  | .SCRB_CTL => BitVec.ofNat 64 (0x1 + 0x1 * 2 ^ 1 + 0x1 * 2 ^ 2 + 0x18 * 2 ^ 8 + 0x3C * 2 ^ 16 + 0xA * 2 ^ 32)
  | .FEED_CTL => BitVec.ofNat 64 (0x1F4)
  | .PWC_EFF => BitVec.ofNat 64 (0x1B58)
  | .PWC_VF => BitVec.ofNat 64 ((Config.vfFreq (i % 16)) + (Config.vfVolt (i % 16)) * 2 ^ 12 + (Config.vfValid (i % 16)) * 2 ^ 24)
  | .PWC_CTL => BitVec.ofNat 64 (0x20 + 0xC8 * 2 ^ 16 + 0x1 * 2 ^ 30 + 0x3E8 * 2 ^ 32)
  | .PWC_SLATE => BitVec.ofNat 64 ((Config.vfTop) * 2 ^ 4 + 0x1 * 2 ^ 20)
  | .PWC_PHASE => BitVec.ofNat 64 ((Config.phaseC))
  | .PWC_DINT => BitVec.ofNat 64 (0x384)
  | .THM_SLATE => BitVec.ofNat 64 (0x5F * 2 ^ 8)
  | .THM_CIS => BitVec.ofNat 64 (0x55 * 2 ^ 8)
  | .SEC_ID => BitVec.ofNat 64 ((Config.pid) + (Config.variant) * 2 ^ 48 + (Config.step) * 2 ^ 50)
  | .BOOT_STAT => BitVec.ofNat 64 (0x1)
  | .BOOT_CTL => BitVec.ofNat 64 (0x14)
  | .RST_JOB => BitVec.ofNat 64 (0xFFFF * 2 ^ 48)
  | .RST_ESC => BitVec.ofNat 64 (0x4 + 0x3C * 2 ^ 8 + 0x3 * 2 ^ 24 + 0xA * 2 ^ 32)
  | .RDR_TELE => BitVec.ofNat 64 (0x64 + 0x1 * 2 ^ 14)
  | _ => 0

/-- The key under which `State.regs` lists a word of a register. -/
def Reg.key (r : Reg) (i : Nat) : Nat := i * 256 + r.num

/-- The register a key belongs to. -/
def Reg.ofKey (k : Nat) : Reg := Reg.all.getD (k % 256) .TOP_MSIZE

/-- The reset value of the word listed under a key. -/
def Reg.resetAt (k : Nat) : Word := Reg.reset (Reg.ofKey k) (k / 256)

/-- The index that an offset has in an array of registers, and what of the offset is left. -/
def RegPlace.locate : List (Nat × Nat) → Nat → Nat → Option (Nat × Nat)
  | [], acc, d => some (acc, d)
  | (st, n) :: ds, acc, d => if d / st < n then RegPlace.locate ds (acc * n + d / st) (d % st) else none

/-- The word of the register `r` at an offset from 0x0300_0000_0000, if the offset is one of its words. -/
def Reg.at? (r : Reg) (off : Nat) : Option Nat :=
  let p := r.place
  if off < p.base then none else
    match RegPlace.locate p.dims 0 (off - p.base) with
    | none => none
    | some (i, d) => if d % 8 = 0 ∧ d / 8 < p.words then some (i * p.words + d / 8) else none

/-- The register word at an offset from 0x0300_0000_0000. -/
def Reg.find (off : Nat) : Option (Reg × Nat) := Reg.all.findSome? fun r => (r.at? off).map fun i => (r, i)

/-- The bits of a word of a register whose fields have one of the access types. -/
def Reg.mask (r : Reg) (word : Nat) (a : Acc) : Nat :=
  ((r.fields.filter fun f => f.word = word ∧ f.acc = a).map fun f => (2 ^ f.w - 1) * 2 ^ f.lo).sum

end Sys2Proof
end

