-- ==== Sys2Proof/Machine/State.lean ====
section
/-!
DEFINITION. Machine/State.lean: the state of the module as plain data, block by block, the queue of commands that wait, the reasons to
stop, and the state after reset. Registers of control space are held in `State.regs`; what no register shows is held here.
-/
namespace Sys2Proof.Machine

/-! ## The gauge and the course (02) -/

/-- What a LINK time message carries (R34, R253): the sender's stamps in 1/16 ns, its k and epoch, its root, hops and EPN. -/
structure TimeView where
  rootEpn : Nat
  hops : Nat
  epn : Nat
  k : Nat
  epoch : Bool
  deriving DecidableEq, Repr

/-- What the module keeps of the time exchange on one peer link (R33, R34, R47). -/
structure LinkTime where
  /-- The clock of the last request sent (R34). -/
  asked : Option Nat := none
  /-- A request is out, with its t1 in 1/16 ns. -/
  sent : Option Nat := none
  /-- The tuple and the (k, epoch) of the last reply. -/
  view : Option TimeView := none
  /-- The last offset, in 1/16 ns, and the last delay, in ns. -/
  offset : Int := 0
  delay : Nat := 0
  /-- Consecutive exchanges whose (k, epoch) differed (R47). -/
  differ : Nat := 0
  /-- SCHED traffic is stopped on the link (R47). -/
  stopped : Bool := false
  deriving DecidableEq, Repr

/-- The gauge and its discipline (R31 to R38). -/
structure GaugeSt where
  now : Word := 0
  /-- A load of GAUGE_SET that takes effect at the next nanosecond (R32). -/
  load : Option Word := none
  /-- The rate correction, in parts per billion, at most 20,000 either way (R35), and what it has gathered of a nanosecond, in 10^-9 ns. -/
  rate : Int := 0
  slew : Int := 0
  links : SMap LinkTime := []
  /-- Consecutive exchanges with the parent within 5 ns, and beyond 250 ns (R37). -/
  good : Nat := 0
  bad : Nat := 0
  /-- The clock at which HOLDOVER was entered (R37). -/
  holdover : Option Nat := none
  /-- SCHED traffic and collective launches are stopped (R38). -/
  stopped : Bool := false
  deriving DecidableEq, Repr

/-- An event of a course for the lag reports (R48). -/
structure LagEvent where
  /-- Who reports: a sluice die 0 to 3, or 4 plus the slate of a dispatcher. -/
  unit : Nat
  job : Nat
  kind : Nat
  link : Nat
  slate : Nat
  amount : Nat
  count : Nat
  deriving DecidableEq, Repr

/-- The course's own state beside its registers (R39 to R49). -/
structure CourseSt where
  /-- The course number whose boundary was last processed. -/
  last : Nat := 0
  /-- The gauge of the last switch; none before the first (R45). -/
  prevSwitch : Option Nat := none
  /-- The stamps of the previous epoch are all stale (R45). -/
  oldStale : Bool := false
  lagFifo : List (BitVec 128) := []
  lagEvents : List LagEvent := []
  deriving DecidableEq, Repr

/-! ## Stored data and the error log (13) -/

/-- The severities of an error record (R363). -/
inductive Sev where
  | corrected | deferred | partitionFatal | moduleFatal
  deriving DecidableEq, Repr

/-- An error record (R362). -/
structure ErrRec where
  gauge : Nat
  status : Nat
  sev : Sev
  wrapped : Bool
  addr : Option Nat
  /-- Job, generation tag and partition. -/
  job : Option (Nat × Nat × Nat)
  source : Nat
  seq : Nat
  count : Nat
  /-- DETAIL, words 4 to 7. -/
  detail : Nat
  deriving DecidableEq, Repr

/-- Rules that allow one record per course (or per second, pass, start) of a subject: what the record stands for. -/
inductive OnceKey where
  | staleGen (die job : Nat) | strand (die link : Nat) | badHeader (die : Nat) | denied (job : Nat) | badAccess (fn : Nat)
  | irq (fn : Nat) | doorbell (queue : Nat) | cancel (queue : Nat) | auth (job : Nat) | park (die : Nat)
  | late (job : Nat) | other (rule subject : Nat)
  deriving DecidableEq, Repr

/-- A live entry of a cistern channel's merge buffer (R352): granule address, mask of the bytes written, the poison of its fill, and the
clock of its last access. -/
structure MergeEntry where
  granule : Nat
  mask : BitVec 64
  poisoned : Bool
  last : Nat
  deriving DecidableEq, Repr

/-- Corrections of a die that the rider counts toward a mark (R351): in the current pass, and the channels named with their times. -/
structure DieTally where
  pass : Nat := 0
  channels : List (Nat × Nat) := []
  /-- The clock at which the die met a condition of R351. -/
  met : Option Nat := none
  /-- The second-die record has been written. -/
  told : Bool := false
  deriving DecidableEq, Repr

/-- An uncorrectable or parity error in an SRAM store other than tiers, scratch and the cores' registers and tiles (R354). -/
inductive SramFault where
  /-- An entry of a cistern channel's merge buffer. -/
  | merge (cis chan idx : Nat)
  /-- A contribution that the junction of a trigger slot holds: slot, yelm, member. -/
  | junction (slot yelm member : Nat)
  /-- A flit in a strand's replay buffer. -/
  | replay (die link : Nat)
  /-- A line of a core's instruction cache, and of its scalar read cache (granule). -/
  | icache (core line : Nat)
  | rcache (core granule : Nat)
  | batten (n : Nat)
  | context (queue : Nat)
  | routeSet (rset : Nat)
  | slot (n : Nat)
  deriving DecidableEq, Repr

/-- The stores' state beside memory and registers. -/
structure StoreSt where
  log : List ErrRec := []
  /-- Sequence numbers of records above CORRECTED that wait for their copy to flash (R364). -/
  logToFlash : List Nat := []
  /-- The records copied to flash, which outlive the ring (R364, R442). -/
  flashLog : List ErrRec := []
  once : List (OnceKey × Nat) := []
  /-- Merge buffers by cistern times 32 plus channel (R352). -/
  merge : SMap (List MergeEntry) := []
  /-- Granules written raw whose bits differ from the encoder's (R365): the nine raw words. -/
  raw : SMap (List Word) := []
  /-- Granules whose burst has dies with a mismatching EDC line, and those dies (R348). -/
  edc : SMap (List Nat) := []
  /-- Granules found uncorrectable: granule, clock, SEQ of the DEFERRED record (R367). -/
  found : List (Nat × Nat × Nat) := []
  /-- Errors in SRAM buffers and contexts that wait to be met. The model's own field (log entry 99). -/
  faults : List SramFault := []
  /-- Scrub positions: the next granule of each cistern channel, tier and scratch (R356). -/
  scrubPos : SMap Nat := []
  /-- Scrub passes completed by each cistern channel and tier (SCRB_STAT). -/
  scrubPasses : SMap Nat := []
  /-- By cistern times 18 plus die. -/
  dies : SMap DieTally := []
  /-- Poisons created by decode in a cistern in this scrub pass (R360). -/
  created : SMap Nat := []
  /-- Corrections in a row of a tier since slate start (R355), keyed by tier, bank and row. -/
  rowCorr : SMap Nat := []
  /-- WORD and BIT of the last correction in such a row, as DETAIL holds them (R362). -/
  rowLast : SMap Nat := []
  /-- Spare rows that a bank's replacements call for since slate start, by tier times 192 plus bank (R355). -/
  spares : SMap Nat := []
  /-- The same of scratch, by global core times 32 plus bank. -/
  scrSpares : SMap Nat := []
  /-- Rows that the pattern test or a slate start's march has found failing, as fuse-map entries have them: kind and location (R366). -/
  testRows : List (Nat × Nat) := []
  failed : SMap Bool := []
  deriving DecidableEq, Repr

/-! ## Host ports (12) -/

/-- A part of a copy on its way: address (of the module, or on the host bus), bytes, poison. -/
structure CopyWrite where
  addr : Nat
  data : List Byte
  poisoned : Bool
  deriving DecidableEq, Repr

/-- The descriptor that a function's copies run (R334, R335): its words, its status, and the writes that stand when it completes. -/
structure CopyRun where
  words : List Word
  status : Nat
  writes : List CopyWrite
  deriving DecidableEq, Repr

/-- A function's copy descriptors (R333): those that wait, oldest first, and the one that runs. -/
structure CopyQueue where
  queue : List (List Word) := []
  running : Option CopyRun := none
  deriving DecidableEq, Repr

/-- One MSI-X vector of one function (R337): the entry of its table (message address, message data, mask bit) and its pending bit. The mask bit
is 1 after reset and after an FLR, as PCIe has it: PRESUMED, log entry 97. -/
structure Vector where
  addr : Nat := 0
  data : Nat := 0
  masked : Bool := true
  pending : Bool := false
  /-- The clock of the last message, and whether a raise waits for the interval's end. -/
  last : Option Nat := none
  merged : Bool := false
  deriving DecidableEq, Repr

/-- A request in a mailbox channel (R340, R342): its 16 words, the clock of its SEND, whether its timer has expired or its
channel been reset (its answer will be discarded), whether the rider has taken it and still works on it, and whether the rider was
overloaded when it was sent (R457). -/
structure MbxReq where
  words : List (BitVec 32)
  sent : Nat
  expired : Bool
  taken : Bool := false
  busy : Bool := false
  deriving DecidableEq, Repr

/-- A mailbox channel beside its registers (R338 to R342). -/
structure Channel where
  /-- The staging words MBX_REQ0 to 15, those not zero. -/
  staging : SMap (BitVec 32) := []
  requests : List MbxReq := []
  responses : List (List (BitVec 32)) := []
  deriving DecidableEq, Repr

/-- A request of a host that no row of the table commands (R322, R328, R332, R337, R338): a read or a write by a function in its BAR0 or its BAR4, the
size of its port's PF BAR2 (code 0 to 4: 16 GiB to 4 TiB), the Function Mask bit of its MSI-X capability. With them stand the board controller's reads of I3C registers (R473). -/
inductive HostReq where
  | read (fn bar off len : Nat)
  | write (fn bar off : Nat) (data : List Byte)
  | barSize (port code : Nat)
  | maskAll (fn : Nat) (on : Bool)
  | i3cRead (index : Nat)
  deriving DecidableEq, Repr

/-- The host ports' state beside its registers. -/
structure HostSt where
  copies : SMap CopyQueue := []
  vectors : SMap Vector := []
  channels : SMap Channel := []
  /-- The VFs that have ceased to exist (R327). -/
  removed : SMap Bool := []
  /-- Requests that no row commands and that wait, first in, first out. The model's own field (log entry 9). -/
  reqs : List HostReq := []
  /-- The size of each port's PF BAR2: 16 GiB times 4 to the code; 64 GiB at reset (R328). -/
  barSize : SMap Nat := []
  /-- Functions whose MSI-X Function Mask is set (R337). -/
  maskAll : SMap Bool := []
  /-- Writes of HIF_POWN by PF1 that give way to one of PF0 in the same clock: partition and value (R326). -/
  pown : List (Nat × Word) := []
  deriving DecidableEq, Repr

/-! ## Starting, resetting, aborting (16) -/

/-- The abort window of a job on this module (R447). -/
structure AbortWin where
  fence : Nat
  epoch : Bool
  status : Nat
  origin : Nat
  cls : Nat
  /-- The clock at which the module first held the abort (R450). -/
  held : Nat
  /-- The fence course has ended, so injection is allowed again. -/
  ended : Bool
  /-- The gauge at which course F ends, and at which course F + 256 ends. -/
  fenceEnd : Nat
  winEnd : Nat
  /-- A course-length switch fell in the window: every packet of the job is dropped (R455). -/
  all : Bool := false
  /-- The rider has looked for cores that did not stop (R450). -/
  checked : Bool := false
  deriving DecidableEq, Repr

/-- A partition reset in progress (R440): the clock at its acceptance, who waits for the response, whether it counts. -/
structure PartReset where
  start : Nat
  requester : Option (Nat × Nat)
  counts : Bool
  deriving DecidableEq, Repr

/-- An entry of the fuse map (R432). -/
structure FuseEntry where
  kind : Nat
  isField : Bool
  location : Nat
  deriving DecidableEq, Repr

/-- A slate start in progress: which core sites have reported pass or fail (R431). -/
structure SlateStart where
  reports : SMap Bool := []
  /-- The sites whose scan self-test failed in this start (R430). -/
  scanFailed : List Nat := []
  deriving DecidableEq, Repr

/-- A crash dump (R442): the records and registers it holds. -/
structure CrashDump where
  gauge : Nat
  log : List ErrRec
  regs : List (Nat × Word)
  /-- Written by a rider watchdog expiry (R458). -/
  watchdog : Bool
  /-- Numbers the open bytes of its image. The model's own field. -/
  image : Nat
  deriving DecidableEq, Repr

/-- Start-up, reset and abort state beside the registers. -/
structure ResetSt where
  busUp : Option Nat := none
  riderUp : Bool := false
  stageStart : Nat := 0
  starting : SMap SlateStart := []
  fuseMap : List FuseEntry := []
  aborts : SMap AbortWin := []
  parts : SMap PartReset := []
  compute : Option Nat := none
  /-- The compute reset in progress was asked for by RESTORE and does not count (R453). -/
  computeCounts : Bool := true
  /-- Times of counted partition resets, by partition, and of compute resets (R451). -/
  partTimes : SMap (List Nat) := []
  compTimes : List Nat := []
  /-- The clock of each core site's last HW fault (R433), by slate times 136 plus site. -/
  hwTimes : SMap Nat := []
  /-- Row and column members found during LINKS (R434). -/
  members : SMap Bool := []
  /-- Links that have returned from DOWN and whose entry of BOOT_EXP is to be judged again (R435, R455). -/
  rejudge : List Nat := []
  dumps : List CrashDump := []
  deriving DecidableEq, Repr

/-! ## Cores (03, 04, 05, 06, 07) -/

/-- An entry of an engine's command queue (R98, R99, R166): the fields of the long form, what was captured at issue, the intake
header's job, generation tag and partition, and for the DMA engine the eight descriptor words. -/
structure QEntry where
  func : Nat
  imm : Nat
  waitEn : Bool
  waitEv : Nat
  waitClr : Bool
  postEn : Bool
  postEv : Nat
  a : Word
  b : Word
  c : Word
  seed : Word
  tile : Word
  phase : Nat
  pc : Nat
  instr : Nat
  job : Nat
  gen : Nat
  part : Nat
  desc : List Word
  deriving DecidableEq, Repr

/-- A matrix or vector command that has started and whose completion ENGINE_POST has not been taken (R103). -/
structure Running where
  pc : Nat
  instr : Nat
  postEn : Bool
  postEv : Nat
  deriving DecidableEq, Repr

/-- A write of a DMA command that has not reached home memory: address, bytes, whether it carries poison. -/
structure DmaWrite where
  addr : Nat
  data : List Byte
  poisoned : Bool
  deriving DecidableEq, Repr

/-- A DMA command in progress (R167 to R171). -/
structure DmaRun where
  entry : QEntry
  /-- The course and epoch it started in (R166), the boundaries counted since, and its timeout (R170). -/
  course : Nat
  epoch : Bool
  counted : Nat
  limit : Nat
  /-- What it has moved: bytes, poison met, WA flags raised (R168). -/
  bytes : Nat
  poisoned : Bool
  flags : Nat
  /-- Ordering count of a PUT or SIGNAL (R196). -/
  ord : Nat
  /-- Accumulating writes on their way to the tiers, or answers of the peer still awaited. -/
  pendingParts : Nat
  /-- Writes of a COPY or FILL that land when it completes. -/
  writes : List DmaWrite
  /-- Requests of a GET that have not been sent (R285): address on the peer, local address, length. -/
  todo : List (Nat × Nat × Nat)
  /-- The link and die of a GET of an ORDERED flow (R274). -/
  pin : Option (Nat × Nat) := none
  /-- Every write has reached home; the record and the batten add are written; the post is owed. -/
  posted : Bool
  id : Nat
  deriving DecidableEq, Repr

/-- An accumulating granule write on its way to a tier (R160): destination, source bytes, byte enables, element type, source tag. -/
structure AccWrite where
  core : Nat
  dma : Nat
  granule : Nat
  data : BitVec 512
  mask : BitVec 64
  atype : Nat
  tag : Nat
  poisoned : Bool
  deriving DecidableEq, Repr

/-- A load, AMO or batten operation that has been issued and whose result has not returned (R104, R208). A load that hit the read
cache carries the value it found; a batten change carries its result once it has been applied. -/
inductive OutOp where
  | load (rd addr size : Nat) (signed vol : Bool) (hit : Option Word)
  | amo (rd addr : Nat) (func : Nat) (operand comparand : Word)
  | btn (rd func batten operand : Nat) (result : Option Nat)
  deriving DecidableEq, Repr

/-- One of them with its place in program order, and the PC and first word of its instruction (R113). -/
structure Outst where
  ord : Nat
  pc : Nat
  instr : Nat
  op : OutOp
  deriving DecidableEq, Repr

/-- An item of the store buffer (R180, R184), with its place in program order: a store, or an ESET or batten change held behind the
stores before it. -/
inductive SbItem where
  | store (ord addr size : Nat) (data : Word)
  | eset (ord : Nat) (mask : BitVec 16)
  | btn (ord : Nat)
  deriving DecidableEq, Repr

/-- What the scalar unit waits on (R104). -/
inductive Wait where
  | none
  | ewait (mask : BitVec 16) (any clear : Bool)
  | fence (func : Nat)
  | btnWait (rd : Nat)
  | done (status : Nat)
  deriving DecidableEq, Repr

/-- The task a core runs (R226 to R233). -/
structure Task where
  queue : Nat
  prio : Nat
  index : Nat
  taskId : Nat
  cplEn : Bool
  cplq : Nat
  doneEn : Bool
  doneBtn : Nat
  start : Nat
  courses : Nat
  limit : Nat
  deriving DecidableEq, Repr

/-- One logical core (R84 to R114). Registers and tile elements not listed are zero. -/
structure Core where
  task : Option Task := none
  pc : Nat := 0
  s : SMap Word := []
  p : BitVec 8 := 1
  v : SMap (BitVec 2048) := []
  m : SMap Word := []
  wa0 : SMap (BitVec 128) := []
  wa1 : SMap (BitVec 128) := []
  tag0 : BitVec 32 := 0
  tag1 : BitVec 32 := 0
  e : BitVec 16 := 0
  job : Nat := 0
  gen : Nat := 0
  part : Nat := 0
  cycle : Word := 0
  retired : Word := 0
  nstat : BitVec 4 := 0
  srseed : Word := 0
  srtile : Word := 0
  phase : Byte := 0
  mq : List QEntry := []
  vq : List QEntry := []
  dq : List QEntry := []
  mrun : List Running := []
  vrun : List Running := []
  drun : List DmaRun := []
  out : List Outst := []
  sb : List SbItem := []
  icache : SMap (BitVec 512) := []
  rcache : SMap (BitVec 512) := []
  rcacheEn : Bool := true
  wait : Wait := .none
  /-- Numbers the instructions in program order. The model's own field. -/
  ids : Nat := 0
  deriving DecidableEq, Repr

/-- The parts of a core's fault state that its registers TSK_CFLT_A to D do not show are none; a stop in progress is not a state of
its own, because R111 is carried out whole. -/
structure CoreSt where
  cores : SMap Core := []
  accs : List AccWrite := []
  deriving DecidableEq, Repr

/-! ## Battens, queues and dispatchers (06, 08) -/

/-- Who waits on a batten (R211). -/
inductive Waiter where
  | core (n : Nat) | gate (queue : Nat) | trigger (slot : Nat)
  deriving DecidableEq, Repr

/-- A watch registered at a batten's slate (R211), with the deadline course of a trigger watch (R213). -/
structure Watch where
  who : Waiter
  batten : Nat
  target : Nat
  deadline : Nat
  deriving DecidableEq, Repr

/-- A watch whose target has been met (R210: a wait that has been met stays met) and whose waiter is not yet awake: the count and the
gauge at which it was met. -/
structure Met where
  watch : Watch
  count : Nat
  time : Nat
  deriving DecidableEq, Repr

/-- A queue beside its context (R220 to R228). -/
structure QueueSt where
  /-- W: completions written since the queue was enabled (R221). -/
  written : Nat := 0
  marks : List Nat := []
  /-- The bytes of the head item, once it has been read and checked (R227, R228). -/
  head : List Byte := []
  /-- The gate of the head item has been met. -/
  gateMet : Bool := false
  lastShadow : Option Nat := none
  /-- A shadow write is owed, from the clock at which CONS or STATE changed; true when STATE changed. -/
  shadowDue : Option (Nat × Bool) := none
  deriving DecidableEq, Repr

/-- A FLUSHED or CANCELLED completion that is owed (R222, R224). -/
structure Owed where
  cplq : Nat
  queue : Nat
  index : Nat
  taskId : Nat
  part : Nat
  outcome : Nat
  deriving DecidableEq, Repr

/-- A placement plan (R172). -/
structure Plan where
  results : List (Nat × Nat × Nat × Nat × Nat)
  deriving DecidableEq, Repr

/-- The batten units, queues and dispatchers. -/
structure TaskSt where
  watches : List Watch := []
  /-- Watches that found no free entry (R211). -/
  retry : List Watch := []
  met : List Met := []
  queues : SMap QueueSt := []
  owed : List Owed := []
  /-- The queue last granted, by slate times 8 plus priority (R229). -/
  lastGrant : SMap Nat := []
  plans : SMap Plan := []
  deriving DecidableEq, Repr

/-! ## Links (09) -/

/-- A packet in a transmit queue: the route set's job facts a forwarder or source needs, and its schedule entry (R274 to R278). -/
structure TxPkt where
  pkt : Packet
  vl : Nat
  /-- Schedule entry of a PUT with SCHED that has not fallen into dynamic capacity, and its transfer course (R277). -/
  sched : Option Nat := none
  course : Nat := 0
  /-- Where a forwarded packet's flits are still held: the strand it came in on times 8 plus its VL there. -/
  from? : Option Nat := none
  /-- A copy of a division box (R311), whose links keep within 64 flits of each other: the base of its counts in `RouteSt.fan`. -/
  fan : Option Nat := none
  /-- The bytes at the end of a forwarded packet that have still to arrive; until then they stand as zeros (R270, R495). -/
  missing : Nat := 0
  /-- The link that a packet which waits for a credit must take: that of a forwarder, or of a packet to a link's peer (R274). -/
  on? : Option Nat := none
  /-- The link and die that the first packet of its ORDERED command took (R274). -/
  pin : Option (Nat × Nat) := none
  /-- The strand that a yelm's packets keep to where it is ACTIVE (R307), and the member a copy is for (R311). -/
  die? : Option Nat := none
  member : Option Nat := none
  deriving DecidableEq, Repr

/-- A packet that has begun on a strand: what is left of its bytes, in flits of 248 (R240). -/
structure TxCur where
  rest : List Byte
  start : Bool
  of : TxPkt
  deriving DecidableEq, Repr

/-- A flit held for replay (R242). -/
structure HeldFlit where
  seq : Nat
  bytes : List Byte
  sent : Nat
  deriving DecidableEq, Repr

/-- The receiving end of one SerDes lane (R237, R238, R255). -/
structure LaneRx where
  /-- The lane's position in its strand, and the CWC of the next codeword; none before codeword alignment. -/
  due : Option (Nat × Nat) := none
  /-- The last 58 bits received, which the descrambler needs; none before a codeword has come. -/
  scr : Option Nat := none
  /-- Codewords that wait for their partners: CWC and stream bytes, none for those of an uncorrectable one. -/
  words : List (Nat × List (Option Byte)) := []
  /-- Clock values of the uncorrectable codewords of the last millisecond. -/
  bad : List Nat := []
  deriving DecidableEq, Repr

/-- The lanes of a strand and their streams (R237, R238). -/
structure Phy where
  lanes : SMap LaneRx := []
  /-- Stream bytes received and not yet taken as flits, and the CWC of the group that comes next. -/
  rx : List (Option Byte) := []
  rxCwc : Option Nat := none
  /-- Stream bytes that wait for a codeword, the CWC of the next, and the scramblers of the four lanes. -/
  tx : List Byte := []
  txCwc : Nat := 0
  txScr : SMap Nat := []
  deriving DecidableEq, Repr

/-- The training attempt a strand is in (R248, R249). -/
inductive Attempt where
  | full | fast
  deriving DecidableEq, Repr

/-- One strand beside its registers. Maps by VL read 0 or empty where nothing is listed. -/
structure Strand where
  /-- E, the next SEQ expected (R241). -/
  e : Nat := 0
  nakOwed : Bool := false
  /-- E at the last NAK and its clock: no further NAK until E advances or 1 µs passes (R241). -/
  lastNak : Option (Nat × Nat) := none
  /-- The next SEQ to send; the held flits; the SEQ from which they are being sent again (R242). -/
  seq : Nat := 0
  replay : List HeldFlit := []
  resend : Option Nat := none
  /-- Replays started since one freed a flit (R244). -/
  fruitless : Nat := 0
  /-- Flits sent by VL, and the peer's count of freed ones; flits freed here, and those reported (R246). -/
  sent : SMap Nat := []
  freedByPeer : SMap Nat := []
  freed : SMap Nat := []
  reported : SMap Nat := []
  tx : SMap (List TxPkt) := []
  cur : SMap TxCur := []
  /-- Bodies of LINK messages that wait to be sent. -/
  linkTx : List (List Byte) := []
  /-- The class whose turn it is among the dynamic ones (R247). -/
  rr : Nat := 0
  /-- Bytes of a packet that still arrives, by VL, and the packets that have arrived. -/
  rx : SMap (List Byte) := []
  arrived : List (Nat × Packet) := []
  attempt : Attempt := .full
  /-- Failed attempts of the training in progress (R249). -/
  fails : Nat := 0
  stageStart : Nat := 0
  attemptStart : Nat := 0
  /-- The far end's IDENT in this training, and whether its INIT has been seen. -/
  far : Option IdentMsg := none
  initSeen : Bool := false
  /-- The strand has been DOWN: at INIT it takes the peer's numbers as its own start. -/
  anew : Bool := false
  /-- The lane position under loopback test, and that of the own lane that a spare is being swapped in for (R255, R256). -/
  testing : Option Nat := none
  swapping : Option Nat := none
  /-- The peer swaps the lane at this position too (R257). -/
  peerSwap : Option Nat := none
  /-- Sequenced flits that came before the far end was verified in this training (R252). -/
  verifyHeld : Nat := 0
  /-- Flits still to come of a packet that is being forwarded or discarded as it arrives, by VL (R270). -/
  coming : SMap Nat := []
  phy : Phy := {}
  /-- Calibrated pipeline delays, 1/16 ns (R253). -/
  txDly : Nat := 0
  rxDly : Nat := 0
  /-- The slot of the last flit time, and the flit times in it that LINK and CTRL flits took (R247). -/
  slot : Nat := 0
  slotCtrl : Nat := 0
  deriving DecidableEq, Repr

/-- All strands, by die times 32 plus peer link. -/
structure LinkSt where
  strands : SMap Strand := []
  deriving DecidableEq, Repr

/-! ## Routing and remote writes (10) -/

/-- A command not yet acknowledged (R283): its ordering count, core and DMA command. -/
structure Unacked where
  count : Nat
  core : Nat
  dma : Nat
  gen : Nat
  part : Nat
  deriving DecidableEq, Repr

/-- A flow at its source (R196, R275, R283). -/
structure SrcFlow where
  next : Nat := 0
  unacked : List Unacked := []
  /-- The strand, class and path its last ORDERED command took: link, die, VL. -/
  last : Option (Nat × Nat × Nat) := none
  deriving DecidableEq, Repr

/-- A command partly received at its destination (R282). -/
structure Partial where
  count : Nat
  got : Nat
  total : Option Nat
  deriving DecidableEq, Repr

/-- A flow at its destination (R283): everything below `through` has landed, and the counts listed above it. -/
structure DstFlow where
  through : Nat := 0
  above : List Nat := []
  parts : List Partial := []
  deriving DecidableEq, Repr

/-- An outstanding GET request (R285). -/
structure GetReq where
  tag : Nat
  core : Nat
  dma : Nat
  dst : Nat
  len : Nat
  job : Nat
  gen : Nat
  part : Nat
  peer : Nat
  chan : Nat
  deriving DecidableEq, Repr

/-- A FINAL PUT packet or a SIGNAL that waits for earlier writes (R284): its decrypted payload, where it waits, parked or stored. -/
structure HeldPkt where
  die : Nat
  link : Nat
  /-- The VL whose receive buffer it came through. -/
  vl : Option Nat
  pkt : Packet
  parked : Bool
  deriving DecidableEq, Repr

/-- The routing layer beside its registers. -/
structure RouteSt where
  /-- Packets that wait for a path (R272). -/
  waiting : List TxPkt := []
  src : SMap SrcFlow := []
  dst : SMap DstFlow := []
  gets : List GetReq := []
  /-- Numbers the GET requests of each core. The model's own field. -/
  tags : SMap Nat := []
  holds : List HeldPkt := []
  /-- GCM send counters and highest received counters (R291, R292), by job, generation and module. -/
  gcmTx : SMap Nat := []
  gcmRx : SMap Nat := []
  /-- Jobs whose counter has passed 2^63 and been reported (R293). -/
  warned : SMap Bool := []
  /-- Link states told by peers (R271): by EPN times 32 plus link; 0 UP, 1 DEGRADED, 2 DOWN. -/
  told : SMap Nat := []
  /-- Own links whose state changed and whose LSTATE is due, with the clock of the change. -/
  lstateDue : SMap Nat := []
  /-- Round-robin position of the spray on each link (R274). -/
  spray : SMap Nat := []
  /-- Flits of a broadcast that the division box has sent on each of its links: by (owner die of the yelms times 4,096 plus slot) times 32 plus link (R311). -/
  fan : SMap Nat := []
  /-- The switch time and the swap time that passed with the same gauge (R279). -/
  lastToggle : Option Nat := none
  deriving DecidableEq, Repr

/-! ## Collectives (11) -/

/-- A yelm in a receive or junction buffer, as its packets arrive (R305, R309): sender, yelm number, packets by byte offset, check
value, tag, poison. -/
structure YelmIn where
  src : Nat
  yelm : Nat
  parts : SMap (List Byte) := []
  crc : Nat := 0
  tag : Nat := 0
  poison : Bool := false
  /-- Whole and passed the input check. -/
  good : Bool := false
  deriving DecidableEq, Repr

/-- What a trigger slot keeps beside its registers (R299 to R320). -/
structure SlotSt where
  /-- Members whose READY, and whose DONE, has arrived, by EPN. -/
  ready : SMap Bool := []
  done : SMap Bool := []
  /-- The GRANT has arrived, or the GRANTs have been sent. -/
  granted : Bool := false
  /-- Bytes of junction buffer reserved on each die (R316). -/
  reserved : Nat := 0
  /-- The gauge of the course boundary at which it launches, once its launch condition has come to hold. -/
  holds : Option Nat := none
  /-- Course boundaries since HANDSHAKE. -/
  courses : Nat := 0
  /-- Yelms sent, and those acknowledged (YACK). -/
  sent : SMap Bool := []
  acked : SMap Bool := []
  inputs : List YelmIn := []
  landed : SMap Bool := []
  /-- Failures of a yelm in this instance, by sender times 2^16 plus yelm (R319). -/
  fails : SMap Nat := []
  flags : Nat := 0
  poison : Bool := false
  deriving DecidableEq, Repr

/-- The trigger slots, by number. -/
structure CollSt where
  slots : SMap SlotSt := []
  deriving DecidableEq, Repr

/-! ## Power and heat (14) -/

/-- A feed's pilot (R369): the CLAIM and RAMP that valid frames carry, how many in a row, the clock of the last valid frame, and the
RAMP in effect (the claim in effect stands in FEED_STAT). -/
structure FeedSt where
  claim : Nat := 0
  ramp : Bool := false
  count : Nat := 0
  last : Nat := 0
  rampNow : Bool := false
  deriving DecidableEq, Repr

/-- The samples of one millisecond of the gauge (R375): their input power summed in 0.1 mW, EFF summed, their number, and the rail power
of each slate summed in mW. -/
structure PowerBin where
  ms : Nat
  input : Nat
  eff : Nat
  n : Nat
  slates : List Nat
  deriving DecidableEq, Repr

/-- The sums of the control interval that runs (R381, R385): input power in 0.1 mW, rail power of the slates in mW, samples. -/
structure IntervalSums where
  input : Nat := 0
  slates : List Nat := []
  n : Nat := 0
  deriving DecidableEq, Repr

/-- The feeds, the power controller and the sensors beside their registers. -/
structure PowerSt where
  feeds : SMap FeedSt := []
  /-- The feed whose path is being closed, and the clock at which it conducts (R371). -/
  switching : Option (Nat × Nat) := none
  /-- The clock at which the conducting feed began to conduct, for the end of a hold. -/
  conducts : Nat := 0
  /-- Neither feed conducts, since this clock (R373). -/
  lost : Option Nat := none
  /-- Slate clocks and cistern traffic are stopped (R373). -/
  stopped : Bool := false
  /-- Gauges of the power-loss records in flash (R373). -/
  lossRecords : List Nat := []
  /-- The feed preferred without conducting, and since when (R372). -/
  preferred : Option (Nat × Nat) := none
  /-- The clock of the last switch-over or return, if any (R387). -/
  switched : Option Nat := none
  /-- The clock of READY (R387). -/
  readyAt : Option Nat := none
  /-- The clock at which the hold began, and the time spent in holds before (R450). -/
  heldSince : Option Nat := none
  heldTotal : Nat := 0
  /-- Writes of the FEED and PWC blocks that landed during the hold: identity, offset, value (R371). -/
  heldWrites : List (Nat × Nat × Word) := []
  /-- The caps in effect (R377, R378), and the written ones that wait, with their landing times. -/
  grid : Nat := 0
  job : Nat := 0
  board : Nat := 0
  gridWait : Option (Nat × Nat) := none
  jobWait : Option (Nat × Nat) := none
  /-- The fast limiter has halved the clocks, and the samples since that are below 1.10 × EFF (R376). -/
  limiter : Bool := false
  calm : Nat := 0
  /-- The floor F in 0.1 mW and the level of compensation flow (R389). -/
  floor : Nat := 0
  comp : Nat := 0
  shortAt : Option Nat := none
  /-- The energy below 1 mJ of each counter, in units of 100 pJ: module, IDLE, COMP, then the partitions; and what is not divided yet (R391). -/
  fracs : SMap Nat := []
  carry : Nat := 0
  bins : List PowerBin := []
  sums : IntervalSums := {}
  /-- Course boundaries in the control interval that runs. -/
  courses : Nat := 0
  /-- Slates on which a task has run in the interval, and those whose point the last allocation changed (R381, R382). -/
  busy : SMap Bool := []
  moved : SMap Bool := []
  /-- Counts of the lag reports that named each slate in the interval (R384). -/
  lags : SMap Nat := []
  /-- The last budget in units of 10 pW, and whether the ramp held it up (R385, R388). -/
  budget : Int := 0
  limited : Bool := false
  /-- The 1 s and 10 ms windows judged last exceeded their limits (R375). -/
  over1s : Bool := false
  over10ms : Bool := false
  /-- The clock of the last GUARANTEE_BREACH record of each job (R400). -/
  breaches : SMap Nat := []
  /-- The coarse view of the partitions in J, and the gauge of its update (R393). -/
  view : SMap Nat := []
  viewAt : Nat := 0
  /-- The last demand boundary, and the counters as they stood at one whose snapshot is not written yet (R394). -/
  demand : Nat := 0
  latched : Option (Nat × List Word) := none
  /-- The sensors at or above their trip limits in the last reading (R396). -/
  hot : List Nat := []
  /-- The clocks of the last throttle record of each slate and cistern (R395), and of the last coolant record (R397). -/
  throttles : SMap Nat := []
  coolant : Option Nat := none
  /-- Outlet minus inlet by millisecond: sum and number of readings (R397). -/
  rises : List (Nat × Int × Nat) := []
  deriving DecidableEq, Repr
/-! ## Keys, sessions and tenants (15) -/

/-- A key slot's material, which no register shows (R406 to R409). -/
structure KeyMat where
  root : BitVec 256 := 0
  ctr0 : Nat := 0
  ctr1 : Nat := 0
  highest : Nat := 0
  dkeys : List (BitVec 256) := []
  /-- A valid route set has named the slot (R409). -/
  named : Bool := false
  deriving DecidableEq, Repr

/-- A bound partition (R411, R412). -/
structure Binding where
  job : Nat
  rset : Nat
  deriving DecidableEq, Repr

/-- An UNSEAL in progress (R415): its partition with the generation tag at its start, which tells an abort from then on, the blob, the
destination, where it completes, the data key it holds, and whether its partition has been unbound and cleared meanwhile. -/
structure Unsealing where
  part : Nat
  gen : Nat
  src : Nat
  dst : Nat
  batten : Nat
  record : Nat
  key : BitVec 256
  head : List Byte
  cleared : Bool
  deriving DecidableEq, Repr

/-- A step of a physical-presence operation that has not been taken yet (R421, R422). -/
inductive PresenceStep where
  | destroyKeys | abortJobs | setDebug | revoke (bits : BitVec 4) | versions (sp rider : Word) | fuse (entry : Word) | recoveryBoot
  | eraseAnchors | eraseTenants | clearMutual
  deriving DecidableEq, Repr

/-- A management session (R419, R474): its role, and whether it has asked for telemetry, which no rule of the spec tells it how to do. -/
structure MgmtSession where
  operator : Bool
  telemetry : Bool
  deriving DecidableEq, Repr

/-- How far an SPDM connection has come (R405). -/
structure SpdmConn where
  version : Bool := false
  capabilities : Bool := false
  algorithms : Bool := false
  deriving DecidableEq, Repr

/-- A secured SPDM session (R405). -/
structure SpdmSession where
  id : Nat
  transport : Transport
  established : Bool
  mutualAuth : Bool
  keyUpdates : Nat
  deriving DecidableEq, Repr

/-- The security processor's state beside the SEC registers. -/
structure SecSt where
  slots : SMap KeyMat := []
  bindings : SMap Binding := []
  /-- Partitions being cleared (R413). -/
  clearing : SMap Bool := []
  unsealing : List Unsealing := []
  conns : SMap SpdmConn := []
  sessions : List SpdmSession := []
  /-- The measurements, by index (R403). -/
  measurements : SMap (BitVec 384) := []
  /-- The fabric key's generations and the one sent under (R410). -/
  fabric : SMap (BitVec 256) := []
  fabricTx : Bool := false
  /-- Root revoke bits and security version counters, thermometer coded (R401). -/
  revoked : BitVec 4 := 0
  spSvn : Word := 0
  riderSvn : Word := 0
  /-- The nonces that the SP has issued, with the clocks of their issue (R421). -/
  nonces : List (Nat × Nat) := []
  /-- A debug unlock deferred by an UNSEAL (R426). -/
  debugWait : Option UnlockToken := none
  /-- Management frames with an UNSEAL that came after it and wait until it is decided: session and frame (R426). -/
  waitFrames : List (Nat × List Byte) := []
  /-- The steps that a physical-presence operation still has to take (R421). -/
  presence : List PresenceStep := []
  /-- IDE keys by port times 256 plus stream (R418). -/
  ide : SMap (BitVec 256) := []
  /-- Tenant trust anchors (R405), and the operator trust anchors: true is OPERATOR, false AUDITOR (R419). -/
  tenantAnchors : SMap Bool := []
  anchors : SMap Bool := []
  mgmt : SMap MgmtSession := []
  deriving DecidableEq, Repr
/-! ## The rider and its flash (17) -/

/-- A slot of the flash (R459, R466): the 2,048 bytes of its header where they have been programmed, its programmed units of 4 KiB by
number, and whether it holds the release of manufacture, whose bytes the spec does not print. -/
structure FlashSlot where
  header : List Byte := []
  units : SMap (List Byte) := []
  factory : Bool := false
  deriving DecidableEq, Repr

/-- An update in progress (R463 to R466): its slot, the bundle's first 4,096 bytes, the certificate chain that was checked, the sectors that
wait for their erase and those being erased, the staged units not yet programmed, and whether the slot is being read back. -/
structure Update where
  slot : Nat
  head : List Byte
  chain : List Byte
  erase : List Nat
  erasing : List Nat
  staged : List (Nat × List Byte)
  verifying : Bool
  deriving DecidableEq, Repr

/-- An entry of the erase journal (R460): sequence number, sector, START or DONE, and the half it stands in. -/
structure JournalEntry where
  seq : Nat
  sector : Nat
  start : Bool
  half : Bool
  deriving DecidableEq, Repr

/-- A settings copy (R472): its sequence number, its format, and the settings in the order of
the table "Settings". -/
structure SettingsCopy where
  seq : Nat
  format : Nat
  values : List Nat
  deriving DecidableEq, Repr

/-- The pause of an activation or of a restart (R458, R468, R469): the clock at which it ends, whether the rider restarts in it, whether the
watchdog has expired, the slot that runs after it, and who waits for the response. -/
structure RiderPause where
  ends : Nat
  fallback : Bool
  watchdog : Bool
  slot : Nat
  reply : Option (Nat × Nat)
  deriving DecidableEq, Repr

/-- The rider's state beside the RDR and UPD registers, and the flash. -/
structure RiderSt where
  /-- Slots 0 (A) and 1 (B). -/
  slots : SMap FlashSlot := [(0, { factory := true })]
  /-- The boot record: the preferred slot, and whether it is on trial (R467). -/
  bootPreferred : Nat := 0
  bootTrial : Bool := false
  update : Option Update := none
  journal : List JournalEntry := []
  journalSeq : Nat := 0
  half : Bool := false
  copies : SMap SettingsCopy := []
  /-- The highest sequence number of a copy so far. -/
  setSeq : Nat := 0
  /-- SET_RESET: the settings take their reset values at the next cold start (R477). -/
  resetNext : Bool := false
  /-- A forced recovery boot is due (R421). -/
  recoveryNext : Bool := false
  /-- The clock of the last KICK or restart, and the clocks of the watchdog's expiries (R458). -/
  kicked : Nat := 0
  expiries : List Nat := []
  /-- The clock at which the last load window ended (R457). -/
  loadAt : Nat := 0
  /-- The clock of the last telemetry frame (R476). -/
  teleAt : Nat := 0
  /-- The clock since when the slot on trial has run on a READY module without an expiry (R470). -/
  trialSince : Nat := 0
  /-- DECIM was 6 already when the last window ended with LOAD at 90 % or more (R457). -/
  saturated : Bool := false
  pause : Option RiderPause := none
  /-- Management frames that wait for the end of a pause: session and message (R468). -/
  frames : List (Nat × List Byte) := []
  /-- The sectors of the settings that are being erased (R460, R472). -/
  setErase : List Nat := []
  deriving DecidableEq, Repr

/-! ## The module's edge (18) -/

/-- The sideband state beside TOP_PINS. -/
structure EdgeSt where
  /-- The I3C dynamic address (R473). -/
  i3c : Option Nat := none
  /-- A power-off that MOD_RST_N has asked for waits for a feed hold to end (R491). -/
  offDue : Bool := false
  /-- The module is off on the board controller's request (R483). -/
  off : Bool := false
  deriving DecidableEq, Repr

/-! ## The whole machine -/

/-- What the module has sent on its edges, oldest first: the model's own record of its outputs. -/
inductive Out where
  /-- An MSI-X message of a function's vector (R337). -/
  | msix (fn vec : Nat)
  /-- A write on a host port: address, bytes, EP bit (R334, R335). -/
  | hostWrite (port : Nat) (addr : Nat) (data : List Byte) (ep : Bool)
  /-- A read request on a host port (R335). -/
  | hostRead (port : Nat) (addr len : Nat)
  /-- The completion of an aperture read: its bytes, EP bit; none is Completer Abort (R330). -/
  | completion (fn : Nat) (data : Option (List Byte)) (ep : Bool)
  /-- Unsupported Request to a TLP of a VF (R417). -/
  | unsupported (fn : Nat)
  /-- A flit on a strand (R239): its body, KIND, SEQ, ACK, ACKT, VL and START. -/
  | flit (die link : Nat) (bytes : List Byte)
  /-- The four codewords that share a CWC, by lane position (R237, R238). -/
  | codes (die link : Nat) (words : List (List (BitVec 10)))
  /-- An SPDM response: transport, code (0x7F is ERROR), body. -/
  | spdm (t : Transport) (code : Nat) (body : List Byte)
  /-- A frame on a management session (R474). -/
  | mgmt (session : Nat) (frame : List Byte)
  /-- An I3C in-band interrupt (kind 0) or a read of register kind - 1 (R473). -/
  | i3c (kind : Nat) (data : List Byte)
  /-- Bits shifted out on TDO (R485). -/
  | jtag (value : Nat)
  deriving DecidableEq, Repr

/-- Why the machine stops with a fault: no rule of the spec stops the module as a whole, and no meaning of this model raises one. -/
inductive Fault where
  /-- Never raised: the spec's faults are effects on the state. Safe. -/
  | none
  deriving DecidableEq, Repr

/-- Why a command has no meaning. -/
inductive Refusal where
  /-- A command whose meaning is not written: raised by its arm in Dispatch.lean only. Safe. -/
  | notModelled (mnemonic : String)
  deriving DecidableEq, Repr

/-- The module's state. -/
structure State where
  /-- The commands that wait, first in, first out. The model's own field. -/
  pending : List Instr := []
  /-- The registers of control space that differ from their reset value. -/
  regs : SMap Word := []
  /-- The bytes of cisterns, tiers and scratch that are not 0. -/
  mem : SMap Byte := []
  /-- The poisoned granules (R358), by address over 64. -/
  poison : SMap Bool := []
  /-- Nanoseconds since the module was last powered up, against which the spec's durations run: they pass whether or not the gauge
  steps. The model's own field. -/
  clock : Nat := 0
  gauge : GaugeSt := {}
  course : CourseSt := {}
  host : HostSt := {}
  store : StoreSt := {}
  rst : ResetSt := {}
  core : CoreSt := {}
  task : TaskSt := {}
  link : LinkSt := {}
  route : RouteSt := {}
  coll : CollSt := {}
  power : PowerSt := {}
  rider : RiderSt := {}
  edge : EdgeSt := {}
  sec : SecSt := {}
  /-- Counter that numbers free values. The model's own field. -/
  free : Nat := 0
  out : List Out := []
  deriving DecidableEq, Repr

/-- The module right after reset: every field at its reset value. -/
def State.reset : State := {}

end Sys2Proof.Machine
end

