-- ==== Sys2Proof/Machine/Ops.lean ====
section
/-!
DEFINITION. Machine/Ops.lean: the named operations on the state that every family uses: registers and fields, time, identities and
partitions, messages and outputs, the error log, memory with its poison and merge buffers, battens.
-/
namespace Sys2Proof.Machine

/-! ## Registers -/

/-- A word of a register. -/
def State.reg (s : State) (r : Reg) (i : Nat := 0) : Word := (SMap.find? s.regs (r.key i)).getD (r.reset i)

/-- Write a word of a register. -/
def State.setReg (s : State) (r : Reg) (i : Nat) (v : Word) : State :=
  { s with regs := SMap.put (r.reset i) s.regs (r.key i) v }

/-- The word in which a field of the `i`-th register of an array stands. -/
def Fld.at (f : Fld) (i : Nat) : Nat := i * f.reg.place.words + f.word

/-- The value of a field. -/
def State.getF (s : State) (f : Fld) (i : Nat := 0) : Nat := field (s.reg f.reg (Fld.at f i)) f.lo f.w

/-- Write a field; the register's other bits keep their values. -/
def State.setF (s : State) (f : Fld) (i v : Nat) : State :=
  s.setReg f.reg (Fld.at f i) (BitVec.ofNat 64 (natSetField (s.reg f.reg (Fld.at f i)).toNat f.lo f.w v))

/-- A word made of fields: lowest bit, width, value. -/
def packW (fs : List (Nat × Nat × Nat)) : Word := BitVec.ofNat 64 ((fs.map fun f => (f.2.2 % 2 ^ f.2.1) * 2 ^ f.1).sum)

/-- Whether a one-bit field is 1. -/
def State.flag (s : State) (f : Fld) (i : Nat := 0) : Bool := s.getF f i == 1

/-- Add to a saturating counter. -/
def State.bump (s : State) (f : Fld) (i : Nat := 0) (n : Nat := 1) : State := s.setF f i (satTo f.w (s.getF f i + n))

/-- Put every word of the listed registers back to its reset value, where the index satisfies a condition. -/
def State.clearRegs (s : State) (r : Reg) (sel : Nat → Bool) : State :=
  { s with regs := s.regs.filter fun e => !(e.1 % 256 == r.num && sel (e.1 / 256)) }

/-- The shared status codes (R8). -/
def Status.ok : Nat := 0x00
def Status.busy : Nat := 0x01
def Status.timeout : Nat := 0x02
def Status.badHeader : Nat := 0x03
def Status.badArg : Nat := 0x04
def Status.denied : Nat := 0x05
def Status.poison : Nat := 0x06
def Status.staleGen : Nat := 0x07
def Status.jobAbort : Nat := 0x08
def Status.noResource : Nat := 0x09
def Status.integrity : Nat := 0x0A
def Status.window : Nat := 0x0B
def Status.offline : Nat := 0x0C
def Status.breach : Nat := 0x0D

/-! ## Time -/

/-- The gauge, in nominal nanoseconds (R31). -/
def State.time (s : State) : Nat := s.gauge.now.toNat

/-- The course exponent in force (R12). -/
def State.k (s : State) : Nat := s.getF TOP_MSIZE.COURSE_K

/-- The course number (R39). -/
def State.courseNo (s : State) : Nat := s.time >>> s.k

/-- A gauge value is at or before another: gauge values compare as serial numbers, so that a wrap changes no timeout (R50). -/
def gaugeLe (a b : Nat) : Bool := decide (serialDiff 64 b a ≥ 0)

/-- The later of two gauge values (R50). -/
def gaugeMax (a b : Nat) : Nat := if gaugeLe a b then b else a

/-- The gauge has reached a value (R50). -/
def State.reached (s : State) (t : Nat) : Bool := gaugeLe t s.time

/-- A course number is at or before another; course numbers wrap with the gauge (R50). -/
def State.courseLe (s : State) (a b : Nat) : Bool := decide (serialDiff (64 - s.k) b a ≥ 0)

/-- The current course epoch (R45). -/
def State.epoch (s : State) : Bool := s.flag CRS_CHG.EPOCH

/-- A fresh open number and the state that will not use it again. -/
def State.fresh (s : State) : Nat × State := (Config.freeNat s.free, { s with free := s.free + 1 })

/-- A fresh open word. -/
def State.freshWord (s : State) : Word × State := (Config.freeWord s.free, { s with free := s.free + 1 })

/-- Append to what the module has sent. -/
def State.emit (s : State) (o : Out) : State := { s with out := s.out ++ [o] }

/-- An activation pause is in progress: the rider serves nothing, and the PWC holds its outputs (R468, R469). -/
def State.paused (s : State) : Bool := s.rider.pause.isSome

/-- An event for the lag reports of the course (R48): events of one reporter, job, kind and link merge. Which of several late slates the
merged report names is the model's choice, the first (DESIGN CHOICE, log entry 16). -/
def State.addLag (s : State) (unit job kind link slate amount : Nat) : State :=
  let hit : LagEvent → Bool := fun e => e.unit == unit && e.job == job && e.kind == kind && e.link == link
  let evs := s.course.lagEvents
  let out :=
    if evs.any hit then evs.map fun e => if hit e then { e with amount := e.amount + amount, count := e.count + 1 } else e
    else evs ++ [⟨unit, job, kind, link, slate, amount, 1⟩]
  { s with course := { s.course with lagEvents := out } }

/-! ## Identities and partitions (R324, R325) -/

def Who.pf0 : Nat := 0x401
def Who.pf1 : Nat := 0x402
def Who.rider : Nat := 0x800
def Who.sp : Nat := 0x801
def Who.pwc : Nat := 0x802
def Who.isVF (w : Nat) : Bool := 1 ≤ w && w ≤ 0x400
def Who.isPF (w : Nat) : Bool := w == Who.pf0 || w == Who.pf1
def Who.isFn (w : Nat) : Bool := Who.isVF w || Who.isPF w
def Who.isRider (w : Nat) : Bool := w == Who.rider
def Who.isCore (w : Nat) : Bool := 0x1000 ≤ w && w < 0x1800
/-- PF0, PF1 or the rider. -/
def Who.isManager (w : Nat) : Bool := Who.isPF w || Who.isRider w
/-- The host port of a function (R323, R324). -/
def Who.port (w : Nat) : Nat := if Who.isPF w then w - Who.pf0 else (w - 1) / 512
def Who.pfOf (w : Nat) : Nat := Who.pf0 + Who.port w
/-- Two functions of one port's family. -/
def Who.sameFamily (a b : Nat) : Bool := Who.isFn a && Who.isFn b && Who.port a == Who.port b

/-- A function that exists: a PF, or a VF that has not been removed (R327). -/
def State.fnExists (s : State) (w : Nat) : Bool := Who.isPF w || (Who.isVF w && !(SMap.get false s.host.removed w))

def State.owner (s : State) (p : Nat) : Nat := s.getF HIF_POWN.OWNER p
def State.slatesOf (s : State) (p : Nat) : Nat := s.getF HIF_POWN.SLATES p
def State.bound (s : State) (p : Nat) : Bool := s.flag HIF_POWN.BOUND p
def State.anyBound (s : State) : Bool := (upFrom 0 16).any fun p => s.bound p
def State.gen (s : State) (p : Nat) : Nat := s.getF RST_PART.GEN p
/-- The slates of a partition, as numbers. -/
def State.slateList (s : State) (p : Nat) : List Nat := (upFrom 0 16).filter fun i => natBit (s.slatesOf p) i
/-- The partition that holds a slate. -/
def State.partOfSlate (s : State) (sl : Nat) : Option Nat := (upFrom 0 16).find? fun p => natBit (s.slatesOf p) sl
/-- The job a partition is bound to; 0 where it is not bound. -/
def State.jobOf (s : State) (p : Nat) : Nat := match SMap.find? s.sec.bindings p with | some b => b.job | none => 0
/-- The partitions bound to a job. -/
def State.partsOf (s : State) (job : Nat) : List Nat := (upFrom 0 16).filter fun p => s.bound p && s.jobOf p == job
/-- The jobs bound on this module, each once. -/
def State.boundJobs (s : State) : List Nat := (((upFrom 0 16).filter fun p => s.bound p).map s.jobOf).eraseDups
/-- An identity owns a partition, or is the PF whose VF owns it (R325). -/
def State.reaches (s : State) (w p : Nat) : Bool :=
  s.owner p == w || (Who.isPF w && Who.isVF (s.owner p) && Who.port (s.owner p) == Who.port w)
/-- The cores of a partition's slates, as global numbers. -/
def State.coresOf (s : State) (p : Nat) : List Nat := (s.slateList p).flatMap fun sl => upFrom (sl * 128) 128
/-- The TDISP state of a function: 0 unlocked, 1 locked, 2 run, 3 error (R416); a PF has none. -/
def State.tdi (s : State) (w : Nat) : Nat := if Who.isVF w then s.getF SEC_TDI.STATE (w - 1) else 0
/-- CONFIG_LOCKED, RUN or ERROR: what CONFIG_LOCKED freezes is frozen in each (R416). -/
def State.tdiHeld (s : State) (w : Nat) : Bool := s.tdi w != 0
/-- A function that exists and accepts requests: a VF in ERROR accepts nothing but TDISP messages (R416). -/
def State.fnAccepts (s : State) (w : Nat) : Bool := s.fnExists w && s.tdi w != 3

/-! ## MSI-X (R336, R337) -/

def State.vector (s : State) (fn vec : Nat) : Vector := (SMap.find? s.host.vectors (fn * 2048 + vec)).getD {}
def State.setVector (s : State) (fn vec : Nat) (v : Vector) : State :=
  { s with host := { s.host with vectors := SMap.put {} s.host.vectors (fn * 2048 + vec) v } }

/-- A vector is masked: by its own bit or by its function's (PCIe; R337). -/
def State.masked (s : State) (fn vec : Nat) : Bool := (s.vector fn vec).masked || SMap.get false s.host.maskAll fn

/-- Send a message of a vector, or leave it pending while the vector is masked. -/
def State.sendMsix (s : State) (fn vec : Nat) : State :=
  let v := s.vector fn vec
  if s.masked fn vec then s.setVector fn vec { v with pending := true, merged := false }
  else (s.setVector fn vec { v with pending := false, merged := false, last := some s.clock }).emit (.msix fn vec)

/-- A raise of a vector of an existing function: within IMOD_US of the last message it merges (R337). -/
def State.raiseIn (s : State) (fn vec : Nat) : State :=
  let v := s.vector fn vec
  match v.last with
  | some t => if s.clock < t + 1000 * s.getF HIF_FN_B.IMOD_US fn then s.setVector fn vec { v with merged := true } else s.sendMsix fn vec
  | none => s.sendMsix fn vec

/-- A vector that is no longer masked sends the message it left pending (PCIe; R337). -/
def State.unmasked (s : State) (fn vec : Nat) : State :=
  if (s.vector fn vec).pending && !(s.masked fn vec) then
    (s.setVector fn vec { s.vector fn vec with pending := false }).raiseIn fn vec
  else s

/-- The vectors of a function's MSI-X table (R322). -/
def vectorsOf (fn : Nat) : Nat := if Who.isPF fn then 2048 else 16

/-! ## The error log (R362 to R364) -/

/-- What a rule asks to have recorded; its severity is CORRECTED where the rule names none (R363). -/
structure Rec where
  status : Nat
  source : Nat
  sev : Sev := .corrected
  addr : Option Nat := none
  job : Option (Nat × Nat × Nat) := none
  detail : Nat := 0
  count : Nat := 1
  deriving DecidableEq, Repr

/-- SOURCE of a record: class and instance number (the table "Record sources"). -/
def Src.cistern (i : Nat) : Nat := 0x1000 + i
def Src.tier (i : Nat) : Nat := 0x2000 + i
def Src.core (i : Nat) : Nat := 0x3000 + i
def Src.slate (i : Nat) : Nat := 0x4000 + i
def Src.die (i : Nat) : Nat := 0x5000 + i
def Src.port (i : Nat) : Nat := 0x6000 + i
def Src.rider : Nat := 0x7000
def Src.pwc : Nat := 0x8000
def Src.sp : Nat := 0x9000
def Src.module : Nat := 0xA000

/-- Drop one record to make room: the oldest CORRECTED one, or the oldest (R364). -/
def dropOldest : List ErrRec → List ErrRec
  | [] => []
  | r :: rs =>
    match (r :: rs).findIdx? fun x => x.sev == Sev.corrected with
    | some i => removeAt (r :: rs) i
    | none => rs

/-- Append a record to the ring with the next SEQ. -/
def State.appendRec (s : State) (r : Rec) : State :=
  let seq := s.getF ECC_LOG_STAT.NEXT_SEQ
  let rec_ : ErrRec := ⟨s.time, r.status, r.sev, s.flag GAUGE_STAT.WRAPPED, r.addr, r.job, r.source, seq, r.count, r.detail⟩
  let s1 := if s.store.log.length ≥ 4096 then
      ({ s with store := { s.store with log := dropOldest s.store.log } }).bump ECC_LOG_STAT.LOST
    else s
  let s2 := { s1 with store := { s1.store with
    log := s1.store.log ++ [rec_],
    logToFlash := if r.sev == Sev.corrected then s1.store.logToFlash else s1.store.logToFlash ++ [seq] } }
  s2.setF ECC_LOG_STAT.NEXT_SEQ 0 (seq + 1)

/-- Count one more event in a record that is still in the ring. -/
def State.mergeRec (s : State) (seq : Nat) : State :=
  { s with store := { s.store with log := s.store.log.map fun r => if r.seq == seq then { r with count := r.count + 1 } else r } }

/-- A raise whose vector lies beyond its function's table, or whose function does not exist, is counted and recorded once per course;
any other is raised (R336). -/
def State.raiseVec (s : State) (fn vec : Nat) : State :=
  if s.fnExists fn && vec < vectorsOf fn then s.raiseIn fn vec
  else
    let s1 := s.bump HIF_FN_C.IRQ_LOST fn
    match s1.store.once.find? fun e => e.1 == OnceKey.irq fn with
    | some e => s1.mergeRec e.2
    | none =>
      let s2 := { s1 with store := { s1.store with once := s1.store.once ++ [(OnceKey.irq fn, s1.getF ECC_LOG_STAT.NEXT_SEQ)] } }
      s2.appendRec { status := Status.badArg, source := Src.port (Who.port fn) }

/-- The registers of a crash dump (R442): every core's fault state, RST_PART, RST_JOB and BOOT_STAT, where not at reset. -/
def State.dumpRegs (s : State) : List (Nat × Word) :=
  s.regs.filter fun e => [Reg.TSK_CFLT_A, .TSK_CFLT_B, .TSK_CFLT_C, .TSK_CFLT_D, .RST_PART, .RST_JOB, .BOOT_STAT].any fun r => e.1 % 256 == r.num

/-- Write a crash dump; the ring holds 16 (R442, R459). -/
def State.crashDump (s : State) (watchdog : Bool) : State :=
  let d := s.rst.dumps ++ [⟨s.time, s.store.log, s.dumpRegs, watchdog, s.free⟩]
  { s with free := s.free + 1, rst := { s.rst with dumps := d.drop (d.length - 16) } }

/-- Write an error record: the ring, EVEC of the function that owns a partition it names, a crash dump for MODULE_FATAL. -/
def State.record (s : State) (r : Rec) : State :=
  let s1 := s.appendRec r
  let s2 := match r.job with
    | some (j, _, p) =>
      let fn := s1.owner p
      if s1.jobOf p == j && Who.isFn fn && s1.flag HIF_FN_B.EVEC_EN fn then s1.raiseVec fn (s1.getF HIF_FN_B.EVEC fn) else s1
    | none => s1
  if r.sev == Sev.moduleFatal then s2.crashDump false else s2

/-- Add a field entry to the fuse map, with its record; a full field part takes none (R432, R433). -/
def State.addFieldEntry (s : State) (kind loc : Nat) : State :=
  let e : FuseEntry := ⟨kind, true, loc⟩
  if s.rst.fuseMap.contains e then s
  else if (s.rst.fuseMap.filter fun x => x.isField).length ≥ 1024 then s.record { status := Status.noResource, source := Src.rider }
  else ({ s with rst := { s.rst with fuseMap := s.rst.fuseMap ++ [e] } }).record { status := Status.ok, source := Src.rider }

/-- Bit `i` of the in-service sites of a slate (R86). -/
def State.siteInService (s : State) (sl i : Nat) : Bool :=
  if i < 64 then natBit (s.getF TOP_SITES_LO.SITES sl) i
  else if i < 128 then natBit (s.getF TOP_SITES_MID.SITES sl) (i - 64)
  else natBit (s.getF TOP_SITES_HI.SITES sl) (i - 128)

/-- The in-service sites of a slate, upward. -/
def State.sites (s : State) (sl : Nat) : List Nat := (upFrom 0 136).filter fun i => s.siteInService sl i

/-- A core's site has raised cause HW: twice within 24 h puts it on the run-time disable list (R85, R433). -/
def State.hwFault (s : State) (n : Nat) : State :=
  match (s.sites (n / 128))[n % 128]? with
  | none => s
  | some site =>
    let key := n / 128 * 136 + site
    let again := match SMap.find? s.rst.hwTimes key with | some t => decide (s.clock < t + 86_400_000_000_000) | none => false
    let s1 : State := { s with rst := { s.rst with hwTimes := SMap.insert s.rst.hwTimes key s.clock } }
    if again then s1.addFieldEntry 1 (n / 128 + 16 * site) else s1

/-- A record that a rule allows once per course of a subject: later events of the course are counted in it (R362). -/
def State.recordOnce (s : State) (key : OnceKey) (r : Rec) : State :=
  match s.store.once.find? fun e => e.1 == key with
  | some e => s.mergeRec e.2
  | none => ({ s with store := { s.store with once := s.store.once ++ [(key, s.getF ECC_LOG_STAT.NEXT_SEQ)] } }).record r

/-- Job, generation tag and partition of a record that names a job: its lowest bound partition, or partition 0 and tag 0 where the
module has none. -/
def State.jobRef (s : State) (job : Nat) : Nat × Nat × Nat :=
  match (s.partsOf job).head? with
  | some p => (job, s.gen p, p)
  | none => (job, 0, 0)

/-! ## Memory (R149 to R159) -/

/-- The regions of the module physical address map (R149). -/
inductive Region where
  | cistern | tier | scratch | control | none
  deriving DecidableEq, Repr

def cisternEnd : Nat := 0xC0_0000_0000
def tierBase : Nat := 0x100_0000_0000
def tierSize : Nat := 0xC000_0000
def scratchBase : Nat := 0x200_0000_0000
def scratchSize : Nat := 0x20_0000
def controlBase : Nat := 0x300_0000_0000

/-- The region of an address (R149). -/
def region (a : Nat) : Region :=
  if a < cisternEnd then .cistern
  else if tierBase ≤ a && a < tierBase + 16 * tierSize then .tier
  else if scratchBase ≤ a && a < scratchBase + 2048 * scratchSize then .scratch
  else if controlBase ≤ a && a < controlBase + 2 ^ 32 then .control
  else .none

/-- Cistern, offset and channel of a cistern address (R156). -/
def State.locate (s : State) (a : Nat) : Nat × Nat × Nat :=
  let gs := match s.getF TOP_CIL.GRAN with | 0 => 8 | 1 => 12 | 2 => 16 | _ => 21
  let (c, off) := match s.getF TOP_CIL.MODE with
    | 0 => ((a >>> gs) % 16, ((a >>> (gs + 4)) <<< gs) + a % 2 ^ gs)
    | 1 =>
      let q := a / 0x30_0000_0000
      let o := a % 0x30_0000_0000
      (4 * q + (o >>> gs) % 4, ((o >>> (gs + 2)) <<< gs) + o % 2 ^ gs)
    | _ => (a / 0xC_0000_0000, a % 0xC_0000_0000)
  (c, off, (off >>> 8) % 32)

/-- The cistern address of an offset of a cistern: the inverse of `locate` (R156). -/
def State.unlocate (s : State) (c off : Nat) : Nat :=
  let gs := match s.getF TOP_CIL.GRAN with | 0 => 8 | 1 => 12 | 2 => 16 | _ => 21
  match s.getF TOP_CIL.MODE with
  | 0 => ((off >>> gs) <<< (gs + 4)) + (c <<< gs) + off % 2 ^ gs
  | 1 => c / 4 * 0x30_0000_0000 + ((off >>> gs) <<< (gs + 2)) + ((c % 4) <<< gs) + off % 2 ^ gs
  | _ => c * 0xC_0000_0000 + off

/-- The slate of a tier address, the core of a scratch address. -/
def slateOfTier (a : Nat) : Nat := (a - tierBase) / tierSize
def coreOfScratch (a : Nat) : Nat := (a - scratchBase) / scratchSize
/-- The tier of a tier address (R152): bit 6 of the offset in the slate's window selects it. -/
def tierOf (a : Nat) : Nat := 2 * slateOfTier a + (((a - tierBase) % tierSize) / 64) % 2

/-- SOURCE of a memory record: the home memory of an address. -/
def State.memSrc (s : State) (a : Nat) : Nat :=
  match region a with
  | .cistern => Src.cistern (s.locate a).1
  | .tier => Src.tier (tierOf a)
  | .scratch => Src.core (coreOfScratch a)
  | _ => Src.module

def State.byte (s : State) (a : Nat) : Byte := SMap.get 0 s.mem a
def State.setByte (s : State) (a : Nat) (b : Byte) : State := { s with mem := SMap.put 0 s.mem a b }

/-- The bytes of a range as they stand. -/
def State.bytes (s : State) (a n : Nat) : List Byte := (upFrom a n).map s.byte

/-- Put bytes from an address up. -/
def State.setBytes (s : State) : Nat → List Byte → State
  | _, [] => s
  | a, b :: bs => (s.setByte a b).setBytes (a + 1) bs

def State.poisoned (s : State) (a : Nat) : Bool := SMap.get false s.poison (a / 64)
def State.setPoison (s : State) (a : Nat) (v : Bool) : State := { s with poison := SMap.put false s.poison (a / 64) v }

/-- The addresses of the granules that a range touches. -/
def granulesOf (a n : Nat) : List Nat := if n = 0 then [] else (upFrom (a / 64) ((a + n - 1) / 64 - a / 64 + 1)).map (· * 64)

/-- A test of every MiB that a range touches (grants are whole MiB, R157). -/
def rangeAll (f : Nat → Bool) (a n : Nat) : Bool :=
  n == 0 || (f a && f (a + n - 1) &&
    (upFrom (a / 0x10_0000 + 1) ((a + n - 1) / 0x10_0000 - a / 0x10_0000)).all fun i => f (i * 0x10_0000))

/-- The cistern windows of a partition hold an address (R157). -/
def State.cisternGranted (s : State) (p a : Nat) : Bool :=
  (upFrom 0 4).any fun w =>
    let i := p * 4 + w
    let lo := s.getF TOP_CGRANT.BASE_GIB i
    let hi := s.getF TOP_CGRANT.LIMIT_GIB i
    s.flag TOP_CGRANT.EN i && decide (lo ≤ hi) && decide (hi ≤ 767) && decide (lo ≤ a / 2 ^ 30) && decide (a / 2 ^ 30 ≤ hi)

/-- An address of memory lies within a partition's grant (R157); control space is judged by `coreControl`. -/
def State.granted (s : State) (p a : Nat) : Bool :=
  match region a with
  | .cistern => s.cisternGranted p a
  | .tier => natBit (s.slatesOf p) (slateOfTier a)
  | .scratch => natBit (s.slatesOf p) (coreOfScratch a / 128)
  | _ => false

/-- The register word at an address of control space (R149). -/
def controlReg (a : Nat) : Option (Reg × Nat) := if a < controlBase then none else Reg.find (a - controlBase)

/-- The control-space addresses that owning chapters grant to cores of a partition: the anchor windows of its slates (R162), and
QM_DOORBELL, QM_FLUSH and QM_CANCEL (R218). -/
def State.coreControl (s : State) (p a : Nat) : Bool :=
  match controlReg a with
  | some (.TOP_AWIN, i) => natBit (s.slatesOf p) (i / 8)
  | some (.QM_DOORBELL, _) => true
  | some (.QM_FLUSH, _) => true
  | some (.QM_CANCEL, _) => true
  | _ => false

/-- Whether a function may reach an address through the aperture (R330). -/
def State.fnReach (s : State) (fn a : Nat) : Bool :=
  if Who.isVF fn then (upFrom 0 16).any fun p => s.owner p == fn && s.granted p a
  else
    (match region a with | .cistern | .tier | .scratch => true | _ => false) &&
      !((upFrom 0 16).any fun p => Who.isVF (s.owner p) && s.tdiHeld (s.owner p) && s.granted p a)

/-! ### Decoded reads (R349, R356, R358, R365) -/

/-- The erased die of a cistern (R350). -/
def State.erasedDie (s : State) (c : Nat) : Option Nat := if s.flag ECC_ERASE.VALID c then some (s.getF ECC_ERASE.DIE c) else none

/-- DETAIL word 4 of a cistern's record (R362): 31 is no die. -/
def State.cisDetail (s : State) (c die1 die2 ch kind : Nat) : Nat :=
  die1 + die2 * 2 ^ 5 + ch * 2 ^ 10 + b2n (s.erasedDie c).isSome * 2 ^ 15 + kind * 2 ^ 16

/-- DETAIL word 4 of a memory record (R362). -/
def State.memDetail (s : State) (g kind die1 die2 word bit : Nat) : Nat :=
  match region g with
  | .cistern =>
    let (c, _, ch) := s.locate g
    s.cisDetail c die1 die2 ch kind
  | _ => kind * 2 ^ 16 + word * 2 ^ 20 + bit * 2 ^ 22

/-- The decode of raw words at a granule. -/
def State.decodeRaw (s : State) (g : Nat) (ws : List Word) (suspects : List Nat) : DecodeKind :=
  if region g == .cistern then cisDecode (s.erasedDie (s.locate g).1) suspects (cisOfWords ws) else tierDecode ws

/-- The bytes that a decode of raw words delivers. -/
def decodedBytes (cis : Bool) (ws : List Word) : DecodeKind → List Byte
  | .corrected fs _ =>
    (wordsToBytes (if cis then cisWords (cisFlip (cisOfWords ws) fs) else tierFlip ws (fs.map fun f => (f.1, f.2.1)))).take 64
  | _ => (wordsToBytes ws).take 64

/-- The raw words of a granule as it stands: those written raw, or the encoder's (R347, R354, R358). -/
def State.rawWords (s : State) (g : Nat) : List Word :=
  match SMap.find? s.store.raw (g / 64) with
  | some ws => ws
  | none =>
    if region g == .cistern then
      let cw := cisEncode (s.bytes g 64)
      cisWords (if s.poisoned g then cisPoison cw else cw)
    else tierWords (s.bytes g 64) (s.poisoned g)

def State.eraseRaw (s : State) (g : Nat) : State :=
  { s with store := { s.store with raw := SMap.erase s.store.raw (g / 64), edc := SMap.erase s.store.edc (g / 64) } }

/-- The dies whose EDC line mismatches on a granule's burst (R348). -/
def State.suspects (s : State) (g : Nat) : List Nat := SMap.get [] s.store.edc (g / 64)

/-- What reads of a granule with these raw words deliver: the memory's bytes and poison follow the decode. -/
def State.viewRaw (s : State) (g : Nat) (ws : List Word) : State :=
  let k := s.decodeRaw g ws (s.suspects g)
  (s.setBytes g (decodedBytes (region g == .cistern) ws k)).setPoison g (k == .poison || k == .uncorrectable)

/-- Store a granule raw (R365): its bits are kept where they are not the encoder's. -/
def State.storeRaw (s : State) (g : Nat) (ws : List Word) : State :=
  let s1 := (s.eraseRaw g).viewRaw g ws
  if s1.rawWords g == ws then s1 else { s1 with store := { s1.store with raw := SMap.insert s1.store.raw (g / 64) ws } }

/-- The row of a tier granule (R355), as tier times 192 plus bank times 8,192 plus row. -/
def tierRow (g : Nat) : Nat :=
  let off := ((g - tierBase) % tierSize) / 128 * 64
  (tierOf g * 192 + off / 0x80_0000) * 8192 + off % 0x80_0000 / 1024

/-- A die's corrections: its counter and its tally toward a mark, which falls due at DIE_MARK symbols of the pass or 8 channels within
1 ms (R349, R351). -/
def State.dieCorrected (s : State) (c ch d n : Nat) : State :=
  let t := (SMap.find? s.store.dies (c * 18 + d)).getD {}
  let chans := (t.channels.filter fun e => e.1 != ch) ++ [(ch, s.clock)]
  let due := decide (max 1 (s.getF ECC_THR.DIE_MARK) ≤ t.pass + n) ||
    decide (8 ≤ (chans.filter fun e => decide (s.clock ≤ e.2 + 1_000_000)).length)
  let t1 : DieTally := { t with pass := t.pass + n, channels := chans, met := if t.met.isNone && due then some s.clock else t.met }
  ({ s with store := { s.store with dies := SMap.insert s.store.dies (c * 18 + d) t1 } }).bump ECC_DIE_CNT.CORR (c * 18 + d) n

/-- What a correction counts (R349, R351, R355). -/
def State.countCorrected (s : State) (g : Nat) (syms : List (Nat × Nat × Nat)) (dies : List Nat) : State :=
  match region g with
  | .cistern =>
    let (c, _, ch) := s.locate g
    let s1 := dies.foldl (fun (s : State) d => s.dieCorrected c ch d (syms.filter fun x => x.2.1 == d).length) s
    if dies.length = 2 then s1.bump ECC_CIS_STAT.TWO_DIE c else s1
  | .tier =>
    let last := match syms.getLast? with | some x => x.1 * 2 ^ 20 + x.2.1 * 2 ^ 22 | none => 0
    { s with store := { s.store with rowCorr := SMap.insert s.store.rowCorr (tierRow g) (SMap.get 0 s.store.rowCorr (tierRow g) + syms.length)
                                     rowLast := SMap.insert s.store.rowLast (tierRow g) last } }
  | _ => s

/-- A decode found the granule uncorrectable: it is poisoned, with one DEFERRED record (R358). -/
def State.createPoison (s : State) (g kind : Nat) (suspects : List Nat) (word : Nat) : State :=
  let s0 := (s.eraseRaw g).setPoison g true
  let s1 := { s0 with store := { s0.store with
    found := (s0.store.found.filter fun (e : Nat × Nat × Nat) => e.2.1 == s0.clock) ++ [(g, s0.clock, s0.getF ECC_LOG_STAT.NEXT_SEQ)] } }
  let s2 := if region g == .cistern then
      let c := (s1.locate g).1
      ({ s1 with store := { s1.store with created := SMap.insert s1.store.created c (SMap.get 0 s1.store.created c + 1) } }).bump
        ECC_CIS_STAT.UNCORR c
    else s1
  s2.record { status := Status.poison, source := s2.memSrc g, sev := .deferred, addr := some g,
              detail := s2.memDetail g kind (suspects.getD 0 31) (suspects.getD 1 31) word 0 }

/-- The first SEC-DED word that cannot be corrected. -/
def badWord (ws : List Word) : Nat := ((upFrom 0 4).find? fun w => hsDecode (hsData ws w) (hsCheck ws w) == some none).getD 0

/-- EDC mismatches of a burst are counted by die (R348). -/
def State.countEdc (s : State) (g : Nat) (dies : List Nat) : State :=
  if region g == .cistern then
    (dies.filter fun d => decide (d < 18)).foldl (fun (s : State) d => s.bump ECC_DIE_CNT.EDC ((s.locate g).1 * 18 + d)) s
  else s

/-- A second read in the same clock finds the granule uncorrectable: the DEFERRED record counts it too (R367). -/
def State.foundAgain (s : State) (g : Nat) : State :=
  match s.store.found.find? fun e => e.1 == g && e.2.1 == s.clock with
  | none => s
  | some e =>
    if !(s.poisoned g) then s
    else (if region g == .cistern then s.bump ECC_CIS_STAT.UNCORR (s.locate g).1 else s).mergeRec e.2.2

/-- What a decoded read of a granule leaves behind where its bits are not the encoder's. -/
def State.noteDecode (s : State) (g kind : Nat) : State :=
  match SMap.find? s.store.raw (g / 64) with
  | none => s.foundAgain g
  | some ws =>
    let sus := s.suspects g
    let s1 := s.countEdc g sus
    match s1.decodeRaw g ws sus with
    | .corrected syms dies => s1.countCorrected g syms dies
    | .uncorrectable => s1.createPoison g kind sus (badWord ws)
    | _ => s1

/-- Reads of the granules of a range: what their decode leaves, and the count of poisoned cistern granules returned. -/
def State.noteRead (s : State) (a n : Nat) : State :=
  (granulesOf a n).foldl (fun (s : State) g =>
    let s1 := s.noteDecode g 1
    if region g == .cistern && s1.poisoned g then s1.bump ECC_CIS_STAT.POISON_RD (s1.locate g).1 else s1) s

/-- Reads of several ranges: first address, bytes. -/
def State.noteReads (s : State) (rs : List (Nat × Nat)) : State := rs.foldl (fun (s : State) r => s.noteRead r.1 r.2) s

/-! ### Merge buffers (R352, R353) -/

def State.mergeKey (s : State) (a : Nat) : Nat := let (c, _, ch) := s.locate a; c * 32 + ch

/-- The entry writes its granule back, re-encoded; the data and its poison already stand in memory. -/
def State.writeBack (s : State) (key i : Nat) : State :=
  { s with store := { s.store with merge := SMap.put [] s.store.merge key (removeAt (SMap.get [] s.store.merge key) i) } }

/-- The bytes `lo` to `hi - 1` of a granule as a mask. -/
def byteMask (lo hi : Nat) : BitVec 64 := BitVec.ofNat 64 (2 ^ hi - 2 ^ lo)

/-- Whether a cistern granule has a live merge entry. -/
def State.merging (s : State) (g : Nat) : Bool := (SMap.get [] s.store.merge (s.mergeKey g)).any fun e => e.granule == g

/-- A write merges into an entry: a poisoned one leaves nothing but poison in it, another covers its bytes. -/
def MergeEntry.merge (e : MergeEntry) (lo hi : Nat) (poisoned : Bool) (now : Nat) : MergeEntry :=
  if poisoned then { e with mask := 0, poisoned := true, last := now } else { e with mask := e.mask ||| byteMask lo hi, last := now }

/-- The granule is poisoned while its entry's fill was and the writes have not covered all 64 bytes (R353). -/
def MergeEntry.bad (e : MergeEntry) : Bool := e.poisoned && e.mask != BitVec.allOnes 64

/-- Merge a write of the bytes `lo` to `hi - 1` of a cistern granule: into its live entry, or into a new one, which a write back of the
oldest makes room for (R352, R353). -/
def State.mergeWrite (s : State) (g lo hi : Nat) (poisoned : Bool) : State :=
  let key := s.mergeKey g
  let l := SMap.get [] s.store.merge key
  match l.find? fun e => e.granule == g with
  | some e0 =>
    let e := e0.merge lo hi poisoned s.clock
    ({ s with store := { s.store with
      merge := SMap.put [] s.store.merge key (l.map fun (x : MergeEntry) => if x.granule == g then e else x) } }).setPoison g e.bad
  | none =>
    let s1 := if l.length ≥ 64 then s.writeBack key 0 else s
    let e := (⟨g, 0, s1.poisoned g, 0⟩ : MergeEntry).merge lo hi poisoned s.clock
    ({ s1 with store := { s1.store with
      merge := SMap.put [] s1.store.merge key (SMap.get [] s1.store.merge key ++ [e]) } }).setPoison g e.bad

/-- One granule's part of a write whose bytes are in memory: its poison and its merge entry (R158, R159, R352, R358, R360). -/
def State.landGranule (s : State) (g lo hi : Nat) (poisoned : Bool) : State :=
  let full := lo == 0 && hi == 64
  let s1 := (if full then s else s.noteDecode g (if region g == .cistern then 3 else 1)).eraseRaw g
  if region g == .cistern && (!full || s1.merging g) then s1.mergeWrite g lo hi poisoned
  else if poisoned then s1.setPoison g true
  else if full then s1.setPoison g false else s1

/-- A write at home memory: the bytes, then for each granule its poison and merge entry. -/
def State.land (s : State) (a : Nat) (data : List Byte) (poisoned : Bool) : State :=
  (granulesOf a data.length).foldl
    (fun s g => s.landGranule g (if a ≤ g then 0 else a - g) (if g + 64 ≤ a + data.length then 64 else a + data.length - g) poisoned)
    (s.setBytes a data)

/-- Any granule of a range is poisoned. -/
def State.anyPoison (s : State) (a n : Nat) : Bool := (granulesOf a n).any s.poisoned

/-- Set a range to zero with valid check bits and no poison (R366, R413, R431). -/
def State.zeroRange (s : State) (a n : Nat) : State :=
  { s with
    mem := s.mem.filter fun e => !(decide (a ≤ e.1) && decide (e.1 < a + n))
    poison := s.poison.filter fun e => !(decide (a ≤ e.1 * 64) && decide (e.1 * 64 < a + n))
    store := { s.store with
      raw := s.store.raw.filter fun e => !(decide (a ≤ e.1 * 64) && decide (e.1 * 64 < a + n))
      edc := s.store.edc.filter fun e => !(decide (a ≤ e.1 * 64) && decide (e.1 * 64 < a + n))
      merge := (s.store.merge.map fun e => (e.1, e.2.filter fun m => !(decide (a ≤ m.granule) && decide (m.granule < a + n)))).filter
        fun e => !e.2.isEmpty } }

/-- One granule as another state has it. -/
def State.copyGranule (s from_ : State) (g : Nat) : State :=
  ((s.setBytes g (from_.bytes g 64)).setPoison g (from_.poisoned g)).eraseRaw g

/-- A stopped command's granules: any set of them has reached home memory (R111). -/
def State.partly (old new : State) (gs : List Nat) : State :=
  gs.foldl (fun s g => if s.fresh.1 % 2 = 1 then s.fresh.2.copyGranule new g else s.fresh.2) old

/-! ## Battens (R206 to R211) -/

/-- How far a count is past a target, signed (R207). -/
def diff32 (count target : Nat) : Int := serialDiff 32 count target

/-- A target is met. -/
def batMet (count target : Nat) : Bool := decide (diff32 count target ≥ 0)

def State.batten (s : State) (n : Nat) : Nat := s.getF BTN_CNT.COUNT n

/-- Check every watch against the counts: those met are put aside for their wake (R210, R211). -/
def State.checkWatches (s : State) : State :=
  let now := s.task.watches.filter fun w => batMet (s.batten w.batten) w.target
  { s with task := { s.task with
    watches := s.task.watches.filter fun w => !(batMet (s.batten w.batten) w.target)
    met := s.task.met ++ now.map fun w => ⟨w, s.batten w.batten, s.time⟩ } }

/-- Add to a batten (R208, R209). -/
def State.batAdd (s : State) (n v : Nat) : State := (s.setF BTN_CNT.COUNT n (s.batten n + v)).checkWatches

/-- Set a batten (R208). -/
def State.batSet (s : State) (n v : Nat) : State := (s.setF BTN_CNT.COUNT n v).checkWatches

/-- Set every batten of a slate to 0; the watches stay and are checked against 0 (R206). -/
def State.batZero (s : State) (sl : Nat) : State := (s.clearRegs .BTN_CNT fun i => i / 4096 == sl).checkWatches

/-- Register a watch at its batten's slate: 4,096 entries, of which 2,048 are kept for BTN.WAIT; one that finds none is retried (R211). -/
def State.watch (s : State) (w : Watch) : State :=
  let sl := w.batten / 4096
  let isCore : Watch → Bool := fun x => match x.who with | .core _ => true | _ => false
  let others := (s.task.watches.filter fun x => x.batten / 4096 == sl && !isCore x).length
  if isCore w || others < 2048 then ({ s with task := { s.task with watches := s.task.watches ++ [w] } }).checkWatches
  else { s with task := { s.task with retry := s.task.retry ++ [w] } }

/-- Free every watch of a waiter (R206). -/
def State.unwatch (s : State) (who : Waiter) : State :=
  { s with task := { s.task with
    watches := s.task.watches.filter fun w => w.who != who
    met := s.task.met.filter fun w => w.watch.who != who
    retry := s.task.retry.filter fun w => w.who != who } }

end Sys2Proof.Machine
end

