-- ==== Sys2Proof/Machine/Numbers.lean ====
section
/-!
DEFINITION. Machine/Numbers.lean: the element formats (R54 to R58), exact values, the one rounding of R74 with its status bits (R75 to R77,
R493), the stochastic generator (R79), IEEE arithmetic rounded once (R135), MX blocks (R82), and wide accumulation (R59 to R71, R83).
-/
namespace Sys2Proof.Machine

/-! ## Exact values -/

/-- A decoded number: sign, magnitude `m * 2 ^ e`; an infinity; a NaN. A zero keeps its sign. -/
inductive FVal where
  | num (neg : Bool) (m : Nat) (e : Int)
  | inf (neg : Bool)
  | nan
  deriving DecidableEq, Repr

def FVal.isNan : FVal → Bool | .nan => true | _ => false
def FVal.isInf : FVal → Bool | .inf _ => true | _ => false
def FVal.isZero : FVal → Bool | .num _ 0 _ => true | _ => false
def FVal.neg? : FVal → Bool | .num s _ _ => s | .inf s => s | .nan => false
def FVal.negate : FVal → FVal
  | .num s m e => .num (!s) m e
  | .inf s => .inf (!s)
  | .nan => .nan
def FVal.abs : FVal → FVal
  | .num _ m e => .num false m e
  | .inf _ => .inf false
  | .nan => .nan
/-- Times a power of two. -/
def FVal.scale (k : Int) : FVal → FVal
  | .num s m e => .num s m (e + k)
  | v => v

/-- Floor of the base-2 logarithm of `m * 2 ^ e`, `m` not 0. -/
def floorLog (m : Nat) (e : Int) : Int := (Nat.log2 m : Int) + e

/-- `floor (m * 2 ^ (e - u))` and the fraction it drops, in units of `2 ^ (u - e)` with its denominator. -/
def splitAt (m : Nat) (e u : Int) : Nat × Nat × Nat :=
  if e ≥ u then (m * 2 ^ (e - u).toNat, 0, 1) else (m / 2 ^ (u - e).toNat, m % 2 ^ (u - e).toNat, 2 ^ (u - e).toNat)

/-- Signed integer part: floor toward minus infinity of `± m * 2 ^ (e - u)`, and whether it is exact (R62, R83). -/
def floorAt (neg : Bool) (m : Nat) (e u : Int) : Int × Bool :=
  match splitAt m e u with
  | (q, r, _) => if neg then (if r = 0 then (-(q : Int), true) else (-(q : Int) - 1, false)) else ((q : Int), r == 0)

/-! ## Formats (R54) -/

/-- How a floating-point format uses its top exponent: infinities and NaNs, one NaN (E4M3), or neither. -/
inductive Special where
  | ieee | e4m3 | none
  deriving DecidableEq, Repr

structure Fmt where
  ebits : Nat
  mbits : Nat
  bias : Nat
  special : Special
  deriving DecidableEq, Repr

def Fmt.e4m3 : Fmt := ⟨4, 3, 7, .e4m3⟩
def Fmt.e5m2 : Fmt := ⟨5, 2, 15, .ieee⟩
def Fmt.e3m2 : Fmt := ⟨3, 2, 3, .none⟩
def Fmt.e2m3 : Fmt := ⟨2, 3, 1, .none⟩
def Fmt.e2m1 : Fmt := ⟨2, 1, 1, .none⟩
def Fmt.bf16 : Fmt := ⟨8, 7, 127, .ieee⟩
def Fmt.fp16 : Fmt := ⟨5, 10, 15, .ieee⟩
def Fmt.fp32 : Fmt := ⟨8, 23, 127, .ieee⟩

def Fmt.bits (f : Fmt) : Nat := 1 + f.ebits + f.mbits
def Fmt.emin (f : Fmt) : Int := 1 - (f.bias : Int)
def Fmt.signBit (f : Fmt) : Nat := 2 ^ (f.ebits + f.mbits)
/-- The code of the largest finite magnitude (R54). -/
def Fmt.maxCode (f : Fmt) : Nat :=
  match f.special with
  | .ieee => (2 ^ f.ebits - 1) * 2 ^ f.mbits - 1
  | .e4m3 => 2 ^ (f.ebits + f.mbits) - 2
  | .none => 2 ^ (f.ebits + f.mbits) - 1
def Fmt.infCode (f : Fmt) : Nat := (2 ^ f.ebits - 1) * 2 ^ f.mbits
/-- The canonical NaN (R76). -/
def Fmt.nanCode (f : Fmt) : Nat :=
  match f.special with
  | .ieee => f.infCode + 2 ^ (f.mbits - 1)
  | _ => 2 ^ (f.ebits + f.mbits) - 1

/-- Decode an element (R54). -/
def Fmt.decode (f : Fmt) (code : Nat) : FVal :=
  let s := natBit code (f.ebits + f.mbits)
  let ex := natField code f.mbits f.ebits
  let m := natField code 0 f.mbits
  if f.special = .ieee ∧ ex = 2 ^ f.ebits - 1 then (if m = 0 then .inf s else .nan)
  else if f.special = .e4m3 ∧ code % f.signBit = f.nanCode then .nan
  else if ex = 0 then .num s m (f.emin - f.mbits)
  else .num s (2 ^ f.mbits + m) ((ex : Int) - f.bias - f.mbits)

/-! ## Rounding (R73 to R77, R493) -/

def RM.rne : Nat := 0
def RM.rtz : Nat := 1
def RM.sr : Nat := 2

/-- cw.NSTAT bits (R77). -/
def NS.ovf : BitVec 4 := 1
def NS.tiny : BitVec 4 := 2
def NS.nan : BitVec 4 := 4
def NS.inexact : BitVec 4 := 8

/-- The bits `b` where a condition holds. -/
def nsIf (c : Bool) (b : BitVec 4) : BitVec 4 := if c then b else 0

/-- Whether `m` goes up, for the fraction `r / d`, the mode and the stochastic value (R74). -/
def roundsUp (mode m r d sr : Nat) : Bool :=
  if mode = RM.rne then decide (2 * r > d) || (2 * r == d && m % 2 == 1)
  else if mode = RM.sr then (let x := r * 2 ^ 32 / d; decide (x > 0) && decide (sr ≥ 2 ^ 32 - x))
  else false

/-- A magnitude rounded at ulp exponent `u`, and whether a nonzero fraction was discarded. -/
def roundMag (mode sr m : Nat) (e u : Int) : Nat × Bool :=
  match splitAt m e u with
  | (q, r, d) => (q + b2n (roundsUp mode q r d sr), r != 0)

/-- round_to of R74 for a finite value, with its overflow (R75) and its status bits (R77). -/
def Fmt.roundFin (f : Fmt) (mode : Nat) (sat : Bool) (sr : Nat) (neg : Bool) (m : Nat) (e : Int) : Nat × BitVec 4 :=
  let sign := if neg then f.signBit else 0
  if m = 0 then (sign, 0)
  else
    let ex := max (floorLog m e) f.emin
    match roundMag mode sr m e (ex - f.mbits) with
    | (q, inx) =>
      let code := (ex - f.emin).toNat * 2 ^ f.mbits + q
      if code > f.maxCode then
        let ovf := NS.ovf ||| nsIf inx NS.inexact
        if sat ∨ mode = RM.rtz ∨ f.special = .none then (sign + f.maxCode, ovf)
        else if f.special = .ieee then (sign + f.infCode, ovf)
        else (f.nanCode, ovf ||| NS.nan)
      else (sign + code, nsIf inx NS.inexact ||| nsIf (decide (code < 2 ^ f.mbits)) NS.tiny)

/-- A conversion to a floating-point format (R74 to R76, R493). -/
def Fmt.round (f : Fmt) (mode : Nat) (sat : Bool) (sr : Nat) : FVal → Nat × BitVec 4
  | .nan => (f.nanCode, NS.nan)
  | .inf s =>
    let sign := if s then f.signBit else 0
    if sat ∨ f.special = .none then (sign + f.maxCode, NS.ovf)
    else if f.special = .ieee then (sign + f.infCode, 0)
    else (f.nanCode, NS.ovf ||| NS.nan)
  | .num s m e => f.roundFin mode sat sr s m e

/-- A conversion to an integer of `w` bits at ulp exponent `u`, limited to `lo` and `hi` (R75, R76, R145, R493). -/
def roundInt (w : Nat) (lo hi : Int) (u : Int) (mode sr : Nat) : FVal → Nat × BitVec 4
  | .nan => (2 ^ (w - 1), NS.nan)
  | .inf s => (codeOf w (if s then lo else hi), NS.ovf)
  | .num s m e =>
    match roundMag mode sr m e u with
    | (q, inx) =>
      let y : Int := if s then -(q : Int) else q
      let z := max lo (min hi y)
      (codeOf w z, nsIf inx NS.inexact ||| nsIf (z != y) NS.ovf)

/-- The stochastic value of R79. -/
def srValue (seed : Word) (tRow tCol elem : Nat) : Nat :=
  let ctr : Word := BitVec.ofNat 64 (tRow * 2 ^ 32 + tCol * 2 ^ 16 + elem)
  let z := seed + ctr * 0x9E3779B97F4A7C15#64
  let z := (z ^^^ (z >>> 30)) * 0xBF58476D1CE4E5B9#64
  let z := (z ^^^ (z >>> 27)) * 0x94D049BB133111EB#64
  let z := z ^^^ (z >>> 31)
  (z >>> 32).toNat

/-- The stochastic value of a queue entry's captured seed and tile (R79). -/
def QEntry.sr (q : QEntry) (elem : Nat) : Nat := srValue q.seed (field q.tile 16 16) (field q.tile 0 16) (elem % 4096)

/-! ## Formats by code (R121) -/

/-- An element format: floating point, or an integer of `w` bits in units of `2 ^ u`. -/
inductive Elem where
  | flt (f : Fmt)
  | int (w : Nat) (u : Int)
  deriving DecidableEq, Repr

/-- The operand format codes. -/
def elemOf : Nat → Option Elem
  | 0x0 => some (.flt .e4m3)
  | 0x1 => some (.flt .e5m2)
  | 0x2 => some (.flt .bf16)
  | 0x3 => some (.flt .fp16)
  | 0x4 => some (.flt .fp32)
  | 0x5 => some (.int 8 0)
  | 0x6 => some (.int 4 0)
  | 0x8 => some (.flt .e4m3)
  | 0x9 => some (.flt .e5m2)
  | 0xA => some (.flt .e3m2)
  | 0xB => some (.flt .e2m3)
  | 0xC => some (.flt .e2m1)
  | 0xD => some (.int 8 (-6))
  | _ => none

def isMxFmt (code : Nat) : Bool := 0x8 ≤ code && code ≤ 0xD
def isIntFmt (code : Nat) : Bool := code == 0x5 || code == 0x6

def Elem.bits : Elem → Nat
  | .flt f => f.bits
  | .int w _ => w

/-- Decode an element (R54, R56). -/
def Elem.decode : Elem → Nat → FVal
  | .flt f, c => f.decode c
  | .int w u, c => let x := signedOf w c; .num (decide (x < 0)) x.natAbs u

/-- Round a value into an output element. -/
def Elem.out (e : Elem) (mode : Nat) (sat : Bool) (sr : Nat) (v : FVal) : Nat × BitVec 4 :=
  match e with
  | .flt f => f.round mode sat sr v
  | .int w u => roundInt w (-(2 : Int) ^ (w - 1)) (2 ^ (w - 1) - 1) u mode sr v

/-- The elements packed in a list of bytes (R57, R58). -/
def unpack (bits n : Nat) (bs : List Byte) : List Nat := let v := leNat bs; (upFrom 0 n).map fun i => natField v (bits * i) bits

/-- Elements packed into bytes. -/
def pack (bits : Nat) (cs : List Nat) : List Byte :=
  leBytes (ceilDiv (bits * cs.length) 8) (cs.foldr (fun c a => c % 2 ^ bits + 2 ^ bits * a) 0)

/-! ## IEEE arithmetic rounded once (R135) -/

/-- The sum of two dyadic numbers, exactly. -/
def dyAdd (s1 : Bool) (m1 : Nat) (e1 : Int) (s2 : Bool) (m2 : Nat) (e2 : Int) : Int × Int :=
  let e := min e1 e2
  let x : Int := (m1 * 2 ^ (e1 - e).toNat : Nat)
  let y : Int := (m2 * 2 ^ (e2 - e).toNat : Nat)
  ((if s1 then -x else x) + (if s2 then -y else y), e)

/-- Exact sum; an exact zero is +0 unless both are −0. -/
def FVal.add : FVal → FVal → FVal
  | .nan, _ => .nan
  | _, .nan => .nan
  | .inf s, .inf t => if s = t then .inf s else .nan
  | .inf s, _ => .inf s
  | _, .inf t => .inf t
  | .num s1 m1 e1, .num s2 m2 e2 =>
    match dyAdd s1 m1 e1 s2 m2 e2 with
    | (x, e) => if x = 0 then .num (s1 && s2 && m1 == 0) 0 e else .num (decide (x < 0)) x.natAbs e

/-- Exact product. -/
def FVal.mul : FVal → FVal → FVal
  | .nan, _ => .nan
  | _, .nan => .nan
  | .inf s, .inf t => .inf (s != t)
  | .inf s, .num t m _ => if m = 0 then .nan else .inf (s != t)
  | .num t m _, .inf s => if m = 0 then .nan else .inf (s != t)
  | .num s m e, .num t n f => .num (s != t) (m * n) (e + f)

/-- Round to nearest even, without saturation; the canonical NaN for every NaN. -/
def Fmt.rne (f : Fmt) (v : FVal) : Nat := (f.round RM.rne false 0 v).1

/-- The integer square root, by its bits from the highest. -/
def isqrt (n : Nat) : Nat :=
  (upFrom 0 (Nat.log2 n / 2 + 1)).foldr (fun i r => if (r + 2 ^ i) * (r + 2 ^ i) ≤ n then r + 2 ^ i else r) 0

/-- A value that rounds as the quotient of two finite numbers does: 80 bits and a sticky bit. -/
def FVal.div : FVal → FVal → FVal
  | .nan, _ => .nan
  | _, .nan => .nan
  | .inf _, .inf _ => .nan
  | .inf s, .num t _ _ => .inf (s != t)
  | .num s _ _, .inf t => .num (s != t) 0 0
  | .num s m e, .num t n f =>
    if n = 0 then (if m = 0 then .nan else .inf (s != t))
    else
      let k := 80 + Nat.log2 n
      let q := m * 2 ^ k / n
      .num (s != t) (2 * q + b2n (m * 2 ^ k % n != 0)) (e - f - k - 1)

/-- A value that rounds as the square root does. -/
def FVal.sqrt : FVal → FVal
  | .nan => .nan
  | .inf s => if s then .nan else .inf false
  | .num s m e =>
    if m = 0 then .num s 0 e
    else if s then .nan
    else
      let k : Nat := 100 + (e % 2).toNat
      let n := m * 2 ^ k
      let r := isqrt n
      .num false (2 * r + b2n (r * r != n)) ((e - k) / 2 - 1)

/-- The order of the codes of a format as numbers, −0 below +0. -/
def Fmt.key (f : Fmt) (c : Nat) : Int := if c ≥ f.signBit then -((c - f.signBit : Nat) : Int) - 1 else c

/-- Minimum and maximum: a NaN operand gives NaN. -/
def Fmt.minOf (f : Fmt) (a b : Nat) : Nat :=
  if (f.decode a).isNan || (f.decode b).isNan then f.nanCode else if f.key b < f.key a then b else a
def Fmt.maxOf (f : Fmt) (a b : Nat) : Nat :=
  if (f.decode a).isNan || (f.decode b).isNan then f.nanCode else if f.key a < f.key b then b else a

/-- Exact comparison of two numbers; none where either is a NaN. -/
def FVal.cmp? : FVal → FVal → Option Ordering
  | .nan, _ => none
  | _, .nan => none
  | .inf s, .inf t => some (if s = t then .eq else if s then .lt else .gt)
  | .inf s, _ => some (if s then .lt else .gt)
  | _, .inf t => some (if t then .gt else .lt)
  | .num s1 m1 e1, .num s2 m2 e2 =>
    let x := (dyAdd s1 m1 e1 (!s2) m2 e2).1
    some (if x < 0 then .lt else if x = 0 then .eq else .gt)

/-! ## MX blocks (R56, R58, R82) -/

/-- Data bytes of one 64-line block, and of one line of it, by element width. -/
def mxBlock (bits : Nat) : Nat := 256 * bits
def mxLine (bits : Nat) : Nat := 4 * bits

/-- The largest exponent of an element format, as the conversion uses it. -/
def mxEmax : Nat → Int
  | 0x8 => 8
  | 0x9 => 15
  | 0xA => 4
  | 0xB => 2
  | 0xC => 2
  | _ => 0

/-- One block of FP32 values into an MX format: the scale byte, the element codes and the status bits (R82); `sr` per element. -/
def mxEncode (code mode : Nat) (vs : List FVal) (sr : Nat → Nat) : Nat × List Nat × BitVec 4 :=
  if vs.any fun v => v.isNan || v.isInf then
    (0xFF, vs.map fun _ => 0, NS.nan ||| nsIf (vs.any FVal.isInf) NS.ovf)
  else
    match (vs.map fun v => match v with | .num _ m e => if m = 0 then none else some (floorLog m e) | _ => none).filterMap id with
    | [] => (0x7F, vs.map fun _ => 0, 0)
    | x :: xs =>
      let s := max (-127) (min 127 (xs.foldl max x - mxEmax code))
      let out := (vs.zip (upFrom 0 vs.length)).map fun (v, i) =>
        match elemOf code with
        | some (.flt f) => f.round mode true (sr i) (v.scale (-s))
        | _ => roundInt 8 (-127) 127 (-6) mode (sr i) (v.scale (-s))
      ((s + 127).toNat, out.map Prod.fst, out.foldl (fun a o => a ||| o.2) 0)

/-- An element of an MX block with its scale byte (R56). -/
def mxValue (e : Elem) (x c : Nat) : FVal := if x = 0xFF then .nan else (e.decode c).scale ((x : Int) - 127)

/-! ## Wide accumulation (R59 to R71, R83) -/

/-- The NaN code, and the bound of the finite values. -/
def waNan : BitVec 128 := 0x80000000000000000000000000000000#128
def waMax : Int := 2 ^ 127 - 1

/-- The flags of a WA tag: UNDERRUN, OVERFLOW, NAN, as bits 0, 1, 2. -/
structure WaFlags where
  under : Bool := false
  ovf : Bool := false
  nan : Bool := false
  deriving DecidableEq, Repr

def WaFlags.or (a b : WaFlags) : WaFlags := ⟨a.under || b.under, a.ovf || b.ovf, a.nan || b.nan⟩
def WaFlags.toNat (a : WaFlags) : Nat := b2n a.under + 2 * b2n a.ovf + 4 * b2n a.nan
/-- The anchor of a tag (R61). -/
def tagAnchor (t : BitVec 32) : Int := signedOf 16 t.toNat
/-- A tag with more flags; reserved bits are zero. -/
def tagWith (t : BitVec 32) (f : WaFlags) : BitVec 32 := t ||| BitVec.ofNat 32 (f.toNat * 2 ^ 16)
/-- A tag of an anchor and flags. -/
def tagOf (anchor : Nat) (f : WaFlags) : BitVec 32 := BitVec.ofNat 32 (anchor % 65536 + f.toNat * 2 ^ 16)
/-- The flags of a tag. -/
def tagFlags (t : BitVec 32) : WaFlags := ⟨bit t 16, bit t 17, bit t 18⟩

/-- A finite value limited to the range, and whether it fell outside (R64). -/
def waSat (x : Int) : Int × Bool := if x > waMax then (waMax, true) else if x < -waMax then (-waMax, true) else (x, false)

def waInt (v : BitVec 128) : Int := v.toInt

/-- Add an integer into an element (R64, R65): an element that holds the NaN code keeps it. -/
def waAddInt (w : BitVec 128) (x : Int) : BitVec 128 × WaFlags :=
  if w = waNan then (w, { nan := true })
  else match waSat (waInt w + x) with | (y, o) => (BitVec.ofInt 128 y, { ovf := o })

/-- A WA value at anchor `ax` aligned to the fixed anchor `ad` (R71). -/
def waAlign (x : Int) (ax ad : Int) : Int × WaFlags :=
  if ax ≥ ad then (match waSat (x * 2 ^ (ax - ad).toNat) with | (y, o) => (y, { ovf := o }))
  else (x / 2 ^ (ad - ax).toNat, { under := x % 2 ^ (ad - ax).toNat != 0 })

/-- Add a WA value into a destination of a fixed anchor (R71). -/
def waAddFixed (d : BitVec 128) (ad : Int) (x : BitVec 128) (ax : Int) : BitVec 128 × WaFlags :=
  if d = waNan ∨ x = waNan then (waNan, { nan := true })
  else match waAlign (waInt x) ax ad with
    | (y, f) => match waAddInt d y with | (z, g) => (z, f.or g)

/-- Add two WA values with tags (R70): the value at the lesser anchor, and the flags raised. -/
def waAddFree (x : BitVec 128) (ax : Int) (y : BitVec 128) (ay : Int) : BitVec 128 × WaFlags :=
  if x = waNan ∨ y = waNan then (waNan, { nan := true })
  else
    let a := min ax ay
    match waAlign (waInt x) ax a, waAlign (waInt y) ay a with
    | (p, f), (q, g) => match waSat (p + q) with | (z, o) => (BitVec.ofInt 128 z, (f.or g).or { ovf := o })

/-- A value loaded at an anchor (R83). -/
def waLoad (v : FVal) (a : Int) : BitVec 128 × WaFlags :=
  match v with
  | .num s m e =>
    match floorAt s m e a with
    | (x, ex) => match waSat x with | (y, o) => (BitVec.ofInt 128 y, { under := !ex, ovf := o })
  | _ => (waNan, { nan := true })

/-- One permutation of a list, by a number: each step takes an element out. -/
def permuteBy {α : Type} : Nat → Nat → List α → List α
  | 0, _, l => l
  | k + 1, n, l =>
    match l[n % l.length]? with
    | some x => x :: permuteBy k (n / l.length) (removeAt l (n % l.length))
    | none => []

/-- Add integers into an element one by one, saturating at each (R64). -/
def waSumInts (w : BitVec 128) (xs : List Int) : BitVec 128 × WaFlags :=
  xs.foldl (fun a x => match waAddInt a.1 x with | (v, f) => (v, a.2.or f)) (w, {})

/-- Whether no order of the additions leaves the range (R64): the start and all positive, and the start and all negative, addends. -/
def waSafe (w : BitVec 128) (xs : List Int) : Bool :=
  let p := xs.foldl (fun a x => if x > 0 then a + x else a) (waInt w)
  let n := xs.foldl (fun a x => if x < 0 then a + x else a) (waInt w)
  decide (p ≤ waMax) && decide (n ≥ -waMax)

/-- Accumulate products into an element at an anchor (R62 to R65); `ord` picks the order in which the engine adds, where it matters: a
product of a NaN or an infinity ends the element's part in the accumulation, and a sum may leave the range. -/
def waAccumulate (w : BitVec 128) (anchor : Int) (ps : List FVal) (ord : Nat) : BitVec 128 × WaFlags :=
  if w = waNan then (w, {})
  else
    let finite : FVal → Bool := fun p => match p with | .num .. => true | _ => false
    let part : FVal → Int × Bool := fun p => match p with | .num s m e => floorAt s m e anchor | _ => (0, true)
    if ps.all finite && waSafe w (ps.map fun p => (part p).1) then
      match waSumInts w (ps.map fun p => (part p).1) with
      | (v, f) => (v, f.or { under := ps.any fun p => !(part p).2 })
    else
      let order := permuteBy ps.length ord ps
      let before := order.takeWhile finite
      match waSumInts w (before.map fun p => (part p).1) with
      | (v, f) =>
        let g := f.or { under := before.any fun p => !(part p).2 }
        if ps.all finite then (v, g) else (waNan, g.or { nan := true })

/-- A WA element as a value, at its anchor plus a scale exponent (R59, R74); its zero is +0. -/
def waValue (w : BitVec 128) (e : Int) : FVal :=
  if w = waNan then .nan else .num (decide (waInt w < 0)) (waInt w).natAbs e

end Sys2Proof.Machine
end

