-- ==== Sys2Proof/Machine/Accum.lean ====
section
/-!
DEFINITION. Machine/Accum.lean: accumulating writes at a tier (R160 to R162).
-/
namespace Sys2Proof.Machine

/-- Bytes of an element of an ATYPE. -/
def accSize (atype : Nat) : Nat := match atype with | 0 => 4 | 1 => 2 | _ => 16

/-- The window that holds an address: the lowest enabled one of its slate (R162), by its index. -/
def State.windowOf (s : State) (a : Nat) : Option Nat :=
  let sl := slateOfTier a
  let mib := (a - tierBase) % tierSize / 0x10_0000
  ((upFrom 0 8).map fun w => sl * 8 + w).find? fun i =>
    s.flag TOP_AWIN.EN i && decide (s.getF TOP_AWIN.BASE_MIB i ≤ mib) && decide (mib ≤ s.getF TOP_AWIN.LIMIT_MIB i)

/-- One element's sum and the flags it raises, at a destination anchor. -/
def accElem (atype : Nat) (anchor : Int) (tag : BitVec 32) (d x : Nat) : Nat × WaFlags :=
  match atype with
  | 0 => (Fmt.fp32.rne ((Fmt.fp32.decode d).add (Fmt.fp32.decode x)), {})
  | 1 => (Fmt.bf16.rne ((Fmt.bf16.decode d).add (Fmt.bf16.decode x)), {})
  | _ => match waAddFixed (BitVec.ofNat 128 d) anchor (BitVec.ofNat 128 x) (tagAnchor tag) with | (v, f) => (v.toNat, f)

/-- Add the covered elements of an accumulating write to its granule, with the poison that it carries (R358, R359). -/
def State.accAdd (s : State) (a : AccWrite) (anchor : Int) : State × WaFlags :=
  let size := accSize a.atype
  let covered := (upFrom 0 (64 / size)).filter fun j => bit a.mask (size * j)
  let s1 : State × WaFlags := covered.foldl (fun acc j =>
    let d := leNat (acc.1.bytes (a.granule + size * j) size)
    match accElem a.atype anchor (BitVec.ofNat 32 a.tag) d (field a.data (8 * size * j) (8 * size)) with
    | (v, f) => (acc.1.setBytes (a.granule + size * j) (leBytes size v), acc.2.or f)) ((s.noteDecode a.granule 1).eraseRaw a.granule, {})
  (if a.poisoned then s1.1.setPoison a.granule true else s1.1, s1.2)

/-- Apply an accumulating write to its granule: the covered elements, its poison, the window's sticky flags. None where no window contains
a WA128 granule: the write is discarded. -/
def State.accumulate (s : State) (a : AccWrite) : Option (State × WaFlags) :=
  if a.atype = 2 then
    match s.windowOf a.granule with
    | none => none
    | some w =>
      match s.accAdd a (signedOf 16 (s.getF TOP_AWIN.ANCHOR w)) with
      | (s1, f) =>
        let g := f.or (tagFlags (BitVec.ofNat 32 a.tag))
        let r := s1.reg .TOP_AWIN w
        some (s1.setReg .TOP_AWIN w (r ||| BitVec.ofNat 64 (g.toNat * 2 ^ 41)), g)
  else some (s.accAdd a 0)

end Sys2Proof.Machine
end

