-- ==== Sys2Proof/Machine/Queues.lean ====
section
/-!
DEFINITION. Machine/Queues.lean: work and completion queues (R215 to R225): checks at enable, doorbells, flushes, cancels, the consumer-
index shadow, completions; and writes of the anchor windows (R162).
-/
namespace Sys2Proof.Machine

/-- What a queue keeps beside its context. -/
def State.queue (s : State) (q : Nat) : QueueSt := SMap.get {} s.task.queues q
def State.setQueue (s : State) (q : Nat) (x : QueueSt) : State := { s with task := { s.task with queues := SMap.put {} s.task.queues q x } }

/-- The queue states (QM_CTX.STATE). -/
def QS.disabled : Nat := 0
def QS.active : Nat := 1
def QS.flushed : Nat := 2
def QS.fault : Nat := 3

/-- The number of entries of a ring. -/
def State.ringSize (s : State) (q : Nat) : Nat := 2 ^ s.getF QM_CTX.LOG2_E q

/-- The wrapped distance between two 16-bit indices. -/
def dist16 (a b : Nat) : Nat := (a + 65536 - b % 65536) % 65536

/-- The address of the entry at an index (R215). -/
def State.entryAddr (s : State) (q i : Nat) : Nat := s.getF QM_CTX.BASE q + 64 * (i % s.ringSize q)

/-- Write CONS and STATE to the shadow word (R220). -/
def State.writeShadow (s : State) (q : Nat) : State :=
  if s.flag QM_CTX.SHADOW_EN q ∧ ¬ s.flag QM_CTX.TYPE q then
    let s1 := s.land (s.getF QM_CTX.SHADOW q) (leBytes 8 (s.getF QM_CTX.CONS q + s.getF QM_CTX.STATE q * 65536)) false
    s1.setQueue q { s1.queue q with lastShadow := some s.clock, shadowDue := none }
  else s

/-- Change a queue's STATE; the shadow tells it at once (R220, R222). -/
def State.setQState (s : State) (q v : Nat) : State :=
  if s.getF QM_CTX.STATE q = v then s else (s.setF QM_CTX.STATE q v).writeShadow q

/-- Advance CONS past an item of `n` entries; the shadow is owed (R220). A mark that CONS passes without meeting the item's first entry
is dropped with a record (R224). -/
def State.advanceCons (s : State) (q n : Nat) : State :=
  let cons := s.getF QM_CTX.CONS q
  let x := s.queue q
  let passed := x.marks.filter fun m => decide (dist16 m cons < n)
  let since := (x.shadowDue.map (·.1)).getD s.clock
  let due := if s.flag QM_CTX.SHADOW_EN q then some (since, false) else none
  let s1 := (s.setF QM_CTX.CONS q (cons + n)).setQueue q
    { x with head := [], gateMet := false, shadowDue := due, marks := x.marks.filter fun m => !decide (dist16 m cons < n) }
  let wrong := passed.filter fun m => m != cons
  wrong.foldl (fun s _ => s.record { status := Status.badArg, source := Src.slate (s.getF QM_CTX.SLATE q) }) (s1.unwatch (.gate q))

/-- The identities that may ring, flush or cancel a queue (R218, R222, R224). -/
def State.mayRing (s : State) (who q : Nat) : Bool :=
  Who.isManager who || (who == s.getF QM_CTX.OWNER q && who != 0) ||
    (Who.isCore who && natBit (s.slatesOf (s.getF QM_CTX.PART q)) ((who - 0x1000) / 128))

/-- SOURCE of a queue's records: its slate. -/
def State.queueSrc (s : State) (q : Nat) : Nat := Src.slate (s.getF QM_CTX.SLATE q)

/-- Count an ignored doorbell, flush or cancel, and record it once per queue and course (R218). -/
def State.badDoorbell (s : State) (q status : Nat) : State :=
  (s.bump QM_CTX.BAD_DB q).recordOnce (.doorbell q) { status := status, source := s.queueSrc q }

/-- A write of QM_DOORBELL (R218). -/
def State.doorbell (s : State) (who q index : Nat) : State :=
  if ¬ s.mayRing who q then s.badDoorbell q Status.denied
  else
    let prod := s.getF QM_CTX.PROD q
    let cons := s.getF QM_CTX.CONS q
    let e := s.ringSize q
    let st := s.getF QM_CTX.STATE q
    let work := ¬ s.flag QM_CTX.TYPE q
    if ¬ s.flag QM_CTX.EN q then s.badDoorbell q Status.badArg
    else if st = QS.flushed then
      (if work ∧ index = cons then s.setQState q QS.active else s.badDoorbell q Status.badArg)
    else if st ≠ QS.active then s.badDoorbell q Status.badArg
    else if work then
      (if dist16 index cons ≤ e - 1 ∧ dist16 index prod ≤ e - 1 then s.setF QM_CTX.PROD q index else s.badDoorbell q Status.badArg)
    else if dist16 index cons ≤ dist16 prod cons then s.setF QM_CTX.CONS q index
    else s.badDoorbell q Status.badArg

/-- A word of the entry at an index. -/
def State.entryWord (s : State) (q i w : Nat) : Nat := leNat (s.bytes (s.entryAddr q i + 8 * w) 8)

/-- The number of entries of the item whose work entry stands at an index (R226). -/
def State.itemLen (s : State) (q i : Nat) : Nat := natField (s.entryWord q i 0) 24 2 + 1

/-- The completions owed to the whole items from an index to PROD (R222). -/
def State.owedItems (s : State) (q : Nat) : Nat → Nat → List Owed
  | 0, _ => []
  | n + 1, i =>
    let left := dist16 (s.getF QM_CTX.PROD q) i
    let len := s.itemLen q i
    if left < len then []
    else
      let w0 := s.entryWord q i 0
      let w1 := s.entryWord q i 1
      let rest := State.owedItems s q n ((i + len) % 65536)
      if natBit w0 26 then ⟨natField w1 32 20, q, i, natField w1 0 32, s.getF QM_CTX.PART q, 3⟩ :: rest else rest

/-- Take every item that has not been granted, and every cancel mark, out of a queue (R217, R222, R448). -/
def State.dropItems (s : State) (q : Nat) : State :=
  let s1 := s.setQueue q { s.queue q with marks := [], head := [], gateMet := false }
  (s1.unwatch (.gate q)).setF QM_CTX.PROD q (s.getF QM_CTX.CONS q)

/-- Flush a WORK queue; its whole items are owed FLUSHED completions where asked (R222). -/
def State.flushQueue (s : State) (q : Nat) (withCompletions : Bool) : State :=
  let owed := if withCompletions then s.owedItems q (dist16 (s.getF QM_CTX.PROD q) (s.getF QM_CTX.CONS q)) (s.getF QM_CTX.CONS q) else []
  let s1 := s.dropItems q
  let s2 := { s1 with task := { s1.task with owed := s1.task.owed ++ owed } }
  s2.setQState q QS.flushed

/-- A write of QM_FLUSH (R222). -/
def State.flush (s : State) (who q : Nat) : State :=
  if ¬ s.mayRing who q then s.badDoorbell q Status.denied
  else if s.flag QM_CTX.TYPE q ∨ ¬ s.flag QM_CTX.EN q ∨ s.getF QM_CTX.STATE q = QS.fault then
    s.record { status := Status.badArg, source := s.queueSrc q }
  else s.flushQueue q true

/-- A word of an item that has been read. -/
def itemWord (item : List Byte) (w : Nat) : Nat := leNat ((item.drop (8 * w)).take 8)

/-- A marked head item that has been read is skipped; it is owed a CANCELLED completion where it asks for one (R224). -/
def State.retireCancelled (s : State) (q : Nat) : State :=
  let x := s.queue q
  let cons := s.getF QM_CTX.CONS q
  if x.head = [] ∨ ¬ (x.marks.any (· == cons)) then s
  else
    let owed := if natBit (itemWord x.head 0) 26 then
        [(⟨natField (itemWord x.head 1) 32 20, q, cons, natField (itemWord x.head 1) 0 32, s.getF QM_CTX.PART q, 2⟩ : Owed)]
      else []
    let s1 := s.advanceCons q (x.head.length / 64)
    { s1 with task := { s1.task with owed := s1.task.owed ++ owed } }

/-- A write of QM_CANCEL (R224). -/
def State.cancel (s : State) (who q index : Nat) : State :=
  if ¬ s.mayRing who q then s.badDoorbell q Status.denied
  else if s.flag QM_CTX.TYPE q ∨ ¬ s.flag QM_CTX.EN q then
    (s.setF QM_CTX.LAST_CANCEL q Status.badArg).record { status := Status.badArg, source := s.queueSrc q }
  else
    let cons := s.getF QM_CTX.CONS q
    let x := s.queue q
    if dist16 index cons ≥ dist16 (s.getF QM_CTX.PROD q) cons then s.setF QM_CTX.LAST_CANCEL q Status.window
    else if x.marks.length ≥ 16 then s.setF QM_CTX.LAST_CANCEL q Status.busy
    else
      let marks := if x.marks.any (· == index) then x.marks else x.marks ++ [index]
      ((s.setQueue q { x with marks := marks }).setF QM_CTX.LAST_CANCEL q Status.ok).retireCancelled q

/-- A range lies in one populated region of memory and in a partition's grant. -/
def State.inGrant (s : State) (p a n : Nat) : Bool :=
  (match region a with | .cistern | .tier | .scratch => true | _ => false) && region a == region (a + n - 1) && rangeAll (s.granted p) a n

/-- The checks of the table "Queue enable checks": the status of the first that fails (R217). -/
def State.enableCheck (s : State) (q : Nat) : Option Nat :=
  let lg := s.getF QM_CTX.LOG2_E q
  let base := s.getF QM_CTX.BASE q
  let p := s.getF QM_CTX.PART q
  let sl := s.getF QM_CTX.SLATE q
  let shadow := s.getF QM_CTX.SHADOW q
  let cpl := s.flag QM_CTX.TYPE q
  if ¬ (4 ≤ lg ∧ lg ≤ 16) then some Status.badArg
  else if ¬ (base % 64 = 0 ∧ s.inGrant p base (64 * 2 ^ lg)) then some Status.badArg
  else if cpl ∧ s.flag QM_CTX.SHADOW_EN q then some Status.badArg
  else if ¬ cpl ∧ s.flag QM_CTX.SHADOW_EN q ∧ ¬ (shadow % 8 = 0 ∧ s.inGrant p shadow 8) then some Status.badArg
  else if ¬ cpl ∧ ¬ natBit (s.slatesOf p) sl then some Status.badArg
  else if ¬ cpl ∧ ((s.regs.filter fun e => e.1 % 256 == Reg.num .QM_CTX && (e.1 / 256) % 4 == 0 &&
      bit e.2 0 && !(bit e.2 1) && field e.2 4 4 == sl).length) ≥ 4096 then some Status.noResource
  else none

/-- EN goes from 0 to 1 (R217); the context's other fields have been written. -/
def State.enableQueue (s : State) (q : Nat) : State :=
  match s.enableCheck q with
  | some st => s.record { status := st, source := s.queueSrc q }
  | none =>
    let s1 := (((s.setF QM_CTX.EN q 1).setF QM_CTX.PROD q 0).setF QM_CTX.CONS q 0).setQueue q {}
    s1.setQState q QS.active

/-- EN goes from 1 to 0 (R217). -/
def State.disableQueue (s : State) (q : Nat) : State :=
  ((s.dropItems q).setF QM_CTX.EN q 0).setQState q QS.disabled

/-- A write of word 0 to 3 of a queue context (R216, R217). -/
def State.writeCtx (s : State) (who q word : Nat) (val : Word) : State :=
  if ¬ Who.isManager who then s.record { status := Status.denied, source := s.queueSrc q }
  else
    let old := s.reg .QM_CTX (q * 4 + word)
    let en := s.flag QM_CTX.EN q
    let mask := Reg.mask .QM_CTX word .rw
    let want := (old.toNat - (old.toNat &&& mask)) + (val.toNat &&& mask)
    -- the fields that may only change while EN is 0
    let fixed := if word = 0 then mask - (1 + 7 * 2 ^ 8 + 0x7FF * 2 ^ 48 + 2 ^ 59) else if word = 1 ∨ word = 3 then mask else 0
    let changes := (old.toNat &&& fixed) ≠ (want &&& fixed)
    if word = 2 then s
    else if en ∧ changes then s.record { status := Status.denied, source := s.queueSrc q }
    else if word ≠ 0 then s.setReg .QM_CTX (q * 4 + word) (BitVec.ofNat 64 want)
    else
      let s1 := s.setReg .QM_CTX (q * 4) (BitVec.ofNat 64 (natSetField want 0 1 (b2n en)))
      if ¬ en ∧ natBit want 0 then s1.enableQueue q
      else if en ∧ ¬ natBit want 0 then s1.disableQueue q
      else s1

/-! ## Completions (R221, R233) -/

/-- A CPL queue can take one more completion. -/
def State.cplSpace (s : State) (cq : Nat) : Bool :=
  dist16 (s.getF QM_CTX.PROD cq) (s.getF QM_CTX.CONS cq) < s.ringSize cq - 1

/-- An enabled CPL queue of a partition (R228). -/
def State.cplUsable (s : State) (cq p : Nat) : Bool := s.flag QM_CTX.EN cq && s.flag QM_CTX.TYPE cq && s.getF QM_CTX.PART cq == p

/-- The fields of a completion (the table "Task completion entry"). -/
structure Cpl where
  taskId : Nat
  status : Nat
  outcome : Nat
  job : Nat
  queue : Nat
  index : Nat
  gen : Nat
  core : Nat
  start : Nat
  courses : Nat
  deriving DecidableEq, Repr

/-- Write a completion at PROD of a CPL queue that has space: the entry, PROD, then the vector (R221). -/
def State.writeCpl (s : State) (cq : Nat) (c : Cpl) : State :=
  let x := s.queue cq
  let pass := 1 - (x.written >>> s.getF QM_CTX.LOG2_E cq) % 2
  let w0 := packW [(0, 32, c.taskId), (32, 8, c.status), (40, 2, c.outcome), (42, 1, pass), (48, 16, c.job)]
  let w1 := packW [(0, 20, c.queue), (32, 16, c.index), (48, 8, c.gen)]
  let bs := (leBytes 8 w0.toNat ++ leBytes 8 w1.toNat ++ leBytes 8 c.core) ++ (leBytes 8 c.start ++ leBytes 8 s.time ++ leBytes 8 (c.courses % 2 ^ 32))
    ++ List.replicate 16 0
  let s1 := s.land (s.entryAddr cq (s.getF QM_CTX.PROD cq)) bs false
  let s2 := (s1.setF QM_CTX.PROD cq (s1.getF QM_CTX.PROD cq + 1)).setQueue cq { x with written := (x.written + 1) % 2 ^ 32 }
  if s2.flag QM_CTX.VEC_EN cq then s2.raiseVec (s2.owner (s2.getF QM_CTX.PART cq)) (s2.getF QM_CTX.VEC cq) else s2

/-- Write the first owed FLUSHED or CANCELLED completion, or drop it where its queue has no space (R222). -/
def State.payOwed (s : State) : State :=
  match s.task.owed with
  | [] => s
  | o :: rest =>
    let s1 := { s with task := { s.task with owed := rest } }
    if s1.flag QM_CTX.EN o.cplq ∧ s1.flag QM_CTX.TYPE o.cplq ∧ s1.cplSpace o.cplq then
      s1.writeCpl o.cplq ⟨o.taskId, Status.ok, o.outcome, s1.jobOf o.part, o.queue, o.index, s1.gen o.part, 0, 0, 0⟩
    else s1.recordOnce (.cancel o.cplq) { status := Status.noResource, source := s1.queueSrc o.queue }

/-! ## Anchor windows (R162, R163) -/

/-- The identities that may write the anchor windows of a slate: PF0, PF1, the owner of its partition, that partition's cores. -/
def State.mayAwin (s : State) (who sl : Nat) : Bool :=
  Who.isPF who ||
    (match s.partOfSlate sl with
     | some p => s.owner p == who || (Who.isCore who && natBit (s.slatesOf p) ((who - 0x1000) / 128))
     | none => false)

/-- A write of TOP_AWIN: its fields take the value, and a 1 clears a sticky flag. -/
def State.writeAwin (s : State) (who sl w : Nat) (val : Word) : State :=
  if ¬ s.mayAwin who sl then s.record { status := Status.denied, source := Src.module }
  else
    let i := sl * 8 + w
    let old := (s.reg .TOP_AWIN i).toNat
    let flags := natField old 41 3 &&& (7 - field val 41 3)
    s.setReg .TOP_AWIN i (BitVec.ofNat 64 (val.toNat % 2 ^ 41 + flags * 2 ^ 41))

/-- A store of a core to control space: the written bytes of the register's word, its other bytes as they stand (zero where it is write
only); only the registers granted to cores are reached. -/
def State.controlStore (s : State) (core a size : Nat) (data : Word) : State :=
  let merge := fun (cur : Nat) => natSetField cur (8 * (a % 8)) (8 * size) data.toNat
  match controlReg (a - a % 8) with
  | some (.TOP_AWIN, i) => s.writeAwin (0x1000 + core) (i / 8) (i % 8) (BitVec.ofNat 64 (merge ((s.reg .TOP_AWIN i).toNat % 2 ^ 41)))
  | some (.QM_DOORBELL, _) => s.doorbell (0x1000 + core) (natField (merge 0) 0 20) (natField (merge 0) 32 16)
  | some (.QM_FLUSH, _) => s.flush (0x1000 + core) (natField (merge 0) 0 20)
  | some (.QM_CANCEL, _) => s.cancel (0x1000 + core) (natField (merge 0) 0 20) (natField (merge 0) 32 16)
  | _ => s

/-- A word of control space as a core reads it: a window of its partition's slates; the write-only registers read zero (R162, R218). -/
def State.coreControlRead (s : State) (a : Nat) : Nat :=
  match controlReg (a - a % 8) with
  | some (.TOP_AWIN, i) => (s.reg .TOP_AWIN i).toNat >>> (8 * (a % 8))
  | _ => 0

/-- Every word of a range of control space is granted to the cores of a partition (R157); no such range is longer than a slate's windows. -/
def State.controlGrant (s : State) (p a n : Nat) : Bool :=
  region a == .control && decide (n ≤ 1024) && (upFrom (a / 8) ((a + n - 1) / 8 - a / 8 + 1)).all fun w => s.coreControl p (w * 8)

/-- Bytes at home, of memory or of granted control space. -/
def State.homeBytes (s : State) (a n : Nat) : List Byte :=
  if region a == .control then (upFrom a n).map fun x => BitVec.ofNat 8 (s.coreControlRead x) else s.bytes a n

/-- Write bytes to granted control space as a core would, in words and half words. -/
def State.landControl (s : State) (core : Nat) : Nat → Nat → List Byte → State
  | 0, _, _ => s
  | k + 1, a, bs =>
    if bs.isEmpty then s
    else
      let n := if a % 8 = 0 ∧ 8 ≤ bs.length then 8 else 4
      (s.controlStore core a n (BitVec.ofNat 64 (leNat (bs.take n)))).landControl core k (a + n) (bs.drop n)

/-- Write bytes at home, for a core: memory or granted control space. -/
def State.landHome (s : State) (core a : Nat) (data : List Byte) (poisoned : Bool) : State :=
  if region a == .control then s.landControl core data.length a data else s.land a data poisoned

end Sys2Proof.Machine
end

