-- ==== Sys2Proof/Machine/Cores.lean ====
section
/-!
DEFINITION. Machine/Cores.lean: what the units of a core share (R84 to R109, R176 to R190): event flags, caches, the store buffer, address
checks, waits and their ends.
-/
namespace Sys2Proof.Machine

def State.getCore (s : State) (n : Nat) : Core := SMap.get {} s.core.cores n
def State.setCore (s : State) (n : Nat) (c : Core) : State :=
  { s with core := { s.core with cores := SMap.put {} s.core.cores n c } }

/-- First byte of a core's scratch (R84, R151). -/
def scratchOf (n : Nat) : Nat := scratchBase + n * scratchSize

/-- A core that runs a task. -/
def Core.busy (c : Core) : Bool := c.task.isSome

/-! ## Scalar registers and predicates (R87) -/

def Core.sreg (c : Core) (i : Nat) : Word := if i = 0 then 0 else SMap.get 0 c.s i
/-- Writes to s0 are discarded. -/
def Core.setS (c : Core) (i : Nat) (v : Word) : Core := if i = 0 then c else { c with s := SMap.put 0 c.s i v }
/-- p0 reads true. -/
def Core.pred (c : Core) (i : Nat) : Bool := i == 0 || bit c.p i
/-- Writes to p0 are discarded. -/
def Core.setP (c : Core) (i : Nat) (v : Bool) : Core :=
  if i = 0 then c else { c with p := BitVec.ofNat 8 (natSetField c.p.toNat i 1 (b2n v)) }

/-! ## Event flags (R106, R107, R184) -/

/-- The flags of ESETs that are still held behind the store buffer. -/
def Core.heldSets (c : Core) : BitVec 16 :=
  c.sb.foldl (fun m i => match i with | .eset _ k => m ||| k | _ => m) 0

/-- The flags as the core's own scalar unit sees them (R184). -/
def Core.view (c : Core) : BitVec 16 := c.e ||| c.heldSets

/-- A clear by the scalar unit: the flags, and every held set of them (R184). -/
def Core.clearFlags (c : Core) (m : BitVec 16) : Core :=
  { c with e := c.e &&& ~~~m, sb := c.sb.map fun i => match i with | .eset o k => .eset o (k &&& ~~~m) | x => x }

/-- The mask of one flag. -/
def flagMask (i : Nat) : BitVec 16 := BitVec.ofNat 16 (2 ^ i)

/-- The flag that the head command of a queue would clear as it starts, where it is set. -/
def headClaim (q : List QEntry) (e : BitVec 16) : BitVec 16 :=
  match q with
  | h :: _ => if h.waitEn && h.waitClr && bit e h.waitEv then flagMask h.waitEv else 0
  | [] => 0

/-- The head of a queue goes on where it waits, without clearing it, on one of the flags. -/
def meetHead (got : BitVec 16) : List QEntry → List QEntry
  | h :: t => (if h.waitEn && !h.waitClr && bit got h.waitEv then { h with waitEn := false } else h) :: t
  | [] => []

/-- A waiter clears flags as it starts: waiters on set flags of them that do not clear proceed in the same clock (R107). -/
def Core.meetHeads (c : Core) (m : BitVec 16) : Core :=
  let got := c.e &&& m
  { c with mq := meetHead got c.mq, vq := meetHead got c.vq, dq := meetHead got c.dq }

/-- Flags that engines take before the scalar unit (R107). -/
def Core.claimed (c : Core) : BitVec 16 := headClaim c.mq c.e ||| headClaim c.vq c.e ||| headClaim c.dq c.e

/-- The flags that meet an EWAIT, where it is met: for a clearing wait, those that no engine takes first (R106, R107). -/
def Core.ewaitGot (c : Core) (mask : BitVec 16) (any clear : Bool) : Option (BitVec 16) :=
  let v := (if clear then c.view &&& ~~~c.claimed else c.view) &&& mask
  if (if any then v != 0 else v == mask) then some v else none

/-! ## Read cache (R178, R179) -/

def Core.dropReadCache (c : Core) : Core := { c with rcache := [] }

/-- The read cache holds lines of tiers and cisterns only. -/
def cacheable (a : Nat) : Bool := match region a with | .cistern | .tier => true | _ => false

/-- Put a line into the read cache: 64 sets of two ways; the way replaced is open (R178). -/
def State.fillRead (s : State) (n line : Nat) (v : BitVec 512) : State :=
  let c := s.getCore n
  if c.rcacheEn then
    let others := c.rcache.filter fun e => e.1 % 64 == line % 64 && e.1 != line
    let (x, s1) := if others.length ≥ 2 then s.fresh else (0, s)
    let keep := match others[x % 2]? with
      | some v => if others.length ≥ 2 then SMap.erase c.rcache v.1 else c.rcache
      | none => c.rcache
    s1.setCore n { c with rcache := SMap.insert keep line v }
  else s

/-! ## Instruction cache (R108) -/

/-- Put a line into the instruction cache: 256 sets of four ways; the way replaced is open. -/
def State.fillInstr (s : State) (n line : Nat) : State :=
  let c := s.getCore n
  let others := c.icache.filter fun e => e.1 % 256 == line % 256 && e.1 != line
  let (x, s1) := if others.length ≥ 4 then s.fresh else (0, s)
  let keep := match others[x % 4]? with
    | some v => if others.length ≥ 4 then SMap.erase c.icache v.1 else c.icache
    | none => c.icache
  s1.setCore n { c with icache := SMap.insert keep line (BitVec.ofNat 512 (leNat (s.bytes (scratchOf n + 64 * line) 64))) }

/-- The word at a PC as the instruction cache holds it. -/
def Core.cachedWord (c : Core) (pc : Nat) : Option Nat :=
  (SMap.find? c.icache (pc / 64)).map fun l => field l (8 * (pc % 64)) 32

/-- The first word at a PC, for a fault state (R113): from the cache where it holds the line, else from scratch. DESIGN CHOICE (log 101):
past the end of scratch no word stands at the PC, and a FETCH fault records 0. -/
def State.wordAt (s : State) (n pc : Nat) : Nat :=
  match (s.getCore n).cachedWord pc with
  | some w => w
  | none => if pc < scratchSize then leNat (s.bytes (scratchOf n + pc) 4) else 0

/-! ## Address checks (R95, R110, R112) -/

/-- The causes that an access of a core raises at once. -/
def State.accessFaults (s : State) (c : Core) (a size : Nat) (atomic : Bool) : List FaultCause :=
  (if a % size = 0 then [] else [.align]) ++
  (if a ≥ 2 ^ 42 then [.addr] else
    match region a with
    | .none => [.addr]
    | .control => if atomic then [.addr] else if s.coreControl c.part (a - a % 8) then [] else [.access]
    | _ => if s.granted c.part a then [] else [.access])

/-- The priority of causes in one clock: the lower comes first (R112). -/
def causeRank : FaultCause → Nat
  | .hw => 0 | .poison => 1 | .access => 2 | .addr => 3 | .fetch => 4 | .align => 5 | .illegal => 6 | .trap => 7 | .timeout => 8
  | .extAbort => 9

/-- The cause of the highest priority. -/
def topCause : List FaultCause → Option FaultCause
  | [] => none
  | c :: cs => some (cs.foldl (fun a b => if causeRank b < causeRank a then b else a) c)

/-- Cause codes (the table "Core fault causes"). -/
def causeCode : FaultCause → Nat
  | .illegal => 1 | .align => 2 | .addr => 3 | .access => 4 | .fetch => 5 | .poison => 6 | .hw => 7 | .trap => 8 | .timeout => 9
  | .extAbort => 10

/-- The status of a cause. -/
def causeStatus : FaultCause → Nat
  | .illegal => Status.badArg | .align => Status.badArg | .addr => Status.window | .access => Status.denied | .fetch => Status.window
  | .poison => Status.poison | .hw => Status.integrity | .trap => Status.jobAbort | .timeout => Status.timeout
  | .extAbort => Status.jobAbort

def engineCode : Engine → Nat
  | .scalar => 0 | .matrix => 1 | .vector => 2 | .dma => 3

/-! ## The store buffer (R180, R184) -/

/-- The item's place in program order. -/
def SbItem.ord : SbItem → Nat
  | .store o _ _ _ => o
  | .eset o _ => o
  | .btn o => o

/-- A store takes effect at its home. -/
def State.storeHome (s : State) (n a size : Nat) (data : Word) : State :=
  match region a with
  | .control => s.controlStore n a size data
  | _ => s.land a (leBytes size data.toNat) false

/-- A batten change is applied (R208): the count before it is the result of its instruction. -/
def State.applyBtn (s : State) (n ord : Nat) : State :=
  let c := s.getCore n
  match c.out.find? fun o => o.ord == ord with
  | some o =>
    match o.op with
    | .btn rd func b operand _ =>
      let s1 := s.setCore n { c with out := c.out.map fun x => if x.ord == ord then { x with op := .btn rd func b operand (some (s.batten b)) } else x }
      if func = 1 then s1.batAdd b operand else s1.batSet b operand
    | _ => s
  | none => s

/-- Apply the first item of the store buffer. -/
def State.drainOne (s : State) (n : Nat) : State :=
  let c := s.getCore n
  match c.sb with
  | [] => s
  | i :: rest =>
    let s1 := s.setCore n { c with sb := rest }
    match i with
    | .store _ a size d => s1.storeHome n a size d
    | .eset _ m => s1.setCore n { s1.getCore n with e := (s1.getCore n).e ||| m }
    | .btn o => s1.applyBtn n o

/-- Apply `k` items of the store buffer. -/
def State.drain (s : State) (n : Nat) : Nat → State
  | 0 => s
  | k + 1 => (s.drainOne n).drain n k

/-! ## Waits of the scalar unit (R104, R106, R188) -/

/-- Retire the instruction at the PC: `words` long, with its issue cost (R105). -/
def Core.retire (c : Core) (words cost : Nat) : Core :=
  { c with pc := c.pc + 4 * words, retired := c.retired + 1, cycle := c.cycle + BitVec.ofNat 64 cost, ids := c.ids + 1 }

/-- No engine of a core holds or runs a command. -/
def Core.enginesEmpty (c : Core) : Bool :=
  c.mq.isEmpty && c.vq.isEmpty && c.dq.isEmpty && c.mrun.isEmpty && c.vrun.isEmpty && c.drun.isEmpty

/-- Loads and AMOs that have not returned. -/
def Core.loads (c : Core) : List Outst := c.out.filter fun o => match o.op with | .btn .. => false | _ => true

/-- The conditions of a fence (the table "FENCE completion"). -/
def Core.fenceMet (c : Core) (func : Nat) : Bool :=
  let all := natBit func 4
  (!(natBit func 0 || all) || (c.mq.isEmpty && c.mrun.isEmpty)) &&
  (!(natBit func 1 || all) || (c.vq.isEmpty && c.vrun.isEmpty)) &&
  (!(natBit func 2 || all) || (c.dq.isEmpty && c.drun.isEmpty)) &&
  (!(natBit func 3 || all) || (c.loads.isEmpty && c.sb.isEmpty))

/-- The stall condition of SYS.DONE (R104, R114). -/
def Core.doneMet (c : Core) : Bool := c.enginesEmpty && c.sb.isEmpty

/-- End a wait of the scalar unit whose condition is met. -/
def Core.settle (c : Core) : Core :=
  match c.wait with
  | .ewait mask any clear =>
    match c.ewaitGot mask any clear with
    | some got => { (((if clear then (c.meetHeads got).clearFlags got else c).dropReadCache).retire 1 1) with wait := .none }
    | none => c
  | .fence func =>
    if c.fenceMet func then
      { ((if natBit func 3 || natBit func 4 then c.dropReadCache else c).retire 1 1) with wait := .none }
    else c
  | _ => c

/-- Apply `Core.settle` to a core of the module. -/
def State.settle (s : State) (n : Nat) : State := s.setCore n (s.getCore n).settle

/-- A core as it is when its task has ended: idle, with nothing queued, running, outstanding or buffered. -/
def Core.idle (c : Core) : Core :=
  { c with task := none, wait := .none, mq := [], vq := [], dq := [], mrun := [], vrun := [], drun := [], out := [], sb := [] }

end Sys2Proof.Machine
end

