-- ==== Sys2Proof/Machine/Crypto.lean ====
section
/-!
DEFINITION. Machine/Crypto.lean: the published algorithms the spec names: the CRCs (R239, R309), AES-256-GCM (R291, R414), SHA-384,
HMAC and HKDF (R402, R406, R407) and ECDSA P-384 verification (R423). Byte strings are lists of bytes; numbers are natural numbers.
-/
namespace Sys2Proof.Machine

/-! ## CRC -/

/-- One bit of a reflected CRC with the reflected polynomial `poly`. -/
def crcBit (poly c : Nat) : Nat := if c % 2 = 1 then (c / 2) ^^^ poly else c / 2

/-- One byte of a reflected CRC. -/
def crcByte (poly c : Nat) (b : Byte) : Nat :=
  (upFrom 0 8).foldl (fun c _ => crcBit poly c) (c ^^^ b.toNat)

/-- A reflected 32-bit CRC that starts at all ones and is complemented at the end. -/
def crcOf (poly : Nat) (bs : List Byte) : Nat := (bs.foldl (crcByte poly) 0xFFFFFFFF) ^^^ 0xFFFFFFFF

/-- CRC-32 of IEEE 802.3, polynomial 0x04C1_1DB7 (R239). -/
def crc32 (bs : List Byte) : Nat := crcOf 0xEDB88320 bs

/-- CRC-32C (Castagnoli), polynomial 0x1EDC_6F41. -/
def crc32c (bs : List Byte) : Nat := crcOf 0x82F63B78 bs

/-! ## AES-256 (FIPS 197) -/

/-- Multiplication by x in GF(2^8). -/
def gfDouble (a : Nat) : Nat := if a ≥ 128 then ((a * 2) % 256) ^^^ 0x1B else a * 2

/-- Multiplication in GF(2^8). -/
def gfMul (a b : Nat) : Nat :=
  ((upFrom 0 8).foldl (fun (acc, x) i => (if b.testBit i then acc ^^^ x else acc, gfDouble x)) (0, a)).1

/-- The inverse in GF(2^8): the 254th power. -/
def gfInv (a : Nat) : Nat :=
  let sq := fun x => gfMul x x
  let a2 := sq a; let a4 := sq a2; let a8 := sq a4; let a16 := sq a8; let a32 := sq a16; let a64 := sq a32; let a128 := sq a64
  gfMul a2 (gfMul a4 (gfMul a8 (gfMul a16 (gfMul a32 (gfMul a64 a128)))))

/-- Rotate a byte left. -/
def rotByte (x n : Nat) : Nat := ((x <<< n) % 256) ||| (x >>> (8 - n))

/-- SubBytes of one byte. -/
def aesSub (a : Nat) : Nat :=
  let b := gfInv a
  b ^^^ rotByte b 1 ^^^ rotByte b 2 ^^^ rotByte b 3 ^^^ rotByte b 4 ^^^ 0x63

/-- The S-box as a table. -/
def aesTable : List Nat := (upFrom 0 256).map aesSub

def aesS (a : Nat) : Nat := aesTable.getD a 0

/-- XOR of two lists of the same length. -/
def xorList (a b : List Nat) : List Nat := List.zipWith (fun x y => x ^^^ y) a b

/-- The key schedule of AES-256: sixty words of four bytes. -/
def aesSchedule (key : List Nat) : List (List Nat) :=
  let w0 := (upFrom 0 8).map fun i => (key.drop (4 * i)).take 4
  (upFrom 8 52).foldl (fun ws i =>
    let prev := ws.getD (i - 1) []
    let t :=
      if i % 8 = 0 then
        let r := (prev.drop 1 ++ prev.take 1).map aesS
        xorList r [2 ^ (i / 8 - 1), 0, 0, 0]
      else if i % 8 = 4 then prev.map aesS else prev
    ws ++ [xorList (ws.getD (i - 8) []) t]) w0

/-- ShiftRows on the sixteen bytes of the state, column after column. -/
def aesShift (st : List Nat) : List Nat := (upFrom 0 16).map fun i => st.getD ((i + 4 * (i % 4)) % 16) 0

/-- MixColumns of one column. -/
def aesMixCol (c : List Nat) : List Nat :=
  let a := c.getD 0 0; let b := c.getD 1 0; let d := c.getD 2 0; let e := c.getD 3 0
  [gfDouble a ^^^ gfDouble b ^^^ b ^^^ d ^^^ e, a ^^^ gfDouble b ^^^ gfDouble d ^^^ d ^^^ e,
   a ^^^ b ^^^ gfDouble d ^^^ gfDouble e ^^^ e, gfDouble a ^^^ a ^^^ b ^^^ d ^^^ gfDouble e]

def aesMix (st : List Nat) : List Nat := (upFrom 0 4).flatMap fun i => aesMixCol ((st.drop (4 * i)).take 4)

def aesRoundKey (ws : List (List Nat)) (r : Nat) : List Nat := ((ws.drop (4 * r)).take 4).flatten

/-- One block under an expanded key. -/
def aesBlock (ws : List (List Nat)) (blk : List Nat) : List Nat :=
  let st := (upFrom 1 13).foldl (fun st r => xorList (aesMix (aesShift (st.map aesS))) (aesRoundKey ws r)) (xorList blk (aesRoundKey ws 0))
  xorList (aesShift (st.map aesS)) (aesRoundKey ws 14)

/-! ## GCM (NIST SP 800-38D) -/

/-- Multiplication in GF(2^128) with GCM's bit order, on 128-bit numbers whose most significant bit is the block's first bit. -/
def ghashMul (x y : Nat) : Nat :=
  ((upFrom 0 128).foldl (fun (z, v) i =>
    (if x.testBit (127 - i) then z ^^^ v else z, if v % 2 = 1 then (v / 2) ^^^ (0xE1 <<< 120) else v / 2)) (0, y)).1

/-- A byte string cut into pieces of `n` bytes, with fuel. -/
def chunksOf {α : Type} (n : Nat) : Nat → List α → List (List α)
  | 0, _ => []
  | _ + 1, [] => []
  | k + 1, l => l.take n :: chunksOf n k (l.drop n)

/-- The number of a block of at most sixteen bytes, zero-padded on the right. -/
def blockNat (bs : List Byte) : Nat := beNat (bs ++ List.replicate (16 - bs.length) 0)

def ghash (h : Nat) (blocks : List Nat) : Nat := blocks.foldl (fun y x => ghashMul (y ^^^ x) h) 0

def natBytes (n v : Nat) : List Nat := (beBytes n v).map (·.toNat)

/-- CTR keystream XORed into data from the counter block `ctr`, a 96-bit IV and a 32-bit count. -/
def gcmCtr (ws : List (List Nat)) (iv : Nat) : Nat → List (List Byte) → List Byte
  | _, [] => []
  | c, b :: bs =>
    let ks := aesBlock ws (natBytes 16 (iv * 2 ^ 32 + c % 2 ^ 32))
    List.zipWith (fun x (k : Nat) => x ^^^ BitVec.ofNat 8 k) b ks ++ gcmCtr ws iv (c + 1) bs

/-- The tag of GCM over a ciphertext and its additional data. -/
def gcmTag (ws : List (List Nat)) (iv : Nat) (aad ct : List Byte) : BitVec 128 :=
  let h := beNat ((aesBlock ws (natBytes 16 0)).map (BitVec.ofNat 8))
  let bl := fun (l : List Byte) => (chunksOf 16 (l.length + 1) l).map blockNat
  let s := ghash h (bl aad ++ bl ct ++ [aad.length * 8 * 2 ^ 64 + ct.length * 8])
  let e := beNat ((aesBlock ws (natBytes 16 (iv * 2 ^ 32 + 1))).map (BitVec.ofNat 8))
  BitVec.ofNat 128 (s ^^^ e)

/-- AES-256-GCM encryption: ciphertext and tag, for a 256-bit key (most significant byte first) and a 96-bit IV. -/
def gcmSeal (key : BitVec 256) (iv : Nat) (aad pt : List Byte) : List Byte × BitVec 128 :=
  let ws := aesSchedule (natBytes 32 key.toNat)
  let ct := gcmCtr ws iv 2 (chunksOf 16 (pt.length + 1) pt)
  (ct, gcmTag ws iv aad ct)

/-- AES-256-GCM decryption: the plaintext where the tag verifies. -/
def gcmOpen (key : BitVec 256) (iv : Nat) (aad ct : List Byte) (tag : BitVec 128) : Option (List Byte) :=
  let ws := aesSchedule (natBytes 32 key.toNat)
  if gcmTag ws iv aad ct = tag then some (gcmCtr ws iv 2 (chunksOf 16 (ct.length + 1) ct)) else none

/-! ## SHA-384 (FIPS 180-4), HMAC, HKDF (RFC 5869) -/

/-- The largest `x` below `2 ^ n` with `x ^ e ≤ v`, bit by bit. -/
def rootBits (e v : Nat) : Nat → Nat → Nat
  | 0, x => x
  | n + 1, x => if (x + 2 ^ n) ^ e ≤ v then rootBits e v n (x + 2 ^ n) else rootBits e v n x

/-- The first eighty primes. -/
def shaPrimes : List Nat :=
  [2, 3, 5, 7, 11, 13, 17, 19, 23, 29, 31, 37, 41, 43, 47, 53, 59, 61, 67, 71]
  ++ [73, 79, 83, 89, 97, 101, 103, 107, 109, 113, 127, 131, 137, 139, 149, 151, 157, 163, 167, 173]
  ++ [179, 181, 191, 193, 197, 199, 211, 223, 227, 229, 233, 239, 241, 251, 257, 263, 269, 271, 277, 281]
  ++ [283, 293, 307, 311, 313, 317, 331, 337, 347, 349, 353, 359, 367, 373, 379, 383, 389, 397, 401, 409]

/-- The round constants: the first 64 bits of the fractions of the cube roots of the primes. -/
def shaK : List Nat := shaPrimes.map fun p => rootBits 3 (p * 2 ^ 192) 68 0 % 2 ^ 64

/-- SHA-384's start: the first 64 bits of the fractions of the square roots of the ninth to sixteenth primes. -/
def shaStart : List Nat := ((shaPrimes.drop 8).take 8).map fun p => rootBits 2 (p * 2 ^ 128) 68 0 % 2 ^ 64

def rotr64 (x n : Nat) : Nat := (x >>> n) ||| ((x <<< (64 - n)) % 2 ^ 64)

/-- The message schedule of one block, held newest first while it grows. -/
def shaExpand (blk : List Nat) : List Nat :=
  ((upFrom 16 64).foldl (fun (w : List Nat) _ =>
    let a := w.getD 14 0
    let b := w.getD 1 0
    let s0 := rotr64 a 1 ^^^ rotr64 a 8 ^^^ (a >>> 7)
    let s1 := rotr64 b 19 ^^^ rotr64 b 61 ^^^ (b >>> 6)
    (w.getD 15 0 + s0 + w.getD 6 0 + s1) % 2 ^ 64 :: w) blk.reverse).reverse

/-- The compression of one block. -/
def shaBlock (ks hs blk : List Nat) : List Nat :=
  let st := (List.zip ks (shaExpand blk)).foldl (fun (v : List Nat) (kw : Nat × Nat) =>
    let a := v.getD 0 0; let b := v.getD 1 0; let c := v.getD 2 0; let d := v.getD 3 0
    let e := v.getD 4 0; let f := v.getD 5 0; let g := v.getD 6 0; let h := v.getD 7 0
    let t1 := h + (rotr64 e 14 ^^^ rotr64 e 18 ^^^ rotr64 e 41) + ((e &&& f) ^^^ ((2 ^ 64 - 1 - e) &&& g)) + kw.1 + kw.2
    let t2 := (rotr64 a 28 ^^^ rotr64 a 34 ^^^ rotr64 a 39) + ((a &&& b) ^^^ (a &&& c) ^^^ (b &&& c))
    [(t1 + t2) % 2 ^ 64, a, b, c, (d + t1) % 2 ^ 64, e, f, g]) hs
  List.zipWith (fun x y => (x + y) % 2 ^ 64) hs st

/-- SHA-384 of a byte string. -/
def sha384 (m : List Byte) : BitVec 384 :=
  let pad := m ++ [0x80] ++ List.replicate ((239 - m.length % 128) % 128) 0 ++ beBytes 16 (m.length * 8)
  let blocks := (chunksOf 128 (pad.length + 1) pad).map fun b => (chunksOf 8 17 b).map beNat
  let ks := shaK
  let hs := blocks.foldl (shaBlock ks) shaStart
  BitVec.ofNat 384 ((hs.take 6).foldl (fun a h => a * 2 ^ 64 + h) 0)

def sha384Bytes (m : List Byte) : List Byte := beBytes 48 (sha384 m).toNat

/-- HMAC-SHA-384. -/
def hmac384 (key m : List Byte) : List Byte :=
  let k0 := if key.length > 128 then sha384Bytes key else key
  let k := k0 ++ List.replicate (128 - k0.length) 0
  sha384Bytes (k.map (· ^^^ 0x5C) ++ sha384Bytes (k.map (· ^^^ 0x36) ++ m))

/-- The first 32 bytes of HKDF-SHA-384 (one block of output). -/
def hkdf384 (salt ikm info : List Byte) : BitVec 256 :=
  let prk := hmac384 salt ikm
  BitVec.ofNat 256 (beNat ((hmac384 prk (info ++ [1])).take 32))

/-- The bytes of an ASCII text. -/
def ascii (t : String) : List Byte := t.toList.map fun c => BitVec.ofNat 8 c.toNat

/-! ## ECDSA P-384 (FIPS 186) -/

def p384p : Nat := 2 ^ 384 - 2 ^ 128 - 2 ^ 96 + 2 ^ 32 - 1
def p384n : Nat := 0xFFFFFFFFFFFFFFFFFFFFFFFFFFFFFFFFFFFFFFFFFFFFFFFFC7634D81F4372DDF581A0DB248B0A77AECEC196ACCC52973
def p384b : Nat := 0xB3312FA7E23EE7E4988E056BE3F82D19181D9C6EFE8141120314088F5013875AC656398D8A2ED19D2A85C8EDD3EC2AEF
def p384gx : Nat := 0xAA87CA22BE8B05378EB1C71EF320AD746E1D3B628BA79B9859F741E082542A385502F25DBF55296C3A545E3872760AB7
def p384gy : Nat := 0x3617DE4A96262C6F5D9E98BF9292DC29F8F41DBD289A147CE9DA3113B5F0B8C00A60B1CE1D7E819D7A431D7C90EA0E5F

/-- `a ^ e mod m`, over the `n` low bits of `e`. -/
def powMod (m : Nat) : Nat → Nat → Nat → Nat
  | 0, _, _ => 1 % m
  | n + 1, a, e => let t := powMod m n (a * a % m) (e / 2); if e % 2 = 1 then a * t % m else t

def invMod (m a : Nat) : Nat := powMod m 384 (a % m) (m - 2)

/-- Doubling in Jacobian coordinates; Z = 0 is the point at infinity. -/
def jacDouble (q : Nat × Nat × Nat) : Nat × Nat × Nat :=
  let p := p384p
  let (x, y, z) := q
  let delta := z * z % p
  let gamma := y * y % p
  let beta := x * gamma % p
  let alpha := 3 * ((x + p - delta) % p) * ((x + delta) % p) % p
  let x3 := (alpha * alpha + 8 * p - 8 * beta) % p
  let z3 := ((y + z) * (y + z) + 2 * p - gamma - delta) % p
  let y3 := (alpha * ((4 * beta + p - x3) % p) + 8 * p * p - 8 * gamma * gamma) % p
  (x3, y3, z3)

/-- Addition in Jacobian coordinates. -/
def jacAdd (a b : Nat × Nat × Nat) : Nat × Nat × Nat :=
  let p := p384p
  let (x1, y1, z1) := a
  let (x2, y2, z2) := b
  if z1 = 0 then b else if z2 = 0 then a else
    let z1z1 := z1 * z1 % p
    let z2z2 := z2 * z2 % p
    let u1 := x1 * z2z2 % p
    let u2 := x2 * z1z1 % p
    let s1 := y1 * z2 * z2z2 % p
    let s2 := y2 * z1 * z1z1 % p
    if u1 = u2 then (if s1 = s2 then jacDouble a else (1, 1, 0)) else
      let h := (u2 + p - u1) % p
      let r := (s2 + p - s1) % p
      let hh := h * h % p
      let hhh := h * hh % p
      let v := u1 * hh % p
      let x3 := (r * r + 3 * p - hhh - 2 * v) % p
      let y3 := (r * ((v + p - x3) % p) + p * p - s1 * hhh) % p
      (x3, y3, z1 * z2 * h % p)

/-- `u × q`, over the `n` low bits of `u`. -/
def jacMul : Nat → Nat → Nat × Nat × Nat → Nat × Nat × Nat
  | 0, _, _ => (1, 1, 0)
  | n + 1, u, q => let t := jacMul n (u / 2) (jacDouble q); if u % 2 = 1 then jacAdd q t else t

/-- The result of the signature engine (R423) as a shared status code: 0x00 OK, 0x04 BAD_ARG, 0x0A INTEGRITY. -/
def ecdsaStatus (digest r s qx qy : Nat) : Nat :=
  let p := p384p
  let n := p384n
  if qx ≥ p ∨ qy ≥ p then 0x04
  else if qx = 0 ∧ qy = 0 then 0x04
  else if qy * qy % p ≠ (qx * qx * qx + (p - 3) * qx + p384b) % p then 0x04
  else if r = 0 ∨ r ≥ n ∨ s = 0 ∨ s ≥ n then 0x0A
  else
    let w := invMod n s
    let (x, _, z) := jacAdd (jacMul 384 (digest * w % n) (p384gx, p384gy, 1)) (jacMul 384 (r * w % n) (qx, qy, 1))
    if z = 0 then 0x0A
    else
      let zi := invMod p z
      if x * (zi * zi % p) % p % n = r then 0x00 else 0x0A

end Sys2Proof.Machine
end

