-- ==== Sys2Proof/Machine/Net.lean ====
section
/-!
DEFINITION. Machine/Net.lean: packets and their fields (R261, R262), endpoint numbers and slices (R260, R290), the keys of packets (R291,
R292, R407), peer links and strands (R234, R235, R254), paths (R267, R272) and the transmit queues (R274).
-/
namespace Sys2Proof.Machine

/-! ## Packet fields (R261) -/

def Pkt.type (p : Packet) : Nat := field p.w0 0 4
def Pkt.final (p : Packet) : Bool := bit p.w0 4
def Pkt.rsig (p : Packet) : Bool := bit p.w0 5
def Pkt.sched (p : Packet) : Bool := bit p.w0 6
def Pkt.poison (p : Packet) : Bool := bit p.w0 7
def Pkt.epoch (p : Packet) : Bool := bit p.w0 8
def Pkt.last (p : Packet) : Bool := bit p.w0 9
def Pkt.kgen (p : Packet) : Bool := bit p.w0 10
def Pkt.mode (p : Packet) : Bool := bit p.w0 11
def Pkt.job (p : Packet) : Nat := field p.w0 16 16
def Pkt.gen (p : Packet) : Nat := field p.w0 32 8
def Pkt.course (p : Packet) : Nat := field p.w0 40 16
def Pkt.chan (p : Packet) : Nat := field p.w0 56 8
def Pkt.src (p : Packet) : Nat := field p.w1 0 16
def Pkt.dst (p : Packet) : Nat := field p.w1 16 16
def Pkt.count (p : Packet) : Nat := field p.w1 32 32
def Pkt.addr (p : Packet) : Nat := field p.w2 0 42
def Pkt.lenM1 (p : Packet) : Nat := field p.w2 42 11
def Pkt.len (p : Packet) : Nat := 4 * (Pkt.lenM1 p + 1)
def Pkt.ctrLo (p : Packet) : Nat := field p.w3 0 32
def Pkt.arg (p : Packet) : Nat := field p.w3 32 32

/-- The packet types (R262). -/
def PT.put : Nat := 0x1
def PT.get : Nat := 0x2
def PT.getRsp : Nat := 0x3
def PT.signal : Nat := 0x4
def PT.ack : Nat := 0x5
def PT.cbcast : Nat := 0x6
def PT.creduce : Nat := 0x7
def PT.cctl : Nat := 0x8
def PT.cnak : Nat := 0x9
def PT.abort : Nat := 0xA
def PT.lstate : Nat := 0xB

/-- The 32 header bytes of a packet. -/
def Pkt.header (p : Packet) : List Byte :=
  leBytes 8 p.w0.toNat ++ leBytes 8 p.w1.toNat ++ leBytes 8 p.w2.toNat ++ leBytes 8 p.w3.toNat

/-- All bytes of a packet as the link layer carries them: header, payload, tag. -/
def Pkt.toBytes (p : Packet) : List Byte := Pkt.header p ++ p.payload ++ beBytes 16 p.tag.toNat

/-- The number of flits of a packet of `n` bytes (R240). -/
def flitsOf (n : Nat) : Nat := ceilDiv n 248

/-- Which types carry LEN_M1 + 1 units of payload: PUT, a GET_RSP with STATUS OK, CBCAST and CREDUCE; a GET carries 8 bytes. -/
def Pkt.payloadLen (p : Packet) : Nat :=
  if Pkt.type p = PT.put then Pkt.len p
  else if Pkt.type p = PT.get then 8
  else if Pkt.type p = PT.getRsp then (if Pkt.arg p % 256 = 0 then Pkt.len p else 0)
  else if Pkt.type p = PT.cbcast ∨ Pkt.type p = PT.creduce then Pkt.len p
  else 0

/-! ## Coordinates and links (R234, R235, R260) -/

/-- The module's slot and board: the straps latched at rider boot (R482). -/
def State.slotNo (s : State) : Nat := s.getF TOP_PINS.SLOT_BOOT % 8
def State.boardNo (s : State) : Nat := s.getF TOP_PINS.SLOT_BOOT / 8
def State.rackNo (s : State) : Nat := s.getF RTE_SELF.RACK

/-- The EPN of a module at a rack, board and slot. -/
def epnAt (r b sl : Nat) : Nat := r * 64 + b * 8 + sl

/-- The module's own EPN; 0xFFFF until its rack is assigned (R260). -/
def State.epn (s : State) : Nat := if s.flag RTE_SELF.RACK_VALID then epnAt s.rackNo s.boardNo s.slotNo else 0xFFFF

/-- A peer link number that exists (R235). -/
def isLink (l : Nat) : Bool := l ≤ 6 || (8 ≤ l && l ≤ 14) || (16 ≤ l && l ≤ 31)

/-- The dies that carry a strand of a link. -/
def diesOf (l : Nat) : List Nat := if l < 16 then [0, 1, 2, 3] else [(l - 16) / 4]

/-- A strand that exists (R259). -/
def isStrand (d l : Nat) : Bool := isLink l && (diesOf l).any (· == d)

/-- The index of a strand's registers and state. -/
def strandIx (d l : Nat) : Nat := d * 32 + l

def State.strand (s : State) (d l : Nat) : Strand := (SMap.find? s.link.strands (strandIx d l)).getD {}
def State.setStrand (s : State) (d l : Nat) (x : Strand) : State :=
  { s with link := { s.link with strands := SMap.put {} s.link.strands (strandIx d l) x } }

/-- The strand states (R248). -/
def SS.disabled : Nat := 0x0
def SS.detect : Nat := 0x1
def SS.eq : Nat := 0x2
def SS.fecLock : Nat := 0x3
def SS.init : Nat := 0x4
def SS.ident : Nat := 0x5
def SS.verify : Nat := 0x6
def SS.cal : Nat := 0x7
def SS.active : Nat := 0x8
def SS.swap : Nat := 0x9
def SS.verifyFail : Nat := 0xA
def SS.down : Nat := 0xB

def State.strandState (s : State) (d l : Nat) : Nat := s.getF SLU_STR_STAT.STATE (strandIx d l)
def State.activeDies (s : State) (l : Nat) : List Nat := (diesOf l).filter fun d => s.strandState d l == SS.active

/-- States of a peer link (R254) as LSTATE codes them: 0 UP, 1 DEGRADED, 2 DOWN. -/
def State.linkState (s : State) (l : Nat) : Nat :=
  let n := (s.activeDies l).length
  if n = 0 then 2 else if n = (diesOf l).length then 0 else 1

/-- The row link from one slot to another, the column link from one board to another (R234). -/
def rowLink (a b : Nat) : Nat := (b + 15 - a) % 8
def colLink (a b : Nat) : Nat := 8 + (b + 15 - a) % 8

/-- The EPN of the module at the far end of a link: by position in the rack, or what IDENT said on an optical strand. -/
def State.peerOf (s : State) (l : Nat) : Nat :=
  if l ≤ 6 then epnAt s.rackNo s.boardNo ((s.slotNo + 1 + l) % 8)
  else if 8 ≤ l ∧ l ≤ 14 then epnAt s.rackNo ((s.boardNo + 1 + (l - 8)) % 8) s.slotNo
  else s.getF SLU_STR_PEER.EPN (strandIx ((l - 16) / 4) l)

/-- What the module knows of a link of a module of its rack: its own, or what the last LSTATE said (R271); DOWN until one has come. -/
def State.knownLink (s : State) (epn l : Nat) : Nat :=
  if epn = s.epn then s.linkState l else match SMap.find? s.route.told (epn * 32 + l) with | some v => v | none => 2

/-! ## Route sets and slices (R264, R290) -/

/-- The valid route set that names a job. -/
def State.rsetOf (s : State) (job : Nat) : Option Nat :=
  (upFrom 0 16).find? fun i => s.flag RTE_RSET_A.VALID i && s.getF RTE_RSET_A.JOB i == job

/-- A route set's entry for a rack (the table "Rack entry"). -/
def State.rackEntry (s : State) (i rack : Nat) : Nat := field (s.reg .RTE_RACK (i * 32 + rack / 8)) (8 * (rack % 8)) 8
def State.rackIn (s : State) (i rack : Nat) : Bool := natBit (s.rackEntry i rack) 0
def State.rackReach (s : State) (i rack : Nat) : Bool := natBit (s.rackEntry i rack) 1
def State.rackPort (s : State) (i rack : Nat) : Nat := natField (s.rackEntry i rack) 2 4

def State.boardIn (s : State) (i b : Nat) : Bool := decide (s.getF RTE_RSET_B.BOARD_LO i ≤ b) && decide (b ≤ s.getF RTE_RSET_B.BOARD_HI i)
def State.slotIn (s : State) (i sl : Nat) : Bool := decide (s.getF RTE_RSET_B.SLOT_LO i ≤ sl) && decide (sl ≤ s.getF RTE_RSET_B.SLOT_HI i)

/-- A module lies in a route set's slice. -/
def State.inSlice (s : State) (i epn : Nat) : Bool :=
  decide (epn < 0x4000) && s.rackIn i (epn / 64) && s.boardIn i (epn / 8 % 8) && s.slotIn i (epn % 8)

/-- The number of modules of a slice. -/
def State.sliceSize (s : State) (i : Nat) : Nat :=
  ((upFrom 0 256).filter fun r => s.rackIn i r).length * (s.getF RTE_RSET_B.BOARD_HI i + 1 - s.getF RTE_RSET_B.BOARD_LO i)
    * (s.getF RTE_RSET_B.SLOT_HI i + 1 - s.getF RTE_RSET_B.SLOT_LO i)

/-- The links of a job's slice: every peer link whose peer lies in it (R290, R445). -/
def State.sliceLinks (s : State) (i : Nat) : List Nat :=
  ((upFrom 0 32).filter fun l => isLink l && s.inSlice i (s.peerOf l) && decide (s.peerOf l ≠ s.epn))

/-! ## Keys of packets (R291, R292, R407, R410) -/

/-- The 32 bytes of a key as a number, most significant byte first. -/
def keyBytes (k : BitVec 256) : List Byte := beBytes 32 k.toNat

/-- The key of a generation, from ROOT, the job and the generation's counter (R407). -/
def fabricKey (root : BitVec 256) (job ctr : Nat) : BitVec 256 :=
  hkdf384 (List.replicate 48 0) (keyBytes root) (ascii "ridge-fabric" ++ beBytes 2 job ++ beBytes 4 ctr)

/-- A key slot holds a key of a generation for a job (R406). -/
def State.slotHolds (s : State) (slot job : Nat) (g : Bool) : Bool :=
  s.getF SEC_KSLOT.JOB slot == job && job != 0 && (if g then s.flag SEC_KSLOT.GEN1 slot else s.flag SEC_KSLOT.GEN0 slot)

/-- The key that packets of a job and generation use; JOB 0 uses the fabric key, or the bootstrap key until one is installed (R410). -/
def State.packetKey (s : State) (job : Nat) (g : Bool) : Option (BitVec 256) :=
  if job = 0 then
    (if s.flag SEC_STATE.FABRIC_KEY then SMap.find? s.sec.fabric (b2n g) else some Config.bootstrapKey)
  else
    match s.rsetOf job with
    | none => none
    | some i =>
      let slot := s.getF RTE_RSET_A.KEY i
      if s.slotHolds slot job g then
        let m := SMap.get {} s.sec.slots slot
        some (fabricKey m.root job (if g then m.ctr1 else m.ctr0))
      else none

/-- The key of a counter: job, generation and module. -/
def gcmKey (job : Nat) (g : Bool) (epn : Nat) : Nat := (job * 2 + b2n g) * 65536 + epn

/-- A group address (R296). -/
def isGroup (epn : Nat) : Bool := 0x8000 ≤ epn && epn < 0x8400

/-- The key of a received counter: job, generation and source, and the group address of a packet to a group (R292, R306). -/
def Pkt.rxKey (p : Packet) : Nat := gcmKey (Pkt.job p) (Pkt.kgen p) (Pkt.src p) + (if isGroup (Pkt.dst p) then Pkt.dst p * 2 ^ 33 else 0)

/-- The IV of a packet: SRC_EPN, DST_EPN and the counter (R291). -/
def gcmIv (src dst ctr : Nat) : Nat := src * 2 ^ 80 + dst * 2 ^ 64 + ctr

/-- Put the counter's low bits into a packet's header, encrypt its payload and add its tag (R291); none where no key is held, or where
the counter may not be used any more (R293). -/
def State.seal (s : State) (p : Packet) : Option Packet × State :=
  let job := Pkt.job p
  let key := gcmKey job (Pkt.kgen p) (Pkt.dst p)
  let ctr := SMap.get 0 s.route.gcmTx key
  match s.packetKey job (Pkt.kgen p) with
  | none => (none, s)
  | some k =>
    if ctr > 2 ^ 64 - 2 ^ 32 then (none, s) else
      let p1 := { p with w3 := BitVec.ofNat 64 (natSetField p.w3.toNat 0 32 ctr) }
      let (ct, tag) := gcmSeal k (gcmIv (Pkt.src p) (Pkt.dst p) ctr) (Pkt.header p1) p.payload
      let s1 := { s with route := { s.route with gcmTx := SMap.put 0 s.route.gcmTx key (ctr + 1) } }
      let s2 := if ctr + 1 > 2 ^ 63 ∧ ¬ SMap.get false s.route.warned key then
          ({ s1 with route := { s1.route with warned := SMap.put false s1.route.warned key true } }).record
            { status := Status.noResource, source := Src.die 0, job := some (s1.jobRef job) }
        else s1
      (some { p1 with payload := ct, tag := tag }, s2)

/-- The counter with low bits `lo` that lies nearest to H (R292). -/
def nearestCtr (h lo : Nat) : Nat :=
  let base := h - h % 2 ^ 32 + lo
  if base > h + 2 ^ 31 ∧ base ≥ 2 ^ 32 then base - 2 ^ 32 else if base + 2 ^ 31 < h then base + 2 ^ 32 else base

/-- Verify and decrypt a packet: its plaintext, and the state with the highest authenticated counter raised (R292). -/
def State.open? (s : State) (p : Packet) : Option (List Byte) × State :=
  let key := Pkt.rxKey p
  let h := SMap.get 0 s.route.gcmRx key
  let ctr := nearestCtr h (Pkt.ctrLo p)
  match s.packetKey (Pkt.job p) (Pkt.kgen p) with
  | none => (none, s)
  | some k =>
    match gcmOpen k (gcmIv (Pkt.src p) (Pkt.dst p) ctr) (Pkt.header p) p.payload p.tag with
    | none => (none, s)
    | some pt => (some pt, { s with route := { s.route with gcmRx := SMap.put 0 s.route.gcmRx key (max h ctr) } })

/-! ## Paths (R267 to R273) -/

/-- The hops of a path inside the own rack: (module, its link). -/
abbrev Hops := List (Nat × Nat)

/-- The normal in-rack path to a board and slot. -/
def State.normalHops (s : State) (b' s' : Nat) : Hops :=
  let r := s.rackNo
  let b := s.boardNo
  let sl := s.slotNo
  if b = b' then (if sl = s' then [] else [(epnAt r b sl, rowLink sl s')])
  else if sl = s' then [(epnAt r b sl, colLink b b')]
  else [(epnAt r b sl, rowLink sl s'), (epnAt r b s', colLink b b')]

/-- The hops' links are all known UP or DEGRADED. -/
def State.hopsUp (s : State) (h : Hops) : Bool := h.all fun e => s.knownLink e.1 e.2 != 2

/-- The detour of R267, where one is usable. -/
def State.detourHops (s : State) (i b' s' : Nat) : Option Hops :=
  let r := s.rackNo
  let b := s.boardNo
  let sl := s.slotNo
  if b = b' then
    if sl = s' then none
    else ((upFrom 0 8).filterMap fun t =>
      if t ≠ sl ∧ t ≠ s' ∧ s.slotIn i t then
        let h : Hops := [(epnAt r b sl, rowLink sl t), (epnAt r b t, rowLink t s')]
        if s.hopsUp h then some h else none
      else none).head?
  else if sl = s' then
    ((upFrom 0 8).filterMap fun u =>
      if u ≠ b ∧ u ≠ b' ∧ s.boardIn i u then
        let h : Hops := [(epnAt r b sl, colLink b u), (epnAt r u sl, colLink u b')]
        if s.hopsUp h then some h else none
      else none).head?
  else
    let h : Hops := [(epnAt r b sl, colLink b b'), (epnAt r b' sl, rowLink sl s')]
    if s.hopsUp h then some h else none

/-- The first link of the path of a packet this module injects for route set `i`; none while it must wait (R272). The peer of an optical port
must lie in the slice (R290); those of row and column links do by the shape of the paths. -/
def State.firstLink (s : State) (i dst : Nat) (mayDetour : Bool) : Option Nat :=
  let b' := dst / 8 % 8
  let s' := dst % 8
  let hops := s.normalHops b' s'
  match hops with
  | [] =>
    if dst / 64 = s.rackNo then none
    else
      let l := 16 + s.rackPort i (dst / 64)
      if s.rackReach i (dst / 64) ∧ s.linkState l ≠ 2 ∧ s.inSlice i (s.peerOf l) then some l else none
  | (_, l) :: _ =>
    if s.hopsUp hops then some l
    else if mayDetour then (s.detourHops i b' s').bind fun h => h.head?.map (·.2)
    else none

/-- The first hop of the normal path, whatever its state (R287). -/
def State.normalLink (s : State) (i dst : Nat) : Nat :=
  match s.normalHops (dst / 8 % 8) (dst % 8) with
  | (_, l) :: _ => l
  | [] => 16 + s.rackPort i (dst / 64)

/-- The out-link of a packet that this module forwards (R267, R270): row or column toward the board and slot, then its own port. -/
def State.forwardLink (s : State) (i dst : Nat) : Option Nat :=
  let b' := dst / 8 % 8
  let s' := dst % 8
  if s.boardNo ≠ b' then some (colLink s.boardNo b')
  else if s.slotNo ≠ s' then some (rowLink s.slotNo s')
  else if s.rackReach i (dst / 64) then some (16 + s.rackPort i (dst / 64))
  else none

/-! ## Transmit queues (R245, R246, R274) -/

/-- Receive buffer of a VL in flits (R245). -/
def vlSize (l vl : Nat) : Nat :=
  match vl / 2 with
  | 0 => 16
  | 1 => if l < 16 then 128 else 640
  | 2 => if l < 16 then 96 else 256
  | _ => if l < 16 then 144 else 640

/-- The credit a strand holds on a VL (R246). -/
def Strand.credit (x : Strand) (l vl : Nat) : Nat :=
  vlSize l vl - (SMap.get 0 x.sent vl + 65536 - SMap.get 0 x.freedByPeer vl) % 65536

/-- The strand of an ORDERED command (R274). -/
def orderedStrand (src dst job chan : Nat) (active : List Nat) : Option Nat :=
  let h := src ^^^ dst ^^^ job ^^^ (chan * 0x0101)
  let h := (h ^^^ (h >>> 8)) % 256
  if active.length = 0 then none else active[h % active.length]?

/-- The strands of a schedule entry (R276). -/
def State.schedStrands (s : State) (id : Nat) (ds : List Nat) : List Nat := ds.filter fun d => natBit (s.getF RTE_SCHED_A.STRANDS id) d

/-- The valid schedule entries of the active bank for a route set and link, with TRANSIT 0 or 1, lowest first (R278, R310). -/
def State.schedEntries (s : State) (i l transit : Nat) : List Nat :=
  ((s.regs.filter fun e => e.1 % 256 == Reg.num .RTE_SCHED_A && bit e.2 0).map fun e => e.1 / 256).filter fun id =>
    s.getF RTE_SCHED_A.BANK id == s.getF RTE_BANKSW.ACTIVE && s.getF RTE_SCHED_A.RSET id == i && s.getF RTE_SCHED_A.LINK id == l &&
      s.getF RTE_SCHED_A.TRANSIT id == transit

/-- The first course from course `c` on in which a schedule entry is active (R276). -/
def State.activeFrom (s : State) (c id : Nat) : Nat :=
  let p := 2 ^ s.getF RTE_SCHED_A.PERIOD_LOG2 id
  (c + (s.getF RTE_SCHED_A.PHASE id + p * 65536 - c % p) % p) % 2 ^ (64 - s.k)

/-- The same from the course in progress: of a collective launched at its boundary, and of traffic that is forwarded (R277, R278, R310). -/
def State.transferCourse (s : State) (id : Nat) : Nat := s.activeFrom s.courseNo id

/-- The transfer course of a PUT that starts now: the first course to begin at or after its start in which its entry is active, so that no input
of a course is sent before that course's end (R30, R277; DEDUCED, log entry 31). -/
def State.putCourse (s : State) (id : Nat) : Nat := s.activeFrom (if s.time % 2 ^ s.k = 0 then s.courseNo else s.courseNo + 1) id

/-- Queue a packet on a strand. -/
def State.queueOn (s : State) (d l : Nat) (t : TxPkt) : State :=
  let x := s.strand d l
  s.setStrand d l { x with tx := SMap.put [] x.tx t.vl (SMap.get [] x.tx t.vl ++ [t]) }

/-- The strand that the first packet of an ORDERED command took on a link, unless it has gone DOWN since (R274). -/
def State.pinned (s : State) (l : Nat) (t : TxPkt) : Option Nat :=
  match t.pin with
  | some (m, d) => if m = l ∧ s.strandState d l ≠ SS.down ∧ s.strandState d l ≠ SS.disabled then some d else none
  | none => none

/-- The strand of a link for a packet: that of its yelm (R307), the ordered choice, or round-robin over strands with credit; none while all lack
credit (R274). -/
def State.chooseStrand (s : State) (l : Nat) (t : TxPkt) (ordered : Bool) : Option Nat × State :=
  let all := s.activeDies l
  if t.die?.isSome then (if all.any (some · == t.die?) then t.die? else all.head?, s) else
  let act := all
  let act := match t.sched with | some id => s.schedStrands id act | none => act
  if ordered then
    (match s.pinned l t with
     | some d => some d
     | none => orderedStrand (Pkt.src t.pkt) (Pkt.dst t.pkt) (Pkt.job t.pkt) (Pkt.chan t.pkt) act, s)
  else
    let pos := SMap.get 0 s.route.spray l
    let ring := act.filter (fun d => pos ≤ d) ++ act.filter (fun d => d < pos)
    match ring.find? fun d => (s.strand d l).credit l t.vl > 0 with
    | none => (none, s)
    | some d => (some d, { s with route := { s.route with spray := SMap.put 0 s.route.spray l ((d + 1) % 4) } })

/-- A packet's traffic keeps to ordered strands: PUT, GET and SIGNAL of an ORDERED job (R272, R274). -/
def Pkt.ordered (p : Packet) : Bool :=
  !(Pkt.mode p) && (Pkt.type p == PT.put || Pkt.type p == PT.get || Pkt.type p == PT.signal)

/-- Whether a packet may take the detour: everything but the ORDERED traffic of a route set without ORD_DETOUR (R272). -/
def State.mayDetour (s : State) (i : Nat) (p : Packet) : Bool := !(Pkt.ordered p) || s.flag RTE_RSET_A.ORD_DETOUR i

/-- A scheduled packet whose entry's link is not the one it takes goes in dynamic capacity (R277). -/
def State.offEntry (s : State) (l : Nat) (t : TxPkt) : Bool :=
  match t.sched with
  | some id => s.getF RTE_SCHED_A.LINK id != l
  | none => false

/-- Count a packet's flits in the SCHED_OVERRUN of the die that sends it (R277). -/
def State.overrunOn (s : State) (d l : Nat) (t : TxPkt) : State := s.addLag d (Pkt.job t.pkt) 1 l 0 (flitsOf (48 + Pkt.payloadLen t.pkt))

/-- Count the flits of a packet as freed in the receive buffer of its VL (R246). -/
def State.freeFlits (s : State) (d l vl : Nat) (n : Nat) : State :=
  let x := s.strand d l
  s.setStrand d l { x with freed := SMap.put 0 x.freed vl ((SMap.get 0 x.freed vl + n) % 65536) }

/-- A packet leaves the receive buffer that it stands in, if any. -/
def State.consume (s : State) (vl : Option Nat) (d l : Nat) (p : Packet) : State :=
  match vl with
  | some v => s.freeFlits d l v (flitsOf (48 + Pkt.payloadLen p))
  | none => s

/-- Free the flits of a forwarded packet that goes before it has begun: those that have arrived (the others are freed as they come). -/
def State.freeForward (s : State) (t : TxPkt) : State :=
  match t.from? with
  | some k => s.freeFlits (k / 8 / 32) (k / 8 % 32) (k % 8) (flitsOf (48 + Pkt.payloadLen t.pkt) - flitsOf t.missing)
  | none => s

/-- A packet that cannot be sent is dropped and counted (R21, R273; for a packet of this module's own DEDUCED, log entry 34). -/
def State.dropTx (s : State) (t : TxPkt) : State := (s.bump RTE_DROP0.NO_ROUTE).freeForward t

/-- Let a packet wait in the transmit queue of the source or forwarder. -/
def State.waitTx (s : State) (t : TxPkt) : State := { s with route := { s.route with waiting := s.route.waiting ++ [t] } }

/-- The schedule entry of a packet on a link, and whether it goes in dynamic capacity as an overrun: a yelm takes the lowest entry of its route
set and the link (R310), any other packet keeps its own while that is for the link (R277). -/
def State.entryFor (s : State) (l : Nat) (t : TxPkt) : TxPkt × Bool :=
  if t.die?.isSome && Pkt.sched t.pkt then
    (match (s.schedEntries ((s.rsetOf (Pkt.job t.pkt)).getD 16) l 0).head? with
     | some id => ({ t with sched := some id, course := s.transferCourse id }, false)
     | none => ({ t with sched := none }, true))
  else if s.offEntry l t then ({ t with sched := none }, true)
  else (t, false)

/-- Queue a packet on a strand of a link; none while it must wait for a credit. -/
def State.placeOn (s : State) (l : Nat) (t : TxPkt) : Option State :=
  match s.entryFor l t with
  | (t1, late) =>
    match s.chooseStrand l t1 (Pkt.ordered t.pkt) with
    | (some d, s1) => some ((if late then s1.overrunOn d l t else s1).queueOn d l { t1 with on? := none })
    | (none, _) => none

/-- Queue a packet on a strand of a link, or let it wait for the first strand to regain credit (R274). -/
def State.sendOn (s : State) (l : Nat) (t : TxPkt) : State :=
  if s.linkState l = 2 then s.dropTx t
  else match s.placeOn l t with
    | some s1 => s1
    | none => s.waitTx { t with on? := some l }

/-- Send an injected packet on its path, or let it wait in the source's transmit queue (R267, R272). A packet whose job no route set names, or
of a module without a rack (R260), cannot be sent. -/
def State.inject (s : State) (t : TxPkt) : State :=
  match (if s.flag RTE_SELF.RACK_VALID then s.rsetOf (Pkt.job t.pkt) else none) with
  | none => s.dropTx t
  | some i =>
    match s.firstLink i (Pkt.dst t.pkt) (s.mayDetour i t.pkt) with
    | none => s.waitTx { t with on? := none }
    | some l =>
      match s.placeOn l t with
      | some s1 => s1
      | none => s.waitTx { t with on? := none }

/-- A packet of this module with its payload in the clear again, sealed for another destination. -/
def State.readdress (s : State) (p : Packet) (dst : Nat) : Option Packet × State :=
  let ctr := nearestCtr (SMap.get 0 s.route.gcmTx (gcmKey (Pkt.job p) (Pkt.kgen p) (Pkt.dst p))) (Pkt.ctrLo p)
  match (s.packetKey (Pkt.job p) (Pkt.kgen p)).bind fun k => gcmOpen k (gcmIv (Pkt.src p) (Pkt.dst p) ctr) (Pkt.header p) p.payload p.tag with
  | some pt => s.seal { p with w1 := BitVec.ofNat 64 (natSetField p.w1.toNat 16 16 dst), payload := pt, tag := 0 }
  | none => (none, s)

/-- The link of a packet of this module that has not begun is DOWN: it takes the detour or waits (R272, R321). A broadcast's copy then goes to its
member's own address (R312). -/
def State.offLink (s : State) (t : TxPkt) : State :=
  match (if isGroup (Pkt.dst t.pkt) then t.member else none) with
  | some e =>
    (match s.readdress t.pkt e with
     | (some p, s1) => s1.inject { t with pkt := p, fan := none, on? := none }
     | (none, s1) => s1.dropTx t)
  | none => s.inject { t with on? := none }

/-- Queue again what a strand had not begun: on another strand of the link, at the source, or nowhere (R272 to R274). -/
def State.requeue (s : State) (l : Nat) (t : TxPkt) : State := if s.linkState l = 2 ∧ t.vl % 2 = 0 then s.offLink t else s.sendOn l t

/-- A waiting packet tries again: on the link it must take, or on its path; a forwarded one is lost with its link (R273). -/
def State.retry (s : State) (t : TxPkt) : State :=
  match t.on? with
  | some l => s.requeue l t
  | none => s.inject t

/-- Try every packet that waits again, in order. -/
def State.retryWaiting (s : State) : State :=
  s.route.waiting.foldl State.retry { s with route := { s.route with waiting := [] } }

/-- What a module puts into a packet it makes; the rest of the header is the module's own. -/
structure PktReq where
  type : Nat
  job : Nat
  dst : Nat
  gen : Nat := 0
  final : Bool := false
  rsig : Bool := false
  sched : Bool := false
  poison : Bool := false
  last : Bool := false
  chan : Nat := 0
  count : Nat := 0
  addr : Nat := 0
  lenM1 : Nat := 0
  arg : Nat := 0
  payload : List Byte := []
  /-- The course and epoch of a DMA command's start (R166); the course in progress where none is given. -/
  stamp : Option (Nat × Bool) := none
  deriving DecidableEq, Repr

/-- The packet a request asks for, with its course stamp (R41, R166), unsealed. -/
def State.makePkt (s : State) (q : PktReq) : Packet :=
  let i := (s.rsetOf q.job).getD 0
  let kgen := if q.job = 0 then b2n s.sec.fabricTx else s.getF RTE_RSET_A.KGEN_TX i
  let mode := if q.job = 0 then 0 else s.getF RTE_RSET_A.MODE i
  { w0 := packW [(0, 4, q.type), (4, 1, b2n q.final), (5, 1, b2n q.rsig), (6, 1, b2n q.sched), (7, 1, b2n q.poison),
      (8, 1, b2n ((q.stamp.map (·.2)).getD s.epoch)), (9, 1, b2n q.last), (10, 1, kgen), (11, 1, mode), (16, 16, q.job), (32, 8, q.gen),
      (40, 16, (q.stamp.map (·.1)).getD s.courseNo), (56, 8, q.chan)]
    w1 := packW [(0, 16, s.epn), (16, 16, q.dst), (32, 32, q.count)]
    w2 := packW [(0, 42, q.addr), (42, 11, q.lenM1)]
    w3 := packW [(32, 32, q.arg)]
    payload := q.payload
    tag := 0 }

/-- The VL of a class for injected traffic (R245): 0 CTRL, 1 SCHED, 2 DYN-ORD, 3 DYN-UNORD. -/
def vlOf (cls : Nat) (forwarded : Bool) : Nat := 2 * cls + b2n forwarded

/-- The class of a packet (R262, R305). -/
def Pkt.cls (p : Packet) : Nat :=
  if Pkt.type p = PT.put ∨ Pkt.type p = PT.signal then (if Pkt.sched p then 1 else if Pkt.mode p then 3 else 2)
  else if Pkt.type p = PT.cbcast ∨ Pkt.type p = PT.creduce then (if Pkt.sched p then 1 else 3)
  else if Pkt.type p = PT.get then 2
  else if Pkt.type p = PT.getRsp then 3
  else 0

/-- Inject a packet that has been sealed; a packet whose key is gone is not sent, and is counted. -/
def injectSealed (r : Option Packet × State) (sched : Option Nat) (course : Nat) (pin : Option (Nat × Nat)) (die? : Option Nat) : State :=
  match r.1 with
  | some p => r.2.inject { pkt := p, vl := vlOf (Pkt.cls p) false, sched := sched, course := course, pin := pin, die? := die? }
  | none => r.2.bump RTE_DROP0.NO_ROUTE

/-- Make, seal and inject a packet. -/
def State.send (s : State) (q : PktReq) (sched : Option Nat := none) (course : Nat := 0) (pin : Option (Nat × Nat) := none)
    (die? : Option Nat := none) : State :=
  injectSealed (s.seal (s.makePkt q)) sched course pin die?

/-- Send a packet that has been sealed on one link. -/
def sendSealedOn (r : Option Packet × State) (l : Nat) : State :=
  match r.1 with
  | some p => r.2.sendOn l { pkt := p, vl := vlOf (Pkt.cls p) false }
  | none => r.2.bump RTE_DROP0.NO_ROUTE

/-- Make, seal and send a packet on one link. -/
def State.sendLink (s : State) (l : Nat) (q : PktReq) : State := sendSealedOn (s.seal (s.makePkt q)) l

/-! ## Flows (R196, R283) -/

/-- The key of a flow: job, peer and ordering channel. -/
def flowKey (job peer chan : Nat) : Nat := (job * 65536 + peer) * 256 + chan

def State.srcFlow (s : State) (k : Nat) : SrcFlow := SMap.get {} s.route.src k
def State.setSrcFlow (s : State) (k : Nat) (f : SrcFlow) : State := { s with route := { s.route with src := SMap.put {} s.route.src k f } }
def State.dstFlow (s : State) (k : Nat) : DstFlow := SMap.get {} s.route.dst k
def State.setDstFlow (s : State) (k : Nat) (f : DstFlow) : State := { s with route := { s.route with dst := SMap.put {} s.route.dst k f } }

end Sys2Proof.Machine
end

