-- ==== Sys2Proof/Machine/Commands.lean ====
section
/-!
DEFINITION. Machine/Commands.lean: a command of an engine as its queue holds it (R97 to R99, R115, R116, R165): its operand words and its
descriptor, the causes that refuse it at the DMA engine (R169, R209, R287), its wait (R107), and scratch as an engine reads and writes it.
-/
namespace Sys2Proof.Machine

/-! ## Operand words (R115) -/

def QEntry.aOff (q : QEntry) : Nat := field q.a 0 21
def QEntry.aAux (q : QEntry) : Nat := field q.a 32 21
def QEntry.bOff (q : QEntry) : Nat := field q.b 0 21
def QEntry.bAux (q : QEntry) : Nat := field q.b 32 21
/-- A field of IMM22. -/
def QEntry.im (q : QEntry) (lo w : Nat) : Nat := natField q.imm lo w

/-! ## Refusal conditions -/

/-- A cause and the address it names. -/
abbrev Bad := List (FaultCause × Nat)

/-- One condition: a cause at an address where it does not hold. -/
def need (ok : Bool) (cause : FaultCause) (addr : Nat := 0) : Bad := if ok then [] else [(cause, addr)]

/-- `len` bytes from `off` lie below the end of scratch (R116). -/
def needIn (off len : Nat) : Bad := need (decide (off + len ≤ scratchSize)) .addr off

/-! ## Queues -/

def Core.queueOf (c : Core) : Engine → List QEntry
  | .matrix => c.mq
  | .vector => c.vq
  | .dma => c.dq
  | .scalar => []

def Core.setQueue (c : Core) (e : Engine) (q : List QEntry) : Core :=
  match e with
  | .matrix => { c with mq := q }
  | .vector => { c with vq := q }
  | .dma => { c with dq := q }
  | .scalar => c

/-- The flags that the head commands of the engines before one take first (R107). -/
def Core.claimedBefore (c : Core) : Engine → BitVec 16
  | .matrix => 0
  | .vector => headClaim c.mq c.e
  | .dma => headClaim c.mq c.e ||| headClaim c.vq c.e
  | .scalar => c.claimed

/-- The wait of an engine's head command is met: its flag is set, and where it clears the flag no engine before it takes it (R106, R107). -/
def Core.waitMet (c : Core) (e : Engine) (h : QEntry) : Bool :=
  !h.waitEn || (bit c.e h.waitEv && !(h.waitClr && bit (c.claimedBefore e) h.waitEv))

/-- Take the head command: its wait's flag is cleared where it asks, and the heads that wait on that flag without clearing it proceed
(R101, R106, R107). -/
def Core.takeHead (c : Core) (e : Engine) (h : QEntry) (rest : List QEntry) : Core :=
  if h.waitEn && h.waitClr then
    let c1 := c.meetHeads (flagMask h.waitEv)
    { c1.setQueue e rest with e := c.e &&& ~~~(flagMask h.waitEv) }
  else c.setQueue e rest

/-! ## Scratch as an engine sees it -/

def State.scr (s : State) (n off len : Nat) : List Byte := s.bytes (scratchOf n + off) len

/-- Poisoned granules among ranges of scratch. -/
def State.scrPoison (s : State) (n : Nat) (rs : List (Nat × Nat)) : List Nat :=
  (rs.flatMap fun r => granulesOf (scratchOf n + r.1) r.2).filter s.poisoned

/-- Contiguous runs of a byte map. -/
def runsOf : SMap Byte → List (Nat × List Byte)
  | [] => []
  | (a, b) :: m =>
    match runsOf m with
    | (x, bs) :: rs => if x = a + 1 then (a, b :: bs) :: rs else (a, [b]) :: (x, bs) :: rs
    | [] => [(a, [b])]

/-- Lay writes over each other; of two to one byte the later lands. -/
def overlayMap (ws : List (Nat × List Byte)) : SMap Byte :=
  ws.foldl (fun m w => (w.2.zip (upFrom w.1 w.2.length)).foldl (fun m e => SMap.insert m e.2 e.1) m) []

/-- Write scratch. -/
def State.scrWrite (s : State) (n : Nat) (ws : List (Nat × List Byte)) : State :=
  (runsOf (overlayMap ws)).foldl (fun s w => s.land (scratchOf n + w.1) w.2 false) s

def State.setNstat (s : State) (n : Nat) (b : BitVec 4) : State :=
  let c := s.getCore n
  s.setCore n { c with nstat := c.nstat ||| b }

/-! ## The descriptor (R165) -/

def QEntry.dw (q : QEntry) (i lo w : Nat) : Nat := field (q.desc.getD i 0) lo w
def QEntry.dop (q : QEntry) : Nat := q.dw 0 0 6
def QEntry.atype (q : QEntry) : Nat := q.dw 0 6 2
def QEntry.cplEn (q : QEntry) : Bool := q.dw 0 8 1 == 1
def QEntry.btnEn (q : QEntry) : Bool := q.dw 0 9 1 == 1
def QEntry.sched? (q : QEntry) : Bool := q.dw 0 10 1 == 1
def QEntry.final? (q : QEntry) : Bool := q.dw 0 11 1 == 1
def QEntry.rsig? (q : QEntry) : Bool := q.dw 0 12 1 == 1
def QEntry.btnNum (q : QEntry) : Nat := q.dw 0 16 16
def QEntry.rbtn (q : QEntry) : Nat := q.dw 0 32 16
def QEntry.peer (q : QEntry) : Nat := q.dw 0 48 16
def QEntry.rowBytes (q : QEntry) : Nat := q.dw 3 0 32
def QEntry.rows (q : QEntry) : Nat := q.dw 3 32 16 + 1
def QEntry.srcPitch (q : QEntry) : Nat := q.dw 4 0 32
def QEntry.dstPitch (q : QEntry) : Nat := q.dw 4 32 32
def QEntry.pay (q : QEntry) : Nat := q.dw 5 0 32
def QEntry.chan (q : QEntry) : Nat := q.dw 5 32 8
def QEntry.cplOff (q : QEntry) : Nat := q.dw 6 0 21
def QEntry.schedId (q : QEntry) : Nat := q.dw 6 32 16

def DOp.copy : Nat := 0x00
def DOp.fill : Nat := 0x01
def DOp.accum : Nat := 0x02
def DOp.put : Nat := 0x10
def DOp.get : Nat := 0x11
def DOp.signal : Nat := 0x12

/-- RB is added to SRC and RC to DST, modulo 2^64. -/
def QEntry.src (q : QEntry) : Nat := (q.desc.getD 1 0 + q.b).toNat
def QEntry.dst (q : QEntry) : Nat := (q.desc.getD 2 0 + q.c).toNat
/-- The start addresses of the rows. -/
def QEntry.srcRows (q : QEntry) : List Nat := (upFrom 0 q.rows).map fun i => q.src + i * q.srcPitch
def QEntry.dstRows (q : QEntry) : List Nat := (upFrom 0 q.rows).map fun i => q.dst + i * q.dstPitch

/-- Reserved fields and fields that the operation leaves unused are zero, as copied at issue (R165). -/
def QEntry.clean (q : QEntry) : Bool :=
  let op := q.dop
  let remote := op ≥ 0x10
  q.dw 0 13 3 == 0 && q.dw 3 48 16 == 0 && q.dw 5 40 24 == 0 && q.dw 6 21 11 == 0 && q.dw 6 48 16 == 0 &&
  q.dw 7 0 64 == 0 &&
  (op == DOp.accum || q.atype == 0) && (op == DOp.put || q.dw 0 10 3 == 0) && (q.btnEn || q.btnNum == 0) &&
  ((op == DOp.put && q.rsig?) || op == DOp.signal || q.rbtn == 0) && (remote || (q.peer == 0 && q.chan == 0)) &&
  (op != DOp.signal || (q.dw 1 0 64 == 0 && q.dw 2 0 64 == 0 && q.dw 3 0 64 == 0 && q.dw 4 0 64 == 0)) &&
  (op != DOp.fill || (q.dw 1 0 64 == 0 && q.srcPitch == 0)) &&
  (op == DOp.fill || op == DOp.signal || (op == DOp.accum && q.atype == 2) || q.pay == 0) &&
  (q.cplEn || q.cplOff == 0) && (q.sched? || q.schedId == 0)

/-! ## Refusals (R169, R209, R287) -/

/-- Every byte of a range stands in one populated region. -/
def populated (a n : Nat) : Bool := decide (a + n ≤ 2 ^ 42) && region a != Region.none && region a == region (a + n - 1)

/-- A local row: populated, and within the grant of the command's partition, control space that is granted to its cores included (R157). -/
def State.rowBad (s : State) (p len a : Nat) : Bad :=
  need (populated a len) .addr a ++ (if populated a len then need (s.inGrant p a len || s.controlGrant p a len) .access a else [])

/-- The pieces of a row that packets carry: source, destination, length; they end at multiples of 8,192 of an address (R281). -/
def cutRow (fuel src dst len : Nat) : List (Nat × Nat × Nat) :=
  match fuel with
  | 0 => []
  | k + 1 =>
    if len = 0 then []
    else
      let n := min len (8192 - dst % 8192)
      (src, dst, n) :: cutRow k (src + n) (dst + n) (len - n)

/-- The packets of a PUT, or the requests of a GET. -/
def QEntry.pieces (q : QEntry) : List (Nat × Nat × Nat) :=
  (q.srcRows.zip q.dstRows).flatMap fun r => cutRow (q.rowBytes / 8192 + 2) r.1 r.2 q.rowBytes

/-- The schedule entry of a PUT is one that it may use (R287). -/
def State.schedGood (s : State) (i : Nat) (q : QEntry) : Bool :=
  let id := q.schedId
  decide (id < 4096) && s.flag RTE_SCHED_A.VALID id && s.getF RTE_SCHED_A.BANK id == s.getF RTE_BANKSW.ACTIVE &&
  s.getF RTE_SCHED_A.RSET id == i && s.getF RTE_SCHED_A.LINK id == s.normalLink i q.peer

/-- Remote refusals (R287). -/
def State.remoteBad (s : State) (q : QEntry) : Bad :=
  match s.rsetOf q.job with
  | none => [(.access, 0)]
  | some i =>
    need (q.peer != s.epn && decide (q.chan ≤ s.getF RTE_RSET_B.ORD_CHANS_M1 i)) .illegal ++
    need (decide (q.peer < 0x4000) && s.inSlice i q.peer && (q.peer / 64 == s.rackNo || s.rackReach i (q.peer / 64))) .access ++
    need (q.dop == DOp.signal || decide (q.pieces.length ≤ 65536)) .illegal ++
    need (!q.final? || decide (q.rowBytes * q.rows ≤ 65536)) .illegal ++ need (!q.sched? || s.schedGood i q) .illegal

/-- The operations of the table "DMA descriptor"; others are reserved. -/
def DOp.all : List Nat := [DOp.copy, DOp.fill, DOp.accum, DOp.put, DOp.get, DOp.signal]

/-- The refusals of the DMA engine: causes at module addresses. Of a FUNC other than SUBMIT (R99), or a reserved OP, no field has a meaning
that another cause could rest on. -/
def State.dmaBad (s : State) (q : QEntry) : Bad :=
  let op := q.dop
  if q.func ≠ 0 ∨ ¬ op ∈ DOp.all then [(.illegal, 0)] else
  let moves := op != DOp.signal
  let srcLocal := op == DOp.copy || op == DOp.accum || op == DOp.put
  let dstLocal := op == DOp.copy || op == DOp.fill || op == DOp.accum || op == DOp.get
  let size := if op = DOp.accum then max 4 (accSize q.atype) else 4
  let far : List Nat := if op = DOp.put then q.dstRows else if op = DOp.get then q.srcRows else []
  need (q.clean && q.atype != 3) .illegal ++
  (if moves then
     need (decide (0 < q.rowBytes) && decide (q.rowBytes ≤ 16777216) && q.rowBytes % size == 0 && q.srcPitch % 4 == 0 && q.dstPitch % 4 == 0)
       .illegal ++
     need (q.src % size == 0 || op == DOp.fill) .align q.src ++ need (q.dst % size == 0) .align q.dst ++
     need (q.srcPitch % size == 0 && q.dstPitch % size == 0) .align q.dst
   else need (decide (0 < q.pay) && decide (q.pay ≤ 0x7FFF_FFFF)) .illegal) ++
  need (q.cplOff % 16 == 0) .align q.cplOff ++
  need (!q.btnEn || natBit (s.slatesOf q.part) (q.btnNum / 4096)) .access ++
  (if moves && decide (0 < q.rowBytes) then
     (if srcLocal then q.srcRows.flatMap (s.rowBad q.part q.rowBytes) else []) ++
     (if dstLocal then q.dstRows.flatMap (s.rowBad q.part q.rowBytes) else []) ++
     (far.flatMap fun a => need (populated a q.rowBytes) .addr a) ++
     (if op = DOp.accum then q.dstRows.flatMap fun a => need (region a == .tier && region (a + q.rowBytes - 1) == .tier) .illegal else [])
   else []) ++
  (if op ≥ 0x10 then s.remoteBad q else [])

end Sys2Proof.Machine
end

