-- ==== Sys2Proof/Machine/MatrixOps.lean ====
section
/-!
DEFINITION. Machine/MatrixOps.lean: the commands of the matrix engine (R120 to R133): what refuses one, what it does, and what it
writes.
-/
namespace Sys2Proof.Machine

/-! ## Tiles (R60, R61) -/

def Core.tile (c : Core) (t : Nat) : SMap (BitVec 128) := if t = 0 then c.wa0 else c.wa1
def Core.tag (c : Core) (t : Nat) : BitVec 32 := if t = 0 then c.tag0 else c.tag1
def Core.setTile (c : Core) (t : Nat) (x : SMap (BitVec 128)) (tag : BitVec 32) : Core :=
  if t = 0 then { c with wa0 := x, tag0 := tag } else { c with wa1 := x, tag1 := tag }
def Core.elem (c : Core) (t i : Nat) : BitVec 128 := SMap.get 0 (c.tile t) i

/-- Change the first `count` elements of a tile by their index; the flags join the tag (R66). -/
def Core.mapTile (c : Core) (t count : Nat) (f : Nat → BitVec 128 → BitVec 128 × WaFlags) : Core :=
  let out := (upFrom 0 count).foldl
    (fun (a : SMap (BitVec 128) × WaFlags) i =>
      match f i (SMap.get 0 a.1 i) with | (w, g) => (SMap.put 0 a.1 i w, a.2.or g)) (c.tile t, {})
  c.setTile t out.1 (tagWith (c.tag t) out.2)

/-! ## MX.ZERO (R122) -/

/-- What a command gives: the state after it, and beside it the poisoned granules that stop it, where it reads any (R359). -/
abbrev Ran := State × List Nat

/-- A command that does its work where nothing that it reads is poisoned. -/
def State.unlessPoison (s : State) (gs : List Nat) (run : State) : Ran :=
  match gs with
  | [] => (run, [])
  | g :: rest => (s, g :: rest)

def mxZeroBad (q : QEntry) : Bad := need (q.im 18 4 == 0) .illegal

def mxZeroRun (n : Nat) (q : QEntry) (s : State) : Ran :=
  (s.setCore n ((s.getCore n).setTile (q.im 0 1) [] (tagOf (if q.im 1 1 = 1 then field q.a 0 16 else q.im 2 16) {})), [])

/-! ## MX.MAC (R123, R124) -/

/-- K of a command. -/
def macK (q : QEntry) : Nat := 32 * (field q.c 0 15 + 1)
def macRows (q : QEntry) : Nat := field q.c 16 6 + 1

/-- Both MX, both plain floating point, or both plain integer (R52). -/
def macPair (fa fb : Nat) : Bool :=
  match elemOf fa, elemOf fb with
  | some _, some _ => (isMxFmt fa == isMxFmt fb) && (isMxFmt fa || isIntFmt fa == isIntFmt fb)
  | _, _ => false

/-- The regions of an operand: data and pitch, or data and scales. -/
def operandRegions (fmt off aux k : Nat) : List (Nat × Nat) :=
  match elemOf fmt with
  | some e =>
    if isMxFmt fmt then [(off, mxBlock e.bits * (k / 32)), (aux, 64 * (k / 32))]
    else (upFrom 0 64).map fun l => (off + l * aux, k * e.bits / 8)
  | none => []

/-- The refusals of one operand (R124, R133). Of a reserved format the data start is judged, and no region, since no element has a size. -/
def operandBad (fmt off aux k : Nat) : Bad :=
  match elemOf fmt with
  | some e =>
    need (off % 64 == 0) .align off ++
    (if isMxFmt fmt then need (aux % 64 == 0) .align aux
     else need (aux % 64 == 0 && decide (aux ≥ k * e.bits / 8)) .illegal) ++
    (operandRegions fmt off aux k).flatMap fun r => needIn r.1 r.2
  | none => need (off % 64 == 0) .align off

def mxMacBad (q : QEntry) : Bad :=
  need (q.im 9 13 == 0) .illegal ++ need (macPair (q.im 1 4) (q.im 5 4)) .illegal ++
  operandBad (q.im 1 4) q.aOff q.aAux (macK q) ++ operandBad (q.im 5 4) q.bOff q.bAux (macK q)

/-- Line `l` of an operand: its K elements (R57, R58, R124). -/
def State.operandLine (s : State) (n fmt off aux k l : Nat) : List FVal :=
  match elemOf fmt with
  | none => []
  | some e =>
    if isMxFmt fmt then
      (upFrom 0 (k / 32)).flatMap fun b =>
        let x := (s.byte (scratchOf n + aux + 64 * b + l)).toNat
        (unpack e.bits 32 (s.scr n (off + b * mxBlock e.bits + l * mxLine e.bits) (mxLine e.bits))).map (mxValue e x)
    else (unpack e.bits k (s.scr n (off + l * aux) (k * e.bits / 8))).map e.decode

/-- A product as the accumulator takes it (R62, R65): an infinite or NaN operand gives NaN. -/
def macProduct (a b : FVal) : FVal := if a.isInf || b.isInf then .nan else a.mul b

/-- The accumulation of MX.MAC. -/
def mxMacEffect (n : Nat) (q : QEntry) (s : State) : State :=
  let as_ := (upFrom 0 (macRows q)).map fun l => s.operandLine n (q.im 1 4) q.aOff q.aAux (macK q) l
  let bs := (upFrom 0 64).map fun l => s.operandLine n (q.im 5 4) q.bOff q.bAux (macK q) l
  let c := s.getCore n
  let t := q.im 0 1
  let f : Nat → BitVec 128 → BitVec 128 × WaFlags := fun i w =>
    waAccumulate w (tagAnchor (c.tag t)) (((as_.getD (i / 64) []).zip (bs.getD (i % 64) [])).map fun e => macProduct e.1 e.2)
      (Config.freeNat (s.free + i))
  ({ s with free := s.free + 4096 } : State).setCore n (c.mapTile t (64 * macRows q) f)

def mxMacRun (n : Nat) (q : QEntry) (s : State) : Ran :=
  s.unlessPoison
    (s.scrPoison n (operandRegions (q.im 1 4) q.aOff q.aAux (macK q) ++ operandRegions (q.im 5 4) q.bOff q.bAux (macK q)))
    (mxMacEffect n q s)

/-! ## MX.OUT (R126) -/

/-- The output formats; INT32 is the one that is no floating-point format. -/
def outFmt : Nat → Option Elem
  | 0 => some (.flt .fp32)
  | 1 => some (.flt .bf16)
  | 2 => some (.flt .fp16)
  | 3 => some (.flt .e4m3)
  | 4 => some (.flt .e5m2)
  | 5 => some (.int 32 0)
  | _ => none

def mxOutBad (q : QEntry) : Bad :=
  need (q.im 17 5 == 0) .illegal ++ need (q.im 4 2 != 3) .illegal ++ need (q.aOff % 64 == 0) .align q.aOff ++
  (match outFmt (q.im 1 3) with
   | none => need false .illegal
   | some e => need (q.aAux % 64 == 0 && decide (q.aAux ≥ 8 * e.bits)) .illegal ++ needIn (q.aOff + 63 * q.aAux) (8 * e.bits))

def mxOutRun (n : Nat) (q : QEntry) (s : State) : Ran :=
  match outFmt (q.im 1 3) with
  | none => (s, [])
  | some e =>
    let c := s.getCore n
    let t := q.im 0 1
    let ex := tagAnchor (c.tag t) + signedOf 10 (q.im 7 10)
    let conv : Nat → Nat × BitVec 4 := fun i => e.out (q.im 4 2) (q.im 6 1 == 1) (q.sr i) (waValue (c.elem t i) ex)
    let s1 := (upFrom 0 64).foldl (fun s r =>
      s.scrWrite n [(q.aOff + r * q.aAux, pack e.bits ((upFrom (64 * r) 64).map fun i => (conv i).1))]) s
    (s1.setNstat n ((upFrom 0 4096).foldl (fun b i => b ||| (conv i).2) 0), [])

/-! ## MX.STORE and MX.ADDW (R127, R128) -/

def mxRawBad (q : QEntry) : Bad :=
  need (q.im 1 21 == 0) .illegal ++ need (q.aOff % 64 == 0) .align q.aOff ++ need (q.bOff % 4 == 0) .align q.bOff ++
  need (q.aAux % 64 == 0 && decide (q.aAux ≥ 1024)) .illegal ++ needIn (q.aOff + 63 * q.aAux) 1024 ++ needIn q.bOff 4

/-- MX.STORE. DESIGN CHOICE (log 102): the spec orders no write of the command, and the tag is written last, so that it lands where it lies
inside a row. -/
def mxStoreRun (n : Nat) (q : QEntry) (s : State) : Ran :=
  let c := s.getCore n
  let t := q.im 0 1
  (((upFrom 0 64).foldl (fun s r =>
    s.scrWrite n [(q.aOff + r * q.aAux, (upFrom (64 * r) 64).flatMap fun i => leBytes 16 (c.elem t i).toNat)]) s).scrWrite n
      [(q.bOff, leBytes 4 (c.tag t).toNat)], [])

/-- The addition of MX.ADDW. -/
def mxAddwEffect (n : Nat) (q : QEntry) (s : State) : State :=
  let c := s.getCore n
  let t := q.im 0 1
  let tag : BitVec 32 := BitVec.ofNat 32 (leNat (s.scr n q.bOff 4))
  let src : Nat → BitVec 128 := fun i => BitVec.ofNat 128 (leNat (s.scr n (q.aOff + (i / 64) * q.aAux + 16 * (i % 64)) 16))
  let c1 := c.mapTile t 4096 fun i w => waAddFixed w (tagAnchor (c.tag t)) (src i) (tagAnchor tag)
  s.setCore n (c1.setTile t (c1.tile t) (tagWith (c1.tag t) (tagFlags tag)))

def mxAddwRun (n : Nat) (q : QEntry) (s : State) : Ran :=
  s.unlessPoison (s.scrPoison n (((upFrom 0 64).map fun r => (q.aOff + r * q.aAux, 1024)) ++ [(q.bOff, 4)])) (mxAddwEffect n q s)

/-! ## MX.BIAS and MX.FLAGS (R129, R130) -/

/-- The regions that MX.BIAS reads. DESIGN CHOICE (log 102): the spec gives a reserved MODE no region; the 256 B at RA.OFF, which every
defined mode reads, are judged for it. -/
def biasRegions (q : QEntry) : List (Nat × Nat) :=
  if q.im 1 2 = 2 then (upFrom 0 64).map fun r => (q.aOff + r * q.aAux, 256) else [(q.aOff, 256)]

def mxBiasBad (q : QEntry) : Bad :=
  need (q.im 3 19 == 0) .illegal ++ need (q.im 1 2 != 3) .illegal ++ need (q.aOff % 4 == 0) .align q.aOff ++
  need (q.im 1 2 != 2 || (q.aAux % 64 == 0 && decide (q.aAux ≥ 256))) .illegal ++ (biasRegions q).flatMap fun r => needIn r.1 r.2

/-- Where the value of element (r, c) stands. -/
def biasAt (q : QEntry) (i : Nat) : Nat :=
  match q.im 1 2 with
  | 0 => q.aOff + 4 * (i % 64)
  | 1 => q.aOff + 4 * (i / 64)
  | _ => q.aOff + (i / 64) * q.aAux + 4 * (i % 64)

/-- Add a value that enters at the anchor (R83, R64); a NaN element takes no further part (R65). -/
def waAddLoaded (w : BitVec 128) (anchor : Int) (v : FVal) : BitVec 128 × WaFlags :=
  if w = waNan then (w, {})
  else match waLoad v anchor with
    | (x, f) => if x = waNan then (waNan, f) else match waAddInt w (waInt x) with | (y, g) => (y, f.or g)

def mxBiasRun (n : Nat) (q : QEntry) (s : State) : Ran :=
  let c := s.getCore n
  let t := q.im 0 1
  s.unlessPoison (s.scrPoison n (biasRegions q))
    (s.setCore n (c.mapTile t 4096 fun i w => waAddLoaded w (tagAnchor (c.tag t)) (Fmt.fp32.decode (leNat (s.scr n (biasAt q i) 4)))))

def mxFlagsBad (q : QEntry) : Bad :=
  need (q.im 1 21 == 0) .illegal ++ need (q.aOff % 8 == 0) .align q.aOff ++ needIn q.aOff 8

def mxFlagsRun (n : Nat) (q : QEntry) (s : State) : Ran :=
  (s.scrWrite n [(q.aOff, leBytes 8 ((s.getCore n).tag (q.im 0 1)).toNat)], [])

/-! ## By FUNC (R120, R133) -/

/-- The causes that refuse a command of the matrix engine. A FUNC outside the table has no field that another cause could rest on. -/
def mxBad (q : QEntry) : Bad :=
  match q.func with
  | 0x00 => mxZeroBad q
  | 0x01 => mxMacBad q
  | 0x02 => mxOutBad q
  | 0x03 => mxRawBad q
  | 0x04 => mxRawBad q
  | 0x05 => mxBiasBad q
  | 0x06 => mxFlagsBad q
  | _ => [(.illegal, 0)]

/-- What a command of the matrix engine does. -/
def mxRun (n : Nat) (q : QEntry) (s : State) : Ran :=
  match q.func with
  | 0x00 => mxZeroRun n q s
  | 0x01 => mxMacRun n q s
  | 0x02 => mxOutRun n q s
  | 0x03 => mxStoreRun n q s
  | 0x04 => mxAddwRun n q s
  | 0x05 => mxBiasRun n q s
  | 0x06 => mxFlagsRun n q s
  | _ => (s, [])

/-- The granules that a command of the matrix engine writes. -/
def mxWritten (n : Nat) (q : QEntry) : List Nat :=
  let rows : Nat → List Nat := fun len => (upFrom 0 64).flatMap fun r => granulesOf (scratchOf n + q.aOff + r * q.aAux) len
  (match q.func with
   | 0x02 => (match outFmt (q.im 1 3) with | some e => rows (8 * e.bits) | none => [])
   | 0x03 => rows 1024 ++ granulesOf (scratchOf n + q.bOff) 4
   | 0x06 => granulesOf (scratchOf n + q.aOff) 8
   | _ => []).eraseDups

end Sys2Proof.Machine
end

