-- ==== Sys2Proof/Machine/Transcend.lean ====
section
/-!
DEFINITION. Machine/Transcend.lean: vector arithmetic on one lane (R135, R139) and the transcendental commands with their special results
(R141).
-/
namespace Sys2Proof.Machine

/-! ## Exact comparisons for the bounds -/

/-- Exponent of one ulp of a code's value. -/
def Fmt.ulpExp (f : Fmt) (m : Nat) (e : Int) : Int := if m = 0 then f.emin - f.mbits else max (floorLog m e) f.emin - f.mbits

/-- `a ≤ b` for finite values. -/
def FVal.leq (a b : FVal) : Bool := match a.cmp? b with | some .gt => false | some _ => true | none => false

def FVal.sub (a b : FVal) : FVal := a.add b.negate
def FVal.one : FVal := .num false 1 0

/-- `y` is within 1 ulp of `1 / x`: `|x y - 1| ≤ ulp(y) |x|`. -/
def rcpNear (x y : FVal) : Bool :=
  match y with
  | .num _ m e => (((x.mul y).sub .one).abs).leq ((x.abs).scale (Fmt.fp32.ulpExp m e))
  | _ => false

/-- `y` is within 1 ulp of `1 / sqrt x`. -/
def rsqrtNear (x y : FVal) : Bool :=
  match y with
  | .num false m e =>
    let u : FVal := .num false 1 (Fmt.fp32.ulpExp m e)
    let lo := y.sub u
    let hi := y.add u
    (lo.neg? || lo.isZero || ((lo.mul lo).mul x).leq .one) && FVal.one.leq ((hi.mul hi).mul x)
  | _ => false

/-! ## Reference values for the bounds of R141

A reference value carries 256 bits below its own leading bit or below the point, far more than the bounds can tell apart. -/

/-- One, in the fixed-point numbers of the reference values. -/
def refOne : Int := 2 ^ 256

/-- Product of two fixed-point numbers. -/
def refMul (a b : Int) : Int := a * b / refOne

/-- The series of the inverse tangent (`alt`) or inverse hyperbolic tangent, for arguments up to a third. -/
def refArc (alt : Bool) (z : Int) : Int :=
  ((upFrom 0 128).foldl
    (fun (a : Int × Int) (k : Nat) => (a.1 + (if alt && k % 2 == 1 then -1 else 1) * (a.2 / (2 * k + 1)), refMul a.2 (refMul z z))) (0, z)).1

def refLn2 : Int := 2 * refArc false (refOne / 3)
def refPi : Int := 16 * refArc true (refOne / 5) - 4 * refArc true (refOne / 239)

/-- The exponential series, for arguments below 1. -/
def refExpSum (r : Int) : Int := ((upFrom 0 80).foldl (fun (a : Int × Int) (k : Nat) => (a.1 + a.2, refMul a.2 r / (k + 1))) (0, refOne)).1

/-- A finite value as a fixed-point number. -/
def FVal.fixed : FVal → Int
  | .num s m e => (floorAt s m e (-256)).1
  | _ => 0

/-- `e ^ r * 2 ^ n` as a value; beyond the range of FP32 by far, a value that rounds alike. -/
def refScaled (r n : Int) : FVal :=
  if n ≥ 200 then .num false 1 200 else if n ≤ -600 then .num false 0 0 else .num false (refExpSum r).toNat (n - 256)

def refExp2 (x : FVal) : FVal := refScaled (refMul (x.fixed % refOne) refLn2) (x.fixed / refOne)
def refExp (x : FVal) : FVal := refScaled (x.fixed % refLn2) (x.fixed / refLn2)

/-- A fixed-point number as a value. -/
def refVal (x : Int) : FVal := .num (decide (x < 0)) x.natAbs (-256)

/-- Base-2 logarithm of a positive value. -/
def refLog2 (m : Nat) (e : Int) : FVal :=
  let f : Int := (m : Int) * 2 ^ (256 - Nat.log2 m)
  refVal (floorLog m e * refOne + 2 * refArc false ((f - refOne) * refOne / (f + refOne)) * refOne / refLn2)

/-- Hyperbolic tangent: by its series near 0, so that the result keeps its leading bits. -/
def refTanh (s : Bool) (m : Nat) (e : Int) : FVal :=
  if floorLog m e < -12 then
    let u := (FVal.mul (.num s m e) (.num s m e)).fixed
    let q := refOne - u / 3 + 2 * refMul u u / 15 - 17 * refMul u (refMul u u) / 315
    .num s (m * q.toNat) (e - 256)
  else if floorLog m e ≥ 6 then .num s 1 0
  else
    let g := (refExp (.num false m (e + 1))).fixed
    .num s ((g - refOne) * refOne / (g + refOne)).toNat (-256)

/-- The logistic function. -/
def refSig (s : Bool) (m : Nat) (e : Int) : FVal :=
  let a : FVal := .num true m e
  let n := a.fixed / refLn2
  if n ≤ -600 then (if s then .num false 0 0 else .num false 1 0)
  else
    let g := refExpSum (a.fixed % refLn2)
    let one := refOne * 2 ^ (-n).toNat
    if s then .num false (g * one / (one + g)).toNat (n - 256) else .num false (refOne * one / (one + g)).toNat (-256)

/-- The sine of π times a value whose last bit stands below the point. -/
def refSinpi (s : Bool) (m : Nat) (e : Int) : FVal :=
  let half := 2 ^ (-e).toNat
  let r := m % (2 * half)
  let flip := decide (half ≤ r)
  let r1 := r % half
  let t := if 2 * r1 > half then half - r1 else r1
  let w := refMul refPi (FVal.num false t e).fixed
  let u := refMul w w
  let q := ((upFrom 0 48).foldl (fun (a : Int × Int) (k : Nat) => (a.1 + a.2, -(refMul a.2 u) / ((2 * k + 2) * (2 * k + 3)))) (0, refOne)).1
  .num (s != flip) (t * (refMul q refPi).toNat) (e - 256)

/-- `y` is within `b` ulps of the reference `a`, one step where `y` is subnormal; infinity stands for the value after the largest. -/
def withinUlps (b : Nat) (a y : FVal) : Bool :=
  match y with
  | .nan => false
  | .inf s => a.neg? == s && (FVal.num false 1 128).leq (a.abs.add (.num false b 104))
  | .num _ m e =>
    let steps := if m = 0 ∨ floorLog m e < -126 then 1 else b
    ((y.sub a).abs).leq (.num false (steps * 2 ^ 40 + 1) (Fmt.fp32.ulpExp m e - 40))

/-- An open result kept to a bound: one that breaks it gives way to the reference value, rounded. -/
def openWithin (near : FVal → Bool) (a : FVal) (code : Nat) : Nat := if near (Fmt.fp32.decode code) then code else Fmt.fp32.rne a

/-- The values for which VLOG2 has an absolute bound: 0.75 to 1.5. -/
def nearOne (x : FVal) : Bool := (FVal.num false 3 (-2)).leq x && x.leq (.num false 3 (-1))

/-- Twice a finite value, where that is an integer. -/
def FVal.twice? : FVal → Option Int
  | .num s m e =>
    match floorAt s m (e + 1) 0 with
    | (x, true) => some x
    | _ => none
  | _ => none

/-- The exponent of a power of two. -/
def FVal.pow2? : FVal → Option Int
  | .num false m e => if m != 0 && m == 2 ^ Nat.log2 m then some ((Nat.log2 m : Int) + e) else none
  | _ => none

/-- FP32 code of an integer. -/
def f32Int (x : Int) : Nat := Fmt.fp32.rne (.num (decide (x < 0)) x.natAbs 0)
def f32One : Nat := 0x3F800000
def f32NegOne : Nat := 0xBF800000
def f32Zero (neg : Bool) : Nat := if neg then 0x80000000 else 0
def f32Inf (neg : Bool) : Nat := if neg then 0xFF800000 else 0x7F800000

/-- The result of a transcendental command on an FP32 code (R141): its special results, a correctly rounded one, or an open one, kept to
the command's bound. DESIGN CHOICE (log 29): the table of special results gives VLOG2 no result for +∞, and the limit +∞ is taken; for VEXP
of an infinity the bound is taken about the limit, 0 or a value beyond FP32's range. -/
def transFn (f a : Nat) : Nat :=
  let x := Fmt.fp32.decode a
  let open_ := (Config.trans f (BitVec.ofNat 32 a)).toNat
  match f, x with
  | _, .nan => Fmt.fp32.nanCode
  | 0x18, .inf s => f32Zero s
  | 0x18, .num s m _ =>
    if m = 0 then f32Inf s
    else if rcpNear x (Fmt.fp32.decode open_) then open_
    else Fmt.fp32.rne (FVal.one.div x)
  | 0x19, .inf s => if s then Fmt.fp32.nanCode else 0
  | 0x19, .num s m _ =>
    if m = 0 then f32Inf s
    else if s then Fmt.fp32.nanCode
    else if rsqrtNear x (Fmt.fp32.decode open_) then open_
    else Fmt.fp32.rne (FVal.one.div x.sqrt)
  | 0x1A, _ => Fmt.fp32.rne x.sqrt
  | 0x1C, .inf s => if s then 0 else f32Inf false
  | 0x1C, _ =>
    (match x.twice? with
     | some t =>
       if t % 2 = 0 ∧ -149 ≤ t / 2 ∧ t / 2 ≤ 127 then Fmt.fp32.rne (.num false 1 (t / 2))
       else openWithin (withinUlps 1 (refExp2 x)) (refExp2 x) open_
     | none => openWithin (withinUlps 1 (refExp2 x)) (refExp2 x) open_)
  | 0x1D, .inf s => if s then Fmt.fp32.nanCode else f32Inf false
  | 0x1D, .num s m e =>
    if m = 0 then f32Inf true
    else if s then Fmt.fp32.nanCode
    else
      (match x.pow2? with
       | some k => f32Int k
       | none =>
         let r := refLog2 m e
         openWithin (fun y => if nearOne x then ((y.sub r).abs).leq (.num false 1 (-25)) && !y.isNan else withinUlps 1 r y) r open_)
  | 0x1E, .inf s =>
    let r : FVal := if s then .num false 0 0 else .num false 1 200
    openWithin (withinUlps 2 r) r open_
  | 0x1E, .num _ m _ => if m = 0 then f32One else openWithin (withinUlps 2 (refExp x)) (refExp x) open_
  | 0x1F, .inf s => if s then f32NegOne else f32One
  | 0x1F, .num s m e => if m = 0 then f32Zero s else openWithin (withinUlps 2 (refTanh s m e)) (refTanh s m e) open_
  | 0x20, .inf s => if s then 0 else f32One
  | 0x20, .num s m e => if m = 0 then 0x3F000000 else openWithin (withinUlps 2 (refSig s m e)) (refSig s m e) open_
  | 0x21, .inf _ => Fmt.fp32.nanCode
  | 0x21, .num s m e =>
    (match x.twice? with
     | some t => if t % 2 = 0 then f32Zero s else if (t - 1) % 4 = 0 then f32One else f32NegOne
     | none => openWithin (withinUlps 2 (refSinpi s m e)) (refSinpi s m e) open_)
  | 0x22, .inf _ => Fmt.fp32.nanCode
  | 0x22, .num _ _ _ =>
    (match x.twice? with
     | some t => if t % 2 = 1 then 0 else if t % 4 = 0 then f32One else f32NegOne
     | none =>
       let r := match x.abs.add (.num false 1 (-1)) with | .num s m e => refSinpi s m e | v => v
       openWithin (withinUlps 2 r) r open_)
  | _, _ => open_

/-! ## One lane (R135, R139) -/

/-- Floating-point arithmetic by FUNC, in one format. -/
def Fmt.lane (fm : Fmt) (f a b d : Nat) : Nat :=
  let x := fm.decode a
  let y := fm.decode b
  match f with
  | 0x00 => fm.rne (x.add y)
  | 0x01 => fm.rne (x.sub y)
  | 0x02 => fm.rne (x.mul y)
  | 0x03 => fm.rne ((x.mul y).add (fm.decode d))
  | 0x04 => fm.minOf a b
  | 0x05 => fm.maxOf a b
  | 0x06 => if x.isNan then fm.nanCode else a % fm.signBit
  | _ => if x.isNan then fm.nanCode else (a + fm.signBit) % (2 * fm.signBit)

/-- INT32 arithmetic by FUNC, modulo 2^32. -/
def intLane (f a b d : Nat) : Nat :=
  let x := signedOf 32 a
  let y := signedOf 32 b
  match f with
  | 0x00 => (a + b) % 2 ^ 32
  | 0x01 => codeOf 32 (x - y)
  | 0x02 => codeOf 32 (x * y)
  | 0x03 => codeOf 32 (x * y + d)
  | 0x04 => codeOf 32 (min x y)
  | 0x05 => codeOf 32 (max x y)
  | 0x06 => codeOf 32 x.natAbs
  | 0x07 => codeOf 32 (-x)
  | 0x0B => (a * 2 ^ (b % 32)) % 2 ^ 32
  | _ => codeOf 32 (x / 2 ^ (b % 32))

/-- An element-wise command on one lane: TYPE, FUNC, the operands, the selector bit, the lane's number. -/
def laneFn (ty f a b d : Nat) (sel : Bool) (i : Nat) : Nat :=
  if f = 0x08 then a &&& b
  else if f = 0x09 then a ||| b
  else if f = 0x0A then a ^^^ b
  else if f = 0x0D then (if sel then a else b)
  else if f = 0x0E then b
  else if f = 0x0F then i
  else if f = 0x1B then Fmt.fp32.rne ((Fmt.fp32.decode a).div (Fmt.fp32.decode b))
  else if f ≥ 0x18 then transFn f a
  else if ty = 2 then intLane f a b d
  else if ty = 1 then
    Fmt.bf16.lane f (a % 65536) (b % 65536) (d % 65536) + 65536 * Fmt.bf16.lane f (a / 65536) (b / 65536) (d / 65536)
  else Fmt.fp32.lane f a b d

/-- VCMP: EQ, NE, LT, LE; a NaN makes all false but NE. -/
def cmpFn (ty op a b : Nat) : Bool :=
  let o : Option Ordering :=
    if ty = 2 then some (compare (signedOf 32 a) (signedOf 32 b)) else (Fmt.fp32.decode a).cmp? (Fmt.fp32.decode b)
  match op, o with
  | 0, some .eq => true
  | 1, some .eq => false
  | 1, _ => true
  | 2, some .lt => true
  | 3, some .lt => true
  | 3, some .eq => true
  | _, _ => false

/-! ## Reductions (R142) -/

/-- The identity of a reduction. -/
def redIdent (f ty : Nat) : Nat :=
  match f with
  | 0x29 => if ty = 2 then 0x80000000 else f32Inf true
  | 0x2A => if ty = 2 then 0x7FFFFFFF else f32Inf false
  | _ => 0

/-- One combination of a reduction. -/
def redOp (f ty a b : Nat) : Nat :=
  match f with
  | 0x28 => if ty = 2 then intLane 0 a b 0 else Fmt.fp32.lane 0 a b 0
  | 0x2A => if ty = 2 then intLane 4 a b 0 else Fmt.fp32.minOf a b
  | _ => if ty = 2 then intLane 5 a b 0 else Fmt.fp32.maxOf a b

/-- One level of the tree: lane 2i with lane 2i + 1. -/
def pairUp (g : Nat → Nat → Nat) : List Nat → List Nat
  | a :: b :: rest => g a b :: pairUp g rest
  | l => l

/-- The six levels over 64 lanes. -/
def reduceTree (g : Nat → Nat → Nat) (l : List Nat) : Nat := ((upFrom 0 6).foldl (fun l _ => pairUp g l) l).getD 0 0

end Sys2Proof.Machine
end

