-- ==== Sys2Proof/Machine/VectorOps.lean ====
section
/-!
DEFINITION. Machine/VectorOps.lean: the commands of the vector engine (R134 to R148): fields, refusals, register forms, stream forms,
and what a command writes.
-/
namespace Sys2Proof.Machine

/-! ## Fields (R136, R137) -/

/-- The register command a FUNC stands for, and whether it is a stream form (R147). -/
def QEntry.vf (q : QEntry) : Nat := if q.func ≥ 0x40 then q.func - 0x40 else q.func
def QEntry.streams (q : QEntry) : Bool := decide (q.func ≥ 0x40)
def QEntry.vd (q : QEntry) : Nat := q.im 0 5
/-- Conversions use the conversion layout. -/
def isConv (f : Nat) : Bool := f == 0x23 || f == 0x24 || (0x38 ≤ f && f ≤ 0x3B)
def QEntry.va (q : QEntry) : Nat := if isConv q.vf then q.im 0 5 else q.im 5 5
def QEntry.vb (q : QEntry) : Nat := q.im 10 5
def QEntry.msel (q : QEntry) : Nat := q.im 15 3
def QEntry.men (q : QEntry) : Bool := q.im 18 1 == 1
def QEntry.ty (q : QEntry) : Nat := q.im 19 2
def QEntry.bsrc (q : QEntry) : Bool := q.im 21 1 == 1
def QEntry.fmt (q : QEntry) : Nat := q.im 5 4
def QEntry.rm (q : QEntry) : Nat := q.im 9 2
def QEntry.sat (q : QEntry) : Bool := q.im 11 1 == 1
def QEntry.reps (q : QEntry) : Nat := if q.streams then field q.c 0 13 else 1
def QEntry.line0 (q : QEntry) : Nat := field q.c 13 6
def QEntry.base (q : QEntry) : Nat := field q.c 32 12
def QEntry.scalar (q : QEntry) : Nat := field q.c 32 32
/-- The width of the elements a conversion names; a reserved code names none. -/
def QEntry.ebits (q : QEntry) : Nat := match elemOf q.fmt with | some e => e.bits | none => 0

/-- Registers as lists of 64 lanes (R134). -/
def lanesOf (v : BitVec 2048) : List Nat := (upFrom 0 64).map fun i => field v (32 * i) 32
def ofLanes (l : List Nat) : BitVec 2048 := BitVec.ofNat 2048 (l.foldr (fun c a => c % 2 ^ 32 + 2 ^ 32 * a) 0)
def Core.vreg (c : Core) (i : Nat) : List Nat := lanesOf (SMap.get 0 c.v i)
def Core.mreg (c : Core) (i : Nat) : Word := SMap.get 0 c.m i

/-- The lanes that a command works on (R138). -/
def Core.act (c : Core) (q : QEntry) : Word := if q.men then c.mreg q.msel else BitVec.allOnes 64

/-- Write a register: masked lanes keep their values. -/
def Core.putV (c : Core) (r : Nat) (act : Word) (vs : List Nat) : Core :=
  let old := c.vreg r
  { c with v := SMap.put 0 c.v r (ofLanes ((upFrom 0 64).map fun i => if bit act i then vs.getD i 0 else old.getD i 0)) }

/-- Write a mask register, bit by bit. -/
def Core.putM (c : Core) (r : Nat) (act v : Word) : Core :=
  { c with m := SMap.put 0 c.m r ((v &&& act) ||| (c.mreg r &&& ~~~act)) }

/-! ## Refusals (R143, R145 to R148) -/

/-- Register commands that are defined, and those with a stream form. -/
def vDefined (f : Nat) : Bool := f ≤ 0x24 || (0x28 ≤ f && f ≤ 0x2B) || (0x30 ≤ f && f ≤ 0x3B)
def vStreams (f : Nat) : Bool := f ≤ 0x0E || (0x18 ≤ f && f ≤ 0x24) || (0x38 ≤ f && f ≤ 0x3B)

/-- The TYPE values that the table allows a command of the arithmetic layout. -/
def vType (f ty : Nat) : Bool :=
  if f ≤ 0x0A || f == 0x0D || f == 0x0E then ty != 3
  else if f ≤ 0x0C || f == 0x0F then ty == 2
  else if f ≤ 0x13 || (0x28 ≤ f && f ≤ 0x2A) then ty == 0 || ty == 2
  else ty == 0

/-- Mask numbers of a command, whose upper bits must be zero. -/
def vMasks (q : QEntry) : List Nat :=
  let f := q.vf
  if 0x10 ≤ f && f ≤ 0x13 || f == 0x36 then [q.vd]
  else if 0x14 ≤ f && f ≤ 0x16 then [q.vd, q.va, q.vb]
  else if f == 0x17 then [q.vd, q.va]
  else if f == 0x37 then [q.va]
  else []

/-- FMT is one that the conversion allows. -/
def vFmt (f fmt : Nat) (sat : Bool) : Bool :=
  if f ≤ 0x24 then fmt == 0 && !sat
  else if f ≤ 0x39 then fmt == 0 || fmt == 1 || fmt == 2 || fmt == 3 || fmt == 5 || fmt == 6
  else isMxFmt fmt

/-- FUNC names a command: a register form, or the stream form of a command that has one (R139, R147). -/
def vKnown (q : QEntry) : Bool := vDefined q.vf && (!q.streams || vStreams q.vf)

/-- The fields of a command are legal. -/
def vLegal (q : QEntry) : Bool :=
  let f := q.vf
  vKnown q &&
  (if isConv f then q.im 12 3 == 0 && q.im 19 3 == 0 && q.rm != 3 && vFmt f q.fmt q.sat && (f < 0x3A || (!q.men && decide (q.line0 + q.reps ≤ 64)))
   else vType f q.ty && (vMasks q).all fun m => decide (m < 8)) &&
  (f != 0x0D || !q.men) && (!q.streams || (decide (1 ≤ q.reps) && decide (q.reps ≤ 4096)))

/-- The active lanes' numbers. -/
def activeLanes (act : Word) : List Nat := (upFrom 0 64).filter fun i => bit act i

/-- One past the highest byte that rows of packed elements touch, from their start. -/
def rowEnd (act : Word) (bits : Nat) : Nat := match (activeLanes act).getLast? with | some i => ceilDiv (bits * (i + 1)) 8 | none => 0

/-- Rows of elements: the last row's extent over the unmasked lanes. A command of no row touches nothing. -/
def rowsBad (act : Word) (off pitch reps bits : Nat) : Bad :=
  if reps = 0 ∨ act = 0 then [] else needIn (off + (reps - 1) * pitch) (rowEnd act bits)

/-- Rows of narrow elements (R145): their start, masked or not, and their extent where FMT is one that the conversion allows. -/
def narrowBad (act : Word) (q : QEntry) (off pitch : Nat) : Bad :=
  need (off % 32 == 0) .align off ++ (if vFmt q.vf q.fmt q.sat then rowsBad act off pitch q.reps q.ebits else [])

/-- The lanes of one row of 32-bit words. -/
def rowLanesBad (act : Word) (off : Nat) : Bad :=
  (if act = 0 then [] else need (off % 4 == 0) .align off) ++ rowsBad act off 0 1 32

/-- The 8 bytes of a mask (R143): the start, and the bytes that hold an unmasked bit. -/
def maskBad (act : Word) (off : Nat) : Bad :=
  need (off % 8 == 0) .align off ++
  (match ((upFrom 0 8).filter fun k => field act (8 * k) 8 != 0).getLast? with | some k => needIn off (k + 1) | none => [])

/-- Single lanes by their offsets. -/
def lanesBad (offs : List Nat) : Bad := offs.flatMap fun o => need (o % 4 == 0) .align o ++ needIn o 4

/-- A block pair's lines (R146): its bases, and its extent where FMT is an MX format. -/
def mxPairBad (q : QEntry) (data scale : Nat) : Bad :=
  need (data % 64 == 0) .align data ++ need (scale % 64 == 0) .align scale ++
  (if q.reps = 0 then [] else
    (if isMxFmt q.fmt then needIn data (mxBlock q.ebits + (q.line0 + q.reps) * mxLine q.ebits) else []) ++ needIn scale (64 + q.line0 + q.reps))

/-- Offsets of the unmasked lanes of a strided or indexed access: an index is operand B, the scalar where BSRC is 1 (R136). -/
def laneOffs (c : Core) (q : QEntry) : List (Nat × Nat) :=
  let index : Nat → Nat := fun i => if q.bsrc then q.scalar else (c.vreg q.vb).getD i 0
  (activeLanes (c.act q)).map fun i =>
    (i, match q.vf with
      | 0x32 => q.aOff + i * q.aAux
      | 0x33 => q.bOff + i * q.bAux
      | 0x34 => q.aOff + index i
      | _ => q.bOff + index i)

/-- The conditions on what a command reads from scratch, and on what it writes there. -/
def vReadBad (c : Core) (q : QEntry) : Bad :=
  let act := c.act q
  match q.vf with
  | 0x30 => rowLanesBad act q.aOff
  | 0x32 => need (q.aAux % 4 == 0) .align q.aOff ++ lanesBad ((laneOffs c q).map Prod.snd)
  | 0x34 => lanesBad ((laneOffs c q).map Prod.snd)
  | 0x36 => maskBad act q.aOff
  | 0x38 => narrowBad act q q.aOff q.aAux
  | 0x3A => mxPairBad q q.aOff q.aAux
  | _ => if q.streams then rowsBad act q.aOff q.aAux q.reps 32 else []

def vWriteBad (c : Core) (q : QEntry) : Bad :=
  let act := c.act q
  match q.vf with
  | 0x31 => rowLanesBad act q.bOff
  | 0x33 => need (q.bAux % 4 == 0) .align q.bOff ++ lanesBad ((laneOffs c q).map Prod.snd)
  | 0x35 => lanesBad ((laneOffs c q).map Prod.snd)
  | 0x37 => maskBad act q.bOff
  | 0x39 => narrowBad act q q.bOff q.bAux
  | 0x3B => mxPairBad q q.bOff q.bAux
  | _ => if q.streams then rowsBad act q.bOff q.bAux q.reps 32 else []

/-- The refusals of the vector engine (R148). A masked lane cannot cause a fault (R138); a pitch, a stride or the start of a narrow or MX
region belongs to no lane. A FUNC that names no command has no field that another cause could rest on. -/
def vBad (c : Core) (q : QEntry) : Bad :=
  if !(vKnown q) then [(.illegal, 0)]
  else
    need (vLegal q) .illegal ++
    (if q.streams then need (q.aAux % 64 == 0) .align q.aOff ++ need (q.bAux % 64 == 0) .align q.bOff else []) ++
    vReadBad c q ++ vWriteBad c q

/-! ## Reading rows -/

/-- A row as it is read: the lanes' values and the ranges of scratch that the unmasked lanes touch. -/
structure Row where
  vals : List Nat
  reads : List (Nat × Nat)
  nstat : BitVec 4 := 0
  deriving DecidableEq, Repr

/-- 64 packed elements of scratch. -/
def State.readPacked (s : State) (n off bits : Nat) (act : Word) : Row :=
  ⟨unpack bits 64 (s.scr n off (8 * bits)),
   (activeLanes act).map fun i => (off + bits * i / 8, ceilDiv (bits * (i + 1)) 8 - bits * i / 8), 0⟩

/-- Line `line` of a block pair, scaled to FP32 (R146). -/
def State.readMx (s : State) (n : Nat) (q : QEntry) (line base : Nat) : Row :=
  match elemOf q.fmt with
  | none => ⟨[], [], 0⟩
  | some e =>
    let at_ : Nat → Nat := fun h => q.aOff + h * mxBlock e.bits + line * mxLine e.bits
    let sc : Nat → Nat := fun h => q.aAux + 64 * h + line
    let half : Nat → List (Nat × BitVec 4) := fun h =>
      let x := (s.byte (scratchOf n + sc h)).toNat
      ((unpack e.bits 32 (s.scr n (at_ h) (mxLine e.bits))).zip (upFrom (32 * h) 32)).map fun p =>
        Fmt.fp32.round q.rm q.sat (q.sr (base + p.2)) (mxValue e x p.1)
    let all := half 0 ++ half 1
    ⟨all.map Prod.fst, [(at_ 0, mxLine e.bits), (sc 0, 1), (at_ 1, mxLine e.bits), (sc 1, 1)], all.foldl (fun a o => a ||| o.2) 0⟩

/-- The source row `i` of a command: its registers, or a row of scratch. -/
def State.vSource (s : State) (n : Nat) (c : Core) (q : QEntry) (i base : Nat) : Row :=
  let act := c.act q
  match q.vf with
  | 0x38 =>
    let r := s.readPacked n (q.aOff + i * q.aAux) q.ebits act
    (match elemOf q.fmt with
     | some e => { r with vals := r.vals.map fun x => Fmt.fp32.rne (e.decode x) }
     | none => r)
  | 0x3A => s.readMx n q (q.line0 + i) base
  | _ => if q.streams then s.readPacked n (q.aOff + i * q.aAux) 32 act else ⟨c.vreg q.va, [], 0⟩

/-! ## Applying a command to a row -/

/-- The results of a row with its status bits; lanes masked off raise none. -/
def vApply (c : Core) (q : QEntry) (r : Row) (base : Nat) : List Nat × BitVec 4 :=
  let act := c.act q
  let f := q.vf
  let b := c.vreg q.vb
  let d := c.vreg q.vd
  let sel := c.mreg q.msel
  let one : Nat → Nat → Nat × BitVec 4 := fun i a =>
    if f = 0x23 then roundInt 32 (-(2 : Int) ^ 31) (2 ^ 31 - 1) 0 q.rm (q.sr (base + i)) (Fmt.fp32.decode a)
    else if f = 0x24 then
      let x := signedOf 32 a
      ((Fmt.fp32.round q.rm false (q.sr (base + i)) (.num (decide (x < 0)) x.natAbs 0)).1, 0)
    else if f ≥ 0x38 then (a, 0)
    else (laneFn q.ty f a (if q.bsrc then q.scalar else b.getD i 0) (d.getD i 0) (bit sel i) i, 0)
  let out := (r.vals.zip (upFrom 0 64)).map fun p => one p.2 p.1
  (out.map Prod.fst, (out.zip (upFrom 0 64)).foldl (fun m o => if bit act o.2 then m ||| o.1.2 else m) r.nstat)

/-- The writes of a narrowed row (R145): masked lanes keep their bits; a half byte is merged. -/
def State.narrowRow (s : State) (n off : Nat) (q : QEntry) (act : Word) (vals : List Nat) (base : Nat) : List (Nat × List Byte) × BitVec 4 :=
  match elemOf q.fmt with
  | none => ([], 0)
  | some e =>
    let conv : Nat → Nat → Nat × BitVec 4 := fun i v => e.out q.rm q.sat (q.sr (base + i)) (Fmt.fp32.decode v)
    let outs := (vals.zip (upFrom 0 64)).map fun p => (p.2, conv p.2 p.1)
    let old := unpack e.bits 64 (s.scr n off (8 * e.bits))
    let codes := outs.map fun o => if bit act o.1 then o.2.1 else old.getD o.1 0
    let bytes := pack e.bits codes
    let touched := (upFrom 0 (8 * e.bits)).filter fun k => (upFrom 0 64).any fun i =>
      bit act i && decide (e.bits * i < 8 * (k + 1)) && decide (8 * k < e.bits * (i + 1))
    (touched.map fun k => (off + k, [bytes.getD k 0]), outs.foldl (fun m o => if bit act o.1 then m ||| o.2.2 else m) 0)

/-- The writes of a line of a block pair (R82, R146). -/
def mxRow (q : QEntry) (line : Nat) (vals : List Nat) (base : Nat) : List (Nat × List Byte) × BitVec 4 :=
  let half : Nat → List (Nat × List Byte) × BitVec 4 := fun h =>
    match mxEncode q.fmt q.rm (((vals.drop (32 * h)).take 32).map Fmt.fp32.decode) (fun i => q.sr (base + 32 * h + i)) with
    | (x, cs, fl) =>
      ([(q.bOff + h * mxBlock q.ebits + line * mxLine q.ebits, pack q.ebits cs), (q.bAux + 64 * h + line, [BitVec.ofNat 8 x])], fl)
  match half 0, half 1 with
  | (w0, f0), (w1, f1) => (w0 ++ w1, f0 ||| f1)

/-- The writes of 32-bit lanes. -/
def laneWrites (off : Nat) (act : Word) (vals : List Nat) : List (Nat × List Byte) :=
  (activeLanes act).map fun i => (off + 4 * i, leBytes 4 (vals.getD i 0))

/-- The poisoned granules that the unmasked lanes of a row read (R359). -/
def State.rowPoison (s : State) (n : Nat) (r : Row) : List Nat := s.scrPoison n r.reads

/-- Row `i` of a register or stream form (R147): the state after it, or the poisoned granules that stop it. -/
def State.vRow (s : State) (n : Nat) (q : QEntry) (i : Nat) : State × List Nat :=
  let c := s.getCore n
  let act := c.act q
  let base := q.base + 64 * i
  let src := s.vSource n c q i base
  match s.rowPoison n src with
  | [] =>
    (match vApply c q src base with
     | (vals, fl) =>
       let s1 := s.setNstat n fl
       match q.vf with
       | 0x39 => (match s1.narrowRow n (q.bOff + i * q.bAux) q act vals base with | (ws, g) => ((s1.scrWrite n ws).setNstat n g, []))
       | 0x3B => (match mxRow q (q.line0 + i) vals base with | (ws, g) => ((s1.scrWrite n ws).setNstat n g, []))
       | _ =>
         if q.streams then (s1.scrWrite n (laneWrites (q.bOff + i * q.bAux) act vals), [])
         else (s1.setCore n ((s1.getCore n).putV q.vd act vals), []))
  | gs => (s, gs)

/-- The granules of scratch that the rows below `i` write. -/
def vRowsWritten (n : Nat) (q : QEntry) (i : Nat) : List Nat :=
  ((upFrom 0 i).flatMap fun j => match q.vf with
    | 0x39 => granulesOf (scratchOf n + q.bOff + j * q.bAux) (8 * q.ebits)
    | 0x3B =>
      let l := q.line0 + j
      (upFrom 0 2).flatMap fun h =>
        granulesOf (scratchOf n + q.bOff + h * mxBlock q.ebits + l * mxLine q.ebits) (mxLine q.ebits) ++
        granulesOf (scratchOf n + q.bAux + 64 * h + l) 1
    | _ => if q.streams then granulesOf (scratchOf n + q.bOff + j * q.bAux) 256 else []).eraseDups

/-- Rows in ascending order; poison stops the command, and any set of the granules it had produced is home (R111, R359). -/
def State.vRows (s start : State) (n : Nat) (q : QEntry) : Nat → Nat → Ran
  | 0, _ => (s, [])
  | k + 1, i =>
    match s.vRow n q i with
    | (s1, []) => s1.vRows start n q k (i + 1)
    | (_, gs) => (start.partly s (vRowsWritten n q i), gs)

/-! ## The other register forms -/

/-- VCMP and the mask commands. -/
def vMaskRun (n : Nat) (q : QEntry) (s : State) : State :=
  let c := s.getCore n
  let act := c.act q
  let f := q.vf
  let v : Word :=
    if f ≤ 0x13 then
      let a := c.vreg q.va
      let b := c.vreg q.vb
      BitVec.ofNat 64 ((upFrom 0 64).foldl (fun m i =>
        if cmpFn q.ty (f - 0x10) (a.getD i 0) (if q.bsrc then q.scalar else b.getD i 0) then m + 2 ^ i else m) 0)
    else
      match f with
      | 0x14 => c.mreg q.va &&& c.mreg q.vb
      | 0x15 => c.mreg q.va ||| c.mreg q.vb
      | 0x16 => c.mreg q.va ^^^ c.mreg q.vb
      | _ => ~~~(c.mreg q.va)
  s.setCore n (c.putM q.vd act v)

/-- Reductions: the mask chooses the lanes that enter; every lane of vd is written (R142). -/
def vReduceRun (n : Nat) (q : QEntry) (s : State) : State :=
  let c := s.getCore n
  let act := c.act q
  let f := q.vf
  let vals := ((c.vreg q.va).zip (upFrom 0 64)).map fun p =>
    if bit act p.2 then (if f = 0x2B then Fmt.fp32.lane 0x06 p.1 0 0 else p.1) else redIdent f q.ty
  s.setCore n (c.putV q.vd (BitVec.allOnes 64) ((upFrom 0 64).map fun _ => reduceTree (redOp f q.ty) vals))

/-- A load of lanes: (lane, offset) pairs (R134, R138, R143). -/
def vLoadRun (n : Nat) (q : QEntry) (s : State) (os : List (Nat × Nat)) : Ran :=
  let c := s.getCore n
  s.unlessPoison (s.scrPoison n (os.map fun o => (o.2, 4)))
    (s.setCore n (c.putV q.vd (c.act q) ((upFrom 0 64).map fun i =>
      match os.find? fun o => o.1 == i with | some o => leNat (s.scr n o.2 4) | none => 0)))

/-- Loads and stores (R134, R138, R143). -/
def vMemRun (n : Nat) (q : QEntry) (s : State) : Ran :=
  let c := s.getCore n
  let act := c.act q
  if act = 0 then (s, [])
  else
    match q.vf with
    | 0x30 => vLoadRun n q s ((activeLanes act).map fun i => (i, q.aOff + 4 * i))
    | 0x31 => (s.scrWrite n (laneWrites q.bOff act (c.vreg q.va)), [])
    | 0x32 => vLoadRun n q s (laneOffs c q)
    | 0x34 => vLoadRun n q s (laneOffs c q)
    | 0x33 => (s.scrWrite n ((laneOffs c q).map fun o => (o.2, leBytes 4 ((c.vreg q.va).getD o.1 0))), [])
    | 0x35 => (s.scrWrite n ((laneOffs c q).map fun o => (o.2, leBytes 4 ((c.vreg q.va).getD o.1 0))), [])
    | 0x36 => s.unlessPoison (s.scrPoison n [(q.aOff, 8)])
        (s.setCore n (c.putM q.vd act (BitVec.ofNat 64 (leNat (s.scr n q.aOff 8)))))
    | _ =>
      let old : Word := BitVec.ofNat 64 (leNat (s.scr n q.bOff 8))
      (s.scrWrite n [(q.bOff, leBytes 8 ((c.mreg q.va &&& act) ||| (old &&& ~~~act)).toNat)], [])

/-- Run a vector command. -/
def vRun (n : Nat) (q : QEntry) (s : State) : Ran :=
  let f := q.vf
  if 0x10 ≤ f ∧ f ≤ 0x17 then (vMaskRun n q s, [])
  else if 0x28 ≤ f ∧ f ≤ 0x2B then (vReduceRun n q s, [])
  else if 0x30 ≤ f ∧ f ≤ 0x37 then vMemRun n q s
  else s.vRows s n q q.reps 0

/-- The granules that a command of the vector engine writes. -/
def vWritten (c : Core) (n : Nat) (q : QEntry) : List Nat :=
  match q.vf with
  | 0x31 => granulesOf (scratchOf n + q.bOff) 256
  | 0x33 => ((laneOffs c q).flatMap fun o => granulesOf (scratchOf n + o.2) 4).eraseDups
  | 0x35 => ((laneOffs c q).flatMap fun o => granulesOf (scratchOf n + o.2) 4).eraseDups
  | 0x37 => granulesOf (scratchOf n + q.bOff) 8
  | _ => vRowsWritten n q q.reps

end Sys2Proof.Machine
end

