-- ==== Sys2Proof/Machine/Faults.lean ====
section
/-!
DEFINITION. Machine/Faults.lean: the faults of a core (R110 to R113): what its units refuse, which of several faults is recorded, the fault
state, and the stop of a core.
-/
namespace Sys2Proof.Machine

/-! ## Fault state (R111 to R113) -/

/-- A fault of a core: what its fault state records. -/
structure CoreFaultInfo where
  cause : FaultCause
  precise : Bool
  engine : Engine
  pc : Nat
  instr : Nat
  trap : Nat := 0
  addr : Nat := 0
  more : Nat := 0
  deriving DecidableEq, Repr

/-- Write TSK_CFLT_A to D of a core. -/
def State.writeFaultState (s : State) (n : Nat) (f : CoreFaultInfo) : State :=
  let c := s.getCore n
  (((s.setReg .TSK_CFLT_A n (packW [(0, 1, 1), (1, 1, b2n f.precise), (2, 2, engineCode f.engine), (4, 4, min f.more 15), (8, 8, causeCode f.cause),
      (16, 8, causeStatus f.cause), (32, 21, f.pc)])).setReg .TSK_CFLT_B n (packW [(0, 32, f.instr), (32, 16, f.trap)])).setReg .TSK_CFLT_C n
      (BitVec.ofNat 64 f.addr)).setReg .TSK_CFLT_D n (packW [(0, 16, c.job), (16, 8, c.gen)])

/-- The FAULT completion of a task, where asked for and there is space (R233). -/
def State.faultCompletion (s : State) (n : Nat) (status : Nat) : State :=
  let c := s.getCore n
  match c.task with
  | some t =>
    if t.cplEn ∧ s.cplUsable t.cplq c.part ∧ s.cplSpace t.cplq then
      s.writeCpl t.cplq ⟨t.taskId, status, 1, c.job, t.queue, t.index, c.gen, n, t.start, t.courses⟩
    else s
  | none => s

/-- The fault state of a stop with cause EXT_ABORT, HW of the scalar unit or TIMEOUT of a task (R113). -/
def State.unraised (s : State) (n : Nat) (cause : FaultCause) : CoreFaultInfo :=
  let pc := (s.getCore n).pc
  { cause := cause, precise := false, engine := .scalar, pc := pc, instr := s.wordAt n pc }

/-! ## Faults that stand at the units of a core (R92, R108, R118) -/

/-- The causes that refuse an engine's command when it reaches the head of its queue (R118). -/
def State.headBad (s : State) (n : Nat) (e : Engine) (h : QEntry) : Bad :=
  match e with
  | .matrix => mxBad h
  | .vector => vBad (s.getCore n) h
  | .dma => s.dmaBad h
  | .scalar => []

/-- What the addresses of an engine's causes count from. -/
def headBase (n : Nat) : Engine → Nat
  | .dma => 0
  | _ => scratchOf n

/-- The fault of a refused command: the cause of the highest priority, at the address it names. -/
def refusal (n : Nat) (e : Engine) (h : QEntry) (bad : Bad) : Option CoreFaultInfo :=
  let causes := (bad.map Prod.fst).eraseDups
  (topCause causes).map fun k =>
    { cause := k, precise := false, engine := e, pc := h.pc, instr := h.instr, more := causes.length - 1
      addr := if k = .illegal then 0 else headBase n e + (match bad.find? fun b => b.1 == k with | some b => b.2 | none => 0) }

/-- A word that no opcode table defines (R92, R208): a reserved major opcode, or a reserved function of SYS or BTN. -/
def reservedWord (w : Nat) : Bool :=
  let major := natField w 26 6
  let func := natField w 0 11
  if major = 0x2B then decide (func > 3)
  else if major = 0x2A then decide (func > 4)
  else (decide (0x2D ≤ major) && decide (major ≤ 0x37)) || major == 0x3B || decide (0x3D ≤ major)

/-- The fault of the fetch at the PC (R92, R108): past the end of scratch, or a word that no table defines. -/
def State.fetchFault? (s : State) (n : Nat) : Option CoreFaultInfo :=
  let c := s.getCore n
  if !(c.busy && c.wait == Wait.none) then none
  else if c.pc ≥ scratchSize then
    some { cause := .fetch, precise := true, engine := .scalar, pc := c.pc, instr := s.wordAt n c.pc
           addr := (BitVec.ofNat 64 (scratchOf n) + BitVec.ofNat 64 c.pc).toNat }
  else
    match c.cachedWord c.pc with
    | some w => if reservedWord w then some { cause := .illegal, precise := true, engine := .scalar, pc := c.pc, instr := w } else none
    | none => none

/-- The fault that stands at a unit: the fetch at the PC, or the head of its queue. -/
def State.standingAt (s : State) (n : Nat) (e : Engine) : Option CoreFaultInfo :=
  match e with
  | .scalar => s.fetchFault? n
  | e =>
    match (s.getCore n).queueOf e with
    | h :: _ => refusal n e h (s.headBad n e h)
    | [] => none

/-- The faults that stand at the units of a core but one. -/
def State.standing (s : State) (n : Nat) (but : Engine) : List CoreFaultInfo :=
  ([Engine.scalar, .matrix, .vector, .dma].filter fun e => e != but).filterMap (s.standingAt n)

/-- A fault ranks before another of the same clock: by cause, then by unit (R112). -/
def CoreFaultInfo.before (a b : CoreFaultInfo) : Bool :=
  decide (causeRank a.cause < causeRank b.cause) || (a.cause == b.cause && decide (engineCode a.engine < engineCode b.engine))

/-- Of the faults of one clock one is recorded, and MORE counts the others (R112). -/
def rankFaults (f : CoreFaultInfo) (others : List CoreFaultInfo) : CoreFaultInfo :=
  { others.foldl (fun a b => if b.before a then b else a) f with
    more := others.foldl (fun m o => m + o.more + 1) f.more }

/-- The fault that a core records. DEDUCED (log 101): the commands that other engines refuse at their heads, and the fetch that faults, are
faults of the same clock. An EXT_ABORT that finds one is no further fault. -/
def State.recorded (s : State) (n : Nat) (f : CoreFaultInfo) : CoreFaultInfo :=
  match f.cause, s.standing n f.engine with
  | .extAbort, [] => f
  | .extAbort, o :: os => rankFaults o os
  | _, os => rankFaults f os

/-! ## The stop (R111) -/

/-- What a stopped DMA engine leaves of its writes on their way: any set of them has reached home memory (R111). -/
def State.strayWrites (s : State) (n : Nat) : State :=
  let mine := s.core.accs.filter fun a => a.core == n
  let s1 : State := { s with core := { s.core with accs := s.core.accs.filter fun a => a.core != n } }
  let s2 := mine.foldl (fun s a => if s.fresh.1 % 2 = 1 then (match s.fresh.2.accumulate a with | some (t, _) => t | none => s.fresh.2) else s.fresh.2) s1
  ((s2.getCore n).drun.flatMap fun d => d.writes).foldl
    (fun s w => if s.fresh.1 % 2 = 1 then s.fresh.2.land w.addr w.data w.poisoned else s.fresh.2) s2

/-- What a stopped matrix or vector engine leaves of its current command: the head of its queue, where it could start, may have, and any set
of the granules that it writes is home (R111). -/
def State.strayGranules (s : State) (n : Nat) (e : Engine) : State :=
  let c := s.getCore n
  match c.queueOf e with
  | [] => s
  | h :: rest =>
    if (s.headBad n e h).isEmpty && c.waitMet e h && !s.power.stopped then
      let s1 := s.setCore n (c.takeHead e h rest)
      match e with
      | .matrix => s.partly (mxRun n h s1).1 (mxWritten n h)
      | .vector => s.partly (vRun n h s1).1 (vWritten c n h)
      | _ => s
    else s

/-- Stop a core that runs a task (R111, all but the record and the abort): buffered stores are written and held changes applied, the
engines drop what they hold, the fault state is written, a FAULT completion where due, and the core is idle. -/
def State.stopCore (s : State) (n : Nat) (f : CoreFaultInfo) : State :=
  let s1 := ((s.drain n (s.getCore n).sb.length).strayGranules n .matrix).strayGranules n .vector
  let s2 := s1.writeFaultState n f
  let s3 := s2.faultCompletion n (causeStatus f.cause)
  let s4 := s3.strayWrites n
  (s4.setCore n (s4.getCore n).idle).unwatch (.core n)

end Sys2Proof.Machine
end

