-- ==== Sys2Proof/Machine/Abort.lean ====
section
/-!
DEFINITION. Machine/Abort.lean: generation tags (R443, R444), the job abort (R445 to R448), and a core fault carried out (R111).
-/
namespace Sys2Proof.Machine

/-- Serial difference of two 16-bit course numbers (R42). -/
def diff16 (a b : Nat) : Int := serialDiff 16 a b

/-- Discard the outstanding-request records of a partition (R444). -/
def State.dropRecords (s : State) (p : Nat) : State :=
  { s with route := { s.route with
    gets := s.route.gets.filter fun g => g.part != p
    src := SMap.mapV {} (fun f => { f with unacked := f.unacked.filter fun u => u.part != p }) s.route.src } }

/-- Advance a partition's generation tag by 1 modulo 256; its records go (R443, R444). -/
def State.advanceGen (s : State) (p : Nat) : State :=
  (s.setF RST_PART.GEN p (s.gen p + 1)).dropRecords p

/-! ## Trigger slots (11) -/

def State.slot (s : State) (n : Nat) : SlotSt := SMap.get {} s.coll.slots n
def State.setSlot (s : State) (n : Nat) (x : SlotSt) : State := { s with coll := { s.coll with slots := SMap.put {} s.coll.slots n x } }

/-- The trigger slot states (COL_TRG_STAT.STATE). -/
def TS.idle : Nat := 0
def TS.armed : Nat := 1
def TS.handshake : Nat := 2
def TS.launched : Nat := 3
def TS.done : Nat := 4
def TS.fault : Nat := 5

/-- The job of a slot: that of its group's route set. -/
def State.slotJob (s : State) (n : Nat) : Nat := s.getF RTE_RSET_A.JOB (s.getF COL_GRP_A.RSET (s.getF COL_TRG.GROUP n))

/-- The slots that are neither IDLE nor in FAULT. -/
def State.liveSlots (s : State) : List Nat :=
  (s.regs.filter fun e => e.1 % 256 == Reg.num .COL_TRG_STAT && field e.2 0 3 != TS.idle && field e.2 0 3 != TS.fault).map fun e => e.1 / 256

/-- The slots of a job: those that hold an operation over a valid group of its route set, but for those in FAULT (R304). -/
def State.jobSlots (s : State) (job : Nat) : List Nat :=
  ((s.regs.filter fun e => e.1 % 256 == Reg.num .COL_TRG && e.1 / 256 % 8 == 0 && field e.2 0 4 != 0).map fun e => e.1 / 256 / 8).filter fun n =>
    s.slotJob n == job && s.flag COL_GRP_A.VALID (s.getF COL_TRG.GROUP n) && s.getF COL_TRG_STAT.STATE n != TS.fault

/-- The division box of a slot is done. -/
def State.dropFan (s : State) (n : Nat) : State :=
  { s with route := { s.route with fan := s.route.fan.filter fun e => e.1 / 32 % 4096 != n } }

/-- Move a slot to FAULT: its reservation, buffers and watch go (R304, R320). -/
def State.slotFault (s : State) (n status : Nat) : State :=
  ((((s.setF COL_TRG_STAT.STATE n TS.fault).setF COL_TRG_STAT.STATUS n status).setSlot n {}).unwatch (.trigger n)).dropFan n

/-! ## What R448 does on a module -/

/-- Step 1 at the sluice dies: packets not yet begun, slots, holds, records and ordering state of a job go. -/
def State.discardJob (s : State) (job : Nat) : State :=
  let keep : TxPkt → Bool := fun t => Pkt.job t.pkt != job
  let lost := (s.link.strands.flatMap fun (e : Nat × Strand) => e.2.tx.flatMap fun (q : Nat × List TxPkt) => q.2.filter fun t => !(keep t)) ++
    s.route.waiting.filter fun t => !(keep t)
  let strands := SMap.mapV {} (fun (x : Strand) => { x with tx := SMap.mapV [] (fun q => q.filter keep) x.tx }) s.link.strands
  let s0 : State := { s with
    link := { s.link with strands := strands }
    route := { s.route with waiting := s.route.waiting.filter keep } }
  let s1 := lost.foldl State.freeForward s0
  let s2 := (s1.jobSlots job).foldl (fun s n => s.slotFault n Status.jobAbort) s1
  let gone := s2.route.holds.filter fun h => Pkt.job h.pkt == job
  let s3 := (gone.filter fun h => h.parked).foldl (fun s h => s.consume h.vl h.die h.link h.pkt) s2
  { s3 with route := { s3.route with
    holds := s3.route.holds.filter fun h => Pkt.job h.pkt != job
    gets := s3.route.gets.filter fun g => g.job != job
    src := s3.route.src.filter fun e => e.1 / 2 ^ 24 != job
    dst := s3.route.dst.filter fun e => e.1 / 2 ^ 24 != job } }

/-- The enabled WORK queues of a partition. -/
def State.workQueues (s : State) (p : Nat) : List Nat :=
  (s.regs.filter fun e => e.1 % 256 == Reg.num .QM_CTX && (e.1 / 256) % 4 == 0 && bit e.2 0 && !(bit e.2 1) && field e.2 20 4 == p).map
    fun e => e.1 / 1024

/-- A core that runs a task faults: it stops, and the module writes the record of the cause, but for EXT_ABORT (R111, steps 1 to 4, the
abort left out). -/
def State.faultStop (s : State) (n : Nat) (f : CoreFaultInfo) : State :=
  let c := s.getCore n
  let r := s.recorded n f
  let s1 := s.stopCore n r
  match r.cause with
  | .extAbort => s1
  | cause =>
    let s2 := s1.record
      { status := causeStatus cause, source := Src.core n, sev := .partitionFatal,
        addr := (match cause with | .poison => some r.addr | _ => none), job := some (c.job, c.gen, c.part) }
    match cause with | .hw => s2.hwFault n | _ => s2

/-- Stop every core of a partition that runs a task, with cause EXT_ABORT. -/
def State.stopCores (s : State) (p : Nat) : State :=
  ((s.coresOf p).filter fun n => (s.getCore n).busy).foldl (fun s n => s.faultStop n (s.unraised n .extAbort)) s

/-- Flush a partition's WORK queues without completions; one in STATE FAULT stays there (R448). -/
def State.flushPart (s : State) (p : Nat) : State :=
  (s.workQueues p).foldl (fun s q => if s.getF QM_CTX.STATE q = QS.fault then s else s.flushQueue q false) s

/-- Step 2 for one partition. -/
def State.abortPart (s : State) (p : Nat) : State :=
  let s1 := ((s.advanceGen p).stopCores p).flushPart p
  (s1.slateList p).foldl State.batZero s1

/-- R448 on this module: the record's DETAIL word 4 carries the originator, F and FEPOCH. -/
def State.abortLocal (s : State) (job status fence : Nat) (fepoch : Bool) (origin : Nat) : State :=
  let s1 := (s.partsOf job).foldl State.abortPart (s.discardJob job)
  s1.record { status := status, source := Src.die 0, sev := .partitionFatal, job := some (s1.jobRef job),
              detail := origin + fence * 2 ^ 16 + b2n fepoch * 2 ^ 32 }

/-! ## The abort window (R447) -/

def State.abortWin (s : State) (job : Nat) : Option AbortWin := SMap.find? s.rst.aborts job

/-- The gauge at which course F, given by its low bits and epoch, ends, and that at which course F + 256 ends. -/
def State.fenceTimes (s : State) (fence : Nat) (fepoch : Bool) : Nat × Nat :=
  let k := if fepoch = s.epoch then s.k else s.getF CRS_CHG.K_PREV
  let c := s.time >>> k
  let full := (((c : Int) + diff16 fence (c % 65536)) % 2 ^ 64).toNat
  ((full + 1) * 2 ^ k % 2 ^ 64, (full + 257) * 2 ^ k % 2 ^ 64)

/-- RST_JOB of the job's route set, from its window. -/
def State.showAbort (s : State) (job : Nat) : State :=
  match s.rsetOf job, s.abortWin job with
  | some i, some w =>
    s.setReg .RST_JOB i (packW [(0, 1, 1), (1, 1, b2n (!w.ended)), (8, 8, w.status), (16, 16, w.fence), (32, 1, b2n w.epoch), (48, 16, w.origin)])
  | _, _ => s

/-- Hold an abort with a fence: enter the window, or keep its later fence. -/
def State.enterWindow (s : State) (job status fence : Nat) (fepoch : Bool) (origin cls : Nat) : State :=
  let (fe, we) := s.fenceTimes fence fepoch
  let w : AbortWin := match s.abortWin job with
    | none => { fence, epoch := fepoch, status, origin, cls, held := s.clock, ended := false, fenceEnd := fe, winEnd := we }
    | some w =>
      { fence, epoch := fepoch, status, origin, cls, held := w.held, ended := false, fenceEnd := gaugeMax w.fenceEnd fe,
        winEnd := gaugeMax w.winEnd we, all := w.all }
  ({ s with rst := { s.rst with aborts := SMap.insert s.rst.aborts job w } }).showAbort job

/-- A fence is later than that of a window; one of another epoch was set after a switch, so it is later. -/
def AbortWin.earlierThan (w : AbortWin) (fence : Nat) (fepoch : Bool) : Bool :=
  if w.epoch = fepoch then decide (diff16 fence w.fence > 0) else true

/-- Send ABORT on the links of the job's slice but one (R445, R446). -/
def State.sendAborts (s : State) (job status fence : Nat) (fepoch : Bool) (origin cls : Nat) (skip : Option Nat) : State :=
  match s.rsetOf job with
  | none => s
  | some i =>
    let arg := fence + status * 2 ^ 16 + cls * 2 ^ 24 + b2n fepoch * 2 ^ 28
    ((s.sliceLinks i).filter fun l => some l != skip).foldl
      (fun s l => s.sendLink l { type := PT.abort, job := job, dst := s.peerOf l, count := origin, arg := arg }) s

/-- Raise the job abort on this module (R445, steps 2 to 4); `cls` is the class of the cause's source. A raise whose fence is not later
than that of the window already open is absorbed. -/
def State.raiseAbort (s : State) (job status cls : Nat) : State :=
  let fence := (s.courseNo + 64) % 65536
  let due := match s.abortWin job with | some w => w.earlierThan fence s.epoch | none => true
  if job = 0 ∨ due = false then s
  else
    let s1 := s.enterWindow job status fence s.epoch s.epn cls
    let s2 := s1.abortLocal job status fence s.epoch s.epn
    s2.sendAborts job status fence s.epoch s.epn cls none

/-- Whether a packet of a job in its abort window is dropped (R447, R455). -/
def State.fenced (s : State) (p : Packet) : Bool :=
  match s.abortWin (Pkt.job p) with
  | none => false
  | some w =>
    w.all || (if Pkt.epoch p = w.epoch then decide (diff16 (Pkt.course p) w.fence ≤ 0) else s.epoch == w.epoch)

/-- A job injects nothing until its fence course has ended (R447). -/
def State.injectionHeld (s : State) (job : Nat) : Bool :=
  match s.abortWin job with | some w => !w.ended | none => false

/-! ## Core faults (R111) -/

/-- A core that runs a task faults: it stops, the module writes the record of the cause and raises the job abort; the last two but for
EXT_ABORT. -/
def State.takeFault (s : State) (n : Nat) (f : CoreFaultInfo) : State :=
  let c := s.getCore n
  if ¬ c.busy then s
  else
    let s1 := s.faultStop n f
    match (s.recorded n f).cause with
    | .extAbort => s1
    | _ => s1.raiseAbort c.job Status.jobAbort 3

/-- A precise fault of the instruction at the PC of the scalar unit (R110, R112): the cause of the highest priority is recorded and the
others are counted. -/
def State.scalarFault (s : State) (n : Nat) (causes : List FaultCause) (addr trap : Nat) : State :=
  match topCause causes with
  | none => s
  | some cause =>
    let pc := (s.getCore n).pc
    let shown := match cause with | .illegal => 0 | .trap => 0 | _ => addr
    s.takeFault n { cause := cause, precise := true, engine := .scalar, pc := pc, instr := s.wordAt n pc, trap := trap, addr := shown,
                    more := causes.length - 1 }

/-- A fault of an engine's command (R110). -/
def State.engineFault (s : State) (n : Nat) (e : Engine) (pc instr : Nat) (causes : List FaultCause) (addr : Nat) : State :=
  match topCause causes with
  | none => s
  | some cause =>
    s.takeFault n { cause := cause, precise := false, engine := e, pc := pc, instr := instr,
                    addr := (match cause with | .illegal => 0 | _ => addr), more := causes.length - 1 }

end Sys2Proof.Machine
end

