-- ==== Sys2Proof/Machine/Operands.lean ====
section
/-!
DEFINITION. Machine/Operands.lean: the instruction formats (R90 to R100), fetch from the instruction cache (R108), source and destination
registers, and the issue of an instruction (R98, R104).
-/
namespace Sys2Proof.Machine

/-! ## Instruction words (the table "Scalar instruction formats") -/

/-- RR: major, rd, rs1, rs2, function code. -/
def wordRR (major : Nat) (rd rs1 rs2 : BitVec 5) (func : BitVec 11) : Nat :=
  major * 2 ^ 26 + rd.toNat * 2 ^ 21 + rs1.toNat * 2 ^ 16 + rs2.toNat * 2 ^ 11 + func.toNat

/-- RI and B: major, two register fields, a 16-bit immediate. -/
def wordRI (major : Nat) (rd rs1 : BitVec 5) (imm : BitVec 16) : Nat :=
  major * 2 ^ 26 + rd.toNat * 2 ^ 21 + rs1.toNat * 2 ^ 16 + imm.toNat

/-- J: major, rd, a 21-bit immediate. -/
def wordJ (major : Nat) (rd : BitVec 5) (imm : BitVec 21) : Nat :=
  major * 2 ^ 26 + rd.toNat * 2 ^ 21 + imm.toNat

/-- Sign extension to 64 bits, zero extension to 64 bits. -/
def sext {n : Nat} (x : BitVec n) : Word := x.signExtend 64
def zext {n : Nat} (x : BitVec n) : Word := x.zeroExtend 64

/-! ## Fetch and issue -/

/-- An instruction as a row names it: its first word, the bits of that word which the row fixes, and the second word of a long form. -/
structure Fetch where
  word : Nat
  mask : Nat := 0xFFFF_FFFF
  second : Option Nat := none
  deriving DecidableEq, Repr

/-- The number of words of an instruction. -/
def Fetch.words (f : Fetch) : Nat := match f.second with | some _ => 2 | none => 1

/-- A long form stands at an address that is 4 modulo 8 (R90). -/
def Core.skewed (c : Core) (f : Fetch) : Bool := f.second.isSome && c.pc % 8 == 4

/-- The scalar unit of a core that runs a task, and waits on nothing, finds the instruction at its PC in the instruction cache (R108). -/
def Core.fetches (c : Core) (f : Fetch) : Bool :=
  c.busy && c.wait == Wait.none && decide (c.pc < scratchSize) &&
    (match c.cachedWord c.pc with | some w => (w &&& f.mask) == f.word | none => false) &&
    (match f.second with
     | some w => c.pc % 8 == 4 || c.cachedWord (c.pc + 4) == some w
     | none => true)

/-- The register that awaits a result. -/
def OutOp.dest : OutOp → Nat
  | .load rd .. => rd
  | .amo rd .. => rd
  | .btn rd .. => rd

/-- A register still awaits the result of a load, an AMO or a batten operation (R104). -/
def Core.awaits (c : Core) (r : BitVec 5) : Bool := r != 0 && c.out.any fun o => o.op.dest == r.toNat

/-- Every byte of a load stands in stores of the buffer that come before it. -/
def Core.forwards (c : Core) (before a size : Nat) : Bool :=
  (upFrom a size).all fun x =>
    c.sb.any fun i => match i with | .store so sa sz _ => decide (so < before) && decide (sa ≤ x) && decide (x < sa + sz) | _ => false

/-- The decoded fill of an AMO's granule: on a cistern a merge fill, which allocates its entry where none lives (R352, R353); a poisoned granule
read is counted. -/
def State.fillAmo (s : State) (a : Nat) : State :=
  let g := a / 64 * 64
  if region a == .cistern then
    let s1 := s.noteDecode g 3
    let s2 := if s1.poisoned g then s1.bump ECC_CIS_STAT.POISON_RD (s1.locate g).1 else s1
    (s2.eraseRaw g).mergeWrite g 0 0 false
  else (s.noteDecode g 1).eraseRaw g

/-- An outstanding load or AMO is going to find poison (R359). -/
def State.doomed (s : State) (c : Core) (o : Outst) : Bool :=
  match o.op with
  | .load _ a size _ _ none => region a != .control && !(c.forwards o.ord a size) && (s.noteRead a size).poisoned a
  | .amo _ a _ _ _ => (s.fillAmo a).poisoned a
  | _ => false

/-- An instruction before a place in program order is going to fault with cause POISON: what comes after it has no effect (R110). -/
def State.doomedBefore (s : State) (c : Core) (ord : Nat) : Bool := c.out.any fun o => decide (o.ord < ord) && s.doomed c o

/-- The fetch at the PC faults (R92, R108). -/
def State.takeFetchFault (s : State) (n : Nat) : State :=
  match s.fetchFault? n with
  | some f => s.takeFault n f
  | none => s

/-- Issue an instruction: nothing where it is not the one at the PC, unless the fetch there faults; a fault with cause ILLEGAL where a field
it fixes is wrong (R91), a stall where one of its registers awaits a result (R104) or an earlier load or AMO is going to fault (R110), and
else its effect. Stopped clocks run nothing (R373). -/
def State.issue (s : State) (n : Nat) (f : Fetch) (regs : List (BitVec 5)) (legal : Bool) (run : Core → State) : State :=
  let c := s.getCore n
  if s.power.stopped || s.doomedBefore c c.ids then s
  else if c.fetches f then
    if legal && !(c.skewed f) then (if regs.any c.awaits then s else run c)
    else s.scalarFault n [.illegal] 0 0
  else s.takeFetchFault n

/-- Issue an instruction that changes its core only, and retire it. -/
def State.issueCore (s : State) (n : Nat) (f : Fetch) (regs : List (BitVec 5)) (legal : Bool) (cost : Nat) (run : Core → Core) : State :=
  s.issue n f regs legal fun c => s.setCore n ((run c).retire f.words cost)

/-- The core goes to a target (R92); the PC is kept whole, since one at or past the end of scratch is a FETCH fault (R108). -/
def Core.goto (c : Core) (target : Word) (cost : Nat) : Core :=
  { c.retire 0 cost with pc := target.toNat }

/-- The address after the instruction at the PC. -/
def Core.nextPc (c : Core) : Word := BitVec.ofNat 64 (c.pc + 4)

/-- The target of a branch or jump: the instruction's own address plus 4 times the offset in words (the section "Instruction formats"). -/
def Core.target {n : Nat} (c : Core) (off : BitVec n) : Word := BitVec.ofNat 64 c.pc + 4 * sext off

/-! ## The store buffer as loads see it (R180) -/

/-- A byte with the stores of the buffer that come before a place in program order laid over it. -/
def Core.overlayByte (c : Core) (before a : Nat) (b : Byte) : Byte :=
  c.sb.foldl (fun b i => match i with
    | .store o sa size d => if o < before ∧ sa ≤ a ∧ a < sa + size then BitVec.ofNat 8 (d.toNat >>> (8 * (a - sa))) else b
    | _ => b) b

/-- The same of the bytes from an address up. -/
def Core.overlayOn (c : Core) (before a : Nat) (bs : List Byte) : List Byte :=
  ((upFrom a bs.length).zip bs).map fun e => c.overlayByte before e.1 e.2

def State.overlay (s : State) (c : Core) (before a n : Nat) : List Byte := c.overlayOn before a (s.bytes a n)

end Sys2Proof.Machine
end

