-- ==== Sys2Proof/Machine/Flags.lean ====
section
/-!
DEFINITION. Machine/Flags.lean: scalar arithmetic (R93, R94), the conditions of compares and branches, and predicate logic (R92).
-/
namespace Sys2Proof.Machine

/-- Bits set, leading zeros and trailing zeros of a word. -/
def popCount (a : Word) : Nat := ((upFrom 0 64).filter fun i => bit a i).length
def leadingZeros (a : Word) : Nat := if a = 0 then 64 else 63 - Nat.log2 a.toNat
def trailingZeros (a : Word) : Nat := ((upFrom 0 64).find? fun i => bit a i).getD 64

/-- The signed quotient, truncated; by zero it is all ones (R94). -/
def quotS (a b : Word) : Word := if b = 0 then BitVec.allOnes 64 else a.sdiv b
/-- The unsigned quotient; by zero it is all ones. -/
def quotU (a b : Word) : Word := if b = 0 then BitVec.allOnes 64 else a / b
/-- The remainders; by zero they are the dividend. -/
def remS (a b : Word) : Word := if b = 0 then a else a.srem b
def remU (a b : Word) : Word := if b = 0 then a else a % b

/-- The ALU function codes (R93); none is a reserved code. -/
def aluFn (f : Nat) (a b : Word) : Option Word :=
  match f with
  | 0x000 => some (a + b)
  | 0x001 => some (a - b)
  | 0x002 => some (a &&& b)
  | 0x003 => some (a ||| b)
  | 0x004 => some (a ^^^ b)
  | 0x005 => some (a &&& ~~~b)
  | 0x006 => some (a <<< (b.toNat % 64))
  | 0x007 => some (a >>> (b.toNat % 64))
  | 0x008 => some (a.sshiftRight (b.toNat % 64))
  | 0x009 => some (if a.slt b then 1 else 0)
  | 0x00A => some (if a.ult b then 1 else 0)
  | 0x00B => some (if a.slt b then a else b)
  | 0x00C => some (if a.slt b then b else a)
  | 0x00D => some (if a.ult b then a else b)
  | 0x00E => some (if a.ult b then b else a)
  | 0x010 => some (a * b)
  | 0x011 => some (BitVec.ofInt 64 ((a.toInt * b.toInt) / 2 ^ 64))
  | 0x012 => some (BitVec.ofNat 64 ((a.toNat * b.toNat) / 2 ^ 64))
  | 0x014 => some (quotS a b)
  | 0x015 => some (quotU a b)
  | 0x016 => some (remS a b)
  | 0x017 => some (remU a b)
  | 0x018 => some (BitVec.ofNat 64 (leadingZeros a))
  | 0x019 => some (BitVec.ofNat 64 (trailingZeros a))
  | 0x01A => some (BitVec.ofNat 64 (popCount a))
  | _ => none

/-- The function code is defined, and rs2 is zero where the code takes one operand. -/
def aluLegal (f : Nat) (rs2 : BitVec 5) : Bool := (aluFn f 0 0).isSome && (decide (f < 0x018) || rs2 == 0)

/-- SHIFTI: the kind of func[7:6] by the amount of func[5:0]; the fourth kind is reserved. -/
def shiftFn (func : BitVec 11) (a : Word) : Option Word :=
  let amount := field func 0 6
  match field func 6 2 with
  | 0 => some (a <<< amount)
  | 1 => some (a >>> amount)
  | 2 => some (a.sshiftRight amount)
  | _ => none

/-- The conditions EQ, NE, LT, GE, LTU, GEU. -/
def cond (f : Nat) (a b : Word) : Bool :=
  match f with
  | 0 => a == b
  | 1 => a != b
  | 2 => a.slt b
  | 3 => !(a.slt b)
  | 4 => a.ult b
  | _ => !(a.ult b)

/-- The PLOG codes that combine two predicates. -/
def plogFn (f : Nat) (a b : Bool) : Bool :=
  match f with
  | 0 => a && b
  | 1 => a || b
  | 2 => a != b
  | 3 => a && !b
  | _ => !a

/-- A register field that names a predicate: its bits [4:3] are zero. -/
def isPred (r : BitVec 5) : Bool := r.toNat < 8

/-- PLOG: the code is defined and the fields it does not use are zero. -/
def plogLegal (f : Nat) (rd rs1 rs2 : BitVec 5) : Bool :=
  if f ≤ 4 then isPred rd && isPred rs1 && isPred rs2 && (f != 4 || rs2 == 0)
  else if f = 0x010 then rs1 == 0 && rs2 == 0
  else if f = 0x011 then rd == 0 && rs2 == 0
  else false

/-- The predicates as a number: p7 to p0, p0 reading 1. -/
def Core.preds (c : Core) : Nat := (c.p ||| 1).toNat

end Sys2Proof.Machine
end

