-- ==== Sys2Proof/Machine/Scalar.lean ====
section
/-!
DEFINITION. Machine/Scalar.lean: the scalar instructions that stay within their core (R87 to R100): arithmetic, predicates, jumps and
branches, control words, event flags, SYS and LIMM.
-/
namespace Sys2Proof.Machine

/-! ## Arithmetic (R92 to R94) -/

def execAlu (core : CoreId) (rd rs1 rs2 : BitVec 5) (func : BitVec 11) (s : State) : Host.Outcome State Fault Refusal :=
  .next (s.issueCore core.toNat { word := wordRR 0x00 rd rs1 rs2 func } [rd, rs1, rs2] (aluLegal func.toNat rs2) 1 fun c =>
    c.setS rd.toNat ((aluFn func.toNat (c.sreg rs1.toNat) (c.sreg rs2.toNat)).getD 0))

/-- An RI instruction that writes rd with a function of rs1. -/
def State.issueRI (s : State) (n major : Nat) (rd rs1 : BitVec 5) (imm : BitVec 16) (f : Word → Word) : State :=
  s.issueCore n { word := wordRI major rd rs1 imm } [rd, rs1] true 1 fun c => c.setS rd.toNat (f (c.sreg rs1.toNat))

def execAddi (core : CoreId) (rd rs1 : BitVec 5) (imm : BitVec 16) (s : State) : Host.Outcome State Fault Refusal :=
  .next (s.issueRI core.toNat 0x01 rd rs1 imm fun a => a + sext imm)

def execAndi (core : CoreId) (rd rs1 : BitVec 5) (imm : BitVec 16) (s : State) : Host.Outcome State Fault Refusal :=
  .next (s.issueRI core.toNat 0x02 rd rs1 imm fun a => a &&& zext imm)

def execOri (core : CoreId) (rd rs1 : BitVec 5) (imm : BitVec 16) (s : State) : Host.Outcome State Fault Refusal :=
  .next (s.issueRI core.toNat 0x03 rd rs1 imm fun a => a ||| zext imm)

def execXori (core : CoreId) (rd rs1 : BitVec 5) (imm : BitVec 16) (s : State) : Host.Outcome State Fault Refusal :=
  .next (s.issueRI core.toNat 0x04 rd rs1 imm fun a => a ^^^ zext imm)

def execShifti (core : CoreId) (rd rs1 rs2 : BitVec 5) (func : BitVec 11) (s : State) : Host.Outcome State Fault Refusal :=
  .next (s.issueCore core.toNat { word := wordRR 0x05 rd rs1 rs2 func } [rd, rs1]
    (decide (func.toNat < 0xC0) && rs2 == 0) 1 fun c =>
    c.setS rd.toNat ((shiftFn func (c.sreg rs1.toNat)).getD 0))

def execSlti (core : CoreId) (rd rs1 : BitVec 5) (imm : BitVec 16) (s : State) : Host.Outcome State Fault Refusal :=
  .next (s.issueRI core.toNat 0x06 rd rs1 imm fun a => if a.slt (sext imm) then 1 else 0)

def execLui (core : CoreId) (rd rs1 : BitVec 5) (imm : BitVec 16) (s : State) : Host.Outcome State Fault Refusal :=
  .next (s.issueCore core.toNat { word := wordRI 0x07 rd rs1 imm } [rd] (rs1 == 0) 1 fun c =>
    c.setS rd.toNat (sext imm <<< 16))

def execShin (core : CoreId) (rd rs1 : BitVec 5) (imm : BitVec 16) (s : State) : Host.Outcome State Fault Refusal :=
  .next (s.issueRI core.toNat 0x08 rd rs1 imm fun a => (a <<< 16) ||| zext imm)

def execSel (core : CoreId) (rd rs1 rs2 : BitVec 5) (func : BitVec 11) (s : State) : Host.Outcome State Fault Refusal :=
  .next (s.issueCore core.toNat { word := wordRR 0x2C rd rs1 rs2 func } [rd, rs1, rs2] (decide (func.toNat < 8)) 1 fun c =>
    c.setS rd.toNat (if c.pred func.toNat then c.sreg rs1.toNat else c.sreg rs2.toNat))

/-- LIMM (R100): its own layout, and two words. -/
def execLimm (core : CoreId) (pred : BitVec 3) (rd : BitVec 5) (mbz : BitVec 2) (imm : BitVec 48) (s : State) :
    Host.Outcome State Fault Refusal :=
  let w0 := 0x3C * 2 ^ 26 + pred.toNat * 2 ^ 23 + mbz.toNat * 2 ^ 21 + field imm 32 16 * 2 ^ 5 + rd.toNat
  .next (s.issueCore core.toNat { word := w0, second := some (field imm 0 32) } [rd] (mbz == 0) 1 fun c =>
    if c.pred pred.toNat then c.setS rd.toNat (sext imm) else c)

/-! ## Predicates (R92) -/

def execCmp (core : CoreId) (rd rs1 rs2 : BitVec 5) (func : BitVec 11) (s : State) : Host.Outcome State Fault Refusal :=
  let f := field func 0 3
  .next (s.issueCore core.toNat { word := wordRR 0x09 rd rs1 rs2 func } [rs1, rs2]
    (isPred rd && decide (func.toNat < 64) && decide (f < 6)) 1 fun c =>
    c.setP rd.toNat (cond f (c.sreg rs1.toNat) (c.sreg rs2.toNat) && c.pred (field func 3 3)))

def execCmpi (core : CoreId) (rd rs1 : BitVec 5) (imm : BitVec 16) (s : State) : Host.Outcome State Fault Refusal :=
  .next (s.issueCore core.toNat { word := wordRI 0x0A rd rs1 imm } [rs1] true 1 fun c =>
    c.setP (field rd 0 3) (cond (field rd 3 2) (c.sreg rs1.toNat) (sext imm)))

/-- Write p1 to p7 from the low byte of a word (PLOG STOP). -/
def Core.setPreds (c : Core) (v : Word) : Core := { c with p := BitVec.ofNat 8 v.toNat ||| 1 }

def execPlog (core : CoreId) (rd rs1 rs2 : BitVec 5) (func : BitVec 11) (s : State) : Host.Outcome State Fault Refusal :=
  let f := func.toNat
  let regs := if f = 0x010 then [rd] else if f = 0x011 then [rs1] else []
  .next (s.issueCore core.toNat { word := wordRR 0x0B rd rs1 rs2 func } regs (plogLegal f rd rs1 rs2) 1 fun c =>
    if f = 0x010 then c.setS rd.toNat (BitVec.ofNat 64 c.preds)
    else if f = 0x011 then c.setPreds (c.sreg rs1.toNat)
    else c.setP rd.toNat (plogFn f (c.pred rs1.toNat) (c.pred rs2.toNat)))

/-! ## Jumps and branches (R92, R95) -/

def execJal (core : CoreId) (rd : BitVec 5) (imm : BitVec 21) (s : State) : Host.Outcome State Fault Refusal :=
  let n := core.toNat
  .next (s.issue n { word := wordJ 0x1B rd imm } [rd] true fun c =>
    s.setCore n ((c.setS rd.toNat c.nextPc).goto (c.target imm) 3))

def execJalr (core : CoreId) (rd rs1 : BitVec 5) (imm : BitVec 16) (s : State) : Host.Outcome State Fault Refusal :=
  let n := core.toNat
  .next (s.issue n { word := wordRI 0x1C rd rs1 imm } [rd, rs1] true fun c =>
    let t := c.sreg rs1.toNat + sext imm
    if t.toNat % 4 = 0 then s.setCore n ((c.setS rd.toNat c.nextPc).goto t 3)
    else s.scalarFault n [.align] t.toNat 0)

/-- A branch on a condition of its core. -/
def State.branch (s : State) (n major : Nat) (ra rb : BitVec 5) (off : BitVec 16) (regs : List (BitVec 5)) (legal : Bool)
    (taken : Core → Bool) : State :=
  s.issue n { word := wordRI major ra rb off } regs legal fun c =>
    s.setCore n (if taken c then c.goto (c.target off) 3 else c.retire 1 1)

/-- A branch on a comparison of two registers. -/
def State.branchCond (s : State) (n major f : Nat) (ra rb : BitVec 5) (off : BitVec 16) : State :=
  s.branch n major ra rb off [ra, rb] true fun c => cond f (c.sreg ra.toNat) (c.sreg rb.toNat)

def execBeq (core : CoreId) (ra rb : BitVec 5) (off : BitVec 16) (s : State) : Host.Outcome State Fault Refusal :=
  .next (s.branchCond core.toNat 0x1D 0 ra rb off)
def execBne (core : CoreId) (ra rb : BitVec 5) (off : BitVec 16) (s : State) : Host.Outcome State Fault Refusal :=
  .next (s.branchCond core.toNat 0x1E 1 ra rb off)
def execBlt (core : CoreId) (ra rb : BitVec 5) (off : BitVec 16) (s : State) : Host.Outcome State Fault Refusal :=
  .next (s.branchCond core.toNat 0x1F 2 ra rb off)
def execBge (core : CoreId) (ra rb : BitVec 5) (off : BitVec 16) (s : State) : Host.Outcome State Fault Refusal :=
  .next (s.branchCond core.toNat 0x20 3 ra rb off)
def execBltu (core : CoreId) (ra rb : BitVec 5) (off : BitVec 16) (s : State) : Host.Outcome State Fault Refusal :=
  .next (s.branchCond core.toNat 0x21 4 ra rb off)
def execBgeu (core : CoreId) (ra rb : BitVec 5) (off : BitVec 16) (s : State) : Host.Outcome State Fault Refusal :=
  .next (s.branchCond core.toNat 0x22 5 ra rb off)

def execBp (core : CoreId) (ra rb : BitVec 5) (off : BitVec 16) (s : State) : Host.Outcome State Fault Refusal :=
  .next (s.branch core.toNat 0x23 ra rb off [] (!(bit ra 3) && rb == 0) fun c => c.pred (field ra 0 3) != bit ra 4)

/-! ## Control words (R89) -/

/-- The site of a logical core (R84). -/
def State.siteOf (s : State) (n : Nat) : Nat := ((s.sites (n / 128))[n % 128]?).getD 0

/-- cw.TASK (the table "cw.TASK"). -/
def Core.taskWord (c : Core) : Nat :=
  match c.task with | some t => t.taskId + t.queue * 2 ^ 32 + t.prio * 2 ^ 52 | none => 0

/-- The value of a control word as `CWR` reads it; none is an index that the table does not list. cw.CYCLE is read by `execCwr`. -/
def State.controlWord (s : State) (n : Nat) (c : Core) (i : Nat) : Option Nat :=
  match i with
  | 0x000 => some (n + (n / 128) * 2 ^ 12 + (n % 128) * 2 ^ 16 + s.siteOf n * 2 ^ 24 + (n / 512) * 2 ^ 32)
  | 0x001 => some (c.job + c.gen * 2 ^ 16 + c.part * 2 ^ 24)
  | 0x002 => some (s.reg .TOP_MSIZE).toNat
  | 0x003 => some s.time
  | 0x004 => some s.courseNo
  | 0x005 => some c.cycle.toNat
  | 0x006 => some c.retired.toNat
  | 0x007 => some ((32 - c.mq.length) + (32 - c.vq.length) * 2 ^ 8 + (64 - c.dq.length) * 2 ^ 16)
  | 0x008 => some c.nstat.toNat
  | 0x009 => some c.srseed.toNat
  | 0x00A => some c.srtile.toNat
  | 0x00B => some c.phase.toNat
  | 0x00C => some c.view.toNat
  | 0x00D => some c.preds
  | 0x00E => some c.taskWord
  | _ => none

/-- CWR. The clocks that a task has spent in stalls are open: a read of cw.CYCLE first adds a free number of them to those that the
issue costs give (R105). -/
def execCwr (core : CoreId) (rd rs1 rs2 : BitVec 5) (func : BitVec 11) (s : State) : Host.Outcome State Fault Refusal :=
  let n := core.toNat
  .next (s.issue n { word := wordRR 0x24 rd rs1 rs2 func } [rd]
    (rs1 == 0 && rs2 == 0 && (s.controlWord n (s.getCore n) func.toNat).isSome) fun c =>
    if func.toNat = 0x005 then
      let (x, s1) := s.fresh
      let c1 := { c with cycle := c.cycle + BitVec.ofNat 64 x }
      s1.setCore n ((c1.setS rd.toNat c1.cycle).retire 1 1)
    else s.setCore n ((c.setS rd.toNat (BitVec.ofNat 64 ((s.controlWord n c func.toNat).getD 0))).retire 1 1))

/-- CWW: NSTAT is W1C, SRSEED, SRTILE and PHASE are RW, every other word is read only. -/
def Core.writeControl (c : Core) (i : Nat) (v : Word) : Core :=
  match i with
  | 0x008 => { c with nstat := c.nstat &&& ~~~(BitVec.ofNat 4 v.toNat) }
  | 0x009 => { c with srseed := v }
  | 0x00A => { c with srtile := BitVec.ofNat 64 (field v 0 32) }
  | 0x00B => { c with phase := BitVec.ofNat 8 v.toNat }
  | _ => c

def execCww (core : CoreId) (rd rs1 rs2 : BitVec 5) (func : BitVec 11) (s : State) : Host.Outcome State Fault Refusal :=
  .next (s.issueCore core.toNat { word := wordRR 0x25 rd rs1 rs2 func } [rs1]
    (rd == 0 && rs2 == 0 && decide (func.toNat ≤ 0x00E)) 1 fun c => c.writeControl func.toNat (c.sreg rs1.toNat))

/-! ## Event flags and FENCE (R92, R106, R184, R188) -/

/-- EWAIT. DESIGN CHOICE (log 101): imm16 = 0, which the table forbids without naming a cause, faults with cause ILLEGAL as a field that R91
speaks of does. -/
def execEwait (core : CoreId) (rd rs1 : BitVec 5) (imm : BitVec 16) (s : State) : Host.Outcome State Fault Refusal :=
  let n := core.toNat
  .next (s.issue n { word := wordRI 0x26 rd rs1 imm } [] (decide (rd.toNat < 4) && rs1 == 0 && imm != 0) fun c =>
    s.setCore n ({ c with wait := .ewait imm (bit rd 0) (bit rd 1) }).settle)

def execEset (core : CoreId) (rd rs1 : BitVec 5) (imm : BitVec 16) (s : State) : Host.Outcome State Fault Refusal :=
  .next (s.issueCore core.toNat { word := wordRI 0x27 rd rs1 imm } [] (rd == 0 && rs1 == 0) 1 fun c =>
    if c.sb.isEmpty then { c with e := c.e ||| imm } else { c with sb := c.sb ++ [SbItem.eset c.ids imm] })

def execEclr (core : CoreId) (rd rs1 : BitVec 5) (imm : BitVec 16) (s : State) : Host.Outcome State Fault Refusal :=
  .next (s.issueCore core.toNat { word := wordRI 0x28 rd rs1 imm } [] (rd == 0 && rs1 == 0) 1 fun c => c.clearFlags imm)

def execEtst (core : CoreId) (rd rs1 : BitVec 5) (imm : BitVec 16) (s : State) : Host.Outcome State Fault Refusal :=
  .next (s.issueCore core.toNat { word := wordRI 0x29 rd rs1 imm } [] (isPred rd && rs1 == 0) 1 fun c =>
    (c.setP rd.toNat ((c.view &&& imm) != 0)).dropReadCache)

def execFence (core : CoreId) (rd rs1 rs2 : BitVec 5) (func : BitVec 11) (s : State) : Host.Outcome State Fault Refusal :=
  let n := core.toNat
  .next (s.issue n { word := wordRR 0x1A rd rs1 rs2 func } []
    (decide (func.toNat < 32) && rd == 0 && rs1 == 0 && rs2 == 0) fun c =>
    s.setCore n ({ c with wait := .fence func.toNat }).settle)

/-! ## SYS (R92, R109, R110, R114) -/

/-- A SYS instruction: its function code stands in bits [10:0] and, where it takes one, rs1 in [20:16]; no rule fixes the other bits. -/
def sysFetch (func : Nat) : Fetch := { word := 0x2B * 2 ^ 26 + func, mask := 0xFC00_07FF }
def sysFetch1 (func : Nat) (rs1 : BitVec 5) : Fetch := { word := 0x2B * 2 ^ 26 + rs1.toNat * 2 ^ 16 + func, mask := 0xFC1F_07FF }

def execSysNop (core : CoreId) (s : State) : Host.Outcome State Fault Refusal :=
  .next (s.issueCore core.toNat (sysFetch 0) [] true 1 fun c => c)

/-- SYS.DONE stalls until the queues, the engines and the store buffer are empty; TASK_FINISH then ends the task. -/
def execSysDone (core : CoreId) (rs1 : BitVec 5) (s : State) : Host.Outcome State Fault Refusal :=
  let n := core.toNat
  .next (s.issue n (sysFetch1 1 rs1) [rs1] true fun c =>
    s.setCore n { c with wait := .done (field (c.sreg rs1.toNat) 0 8) })

def execSysTrap (core : CoreId) (rs1 : BitVec 5) (s : State) : Host.Outcome State Fault Refusal :=
  let n := core.toNat
  .next (s.issue n (sysFetch1 2 rs1) [rs1] true fun c => s.scalarFault n [.trap] 0 (field (c.sreg rs1.toNat) 0 16))

def execSysIinv (core : CoreId) (s : State) : Host.Outcome State Fault Refusal :=
  .next (s.issueCore core.toNat (sysFetch 3) [] true 4 fun c => { c with icache := [] })

/-! ## Instruction cache and faults (R108, R111) -/

/-- A miss at the PC fills its line from scratch and prefetches the next (R108), which is also prefetched behind a line that was there; a fetch
of a poisoned granule faults with cause POISON (R359), and a poisoned line is not prefetched. -/
def execIcacheFill (core : CoreId) (line : BitVec 15) (s : State) : Host.Outcome State Fault Refusal :=
  let n := core.toNat
  let l := line.toNat
  let c := s.getCore n
  let prefetch : State → Nat → State := fun s l =>
    if l < 2 ^ 15 ∧ (SMap.find? (s.getCore n).icache l).isNone ∧ ¬ s.poisoned (scratchOf n + 64 * l) then s.fillInstr n l else s
  .next (
    if s.power.stopped ∨ ¬ c.busy then s
    else if l = c.pc / 64 + 1 ∧ (SMap.find? c.icache (c.pc / 64)).isSome then prefetch s l
    else if c.pc / 64 ≠ l ∨ (SMap.find? c.icache l).isSome then s
    else if s.poisoned (scratchOf n + 64 * l) then s.scalarFault n [.poison] (scratchOf n + 64 * l) 0
    else prefetch (s.fillInstr n l) (l + 1))

/-- The long form of the command that the matrix or vector engine runs, or would take next. -/
def Core.engineCmd (c : Core) (e : Engine) : Option (Nat × Nat) :=
  let head := fun (q : List QEntry) => q.head?.map fun h => (h.pc, h.instr)
  match e with
  | .scalar => none
  | .matrix => match c.mrun.head? with | some r => some (r.pc, r.instr) | none => head c.mq
  | .vector => match c.vrun.head? with | some r => some (r.pc, r.instr) | none => head c.vq
  | .dma => none

/-- A fault of a core that no instruction's own row raises (R110 to R113): HW of any unit, which records the first word at the PC and ADDR 0,
where a command queue counts as the scalar unit; TIMEOUT of a task at its limit; EXT_ABORT while the job is in its abort window; and for any
other cause the fault that stands at the unit: the fetch at the PC, or the refused head of its queue. MORE counts the `later` faults that arise
while the core carries out R111 too (R112). -/
def execCoreFault (core : CoreId) (cause : FaultCause) (engine : Engine) (later : Nat) (s : State) : Host.Outcome State Fault Refusal :=
  let n := core.toNat
  let c := s.getCore n
  let take := fun (f : CoreFaultInfo) => s.takeFault n { f with more := f.more + later }
  .next (match cause with
    | .hw =>
      (match c.engineCmd engine with
       | some (pc, _) => take { cause := .hw, precise := false, engine := engine, pc := pc, instr := s.wordAt n pc }
       | none => take { s.unraised n .hw with engine := if engine = .dma then .scalar else engine })
    | .timeout => (match c.task with | some t => if t.courses ≥ t.limit then take (s.unraised n .timeout) else s | none => s)
    | .extAbort => if (s.abortWin c.job).isSome then take (s.unraised n .extAbort) else s
    | cause => (match s.standingAt n engine with | some f => if f.cause = cause then take f else s | none => s))

end Sys2Proof.Machine
end

