-- ==== Sys2Proof/Machine/Access.lean ====
section
/-!
DEFINITION. Machine/Access.lean: scalar loads, stores and atomics (R95, R96, R178 to R182), the return of results (R105), the draining of
the store buffer (R180, R184), batten instructions (R208) and the issue of long forms (R98, R99).
-/
namespace Sys2Proof.Machine

/-! ## Loads, stores and atomics at issue -/

/-- An access addresses the granule of another. -/
def sameGranule (a b : Nat) : Bool := a / 64 == b / 64

/-- The address that a load or AMO names. -/
def OutOp.granule? : OutOp → Option Nat
  | .load _ a _ _ _ _ => some a
  | .amo _ a _ _ _ => some a
  | .btn .. => none

/-- The value that a load which hits the read cache takes: the line is there, and no earlier load or AMO to its granule is outstanding. -/
def Core.cacheHit (c : Core) (a size : Nat) (vol : Bool) : Option Word :=
  if vol || !(c.rcacheEn) || !(cacheable a) || c.out.any (fun o => match o.op.granule? with | some b => sameGranule a b | none => false) then none
  else (SMap.find? c.rcache (a / 64)).map fun l => BitVec.ofNat 64 (field l (8 * (a % 64)) (8 * size))

/-- Issue a load (R95, R104): it takes one of eight places until its result returns. -/
def State.issueLoad (s : State) (n major size : Nat) (signed vol : Bool) (rd rs1 : BitVec 5) (imm : BitVec 16) : State :=
  s.issue n { word := wordRI major rd rs1 imm } [rd, rs1] true fun c =>
    let a := (c.sreg rs1.toNat + sext imm).toNat
    if c.loads.length ≥ 8 then s
    else match s.accessFaults c a size false with
      | [] =>
        let o : Outst := ⟨c.ids, c.pc, wordRI major rd rs1 imm, .load rd.toNat a size signed vol (c.cacheHit a size vol)⟩
        s.setCore n ({ c with out := c.out ++ [o] }.retire 1 1)
      | causes => s.scalarFault n causes a 0

def execLdD (core : CoreId) (rd rs1 : BitVec 5) (imm : BitVec 16) (s : State) : Host.Outcome State Fault Refusal :=
  .next (s.issueLoad core.toNat 0x0C 8 false false rd rs1 imm)
def execLdW (core : CoreId) (rd rs1 : BitVec 5) (imm : BitVec 16) (s : State) : Host.Outcome State Fault Refusal :=
  .next (s.issueLoad core.toNat 0x0D 4 true false rd rs1 imm)
def execLdWu (core : CoreId) (rd rs1 : BitVec 5) (imm : BitVec 16) (s : State) : Host.Outcome State Fault Refusal :=
  .next (s.issueLoad core.toNat 0x0E 4 false false rd rs1 imm)
def execLdH (core : CoreId) (rd rs1 : BitVec 5) (imm : BitVec 16) (s : State) : Host.Outcome State Fault Refusal :=
  .next (s.issueLoad core.toNat 0x0F 2 true false rd rs1 imm)
def execLdHu (core : CoreId) (rd rs1 : BitVec 5) (imm : BitVec 16) (s : State) : Host.Outcome State Fault Refusal :=
  .next (s.issueLoad core.toNat 0x10 2 false false rd rs1 imm)
def execLdB (core : CoreId) (rd rs1 : BitVec 5) (imm : BitVec 16) (s : State) : Host.Outcome State Fault Refusal :=
  .next (s.issueLoad core.toNat 0x11 1 true false rd rs1 imm)
def execLdBu (core : CoreId) (rd rs1 : BitVec 5) (imm : BitVec 16) (s : State) : Host.Outcome State Fault Refusal :=
  .next (s.issueLoad core.toNat 0x12 1 false false rd rs1 imm)
def execLdvD (core : CoreId) (rd rs1 : BitVec 5) (imm : BitVec 16) (s : State) : Host.Outcome State Fault Refusal :=
  .next (s.issueLoad core.toNat 0x17 8 false true rd rs1 imm)
def execLdvW (core : CoreId) (rd rs1 : BitVec 5) (imm : BitVec 16) (s : State) : Host.Outcome State Fault Refusal :=
  .next (s.issueLoad core.toNat 0x18 4 false true rd rs1 imm)

/-- The stores of the store buffer. -/
def Core.stores (c : Core) : List SbItem := c.sb.filter fun i => match i with | .store .. => true | _ => false

/-- Write bytes into a cached line (R178: the cache is write-through). -/
def Core.writeLine (c : Core) (a size : Nat) (d : Word) : Core :=
  match SMap.find? c.rcache (a / 64) with
  | some l => { c with rcache := SMap.insert c.rcache (a / 64) (BitVec.ofNat 512 (natSetField l.toNat (8 * (a % 64)) (8 * size) d.toNat)) }
  | none => c

/-- Issue a store (R95, R180): it takes one of the eight entries of the store buffer. -/
def State.issueStore (s : State) (n major size : Nat) (rd rs1 : BitVec 5) (imm : BitVec 16) : State :=
  s.issue n { word := wordRI major rd rs1 imm } [rd, rs1] true fun c =>
    let a := (c.sreg rs1.toNat + sext imm).toNat
    if c.stores.length ≥ 8 then s
    else match s.accessFaults c a size false with
      | [] => s.setCore n ({ c.writeLine a size (c.sreg rd.toNat) with sb := c.sb ++ [SbItem.store c.ids a size (c.sreg rd.toNat)] }.retire 1 1)
      | causes => s.scalarFault n causes a 0

def execStD (core : CoreId) (rd rs1 : BitVec 5) (imm : BitVec 16) (s : State) : Host.Outcome State Fault Refusal :=
  .next (s.issueStore core.toNat 0x13 8 rd rs1 imm)
def execStW (core : CoreId) (rd rs1 : BitVec 5) (imm : BitVec 16) (s : State) : Host.Outcome State Fault Refusal :=
  .next (s.issueStore core.toNat 0x14 4 rd rs1 imm)
def execStH (core : CoreId) (rd rs1 : BitVec 5) (imm : BitVec 16) (s : State) : Host.Outcome State Fault Refusal :=
  .next (s.issueStore core.toNat 0x15 2 rd rs1 imm)
def execStB (core : CoreId) (rd rs1 : BitVec 5) (imm : BitVec 16) (s : State) : Host.Outcome State Fault Refusal :=
  .next (s.issueStore core.toNat 0x16 1 rd rs1 imm)

/-- The width of an AMO in bytes, by func[3]. -/
def amoSize (func : Nat) : Nat := if natBit func 3 then 4 else 8

/-- The value that an AMO leaves in memory (R96), of `w` bits. -/
def amoFn (func w old operand comparand : Nat) : Nat :=
  let x := operand % 2 ^ w
  let less := if natBit func 4 then decide (old < x) else decide (signedOf w old < signedOf w x)
  match func % 8 with
  | 0 => (old + x) % 2 ^ w
  | 1 => if less then old else x
  | 2 => if less then x else old
  | 3 => x
  | _ => if old = comparand % 2 ^ w then x else old

def execAmo (core : CoreId) (rd rs1 rs2 : BitVec 5) (func : BitVec 11) (s : State) : Host.Outcome State Fault Refusal :=
  let n := core.toNat
  let f := func.toNat
  .next (s.issue n { word := wordRR 0x19 rd rs1 rs2 func } [rd, rs1, rs2] (decide (f < 32) && decide (f % 8 ≤ 4)) fun c =>
    let a := (c.sreg rs1.toNat).toNat
    if c.loads.length ≥ 8 then s
    else match s.accessFaults c a (amoSize f) true with
      | [] =>
        let o : Outst := ⟨c.ids, c.pc, wordRR 0x19 rd rs1 rs2 func, .amo rd.toNat a f (c.sreg rs2.toNat) (c.sreg rd.toNat)⟩
        s.setCore n ({ c with out := c.out ++ [o], rcache := SMap.erase c.rcache (a / 64) }.retire 1 1)
      | causes => s.scalarFault n causes a 0)

/-! ## The return of results (R105, R179 to R182) -/

/-- No earlier load or AMO stands between an entry and its service: none to the same granule; for a load no volatile load, and for a volatile load
none at all (R180 to R182). -/
def Core.mayServe (c : Core) (o : Outst) : Bool :=
  let earlier := c.loads.filter fun x => decide (x.ord < o.ord)
  match o.op with
  | .load _ a _ _ vol _ =>
    (!vol || (earlier.isEmpty && c.sb.all fun i => match i with | .store so sa _ _ => !(decide (so < o.ord) && sameGranule a sa) | _ => true)) &&
      earlier.all fun x => match x.op with
        | .load _ b _ _ v _ => !v && !(sameGranule a b)
        | .amo _ b _ _ _ => !(sameGranule a b)
        | _ => true
  | .amo _ a _ _ _ =>
    (earlier.all fun x => match x.op with
      | .load _ b _ _ _ _ => !(sameGranule a b)
      | .amo _ b _ _ _ => !(sameGranule a b)
      | _ => true) &&
      c.sb.all fun i => match i with | .store so sa _ _ => !(decide (so < o.ord) && sameGranule a sa) | _ => true
  | .btn _ func _ _ r => func == 0 || func == 4 || r.isSome

/-- The result of an entry reaches its register; the entry is gone. -/
def State.deliver (s : State) (n : Nat) (o : Outst) (v : Word) (drop : Bool) : State :=
  let c := s.getCore n
  let c1 := { c.setS o.op.dest v with out := c.out.filter fun x => x.ord != o.ord }
  s.setCore n (if drop then c1.dropReadCache else c1).settle

/-- A load, AMO or fetch met poison (R359): the fault is that of its own instruction, and what the scalar unit issued after it and still
holds has no effect (R110). -/
def State.poisonFault (s : State) (n : Nat) (o : Outst) (a : Nat) : State :=
  let c := s.getCore n
  let s1 := s.setCore n { c with sb := c.sb.filter fun i => decide (i.ord < o.ord) }
  s1.takeFault n { cause := .poison, precise := true, engine := .scalar, pc := o.pc, instr := o.instr, addr := a }

/-- A number extended to 64 bits from its size in bytes. -/
def extend (v size : Nat) (signed : Bool) : Word :=
  if signed then BitVec.ofInt 64 (signedOf (8 * size) v) else BitVec.ofNat 64 (v % 2 ^ (8 * size))

/-- A load that has to be served at home, with the stores before it laid over (R176, R180). The line of a plain load is filled. -/
def State.serveLoad (s : State) (n : Nat) (o : Outst) (a size : Nat) (signed vol : Bool) : State :=
  let c := s.getCore n
  if region a == .control then
    s.deliver n o (extend (leNat (c.overlayOn o.ord a (s.homeBytes a size))) size signed) false
  else
    let forwarded := c.forwards o.ord a size
    let s := if forwarded then s else s.noteRead a size
    if s.poisoned a ∧ ¬ forwarded then s.poisonFault n o a
    else
      let v := leNat (s.overlay c o.ord a size)
      let s1 := if !vol && cacheable a && !(s.poisoned a) then
          s.fillRead n (a / 64) (BitVec.ofNat 512 (leNat (s.overlay c (c.ids + 1) (a / 64 * 64) 64)))
        else s
      s1.deliver n o (extend v size signed) false

/-- An AMO at its home (R96, R191). -/
def State.serveAmo (s : State) (n : Nat) (o : Outst) (a func : Nat) (operand comparand : Word) : State :=
  let size := amoSize func
  let s := s.fillAmo a
  if s.poisoned a then s.poisonFault n o a
  else
    let old := leNat (s.bytes a size)
    let s1 := s.land a (leBytes size (amoFn func (8 * size) old operand.toNat comparand.toNat)) false
    let s2 := s1.setCore n { s1.getCore n with rcache := SMap.erase (s1.getCore n).rcache (a / 64) }
    s2.deliver n o (BitVec.ofNat 64 old) false

/-- The result of a batten operation (R208). -/
def State.serveBtn (s : State) (n : Nat) (o : Outst) (func b operand : Nat) (r : Option Nat) : State :=
  let v := match r with
    | some x => BitVec.ofNat 64 x
    | none => if func = 4 then BitVec.ofInt 64 (diff32 (s.batten b) operand) else BitVec.ofNat 64 (s.batten b)
  s.deliver n o v true

/-- The result of the `idx`-th outstanding load, AMO or batten operation returns, where the order of R180 and R181 lets it, and no earlier one
is going to fault (R110). -/
def execLoadReturn (core : CoreId) (idx : Nat) (s : State) : Host.Outcome State Fault Refusal :=
  let n := core.toNat
  let c := s.getCore n
  .next (match c.out[idx]? with
    | none => s
    | some o =>
      if s.power.stopped ∨ ¬ c.mayServe o ∨ s.doomedBefore c o.ord then s
      else match o.op with
        | .load _ a size signed vol hit =>
          match hit with
          | some v => s.deliver n o (extend v.toNat size signed) false
          | none => s.serveLoad n o a size signed vol
        | .amo _ a func operand comparand => s.serveAmo n o a func operand comparand
        | .btn _ func b operand r => s.serveBtn n o func b operand r)

/-! ## The store buffer drains (R180, R184) -/

/-- The home memory of an address as a number: each cistern, slate's tier window, scratch and block of control space is one (R149, R176, R180). -/
def State.home (s : State) (a : Nat) : Nat :=
  match region a with
  | .cistern => (s.locate a).1
  | .tier => 0x100 + slateOfTier a
  | .scratch => 0x1000 + coreOfScratch a
  | _ => 0x10000 + (a - controlBase) / 0x1000

/-- A store may reach home: no store before it is bound for the same home, no earlier load or AMO to its granule is outstanding, and no
earlier load or AMO is going to find poison. -/
def State.mayDrain (s : State) (c : Core) (o a : Nat) : Bool :=
  (c.sb.all fun i => match i with | .store so sa _ _ => !(decide (so < o) && s.home sa == s.home a) | _ => true) &&
    !(s.doomedBefore c o) && c.loads.all fun x => !(decide (x.ord < o)) || (match x.op.granule? with | some b => !(sameGranule a b) | none => true)

/-- The stores that may reach home next. -/
def State.drainable (s : State) (c : Core) : List SbItem :=
  c.sb.filter fun i => match i with | .store o a _ _ => s.mayDrain c o a | _ => false

/-- Take one item out of the store buffer. -/
def Core.dropItem (c : Core) (o : Nat) : Core := { c with sb := c.sb.filter fun i => i.ord != o }

/-- A buffered store reaches home. The buffer drains in program order; stores bound for different homes may become visible in either
order, so which of their first ones reaches home is open (R180). -/
def execStoreReachHome (core : CoreId) (s : State) : Host.Outcome State Fault Refusal :=
  let n := core.toNat
  let c := s.getCore n
  let l := s.drainable c
  let (x, s0) := if l.length > 1 then s.fresh else (0, s)
  .next (if s.power.stopped then s else match l[x % l.length]? with
    | some (.store o a size d) => ((s0.setCore n (c.dropItem o)).storeHome n a size d).settle n
    | _ => s)

/-- A held ESET or batten change with no store before it is applied, where no earlier load or AMO is going to fault. -/
def execHeldSetApply (core : CoreId) (s : State) : Host.Outcome State Fault Refusal :=
  let n := core.toNat
  let c := s.getCore n
  .next (if s.power.stopped then s else match c.sb with
    | .eset o m :: rest => if s.doomedBefore c o then s else s.setCore n ({ c with sb := rest, e := c.e ||| m }).settle
    | .btn o :: rest => if s.doomedBefore c o then s else ((s.setCore n { c with sb := rest }).applyBtn n o).settle n
    | _ => s)

/-! ## Batten instructions (R206 to R211) -/

/-- The causes that a batten instruction raises: its batten lies outside the partition, or its increment outside 1 to 0x7FFF_FFFF. -/
def State.btnFaults (s : State) (c : Core) (func b operand : Nat) : List FaultCause :=
  (if natBit (s.slatesOf c.part) (b / 4096) then [] else [.access]) ++
  (if func = 1 ∧ ¬ (1 ≤ operand ∧ operand ≤ 0x7FFF_FFFF) then [.illegal] else [])

/-- Issue a batten instruction that returns a value; a change is held behind the stores before it (R184). -/
def State.issueBtn (s : State) (n func : Nat) (rd rs1 rs2 : BitVec 5) : State :=
  s.issue n { word := wordRR 0x2A rd rs1 rs2 (BitVec.ofNat 11 func) } [rd, rs1, rs2] true fun c =>
    let b := field (c.sreg rs1.toNat) 0 16
    let x := field (c.sreg rs2.toNat) 0 32
    match s.btnFaults c func b x with
    | [] =>
      let o : Outst := ⟨c.ids, c.pc, wordRR 0x2A rd rs1 rs2 (BitVec.ofNat 11 func), .btn rd.toNat func b x none⟩
      let held := if func = 1 ∨ func = 2 then [SbItem.btn c.ids] else []
      s.setCore n ({ c with out := c.out ++ [o], sb := c.sb ++ held }.retire 1 1)
    | causes => s.scalarFault n causes 0 0

def execBtnRd (core : CoreId) (rd rs1 rs2 : BitVec 5) (s : State) : Host.Outcome State Fault Refusal :=
  .next (s.issueBtn core.toNat 0 rd rs1 rs2)
def execBtnAdd (core : CoreId) (rd rs1 rs2 : BitVec 5) (s : State) : Host.Outcome State Fault Refusal :=
  .next (s.issueBtn core.toNat 1 rd rs1 rs2)
def execBtnSet (core : CoreId) (rd rs1 rs2 : BitVec 5) (s : State) : Host.Outcome State Fault Refusal :=
  .next (s.issueBtn core.toNat 2 rd rs1 rs2)
def execBtnTest (core : CoreId) (rd rs1 rs2 : BitVec 5) (s : State) : Host.Outcome State Fault Refusal :=
  .next (s.issueBtn core.toNat 4 rd rs1 rs2)

/-- BTN.WAIT registers a watch and stalls; BATTEN_WATCH_WAKE ends it (R211). -/
def execBtnWait (core : CoreId) (rd rs1 rs2 : BitVec 5) (s : State) : Host.Outcome State Fault Refusal :=
  let n := core.toNat
  .next (s.issue n { word := wordRR 0x2A rd rs1 rs2 3 } [rd, rs1, rs2] true fun c =>
    let b := field (c.sreg rs1.toNat) 0 16
    match s.btnFaults c 3 b 0 with
    | [] => (s.setCore n { c with wait := .btnWait rd.toNat }).watch ⟨.core n, b, field (c.sreg rs2.toNat) 0 32, 0⟩
    | causes => s.scalarFault n causes 0 0)

/-! ## Long forms (R97 to R99) -/

/-- The fields of a long form as a queue entry (R98): what stands at issue is captured. -/
def Core.queueEntry (c : Core) (w : Word) (desc : List Word) : QEntry :=
  { func := field w 16 7, imm := field w 32 22
    waitEn := bit w 15, waitEv := field w 11 4, waitClr := bit w 5, postEn := bit w 10, postEv := field w 6 4
    a := c.sreg (field w 0 5), b := c.sreg (field w 59 5), c := c.sreg (field w 54 5)
    seed := c.srseed, tile := c.srtile, phase := c.phase.toNat, pc := c.pc, instr := field w 0 32
    job := c.job, gen := c.gen, part := c.part, desc := desc }

/-- Issue a long form (R98): a false predicate retires it with no effect; without a credit it stalls. DESIGN CHOICE (log 101): a nonzero
must-be-zero field faults (R91) whether or not the predicate is true, as it does in LIMM. -/
def State.issueLong (s : State) (n major : Nat) (w : Word) (legal : Bool) (room : Core → Bool) (put : Core → State) : State :=
  if field w 26 6 ≠ major then s
  else
    let c := s.getCore n
    let on := c.pred (field w 23 3)
    let regs := if on then [BitVec.ofNat 5 (field w 0 5), BitVec.ofNat 5 (field w 59 5), BitVec.ofNat 5 (field w 54 5)] else []
    s.issue n { word := field w 0 32, second := some (field w 32 32) } regs (legal && (bit w 15 || !(bit w 5))) fun c =>
      if ¬ on then s.setCore n (c.retire 2 1)
      else if ¬ room c then s
      else put c

def execMx (core : CoreId) (w : Word) (s : State) : Host.Outcome State Fault Refusal :=
  let n := core.toNat
  .next (s.issueLong n 0x38 w true (fun c => c.mq.length < 32) fun c =>
    s.setCore n ({ c with mq := c.mq ++ [c.queueEntry w []] }.retire 2 1))

def execVx (core : CoreId) (w : Word) (s : State) : Host.Outcome State Fault Refusal :=
  let n := core.toNat
  .next (s.issueLong n 0x39 w true (fun c => c.vq.length < 32) fun c =>
    s.setCore n ({ c with vq := c.vq ++ [c.queueEntry w []] }.retire 2 1))

/-- DMA SUBMIT (R99, R183): the descriptor is copied through the store buffer at issue, and a nonzero IMM22 faults (R91). DEDUCED (log 33):
another FUNC, which names no command, copies nothing, and the engine refuses it. DESIGN CHOICE (log 101): the spec names no ADDR for a fault
of the descriptor's address; it is the core's scratch base plus RA, also past the end of scratch. -/
def execDmaSubmit (core : CoreId) (w : Word) (s : State) : Host.Outcome State Fault Refusal :=
  let n := core.toNat
  .next (s.issueLong n 0x3A w (field w 16 7 != 0 || field w 32 22 == 0) (fun c => c.dq.length < 64) fun c =>
    let ra := (c.sreg (field w 0 5)).toNat
    let a := scratchOf n + ra
    let causes := (if ra % 64 = 0 then [] else [FaultCause.align]) ++
      (if ra < scratchSize then (if s.poisoned a then [FaultCause.poison] else []) else [FaultCause.addr])
    if field w 16 7 ≠ 0 then s.setCore n ({ c with dq := c.dq ++ [c.queueEntry w []] }.retire 2 2)
    else match causes with
    | [] =>
      let desc := (upFrom 0 8).map fun i => BitVec.ofNat 64 (leNat (s.overlay c c.ids (a + 8 * i) 8))
      s.setCore n ({ c with dq := c.dq ++ [c.queueEntry w desc] }.retire 2 2)
    | _ => s.scalarFault n causes a 0)

end Sys2Proof.Machine
end

