-- ==== Sys2Proof/Machine/Engines.lean ====
section
/-!
DEFINITION. Machine/Engines.lean: what the engines of a core share: the head command of a queue, its refusal, its start and its post (R101
to R107, R117, R118), and ENGINE_POST.
-/
namespace Sys2Proof.Machine

/-! ## Queues -/

/-- Refuse the command at the head of a queue (R118). -/
def State.refuse (s : State) (n : Nat) (e : Engine) (h : QEntry) (bad : Bad) : State :=
  match refusal n e h bad with
  | some f => s.takeFault n f
  | none => s

/-- A posting command waits for its ENGINE_POST, unless its core has stopped. -/
def State.ran (s : State) (n : Nat) (e : Engine) (h : QEntry) : State :=
  let c := s.getCore n
  if !(c.busy && h.postEn) then s
  else
    let r : Running := ⟨h.pc, h.instr, h.postEn, h.postEv⟩
    match e with
    | .matrix => s.setCore n { c with mrun := c.mrun ++ [r] }
    | .vector => s.setCore n { c with vrun := c.vrun ++ [r] }
    | _ => s

/-- An engine fault POISON of a command that reads one of these granules; which it reads first is open (R359). -/
def State.poisonStop (s : State) (n : Nat) (e : Engine) (h : QEntry) (gs : List Nat) : State :=
  match gs[s.fresh.1 % gs.length]? with
  | some g => s.fresh.2.engineFault n e h.pc h.instr [.poison] g
  | none => s

/-- The head command of a queue: refused before its wait (R118), left where its function is none of the row's or its wait is not met, and
else taken and run whole. A refusal comes with any row of the engine. -/
def State.runHead (s : State) (n : Nat) (e : Engine) (mine : QEntry → Bool) (run : QEntry → State → Ran) : State :=
  let c := s.getCore n
  match c.queueOf e with
  | [] => s
  | h :: rest =>
    if s.power.stopped then s
    else
      match s.headBad n e h with
      | [] =>
        if mine h && c.waitMet e h then
          match run h (s.setCore n (c.takeHead e h rest)) with
          | (s1, []) => (s1.ran n e h).settle n
          | (s1, gs) => s1.poisonStop n e h gs
        else s
      | b => s.refuse n e h b

/-! ## Posts (R103) -/

/-- The oldest command of an engine that has completed posts its flag; posts of one queue come in queue order. -/
def State.post (s : State) (n : Nat) (e : Engine) : State :=
  let c := s.getCore n
  let fire : Running → Core → Core := fun r c => { c with e := c.e ||| flagMask r.postEv }
  match e with
  | .matrix => (match c.mrun with | r :: rest => (s.setCore n (fire r { c with mrun := rest })).settle n | [] => s)
  | .vector => (match c.vrun with | r :: rest => (s.setCore n (fire r { c with vrun := rest })).settle n | [] => s)
  | .dma =>
    (match c.drun.find? fun d => d.entry.postEn with
     | some d =>
       if d.posted then
         (s.setCore n { c with drun := c.drun.filter fun x => x.id != d.id, e := c.e ||| flagMask d.entry.postEv }).settle n
       else s
     | none => s)
  | .scalar => s

def execEnginePost (core : CoreId) (engine : Engine) (s : State) : Host.Outcome State Fault Refusal := .next (if s.power.stopped then s else s.post core.toNat engine)

end Sys2Proof.Machine
end

