-- ==== Sys2Proof/Machine/Dma.lean ====
section
/-!
DEFINITION. Machine/Dma.lean: the DMA engine (R165 to R171), the start of remote operations (R275 to R287), accumulating writes on their
way (R160 to R162), completion and timeout.
-/
namespace Sys2Proof.Machine

/-! ## Starting a command -/

/-- The parts of a row by destination granule: destination, length, source. -/
def rowSegs (src dst len : Nat) : List (Nat × Nat × Nat) :=
  (granulesOf dst len).map fun g =>
    let lo := max dst g
    (lo, min (dst + len) (g + 64) - lo, src + (lo - dst))

/-- Two ranges meet. -/
def meet (a n b m : Nat) : Bool := decide (a < b + m) && decide (b < a + n)

/-- The parts of a command, in an order that its rows allow: where rows share destination bytes, any (R167). -/
def State.dmaSegs (s : State) (q : QEntry) : List (Nat × Nat × Nat) × State :=
  let segs := (q.srcRows.zip q.dstRows).flatMap fun r => rowSegs r.1 r.2 q.rowBytes
  if q.rows > 1 ∧ q.dstPitch < q.rowBytes then (permuteBy segs.length s.fresh.1 segs, s.fresh.2) else (segs, s)

/-- Keep each part whose destination bytes in a granule meet the source only as an open choice has it (R167). -/
def State.keepSegs (s : State) (q : QEntry) (segs : List (Nat × Nat × Nat)) : List (Nat × Nat × Nat) × State :=
  segs.foldl (fun a g =>
    if q.srcRows.any fun r => meet g.1 g.2.1 r q.rowBytes then
      (if a.2.fresh.1 % 2 = 1 then (a.1 ++ [g], a.2.fresh.2) else (a.1, a.2.fresh.2))
    else (a.1 ++ [g], a.2)) ([], s)

/-- A DMA command that starts now. -/
def State.dmaRun (s : State) (n : Nat) (q : QEntry) : DmaRun :=
  let t := s.getF TSK_DMA_TMO.COURSES q.part
  { entry := q, course := s.courseNo, epoch := s.epoch, counted := 0, limit := if t = 0 then 1024 else t, bytes := (q.rowBytes * q.rows) % 2 ^ 32
    poisoned := false, flags := 0, ord := 0, pendingParts := 0, writes := [], todo := [], posted := false
    id := 1 + ((s.getCore n).drun.map fun d => d.id).foldl max 0 }

def State.addRun (s : State) (n : Nat) (d : DmaRun) : State :=
  let c := s.getCore n
  s.setCore n { c with drun := c.drun ++ [d] }

def State.startCopy (s0 : State) (n : Nat) (q : QEntry) : State :=
  let s := s0.noteReads (q.srcRows.map fun a => (a, q.rowBytes))
  match s.dmaSegs q with
  | (segs, s1) =>
    match s1.keepSegs q segs with
    | (kept, s2) =>
      let ws := kept.map fun g => (⟨g.1, s.homeBytes g.2.2 g.2.1, s.anyPoison g.2.2 g.2.1⟩ : DmaWrite)
      s2.addRun n { s.dmaRun n q with writes := ws, poisoned := q.srcRows.any fun a => s.anyPoison a q.rowBytes }

def State.startFill (s : State) (n : Nat) (q : QEntry) : State :=
  let row := (upFrom 0 (q.rowBytes / 4)).flatMap fun _ => leBytes 4 q.pay
  s.addRun n { s.dmaRun n q with writes := q.dstRows.map fun a => ⟨a, row, false⟩ }

def State.startAccum (s0 : State) (n : Nat) (q : QEntry) : State :=
  let s := s0.noteReads (q.srcRows.map fun a => (a, q.rowBytes))
  let segs := (q.srcRows.zip q.dstRows).flatMap fun r => rowSegs r.1 r.2 q.rowBytes
  let d := s.dmaRun n q
  let accs := segs.map fun g =>
    let lo := g.1 % 64
    (⟨n, d.id, g.1 - lo, BitVec.ofNat 512 (leNat (s.homeBytes g.2.2 g.2.1) * 2 ^ (8 * lo)), byteMask lo (lo + g.2.1), q.atype, q.pay,
      s.anyPoison g.2.2 g.2.1⟩ : AccWrite)
  let s1 := s.addRun n { d with pendingParts := accs.length, poisoned := q.srcRows.any fun a => s.anyPoison a q.rowBytes }
  { s1 with core := { s1.core with accs := s1.core.accs ++ accs } }

/-- The strand, class and path that a command of a flow would take now; none where it waits for a path. -/
def State.flowWay (s : State) (q : QEntry) : Option (Nat × Nat × Nat) :=
  match s.rsetOf q.job with
  | none => none
  | some i =>
    match s.firstLink i q.peer (s.flag RTE_RSET_A.ORD_DETOUR i) with
    | none => none
    | some l =>
      let act := if q.sched? then s.schedStrands q.schedId (s.activeDies l) else s.activeDies l
      (orderedStrand s.epn q.peer q.job q.chan act).map fun d => (l, d, if q.sched? then 1 else 2)

/-- The route set of a command's job is ORDERED. -/
def State.orderedJob (s : State) (q : QEntry) : Bool := match s.rsetOf q.job with | some i => !(s.flag RTE_RSET_A.MODE i) | none => false

/-- Two remote commands of one flow (R275). -/
def QEntry.sameFlow (q r : QEntry) : Bool := q.job == r.job && q.peer == r.peer && q.chan == r.chan

/-- A GET of a command's flow has not had all its answers. -/
def State.flowGets (s : State) (q : QEntry) : Bool :=
  (s.route.gets.any fun g => g.job == q.job && g.peer == q.peer && g.chan == q.chan) ||
    s.core.cores.any fun (e : Nat × Core) => e.2.drun.any fun d => d.entry.dop == DOp.get && !d.todo.isEmpty && d.entry.sameFlow q

/-- A remote command may start: fewer than 256 PUTs and SIGNALs of its flow are unacknowledged (R283), and an ORDERED flow does not change its
strand, class or path, or lose it, while a command is unacknowledged (R275). -/
def State.flowReady (s : State) (q : QEntry) : Bool :=
  let f := s.srcFlow (flowKey q.job q.peer q.chan)
  let idle := f.unacked.isEmpty && !(s.flowGets q)
  (q.dop == DOp.get || decide (f.unacked.length < 256)) && (!(s.orderedJob q) || idle || ((s.flowWay q).isSome && f.last == s.flowWay q))

/-- Draw the ordering count of a PUT or SIGNAL (R196) and note it as unacknowledged. -/
def State.drawCount (s : State) (n id : Nat) (q : QEntry) : Nat × State :=
  let k := flowKey q.job q.peer q.chan
  let f := s.srcFlow k
  let way := match s.flowWay q with | some w => some w | none => f.last
  (f.next, s.setSrcFlow k { next := (f.next + 1) % 2 ^ 32, unacked := f.unacked ++ [⟨f.next, n, id, q.gen, q.part⟩], last := way })

def State.startPut (s0 : State) (n : Nat) (q : QEntry) : State :=
  let s := s0.noteReads (q.pieces.map fun p => (p.1, p.2.2))
  let d := s.dmaRun n q
  match s.drawCount n d.id q with
  | (count, s1) =>
    let ps := q.pieces
    let s2 := s1.addRun n { d with ord := count, pendingParts := 1, poisoned := ps.any fun p => s.anyPoison p.1 p.2.2 }
    let course := if q.sched? then s.putCourse q.schedId else 0
    ((upFrom 0 ps.length).zip ps).foldl (fun s' e =>
      let last := e.1 + 1 == ps.length
      let (src, dst, len) := e.2
      s'.send { type := PT.put, job := q.job, dst := q.peer, gen := q.gen, final := q.final?, rsig := q.rsig?, sched := q.sched?,
                poison := s.anyPoison src len, last := last, chan := q.chan, count := count, addr := dst, lenM1 := len / 4 - 1,
                arg := q.rbtn + (if last then (ps.length - 1) * 65536 else 0), payload := s.homeBytes src len }
        (if q.sched? then some q.schedId else none) course) s2

def State.startSignal (s : State) (n : Nat) (q : QEntry) : State :=
  let d := { s.dmaRun n q with bytes := 0 }
  match s.drawCount n d.id q with
  | (count, s1) =>
    (s1.addRun n { d with ord := count, pendingParts := 1 }).send
      { type := PT.signal, job := q.job, dst := q.peer, gen := q.gen, chan := q.chan, count := count, addr := q.rbtn, arg := q.pay }

/-- Send one request of a GET; its tag names the core and counts its requests, and its stamp is that of the command's start (R166). -/
def State.sendGet (s : State) (n : Nat) (d : DmaRun) (piece : Nat × Nat × Nat) : State :=
  let q := d.entry
  let (src, dst, len) := piece
  let k := SMap.get 0 s.route.tags n
  let tag := n * 2 ^ 21 + k
  let g : GetReq := { tag := tag, core := n, dma := d.id, dst := dst, len := len, job := q.job, gen := q.gen, part := q.part, peer := q.peer
                      chan := q.chan }
  let s1 : State := { s with route := { s.route with gets := s.route.gets ++ [g], tags := SMap.put 0 s.route.tags n ((k + 1) % 2 ^ 21) } }
  s1.send { type := PT.get, job := q.job, dst := q.peer, gen := q.gen, chan := q.chan, count := tag, addr := src, lenM1 := len / 4 - 1
            payload := leBytes 8 dst, stamp := some (d.course, d.epoch) } (pin := d.pin)

/-- Send the first request that waits, while the engine has fewer than 64 outstanding (R285). -/
def State.sendNextGet (s : State) (n : Nat) : State :=
  let c := s.getCore n
  if (s.route.gets.filter fun g => g.core == n).length ≥ 64 then s
  else
    match c.drun.find? fun d => !d.todo.isEmpty with
    | none => s
    | some d =>
      match d.todo with
      | [] => s
      | p :: rest =>
        (s.setCore n { c with drun := c.drun.map fun x => if x.id == d.id then { x with todo := rest } else x }).sendGet n d p

def State.sendGets (s : State) (n : Nat) : Nat → State
  | 0 => s
  | k + 1 => (s.sendNextGet n).sendGets n k

/-- Note the way of an ORDERED flow's GET. -/
def State.noteWay (s : State) (q : QEntry) : State :=
  let k := flowKey q.job q.peer q.chan
  match s.flowWay q with
  | some w => if s.orderedJob q then s.setSrcFlow k { s.srcFlow k with last := some w } else s
  | none => s

/-- Start a GET: of an ORDERED flow all requests go on the strand that the first takes (R274). -/
def State.startGet (s : State) (n : Nat) (q : QEntry) : State :=
  let ps := q.pieces
  let pin := if s.orderedJob q then (s.flowWay q).map fun w => (w.1, w.2.1) else none
  ((s.noteWay q).addRun n { s.dmaRun n q with pendingParts := ps.length, todo := ps, pin := pin }).sendGets n 64

/-- The head command of the DMA queue, where its operation is a row's: at most 4 are in progress at once (R171); a job that is held by its
abort window injects nothing (R447). A refusal comes with any row of the engine. -/
def State.runDma (s : State) (n op : Nat) (start : QEntry → State → State) : State :=
  let c := s.getCore n
  match c.dq with
  | [] => s
  | h :: rest =>
    if s.power.stopped then s
    else
      match s.dmaBad h with
      | [] =>
        let free := decide ((c.drun.filter fun d => !d.posted).length < 4)
        let flow := if op ≥ 0x10 then s.flowReady h else true
        let held := decide (op ≥ 0x10) && s.injectionHeld h.job
        if h.dop == op && c.waitMet .dma h && free && flow && !held then (start h (s.setCore n (c.takeHead .dma h rest))).settle n else s
      | b => s.refuse n .dma h b

def execDmaCopy (core : CoreId) (s : State) : Host.Outcome State Fault Refusal :=
  .next (s.runDma core.toNat DOp.copy fun q s => s.startCopy core.toNat q)
def execDmaFill (core : CoreId) (s : State) : Host.Outcome State Fault Refusal :=
  .next (s.runDma core.toNat DOp.fill fun q s => s.startFill core.toNat q)
def execDmaAccum (core : CoreId) (s : State) : Host.Outcome State Fault Refusal :=
  .next (s.runDma core.toNat DOp.accum fun q s => s.startAccum core.toNat q)
def execDmaPut (core : CoreId) (s : State) : Host.Outcome State Fault Refusal :=
  .next (s.runDma core.toNat DOp.put fun q s => s.startPut core.toNat q)
def execDmaGet (core : CoreId) (s : State) : Host.Outcome State Fault Refusal :=
  .next (s.runDma core.toNat DOp.get fun q s => s.startGet core.toNat q)
def execDmaSignal (core : CoreId) (s : State) : Host.Outcome State Fault Refusal :=
  .next (s.runDma core.toNat DOp.signal fun q s => s.startSignal core.toNat q)

/-! ## Accumulating writes (R160 to R162) -/

/-- Change a running command of a core. -/
def State.mapRun (s : State) (n id : Nat) (f : DmaRun → DmaRun) : State :=
  let c := s.getCore n
  s.setCore n { c with drun := c.drun.map fun d => if d.id == id then f d else d }

/-- One accumulating write reaches its tier; one that no window contains is discarded and its command faults with cause ADDR. -/
def execTierAccumApply (idx : Nat) (s : State) : Host.Outcome State Fault Refusal :=
  match s.core.accs[idx]? with
  | none => .next s
  | some a =>
    if s.power.stopped then .next s else
    let s1 : State := { s with core := { s.core with accs := removeAt s.core.accs idx } }
    match s1.accumulate a with
    | some (s2, f) => .next (s2.mapRun a.core a.dma fun d => { d with pendingParts := d.pendingParts - 1, flags := d.flags ||| f.toNat })
    | none =>
      match (s1.getCore a.core).drun.find? fun d => d.id == a.dma with
      | some d => .next (s1.engineFault a.core .dma d.entry.pc d.entry.instr [.addr] a.granule)
      | none => .next s1

/-! ## Completion and timeout (R167, R168, R170) -/

/-- The completion record. -/
def State.dmaRecord (s : State) (n : Nat) (d : DmaRun) : State :=
  if d.entry.cplEn then
    let w0 := (if d.poisoned then Status.poison else Status.ok) + d.flags * 2 ^ 8 + d.bytes * 2 ^ 32
    s.land (scratchOf n + d.entry.cplOff) (leBytes 8 w0 ++ leBytes 8 s.time) false
  else s

/-- Complete a command whose writes reach home now: its record, then its batten add, then its post is due (R167). -/
def execDmaComplete (core : CoreId) (idx : Nat) (s : State) : Host.Outcome State Fault Refusal :=
  let n := core.toNat
  match (s.getCore n).drun[idx]? with
  | none => .next s
  | some d =>
    if s.power.stopped || d.posted || d.pendingParts != 0 then .next s
    else
      let s1 := d.writes.foldl (fun s w => s.landHome n w.addr w.data w.poisoned) s
      let s2 := s1.dmaRecord n d
      let s3 := if d.entry.btnEn then s2.batAdd d.entry.btnNum 1 else s2
      let c := s3.getCore n
      let runs := if d.entry.postEn then c.drun.map fun x => if x.id == d.id then { x with posted := true, writes := [] } else x
        else c.drun.filter fun x => x.id != d.id
      .next ((s3.setCore n { c with drun := runs }).settle n)

def execDmaTimeout (core : CoreId) (idx : Nat) (s : State) : Host.Outcome State Fault Refusal :=
  let n := core.toNat
  match (s.getCore n).drun[idx]? with
  | none => .next s
  | some d =>
    if d.posted || decide (d.counted < d.limit) then .next s
    else .next (s.takeFault n { cause := .timeout, precise := false, engine := .dma, pc := d.entry.pc, instr := s.wordAt n d.entry.pc })

end Sys2Proof.Machine
end

