-- ==== Sys2Proof/Machine/Fec.lean ====
section
/-!
DEFINITION. Machine/Fec.lean: the lanes of a strand (R237, R238): codewords of RS(560,520), the scrambler, the lane frame header, and the
striping of the strand stream over four lanes.
-/
namespace Sys2Proof.Machine

/-! ## GF(2^10), primitive polynomial x^10 + x^3 + 1 (R237) -/

/-- Multiply by x. -/
def symDouble (a : Nat) : Nat := if a * 2 < 1024 then a * 2 else (a * 2) ^^^ 0x409

def symMul (a b : Nat) : Nat :=
  [9, 8, 7, 6, 5, 4, 3, 2, 1, 0].foldl (fun r i => if natBit b i then symDouble r ^^^ a else symDouble r) 0

/-- `a ^ n` for n below 1,024. -/
def symPow (a n : Nat) : Nat :=
  [9, 8, 7, 6, 5, 4, 3, 2, 1, 0].foldl (fun r i => if natBit n i then symMul (symMul r r) a else symMul r r) 1

/-- A power of the primitive element x. -/
def symExp (n : Nat) : Nat := symPow 2 (n % 1023)
def symInv (a : Nat) : Nat := symPow a 1022

/-- The value at a point of a polynomial whose coefficients are listed from the highest power down. -/
def symEval (x : Nat) (w : List Nat) : Nat := w.foldl (fun r c => symMul r x ^^^ c) 0

/-! ## RS(560,520) (R237; DESIGN CHOICE, log entry 96: the roots are the powers 0 to 39 of x, the first symbol is the highest coefficient) -/

/-- Multiply a polynomial, highest power first, by (X + r). -/
def polyByRoot (g : List Nat) (r : Nat) : List Nat := List.zipWith (fun a b => a ^^^ b) (g ++ [0]) (0 :: g.map (symMul r))

/-- The generator polynomial below its leading 1. -/
def rsGenTail : List Nat := ((upFrom 0 40).foldl (fun g j => polyByRoot g (symExp j)) [1]).drop 1

/-- The 40 check symbols of 520 data symbols: the remainder of the division by the generator. -/
def rsParity (data : List Nat) : List Nat :=
  let g := rsGenTail
  data.foldl (fun r c => List.zipWith (fun a b => a ^^^ b) (r.drop 1 ++ [0]) (g.map (symMul (c ^^^ r.headD 0)))) (List.replicate 40 0)

def rsEncode (data : List Nat) : List Nat := data ++ rsParity data

/-- The 40 syndromes of a received word; all are zero exactly for a codeword. -/
def rsSyndromes (w : List Nat) : List Nat := (upFrom 0 40).map fun j => symEval (symExp j) w

def rsGood (w : List Nat) : Bool := (rsSyndromes w).all (· == 0)

/-- Add a multiple `c X^m` of a polynomial to another, lowest power first. -/
def polyAddShift (a : List Nat) (c m : Nat) (b : List Nat) : List Nat :=
  let t := List.replicate m 0 ++ b.map (symMul c)
  let n := max a.length t.length
  (upFrom 0 n).map fun i => a.getD i 0 ^^^ t.getD i 0

/-- The shortest recurrence of the syndromes so far (Berlekamp and Massey): the locator, the former one, its length, gap and discrepancy. -/
structure RsRec where
  loc : List Nat := [1]
  old : List Nat := [1]
  len : Nat := 0
  gap : Nat := 1
  disc : Nat := 1

def RsRec.next (x : RsRec) (syn : List Nat) (n : Nat) : RsRec :=
  let d := ((upFrom 0 (x.len + 1)).map fun i => symMul (x.loc.getD i 0) (syn.getD (n - i) 0)).foldl (fun a b => a ^^^ b) 0
  if d = 0 then { x with gap := x.gap + 1 }
  else
    let loc := polyAddShift x.loc (symMul d (symInv x.disc)) x.gap x.old
    if 2 * x.len ≤ n then { loc := loc, old := x.loc, len := n + 1 - x.len, gap := 1, disc := d }
    else { x with loc := loc, gap := x.gap + 1 }

/-- The error that the locator's root at a power of x stands for (Forney). -/
def rsError (syn loc : List Nat) (e : Nat) : Nat :=
  let inv := symExp (1023 - e)
  let omega := (upFrom 0 40).map fun k => ((upFrom 0 (k + 1)).map fun i => symMul (loc.getD i 0) (syn.getD (k - i) 0)).foldl (fun a b => a ^^^ b) 0
  let deriv := (upFrom 0 loc.length).map fun i => if i % 2 = 0 then loc.getD (i + 1) 0 else 0
  symMul (symExp e) (symMul (symEval inv omega.reverse) (symInv (symEval inv deriv.reverse)))

/-- Correct a received word: the codeword and the number of corrected symbols; none where no codeword lies within 20 symbols. -/
def rsDecode (w : List Nat) : Option (List Nat × Nat) :=
  let syn := rsSyndromes w
  if syn.all (· == 0) then some (w, 0)
  else
    let x := (upFrom 0 40).foldl (fun (x : RsRec) n => x.next syn n) {}
    let fixed := ((upFrom 0 560).zip w).map fun e =>
      if symEval (symExp (1023 - (559 - e.1))) x.loc.reverse = 0 then e.2 ^^^ rsError syn x.loc (559 - e.1) else e.2
    let changed := ((fixed.zip w).filter fun e => e.1 != e.2).length
    if x.len ≤ 20 ∧ changed ≤ 20 ∧ rsGood fixed then some (fixed, changed) else none

/-! ## The scrambler x^58 + x^39 + 1 (R237) -/

/-- Scramble `n` bits, up to 39 at a time, after the 58 bits `prev` that went before them (the latest is bit 57): the scrambled bits, and the
last 58. -/
def scramble (fuel n bits prev : Nat) : Nat × Nat :=
  match fuel with
  | 0 => (0, prev)
  | k + 1 =>
    if n = 0 then (0, prev)
    else
      let m := min n 39
      let o := (bits ^^^ (prev >>> 19) ^^^ prev) % 2 ^ m
      let r := scramble k (n - m) (bits >>> m) ((prev + o * 2 ^ 58) >>> m)
      (o + r.1 * 2 ^ m, r.2)

/-- The inverse: every bit follows from the received ones alone, so an unknown start does no harm after 58 bits. -/
def descramble (n bits prev : Nat) : Nat × Nat :=
  let y := prev + bits * 2 ^ 58
  (((y >>> 58) ^^^ (y >>> 19) ^^^ y) % 2 ^ n, y >>> n)

/-! ## Codewords of a lane -/

/-- The alignment marker. -/
def alignMarker : Nat := 0x9A6C_53B1_E07D

/-- The frame header (the table "Lane frame header"). -/
def laneHeader (lane d l cwc : Nat) : Nat :=
  alignMarker + lane * 2 ^ 48 + d * 2 ^ 50 + l * 2 ^ 52 + cwc % 2 ^ 32 * 2 ^ 64

/-- A number of 5,200 bits as 520 symbols, lowest bits first (DESIGN CHOICE, log entry 96), and back. -/
def symbolsOf (fuel v : Nat) : List Nat := match fuel with | 0 => [] | k + 1 => v % 1024 :: symbolsOf k (v / 1024)
def ofSymbols (w : List Nat) : Nat := w.foldr (fun c v => c + 1024 * v) 0

/-- A lane's codeword for 625 stream bytes, and the scrambler after it: what follows the marker is scrambled, and the check symbols are
computed over what is sent (DEDUCED, log entry 96). -/
def laneCodeword (lane d l cwc : Nat) (stream : List Byte) (scr : Nat) : List (BitVec 10) × Nat :=
  let data := laneHeader lane d l cwc + leNat stream * 2 ^ 200
  let r := scramble 133 5152 (data / 2 ^ 48) scr
  ((rsEncode (symbolsOf 520 (alignMarker + r.1 * 2 ^ 48))).map (BitVec.ofNat 10), r.2)

/-- The bytes of a strand stream that one lane carries: those at positions `lane`, `lane + 4`, … (R238). -/
def laneBytes {α : Type} (lane : Nat) : List α → List α
  | a :: b :: c :: d :: rest => ([a, b, c, d][lane]?).toList ++ laneBytes lane rest
  | _ => []

/-- The stream of the four lanes' bytes: byte n lies in lane n mod 4 at n div 4 (R238). -/
def stripe {α : Type} : List α → List α → List α → List α → List α
  | a :: as, b :: bs, c :: cs, d :: ds => a :: b :: c :: d :: stripe as bs cs ds
  | _, _, _, _ => []

/-! ## Receiving -/

/-- What a lane makes of a codeword: its state after it, the symbols corrected, whether it was uncorrectable, and whether the marker was there. -/
structure LaneTaken where
  lane : LaneRx
  fixed : Nat := 0
  unc : Bool := false
  aligned : Bool := true
  deriving DecidableEq, Repr

/-- Note a codeword of a lane: the lane's position in the strand and the CWC come from the first header that the descrambler can read after the
lock, and are counted from then on, so that a header that it spoils after an error does no harm (DEDUCED, log entry 96). -/
def LaneRx.push (x : LaneRx) (first : Option (Nat × Nat)) (bytes : List (Option Byte)) (scr : Nat) : LaneRx :=
  match (match x.due with | some n => some n | none => if x.scr.isSome then first else none) with
  | none => { x with scr := some scr }
  | some (lane, c) => { x with due := some (lane, (c + 1) % 2 ^ 32), words := x.words ++ [(c, bytes)], scr := some scr }

/-- A lane takes a codeword: bytes of an uncorrectable one are lost. -/
def LaneRx.take (x : LaneRx) (now : Nat) (code : List (BitVec 10)) : LaneTaken :=
  match rsDecode (code.map (·.toNat)) with
  | none =>
    let bad := (x.bad.filter fun t => decide (now < t + 1_000_000)) ++ [now]
    let scr := (descramble 5152 (ofSymbols ((code.map (·.toNat)).take 520) / 2 ^ 48) (x.scr.getD 0)).2
    { lane := { x.push none (List.replicate 625 none) scr with bad := bad }, unc := true }
  | some (w, n) =>
    let data := ofSymbols (w.take 520)
    let r := descramble 5152 (data / 2 ^ 48) (x.scr.getD 0)
    let v := r.1 * 2 ^ 48
    if data % 2 ^ 48 = alignMarker then
      { lane := x.push (some (natField v 48 2, natField v 64 32)) ((leBytes 625 (v / 2 ^ 200)).map some) r.2, fixed := n }
    else { lane := { x with scr := none }, fixed := n, aligned := false }

/-- The lane that carries position `v` of the strand. -/
def Phy.laneAt (p : Phy) (v : Nat) : LaneRx :=
  ((p.lanes.map fun (e : Nat × LaneRx) => e.2).find? fun x => (x.due.map (·.1)) == some v).getD {}

/-- Take the oldest codeword from the lanes for which this is asked. -/
def Phy.dropHeads (p : Phy) (drop : Nat → Bool) : Phy :=
  { p with lanes := p.lanes.map fun (e : Nat × LaneRx) =>
      (e.1, match e.2.words with | (c, _) :: rest => if drop c then { e.2 with words := rest } else e.2 | [] => e.2) }

/-- Add a group of four codewords to the stream. The first flit of the stream began at CWC 0, so the first whole flit of a group that the
receiver joins at stands where the count of stream bytes is a multiple of 256 (DEDUCED, log entry 96). -/
def Phy.addGroup (p : Phy) (c : Nat) (bytes : List (Option Byte)) : Phy :=
  let next := some ((c + 1) % 2 ^ 32)
  if p.rxCwc = some c then { p with rx := p.rx ++ bytes, rxCwc := next }
  else { p with rx := bytes.drop ((256 - c * 2500 % 256) % 256), rxCwc := next }

/-- Align the lanes by CWC: a codeword whose partners are past is dropped, and four that share a CWC join the stream. -/
def Phy.align : Nat → Phy → Phy
  | 0, p => p
  | k + 1, p =>
    match (p.laneAt 0).words, (p.laneAt 1).words, (p.laneAt 2).words, (p.laneAt 3).words with
    | (a, x) :: _, (b, y) :: _, (c, z) :: _, (d, w) :: _ =>
      if b = a ∧ c = a ∧ d = a then Phy.align k ((p.dropHeads fun _ => true).addGroup a (stripe x y z w))
      else Phy.align k (p.dropHeads fun n => [a, b, c, d].any fun m => decide (serialDiff 32 m n > 0))
    | _, _, _, _ => p

/-- A relock of the lanes: alignment begins again (FEC_LOCK, R256). -/
def Phy.relock (p : Phy) : Phy :=
  { p with lanes := SMap.mapV {} (fun x => { x with due := none, words := [], bad := [], scr := none }) p.lanes, rx := [], rxCwc := none }

/-- Take the next whole flit from the stream: its bytes, none for one in an uncorrectable codeword. -/
def Phy.cutFlit (p : Phy) : Option (List (Option Byte) × Phy) :=
  if p.rx.length < 256 then none else some (p.rx.take 256, { p with rx := p.rx.drop 256 })

/-! ## Sending -/

/-- Add a flit to the stream that is sent; with 2,500 bytes the four lanes send a codeword each, by lane position. -/
def Phy.send (p : Phy) (d l : Nat) (flit : List Byte) : Phy × Option (List (List (BitVec 10))) :=
  let all := p.tx ++ flit
  if all.length < 2500 then ({ p with tx := all }, none)
  else
    let group := all.take 2500
    let code := fun (v : Nat) => laneCodeword v d l p.txCwc (laneBytes v group) (SMap.get 0 p.txScr v)
    let scr := (upFrom 0 4).foldl (fun m v => SMap.put 0 m v (code v).2) p.txScr
    ({ p with tx := all.drop 2500, txCwc := (p.txCwc + 1) % 2 ^ 32, txScr := scr }, some ((upFrom 0 4).map fun v => (code v).1))

end Sys2Proof.Machine
end

