-- ==== Sys2Proof/Machine/Gauge.lean ====
section
/-!
DEFINITION. Machine/Gauge.lean: what a write does to the fields of a register (R5, R6, R492), the gauge's states (R37, R38), its writes
(R32, R494), and the course change registers (R45, R46).
-/
namespace Sys2Proof.Machine

/-! ## Register writes (R5) -/

/-- A word's bits after a write: RW and unlocked RWL fields take the value, W1C bits clear, W1S bits set; all others keep. -/
def Reg.written (r : Reg) (word : Nat) (old val : Word) (locked : Nat) : Word :=
  let rw := BitVec.ofNat 64 (r.mask word .rw ||| (r.mask word .rwl - (r.mask word .rwl &&& locked)))
  let w1c := BitVec.ofNat 64 (r.mask word .w1c)
  let w1s := BitVec.ofNat 64 (r.mask word .w1s)
  (old &&& ~~~(rw ||| w1c ||| w1s)) ||| (val &&& rw) ||| (old &&& ~~~val &&& w1c) ||| ((old ||| val) &&& w1s)

/-- A record of a refused or ignored register write (R492). -/
def State.refuseWrite (s : State) (status src : Nat) : State := s.record { status := status, source := src }

/-- Write a word of a register whose fields of a mask are locked; a write that would change one is recorded (R5). -/
def State.writeWord (s : State) (r : Reg) (i : Nat) (val : Word) (locked src : Nat) : State :=
  let old := s.reg r i
  let s1 := s.setReg r i (Reg.written r (i % r.place.words) old val locked)
  if (old ^^^ val) &&& BitVec.ofNat 64 locked ≠ 0 then s1.refuseWrite Status.denied src else s1

/-- A write by PF0, PF1 or the rider; any other identity's is refused. -/
def State.byManager (s : State) (who src : Nat) (f : State → State) : State :=
  if Who.isManager who then f s else s.refuseWrite Status.denied src

/-! ## Gauge states (R37, R38) -/

def GS.free : Nat := 0
def GS.acquiring : Nat := 1
def GS.locked : Nat := 2
def GS.holdover : Nat := 3
def GS.out : Nat := 4

def State.gstate (s : State) : Nat := s.getF GAUGE_STAT.STATE
def State.setG (s : State) (st : Nat) : State := s.setF GAUGE_STAT.STATE 0 st

/-- The jobs whose slice contains the module: those of its valid route sets (R265). -/
def State.sliceJobs (s : State) : List Nat :=
  ((upFrom 0 16).filter fun i => s.flag RTE_RSET_A.VALID i).map fun i => s.getF RTE_RSET_A.JOB i

/-- R38: SCHED traffic and collective launches stop; a record and the job abort for every job of the module. -/
def State.loseTime (s : State) : State :=
  s.sliceJobs.foldl
    (fun s j => (s.record { status := Status.jobAbort, source := Src.module, sev := .partitionFatal, job := some (s.jobRef j) }).raiseAbort j
      Status.jobAbort 0xA)
    { s with gauge := { s.gauge with stopped := true } }

/-- Enter OUT. -/
def State.gaugeOut (s : State) : State := ((s.setG GS.out).setF GAUGE_STAT.PARENT_LINK 0 0xFF).loseTime

/-- A peer link is up and verified: at least one of its strands is ACTIVE (R248, R254). -/
def State.linkUp (s : State) (l : Nat) : Bool := s.linkState l != 2

def State.linkTime (s : State) (l : Nat) : LinkTime := SMap.get {} s.gauge.links l
def State.setLinkTime (s : State) (l : Nat) (x : LinkTime) : State :=
  { s with gauge := { s.gauge with links := SMap.put {} s.gauge.links l x } }

/-- A way to a root: its link, 0xFF for the module itself, and the tuple that R33 compares. -/
structure Offer where
  link : Nat
  root : Nat
  hops : Nat
  epn : Nat
  deriving DecidableEq, Repr

/-- What the verified links offer: a peer that has a root other than this module (R33, R494). -/
def State.linkOffers (s : State) : List Offer :=
  s.gauge.links.filterMap fun e => match e.2.view with
    | some v => if s.linkUp e.1 && v.rootEpn != 0xFFFF && v.rootEpn != s.epn then some ⟨e.1, v.rootEpn, v.hops, v.epn⟩ else none
    | none => none

/-- Some verified link offers a path to a root. -/
def State.rootOffered (s : State) : Bool := !s.linkOffers.isEmpty

/-- Some peer link is up and verified. -/
def State.anyLinkUp (s : State) : Bool := (upFrom 0 32).any fun l => isLink l && s.linkUp l

/-- Name the root and parent in GAUGE_STAT. -/
def State.setParent (s : State) (link hops root : Nat) (isRoot : Bool) : State :=
  (((s.setF GAUGE_STAT.PARENT_LINK 0 link).setF GAUGE_STAT.HOPS 0 hops).setF GAUGE_STAT.ROOT_EPN 0 root).setF GAUGE_STAT.IS_ROOT 0 (b2n isRoot)

/-- The rate is held at its last value (R37). -/
def State.holdOver (s : State) : State :=
  { s.setG GS.holdover with gauge := { s.gauge with holdover := some s.clock, good := 0 } }

/-- The gauge is free running on the local reference: no parent, no root, no rate correction (R37). -/
def State.goFree (s : State) : State :=
  let s1 := ((((s.setG GS.free).setF GAUGE_STAT.IS_ROOT 0 0).setF GAUGE_STAT.PARENT_LINK 0 0xFF).setF GAUGE_STAT.HOPS 0 0).setF GAUGE_STAT.ROOT_EPN 0
    0xFFFF
  { s1 with gauge := { s1.gauge with good := 0, bad := 0, holdover := none, links := [], rate := 0, slew := 0 } }

/-- A peer link has gone DOWN: where it led to the parent, the module re-parents at the next exchange of another link that offers a root,
or holds its rate in HOLDOVER; a root that has no verified link left runs free (R37). -/
def State.linkLost (s : State) (l : Nat) : State :=
  let s0 : State := { s with gauge := { s.gauge with links := SMap.erase s.gauge.links l } }
  if s0.flag GAUGE_STAT.IS_ROOT then (if s0.anyLinkUp then s0 else s0.goFree)
  else if s0.getF GAUGE_STAT.PARENT_LINK ≠ l then s0
  else
    let s1 := s0.setF GAUGE_STAT.PARENT_LINK 0 0xFF
    if s1.rootOffered then s1
    else if s1.gstate = GS.locked then s1.holdOver
    else if s1.gstate = GS.acquiring then s1.goFree
    else s1

/-! ## Writes of the GAUGE block -/

/-- A load of the gauge (R32): the value stands at the next nanosecond. -/
def State.writeGaugeSet (s : State) (who : Nat) (val : Word) : State :=
  if Who.isManager who ∧ ¬ s.anyBound ∧ (s.gstate = GS.free ∨ s.flag GAUGE_STAT.IS_ROOT) then
    { s with gauge := { s.gauge with load := some val } }
  else s.refuseWrite Status.denied Src.module

/-- A root that stops offering itself gives way as a root that disappears (R37, R494): it holds its rate, LOCKED until the next exchange of a
link that offers another root, in HOLDOVER where none does. -/
def State.abdicate (s : State) : State :=
  let s1 := s.setParent 0xFF 0 0xFFFF false
  if s1.gstate = GS.locked ∧ ¬ s1.rootOffered then s1.holdOver else s1

/-- A write of GAUGE_CTL: LOCK locks both fields until compute reset, a bound partition locks SYNC_EN (R494). -/
def State.writeGaugeCtl (s : State) (who : Nat) (val : Word) : State :=
  s.byManager who Src.module fun s =>
    let locked := if s.flag GAUGE_CTL.LOCK then 3 else if s.anyBound then 1 else 0
    let s1 := s.writeWord .GAUGE_CTL 0 val locked Src.module
    if s.flag GAUGE_CTL.SYNC_EN ∧ ¬ s1.flag GAUGE_CTL.SYNC_EN then s1.goFree
    else if s1.flag GAUGE_STAT.IS_ROOT ∧ ¬ s1.flag GAUGE_CTL.ROOT_ELIG then s1.abdicate else s1

/-! ## The course change (R45, R46) -/

/-- A record of a course-change write, with its STATUS. -/
def State.crsRefuse (s : State) (status : Nat) : State := (s.setF CRS_CHG.STATUS 0 status).refuseWrite status Src.module

/-- The checks 3 to 7 of the table "Course change checks": the status of the first that fails. -/
def State.crsCheck (s : State) : Option Nat :=
  let kn := s.getF CRS_CHG.K_NEXT
  let at_ := s.getF CRS_CHG_AT.AT
  if kn < 10 ∨ kn > 16 ∨ kn = s.k then some Status.badArg
  else if at_ % 65536 ≠ 0 then some Status.badArg
  else if at_ < s.time + 262144 then some Status.window
  else if (match s.course.prevSwitch with | some t => decide (at_ < t + 33554432) | none => false) then some Status.window
  else if s.gstate ≠ GS.locked then some Status.offline
  else none

/-- Arm a change: check 2, then the others; a failing check refuses the write, with STATUS and a record (R45, R492). -/
def State.crsArm (s : State) : State :=
  if s.flag CRS_CHG.ARM then s.crsRefuse Status.busy
  else match s.crsCheck with
    | some st => s.crsRefuse st
    | none => (s.setF CRS_CHG.ARM 0 1).setF CRS_CHG.STATUS 0 Status.ok

/-- Cancel an armed change, no later than 65,536 ns before it (R46). -/
def State.crsCancel (s : State) : State :=
  if s.flag CRS_CHG.ARM ∧ s.time + 65536 ≤ s.getF CRS_CHG_AT.AT then (s.setF CRS_CHG.ARM 0 0).setF CRS_CHG.STATUS 0 Status.ok
  else s.crsRefuse Status.window

/-- A write of CRS_CHG. -/
def State.writeCrsChg (s : State) (who : Nat) (val : Word) : State :=
  if ¬ Who.isManager who then s.crsRefuse Status.denied
  else if s.flag CRS_CHG.ARM ∧ field val 0 5 ≠ s.getF CRS_CHG.K_NEXT then s.crsRefuse Status.busy
  else
    let s1 := s.setF CRS_CHG.K_NEXT 0 (field val 0 5)
    let s2 := if bit val 8 then s1.crsArm else s1
    if bit val 9 then s2.crsCancel else s2

/-- A write of CRS_CHG_AT. -/
def State.writeCrsAt (s : State) (who : Nat) (val : Word) : State :=
  if ¬ Who.isManager who then s.crsRefuse Status.denied
  else if s.flag CRS_CHG.ARM ∧ val ≠ s.reg .CRS_CHG_AT then s.crsRefuse Status.busy
  else s.setReg .CRS_CHG_AT 0 val

def execGaugeSet (who : Ident) (val : Word) (s : State) : Host.Outcome State Fault Refusal := .next (s.writeGaugeSet who.toNat val)

/-- GAUGE_LOCK: a write of GAUGE_CTL with LOCK set (R38). -/
def execGaugeLock (who : Ident) (val : Word) (s : State) : Host.Outcome State Fault Refusal :=
  .next (if bit val 8 then s.writeGaugeCtl who.toNat val else s)

/-- COURSE_CHANGE_ARM: a write of CRS_CHG with ARM set (R45). -/
def execCourseChangeArm (who : Ident) (val : Word) (s : State) : Host.Outcome State Fault Refusal :=
  .next (if bit val 8 then s.writeCrsChg who.toNat val else s)

/-- COURSE_CHANGE_CANCEL: a write of CRS_CHG with CANCEL set (R46). -/
def execCourseChangeCancel (who : Ident) (val : Word) (s : State) : Host.Outcome State Fault Refusal :=
  .next (if bit val 9 then s.writeCrsChg who.toNat val else s)

end Sys2Proof.Machine
end

