-- ==== Sys2Proof/Machine/Links.lean ====
section
/-!
DEFINITION. Machine/Links.lean: strands (R234 to R259): flits, retry, credits, the arbiter, training, verification, sparing.
-/
namespace Sys2Proof.Machine

/-! ## Helpers -/

/-- Serial difference of two 12-bit numbers (R241). -/
def diff12 (a b : Nat) : Int := serialDiff 12 a b

def State.mapStrand (s : State) (d l : Nat) (f : Strand → Strand) : State := s.setStrand d l (f (s.strand d l))

/-- The index of a strand's registers. -/
def State.sF (s : State) (f : Fld) (d l : Nat) : Nat := s.getF f (strandIx d l)
def State.setSF (s : State) (f : Fld) (d l v : Nat) : State := s.setF f (strandIx d l) v

/-- The record that errors of a strand write at most once a course (R258). -/
def State.strandRecord (s : State) (d l : Nat) : State :=
  s.recordOnce (.strand d l) { status := Status.integrity, source := Src.die d }

/-- The peer position of a strand is known to exist in the machine (R235): by the machine size for rows and columns, any optical port where
there is an optical plane (R16, R264), and every position from which an identity has come. -/
def State.peerExists (s : State) (d l : Nat) : Bool :=
  s.sF SLU_STR_STAT.PLINK d l != 0xFF ||
  (if l ≤ 6 then decide ((s.slotNo + 1 + l) % 8 ≤ s.getF TOP_MSIZE.MODS_M1)
   else if l ≤ 14 then decide ((s.boardNo + 1 + (l - 8)) % 8 ≤ s.getF TOP_MSIZE.BOARDS_M1)
   else decide (0 < s.getF TOP_MSIZE.OPT_PLANES))

/-! ## Packets of a strand that leaves ACTIVE (R274) -/

/-- Take from a strand's transmit queues the packets that move. -/
def State.moveQueued (s : State) (d l : Nat) (moves : TxPkt → Bool) : State :=
  let x := s.strand d l
  let out := x.tx.flatMap fun (e : Nat × List TxPkt) => e.2.filter moves
  let s1 := s.setStrand d l { x with tx := SMap.mapV [] (fun q => q.filter fun t => !(moves t)) x.tx }
  out.foldl (fun s t => s.requeue l t) s1

/-- A packet that came in on a strand, by its index, and has not wholly arrived. -/
def TxPkt.partFrom (k : Nat) (t : TxPkt) : Bool := decide (0 < t.missing) && (t.from?.map (· / 8)) == some k

/-- A packet whose in-strand is lost: it holds no buffer there any more, and what has not arrived stays zero (R495). -/
def TxPkt.orphan (k : Nat) (t : TxPkt) : TxPkt := if (t.from?.map (· / 8)) = some k then { t with from? := none, missing := 0 } else t

/-- The packets that a strand was forwarding as they arrived: those not begun on their out-strand are discarded, those begun are completed with
zeros, and each counts once (R495). -/
def State.orphan (s : State) (k : Nat) : State :=
  let parts := (s.link.strands.flatMap fun (e : Nat × Strand) =>
      (e.2.tx.flatMap fun (q : Nat × List TxPkt) => q.2) ++ e.2.cur.map fun (c : Nat × TxCur) => c.2.of) ++ s.route.waiting
  let n := (parts.filter (TxPkt.partFrom k)).length
  let clear := fun (q : List TxPkt) => (q.filter fun t => !(t.partFrom k)).map (TxPkt.orphan k)
  let strands := SMap.mapV {} (fun (x : Strand) => { x with
    tx := SMap.mapV [] clear x.tx
    cur := x.cur.map fun (c : Nat × TxCur) => (c.1, { c.2 with of := c.2.of.orphan k }) }) s.link.strands
  ({ s with link := { s.link with strands := strands }, route := { s.route with waiting := clear s.route.waiting } } : State).bump RTE_DROP0.NO_ROUTE 0 n

/-- A strand goes DOWN: what had begun on it is lost, a packet partly received is discarded and counted once, what had not begun moves
(R274, R495). -/
def State.strandLost (s : State) (d l : Nat) : State :=
  let s0 := s.orphan (strandIx d l)
  let x := s0.strand d l
  let s1 := x.rx.foldl (fun (s : State) (_ : Nat × List Byte) => s.bump RTE_DROP0.NO_ROUTE) s0
  let s2 := s1.setStrand d l { x with rx := [], coming := [], cur := [], replay := [], resend := none, fruitless := 0, anew := true, linkTx := [],
                                      freed := [], reported := [], nakOwed := false, lastNak := none }
  s2.moveQueued d l fun _ => true

/-! ## States (R248, R254) -/

/-- A peer link's state has changed: the peers are to be told (R271), the gauge may lose its parent (R37), waiting packets try again. -/
def State.linkChanged (s : State) (l : Nat) : State :=
  let s1 : State := { s with route := { s.route with lstateDue := SMap.insert s.route.lstateDue l s.clock } }
  let s2 := if s1.linkState l = 2 then
      ({ s1 with route := { s1.route with fan := s1.route.fan.filter fun e => e.1 % 32 != l } }).linkLost l
    else { s1 with rst := { s1.rst with rejudge := (s1.rst.rejudge.filter fun x => x != l) ++ [l] } }
  s2.retryWaiting

/-- A strand that reaches ACTIVE while the module is in stage LINKS makes its peer a member of the row or column (R434). -/
def State.noteMember (s : State) (l st : Nat) : State :=
  if st = SS.active ∧ s.getF BOOT_STAT.STAGE = 2 ∧ l < 16 then
    { s with rst := { s.rst with members := SMap.insert s.rst.members l true } }
  else s

/-- Put a strand into a state; FEC_LOCK and SWAP align the lanes anew (R248, R256). -/
def State.setStrandState (s : State) (d l st : Nat) : State :=
  let before := s.linkState l
  let old := s.strandState d l
  let s1 := ((s.setSF SLU_STR_STAT.STATE d l st).mapStrand d l fun x =>
    { x with stageStart := s.clock, phy := if st = SS.fecLock ∨ st = SS.swap then x.phy.relock else x.phy }).noteMember l st
  let s2 := if old = SS.active ∧ st ≠ SS.active then s1.moveQueued d l fun t => !(Pkt.ordered t.pkt) else s1
  let s3 := if st = SS.down ∨ st = SS.disabled then s2.strandLost d l else s2
  if s3.linkState l = before then s3 else s3.linkChanged l

/-- Begin a training attempt at DETECT; a swap in progress is abandoned with its message (R257). -/
def State.startAttempt (s : State) (d l : Nat) (a : Attempt) : State :=
  let s1 := s.setStrandState d l SS.detect
  (s1.mapStrand d l fun x =>
    { x with attempt := a, attemptStart := s.clock, far := none, initSeen := false, testing := none, swapping := none, peerSwap := none, verifyHeld := 0
             linkTx := x.linkTx.filter fun b => (b.getD 0 0).toNat != 0x06 }).setSF SLU_STR_STAT.LANES_OK d l 0

/-- A retrain (R244, R249), with its record. -/
def State.retrain (s : State) (d l : Nat) (a : Attempt) : State :=
  let s1 := (s.bump SLU_STR_CNT1.RETRAINS (strandIx d l)).record { status := Status.integrity, source := Src.die d }
  (s1.startAttempt d l a).mapStrand d l fun x => { x with fails := 0 }

/-- An attempt has failed: the next is a full training, and after the third the strand goes DOWN with a record (R249). -/
def State.attemptFails (s : State) (d l : Nat) : State :=
  let n := (s.strand d l).fails + 1
  let s1 := (s.bump SLU_STR_STAT.ATTEMPTS (strandIx d l)).mapStrand d l fun x => { x with fails := n }
  if n ≥ 3 then (s1.setStrandState d l SS.down).record { status := Status.offline, source := Src.die d }
  else s1.startAttempt d l .full

/-- The strand enters service. -/
def State.goActive (s : State) (d l : Nat) : State :=
  let x := s.strand d l
  let s1 := (s.setSF SLU_STR_STAT.ATTEMPTS d l 0).setSF SLU_STR_STAT.FAST d l (match x.attempt with | .fast => 1 | .full => 0)
  ((s1.mapStrand d l fun x => { x with fails := 0 }).setStrandState d l SS.active).retryWaiting

/-! ## Verification (R251, R252) -/

/-- The far end of a strand is the expected one (R251, R252). -/
def State.farGood (s : State) (d l : Nat) (m : IdentMsg) : Bool :=
  if l ≤ 14 then
    let p := s.peerOf l
    m.die.toNat == d && m.link.toNat == (if l ≤ 6 then 6 - l else 22 - l) && m.slot.toNat == p % 8 && m.board.toNat == p / 8 % 8 &&
      m.rackValid == s.flag RTE_SELF.RACK_VALID && m.rack.toNat == s.rackNo
  else
    m.pid.toNat == s.sF SLU_OPT_EXP.EXP_PID d l && m.link.toNat == s.sF SLU_OPT_EXP.EXP_LINK d l

/-- Compare the far end: CAL follows in a full training and ACTIVE on the fast path; a wrong far end is recorded. Flits that came meanwhile are
replayed for a good far end, by a NAK, and counted as CRC failures otherwise (R252). -/
def State.verifyStrand (s : State) (d l : Nat) : State :=
  match (s.strand d l).far with
  | none => s
  | some m =>
    if l ≥ 16 ∧ s.sF SLU_OPT_EXP.EXP_VALID d l = 0 then s
    else
      let held := (s.strand d l).verifyHeld
      let s1 := s.mapStrand d l fun x => { x with verifyHeld := 0 }
      if s.farGood d l m then
        let s2 := s1.mapStrand d l fun x => { x with nakOwed := x.nakOwed || decide (0 < held) }
        (match (s.strand d l).attempt with
         | .full => s2.setStrandState d l SS.cal
         | .fast => s2.goActive d l)
      else
        let s2 := if held = 0 then s1 else (s1.bump SLU_STR_CNT0.CRC_BAD (strandIx d l) held).strandRecord d l
        (s2.setStrandState d l SS.verifyFail).record { status := Status.integrity, source := Src.die d }

/-- CAL: the receive delay is measured, and so open; the transmit delay is trimmed until the two directions' sums agree within 0.25 ns, four
units, with the far end's delays (R253). -/
def Strand.calibrate (x : Strand) (rx slack farTx farRx : Nat) : Strand :=
  { x with rxDly := rx % 2 ^ 32, txDly := codeOf 32 ((farTx : Int) + (rx % 2 ^ 32 : Nat) - farRx + (slack % 9 : Nat) - 4) }

/-- A training stage is done. -/
def execStrandTrainingStageDone (die : Die) (link : Link) (found : StageReading) (s : State) : Host.Outcome State Fault Refusal :=
  let d := die.toNat
  let l := link.toNat
  if !(isStrand d l) || s.sF SLU_STR_CTL.LOOP d l = 1 then .next s
  else
    let st := s.strandState d l
    let x := s.strand d l
    .next (
      if st = SS.detect then
        s.setStrandState d l (match x.attempt with | .full => SS.eq | .fast => SS.fecLock)
      else if st = SS.eq then s.setStrandState d l SS.fecLock
      else if st = SS.fecLock then (s.setStrandState d l SS.init).setSF SLU_STR_STAT.LANES_OK d l found.lanes.toNat
      else if st = SS.init then (if x.initSeen then s.setStrandState d l SS.ident else s)
      else if st = SS.ident then (if x.far.isSome then s.setStrandState d l SS.verify else s)
      else if st = SS.verify then s.verifyStrand d l
      else if st = SS.cal then
        let a := s.fresh
        let b := a.2.fresh
        (b.2.mapStrand d l fun x => x.calibrate a.1 b.1 found.farTx.toNat found.farRx.toNat).goActive d l
      else s)

/-- Budgets of the stages, ns (the table "Strand states"). -/
def stageBudget (st : Nat) : Option Nat :=
  if st = SS.detect then some 1_000_000
  else if st = SS.eq then some 14_000_000
  else if st = SS.fecLock then some 500_000
  else if st = SS.init ∨ st = SS.ident ∨ st = SS.verify then some 100_000
  else if st = SS.cal then some 2_000_000
  else if st = SS.swap then some 1_000_000
  else none

/-- A stage, or a fast path, has overrun its budget; the wait of an optical strand for Ibtum does not count (R249), and a strand without a peer
stays in DETECT (R235). -/
def State.stageOverrun (s : State) (d l : Nat) : Bool :=
  let x := s.strand d l
  let st := s.strandState d l
  let waiting := st == SS.verify && decide (l ≥ 16) && s.sF SLU_OPT_EXP.EXP_VALID d l == 0
  match stageBudget st with
  | none => false
  | some b =>
    (st != SS.detect || s.peerExists d l) && !waiting && s.sF SLU_STR_CTL.LOOP d l == 0 &&
      (decide (s.clock ≥ x.stageStart + b) || (st != SS.swap && x.attempt == .fast && decide (s.clock ≥ x.attemptStart + 1_500_000)))

/-- One full training, after which the strand goes DOWN if it fails (R255). -/
def State.lastTraining (s : State) (d l : Nat) : State := (s.retrain d l .full).mapStrand d l fun x => { x with fails := 2 }

/-- A stage overruns: the attempt has failed. A swap that overruns its 1 ms has not cured the lane (DEDUCED, log entry 35). -/
def execTrainingStageTimeout (die : Die) (link : Link) (s : State) : Host.Outcome State Fault Refusal :=
  let d := die.toNat
  let l := link.toNat
  .next (if !(isStrand d l && s.stageOverrun d l) then s
    else if s.strandState d l = SS.swap then s.lastTraining d l
    else s.attemptFails d l)

/-- A strand in DOWN sees the peer's training pattern. -/
def execTrainingPatternDetect (die : Die) (link : Link) (s : State) : Host.Outcome State Fault Refusal :=
  let d := die.toNat
  let l := link.toNat
  .next (if isStrand d l && s.strandState d l == SS.down then (s.startAttempt d l .full).mapStrand d l fun x => { x with fails := 0 } else s)

/-! ## Writes of SLU_STR_CTL and SLU_OPT_EXP (R244, R252, R259) -/

/-- EN, RETRAIN and LOOP. A strand in DOWN starts again only by RETRAIN or the peer's pattern (R249). -/
def State.writeStrCtl (s : State) (who d l : Nat) (val : Word) : State :=
  if !(isStrand d l) then s
  else
    s.byManager who (Src.die d) fun s =>
      let en := s.sF SLU_STR_CTL.EN d l == 1
      let lp := s.sF SLU_STR_CTL.LOOP d l == 1
      let s1 := (s.setSF SLU_STR_CTL.EN d l (field val 0 1)).setSF SLU_STR_CTL.LOOP d l (field val 2 1)
      if ¬ bit val 0 then (if en then s1.setStrandState d l SS.disabled else s1)
      else if bit val 1 then s1.retrain d l .full
      else if !en || (lp != bit val 2 && s.strandState d l != SS.down) then (s1.startAttempt d l .full).mapStrand d l fun x => { x with fails := 0 }
      else s1

def execStrandEn (who : Ident) (die : Die) (link : Link) (val : Word) (s : State) : Host.Outcome State Fault Refusal :=
  .next (s.writeStrCtl who.toNat die.toNat link.toNat val)
/-- STRAND_RETRAIN: a write with RETRAIN set. -/
def execStrandRetrain (who : Ident) (die : Die) (link : Link) (val : Word) (s : State) : Host.Outcome State Fault Refusal :=
  .next (if bit val 1 then s.writeStrCtl who.toNat die.toNat link.toNat val else s)
def execStrandLoop (who : Ident) (die : Die) (link : Link) (val : Word) (s : State) : Host.Outcome State Fault Refusal :=
  .next (s.writeStrCtl who.toNat die.toNat link.toNat val)

/-- A write of the expected far end; a port in ACTIVE or VERIFY_FAIL goes back to VERIFY, where the far end tells its identity anew (it is then
calibrated as in a full training: DEDUCED, log entry 36). In VERIFY the wait for EXP_VALID counts against no budget (R249). -/
def State.writeOptExp (s : State) (who d l : Nat) (val : Word) : State :=
  if !(isStrand d l) || decide (l < 16) then s
  else
    s.byManager who (Src.die d) fun s =>
      let s1 := s.writeWord .SLU_OPT_EXP (strandIx d l) val 0 (Src.die d)
      let st := s1.strandState d l
      if st = SS.active ∨ st = SS.verifyFail then
        (s1.setStrandState d l SS.verify).mapStrand d l fun x =>
          { x with far := none, attempt := .full, attemptStart := s.clock, fails := 0, verifyHeld := 0 }
      else if st = SS.verify ∧ s.sF SLU_OPT_EXP.EXP_VALID d l = 0 then
        s1.mapStrand d l fun x => { x with attemptStart := x.attemptStart + (s.clock - x.stageStart), stageStart := s.clock }
      else s1

def execSluOptExpWrite (who : Ident) (die : Die) (link : Link) (val : Word) (s : State) : Host.Outcome State Fault Refusal :=
  .next (s.writeOptExp who.toNat die.toNat link.toNat val)

/-! ## Link messages (the table "Link messages") -/

/-- A body of 248 bytes. -/
def body248 (bs : List Byte) : List Byte := bs ++ List.replicate (248 - bs.length) 0

/-- Freed counts of the eight VLs. -/
def freedBytes (m : SMap Nat) : List Byte := (upFrom 0 8).flatMap fun v => leBytes 2 (SMap.get 0 m v)

def creditBody (x : Strand) : List Byte := body248 ([0x01] ++ List.replicate 15 0 ++ freedBytes x.freed)
def initBody (x : Strand) : List Byte := body248 ([0x02, 0] ++ leBytes 2 x.e ++ List.replicate 12 0 ++ freedBytes x.freed)
def swapBody (pos : Nat) : List Byte := body248 [0x06, BitVec.ofNat 8 pos]

/-- The identity message of a strand. -/
def State.identBody (s : State) (d l : Nat) : List Byte :=
  body248 ([0x03, 0x01] ++ leBytes 6 Config.pid ++ leBytes 2 s.epn ++ leBytes 1 s.rackNo ++
    leBytes 1 (s.slotNo + 8 * s.boardNo + 64 * s.getF RTE_SELF.RACK_VALID) ++ leBytes 1 d ++ leBytes 1 l ++ leBytes 1 Config.variant)

/-- A time message. -/
def timeBody (ltype : Nat) (m : TimeMsg) : List Byte :=
  body248 (leBytes 1 ltype ++ leBytes 1 (m.k.toNat + 32 * b2n m.epoch) ++ leBytes 1 m.gstate.toNat ++ leBytes 1 m.hops.toNat ++
    leBytes 2 m.rootEpn.toNat ++ leBytes 2 m.reqId.toNat ++ leBytes 8 m.t1.toNat ++ leBytes 8 m.t2.toNat ++ leBytes 8 m.t3.toNat ++
    leBytes 4 m.txDly.toNat ++ leBytes 4 m.rxDly.toNat)

/-- Queue a LINK message on a strand. -/
def State.linkSend (s : State) (d l : Nat) (body : List Byte) : State :=
  s.mapStrand d l fun x => { x with linkTx := x.linkTx ++ [body] }

/-- CREDIT and SWAP are sequenced. -/
def seqLtype (t : Nat) : Bool := t == 0x01 || t == 0x06
def knownLtype (t : Nat) : Bool := 1 ≤ t && t ≤ 6

/-- Store the eight freed counts that a peer reports. -/
def freedMap (freed : List Nat) : SMap Nat :=
  ((upFrom 0 8).zip freed).foldl (fun m e => SMap.put 0 m e.1 (e.2 % 65536)) []

/-- The receiver reports its frees: when any are unreported, and no later than 32 ns after one. -/
def execCreditSend (die : Die) (link : Link) (s : State) : Host.Outcome State Fault Refusal :=
  let d := die.toNat
  let l := link.toNat
  let x := s.strand d l
  .next (if isStrand d l && x.freed != x.reported && s.strandState d l == SS.active then
      (s.linkSend d l (creditBody x)).mapStrand d l fun x => { x with reported := x.freed }
    else s)

def execCredit (die : Die) (link : Link) (freed : List Nat) (s : State) : Host.Outcome State Fault Refusal :=
  let d := die.toNat
  let l := link.toNat
  .next (if isStrand d l then (s.mapStrand d l fun x => { x with freedByPeer := freedMap freed }).retryWaiting else s)

/-- Free the held flits up to a SEQ. -/
def Strand.freeHeld (x : Strand) (a : Nat) : Strand :=
  let rest := x.replay.filter fun h => decide (diff12 h.seq a > 0)
  { x with replay := rest, fruitless := if rest.length < x.replay.length then 0 else x.fruitless }

/-- A received INIT: the peer's E and freed counts; replay resumes from E (R250). -/
def execInit (die : Die) (link : Link) (expSeq : BitVec 12) (freed : List Nat) (s : State) : Host.Outcome State Fault Refusal :=
  let d := die.toNat
  let l := link.toNat
  let st := s.strandState d l
  .next (if isStrand d l && (st == SS.init || st == SS.swap) then
      s.mapStrand d l fun x =>
        let y := x.freeHeld ((expSeq.toNat + 4095) % 4096)
        let m := freedMap freed
        { y with initSeen := true, freedByPeer := m, seq := if x.anew then expSeq.toNat else y.seq, sent := if x.anew then m else y.sent,
                 anew := false, resend := y.replay.head?.map (·.seq) }
    else s)

/-- A received IDENT shows in the strand's registers. -/
def execIdent (die : Die) (link : Link) (m : IdentMsg) (s : State) : Host.Outcome State Fault Refusal :=
  let d := die.toNat
  let l := link.toNat
  let st := s.strandState d l
  .next (if isStrand d l && (st == SS.ident || st == SS.verify || st == SS.verifyFail) then
      ((((s.mapStrand d l fun x => { x with far := some m }).setSF SLU_STR_STAT.PLINK d l m.link.toNat).setSF SLU_STR_STAT.PDIE d l m.die.toNat).setSF
        SLU_STR_PEER.PID d l m.pid.toNat).setSF SLU_STR_PEER.EPN d l m.epn.toNat
    else s)

/-! ## Receiving flits (R239 to R242) -/

/-- The trailer's fields. -/
def trailer (bs : List Byte) : Nat := leNat (bs.drop 248)
def flitCrcGood (bs : List Byte) : Bool :=
  bs.length == 256 && crc32 (bs.take 248 ++ bs.drop 252) == natField (trailer bs) 0 32

/-- Begin a replay from a held flit; four in a row that free nothing lead to a retrain instead (R242, R244). -/
def State.startReplay (s : State) (d l : Nat) : State :=
  let x := s.strand d l
  match x.replay with
  | [] => s
  | h :: _ =>
    if x.fruitless ≥ 4 then s.retrain d l .fast
    else
      ((s.bump SLU_STR_CNT1.REPLAY (strandIx d l)).setStrand d l { x with resend := some h.seq, fruitless := x.fruitless + 1 }).strandRecord d l

/-- The ACK fields of a flit (R242): a value ahead of everything sent is ignored. -/
def State.applyAck (s : State) (d l ackt ack : Nat) : State :=
  let x := s.strand d l
  if ackt = 0 ∨ ackt = 3 ∨ diff12 ack ((x.seq + 4095) % 4096) > 0 then s
  else
    let y := x.freeHeld ack
    let z := { y with resend := match y.resend with
                                | some r => if diff12 r ack ≤ 0 then y.replay.head?.map (·.seq) else some r
                                | none => none }
    let s1 := s.setStrand d l z
    if ackt = 2 then s1.startReplay d l else s1

/-- The packet that bytes spell, once they hold it whole. -/
def Pkt.ofBytes (bs : List Byte) : Option Packet :=
  if bs.length < 48 then none
  else
    let w := fun (i : Nat) => BitVec.ofNat 64 (leNat ((bs.drop (8 * i)).take 8))
    let p : Packet := { w0 := w 0, w1 := w 1, w2 := w 2, w3 := w 3, payload := [], tag := 0 }
    let n := Pkt.payloadLen p
    if bs.length < 48 + n then none
    else some { p with payload := (bs.drop 32).take n, tag := BitVec.ofNat 128 (beNat ((bs.drop (32 + n)).take 16)) }

/-- Accept the body of a DATA flit on a VL. -/
def Strand.takeBody (x : Strand) (vl : Nat) (start : Bool) (bs : List Byte) : Strand :=
  let all := if start then bs else SMap.get [] x.rx vl ++ bs
  match Pkt.ofBytes all with
  | some p => { x with rx := SMap.put [] x.rx vl [], arrived := x.arrived ++ [(vl, p)] }
  | none => { x with rx := SMap.put [] x.rx vl all }

/-- The bytes of a packet with those that have not arrived as zeros (R270, R495), and how many they are; none before its header is there. -/
def padPacket (bs : List Byte) : Option (Packet × Nat) :=
  if bs.length < 32 then none
  else
    let w := fun (i : Nat) => BitVec.ofNat 64 (leNat ((bs.drop (8 * i)).take 8))
    let n := 48 + Pkt.payloadLen { w0 := w 0, w1 := w 1, w2 := w 2, w3 := w 3, payload := [], tag := 0 }
    (Pkt.ofBytes (bs ++ List.replicate (n - bs.length) 0)).map fun p => (p, n - bs.length)

/-- Put arrived bytes in place of the first of the `missing` zeros at the end. -/
def fillBytes (all : List Byte) (missing : Nat) (bs : List Byte) : List Byte :=
  all.take (all.length - missing) ++ bs.take missing ++ all.drop (all.length - missing + min bs.length missing)

/-- A flit's body joins the packet that is being forwarded from the buffer `k`, before or after it has begun to leave. -/
def TxPkt.fill (k : Nat) (bs : List Byte) (t : TxPkt) : TxPkt :=
  if t.from? = some k ∧ 0 < t.missing then
    { t with pkt := (Pkt.ofBytes (fillBytes (Pkt.toBytes t.pkt) t.missing bs)).getD t.pkt, missing := t.missing - bs.length }
  else t
def TxCur.fill (k : Nat) (bs : List Byte) (c : TxCur) : TxCur :=
  if c.of.from? = some k ∧ 0 < c.of.missing then
    { c with rest := fillBytes c.rest c.of.missing bs, of := { c.of with missing := c.of.missing - bs.length } }
  else c

/-- A packet is being forwarded from a buffer while it arrives. -/
def State.passing (s : State) (k : Nat) : Bool :=
  let mine := fun (t : TxPkt) => t.from? == some k && decide (0 < t.missing)
  s.route.waiting.any mine || s.link.strands.any fun (e : Nat × Strand) =>
    (e.2.tx.any fun (q : Nat × List TxPkt) => q.2.any mine) || e.2.cur.any fun (c : Nat × TxCur) => mine c.2.of

/-- A flit of a packet that is forwarded as it arrives passes on; one of a packet that has been discarded is freed at once (R246, R270). -/
def State.passOn (s : State) (d l vl : Nat) (bs : List Byte) : State :=
  let k := strandIx d l * 8 + vl
  if s.passing k then
    { s with
      link := { s.link with strands := SMap.mapV {} (fun (x : Strand) => { x with
        tx := SMap.mapV [] (fun q => q.map (TxPkt.fill k bs)) x.tx
        cur := x.cur.map fun (c : Nat × TxCur) => (c.1, c.2.fill k bs) }) s.link.strands }
      route := { s.route with waiting := s.route.waiting.map (TxPkt.fill k bs) } }
  else s.freeFlits d l vl 1

/-- Accept the body of a DATA flit: it joins the packet of its VL, or the one that is being passed on. -/
def State.takeData (s : State) (d l vl : Nat) (start : Bool) (bs : List Byte) : State :=
  let x := s.strand d l
  if !start && decide (0 < SMap.get 0 x.coming vl) then
    (s.setStrand d l { x with coming := SMap.put 0 x.coming vl (SMap.get 0 x.coming vl - 1) }).passOn d l vl bs
  else s.setStrand d l (x.takeBody vl start bs)

/-- A flit with a good CRC: its ACK fields, then its sequence number (R241). Before the far end is verified a sequenced flit is discarded and noted
(R252). A NAK that was sent for E is not owed again once E has come (the worked example of R244). -/
def State.goodFlit (s : State) (d l : Nat) (bs : List Byte) : State :=
  let t := trailer bs
  let seq := natField t 32 12
  let kind := natField t 58 2
  let ltype := (bs.getD 0 0).toNat
  let s1 := s.applyAck d l (natField t 56 2) (natField t 44 12)
  let sequenced := kind == 1 || (kind == 2 && seqLtype ltype)
  if kind = 2 ∧ ¬ knownLtype ltype then (s1.bump SLU_STR_CNT0.CRC_BAD (strandIx d l)).strandRecord d l
  else if ¬ sequenced then s1
  else if s1.strandState d l = SS.verifyFail then (s1.bump SLU_STR_CNT0.CRC_BAD (strandIx d l)).strandRecord d l
  else if s1.strandState d l < SS.cal then s1.mapStrand d l fun x => { x with verifyHeld := x.verifyHeld + 1 }
  else
    let x := s1.strand d l
    let diff := diff12 seq x.e
    if diff < 0 then s1
    else if diff > 0 then s1.setStrand d l { x with nakOwed := true }
    else
      let s2 := s1.setStrand d l { x with e := (x.e + 1) % 4096, nakOwed := x.nakOwed && (x.lastNak.map (·.1)) != some x.e }
      if kind = 1 then s2.takeData d l (natField t 60 3) (natBit t 63) (bs.take 248) else s2

/-- States in which flits arrive: from INIT on, but for DOWN. -/
def flitState (st : Nat) : Bool := 4 ≤ st && st ≤ 0xA

/-- A flit of the stream (R241): one with a bad CRC, or with a byte in an uncorrectable codeword, is discarded and a NAK is owed. -/
def State.takeFlit (s : State) (d l : Nat) (flit : List (Option Byte)) : State :=
  let bs := flit.filterMap id
  if bs.length ≠ flit.length ∨ ¬ flitCrcGood bs then
    ((s.bump SLU_STR_CNT0.CRC_BAD (strandIx d l)).strandRecord d l).mapStrand d l fun x => { x with nakOwed := true }
  else s.goodFlit d l bs

/-- Take the next flit of the stream, where one is whole. -/
def State.nextFlit (s : State) (d l : Nat) : State :=
  match (s.strand d l).phy.cutFlit with
  | some (f, p) => (s.mapStrand d l fun x => { x with phy := p }).takeFlit d l f
  | none => s

/-- Clear or set a position's bit of LANES_OK. -/
def State.laneOk (s : State) (d l pos v : Nat) : State :=
  s.setSF SLU_STR_STAT.LANES_OK d l (natSetField (s.sF SLU_STR_STAT.LANES_OK d l) pos 1 v)

/-- A lane fails (R255, R257): in service its macro is tested; in training the training restarts, which counts as an attempt; a second lane that
fails during a swap is a fault of the channel (DEDUCED, log entry 35); in VERIFY_FAIL the strand retrains (R244). -/
def State.laneFails (s : State) (d l pos : Nat) : State :=
  let st := s.strandState d l
  let x := s.strand d l
  if st = SS.active then
    ((s.setStrandState d l SS.swap).laneOk d l pos 0).mapStrand d l fun x => { x with testing := some pos, initSeen := false }
  else if st = SS.swap then
    (if x.testing = some pos ∨ x.swapping = some pos ∨ x.peerSwap = some pos then s else s.lastTraining d l)
  else if st = SS.verifyFail then s.retrain d l .fast
  else if 1 ≤ st ∧ st ≤ 7 ∧ (st ≠ SS.detect ∨ s.peerExists d l) then s.attemptFails d l
  else s

/-- A codeword arrives on a lane: corrections and uncorrectable codewords are counted (R258); a lane fails with the 16th uncorrectable codeword
in 1 ms, or when its alignment marker is not there (R255). -/
def State.takeCode (s : State) (d l : Nat) (c : Codeword) : State :=
  let ix := strandIx d l
  let v := c.lane.toNat
  let p := (s.strand d l).phy
  let t := (SMap.get {} p.lanes v).take s.clock c.symbols
  let fails := !t.aligned || decide (16 ≤ t.lane.bad.length)
  let lane := if fails then { t.lane with bad := [] } else t.lane
  let q : Phy := { p with lanes := SMap.put {} p.lanes v lane }
  let s1 := s.mapStrand d l fun x => { x with phy := q.align (q.lanes.map fun (e : Nat × LaneRx) => e.2.words.length).sum }
  let s2 := if t.fixed > 0 then (s1.bump SLU_STR_CNT0.FEC_SYM ix t.fixed).strandRecord d l else s1
  let s3 := if t.unc then (s2.bump SLU_STR_CNT0.FEC_UNC ix).strandRecord d l else s2
  if fails then s3.laneFails d l v else s3

/-- The codewords that have arrived are decoded and aligned into the strand's stream, and the next flit is taken from it. -/
def execFlitReceive (die : Die) (link : Link) (codes : List Codeword) (s : State) : Host.Outcome State Fault Refusal :=
  let d := die.toNat
  let l := link.toNat
  .next (if !(isStrand d l) || !(flitState (s.strandState d l)) then s
    else
      let s1 := codes.foldl (fun (s : State) c => s.takeCode d l c) s
      if flitState (s1.strandState d l) then s1.nextFlit d l else s1)

/-- The oldest held flit has waited 8 µs since its last transmission. -/
def execReplayTimeout (die : Die) (link : Link) (s : State) : Host.Outcome State Fault Refusal :=
  let d := die.toNat
  let l := link.toNat
  let x := s.strand d l
  .next (match x.replay with
    | h :: _ => if isStrand d l && s.strandState d l == SS.active && x.resend == none && decide (s.clock ≥ h.sent + 8000) then s.startReplay d l else s
    | [] => s)

/-! ## Sending flits (R240, R242, R247) -/

/-- A whole flit: body, then the trailer with its CRC. -/
def flitBytes (body : List Byte) (seq ack ackt kind vl : Nat) (start : Bool) : List Byte :=
  let hi := seq + ack * 2 ^ 12 + ackt * 2 ^ 24 + kind * 2 ^ 26 + vl * 2 ^ 28 + b2n start * 2 ^ 31
  let top := leBytes 4 hi
  body ++ leBytes 4 (crc32 (body ++ top)) ++ top

/-- The ACK fields of the next flit: a NAK that is owed and may be sent, else an ACK; and the strand after it (R241). -/
def State.ackFields (s : State) (x : Strand) : Nat × Strand :=
  let held := match x.lastNak with | some (e, t) => e == x.e && decide (s.clock < t + 1000) | none => false
  if x.nakOwed && !held then (2, { x with nakOwed := false, lastNak := some (x.e, s.clock) }) else (1, x)

/-- A flit leaves on the strand, and with it the codewords that it completes (R238). -/
def State.emitFlit (s : State) (d l : Nat) (f : List Byte) : State :=
  match (s.strand d l).phy.send d l f with
  | (p, codes) =>
    let s1 := (s.mapStrand d l fun x => { x with phy := p }).emit (.flit d l f)
    match codes with
    | some ws => s1.emit (.codes d l ws)
    | none => s1

/-- Put a flit on the strand; a sequenced one takes the next number and is held for replay. -/
def State.putFlit (s : State) (d l : Nat) (body : List Byte) (kind vl : Nat) (start sequenced : Bool) : State :=
  match s.ackFields (s.strand d l) with
  | (ackt, x) =>
    let f := flitBytes body x.seq ((x.e + 4095) % 4096) ackt kind vl start
    let y := if sequenced then { x with seq := (x.seq + 1) % 4096, replay := x.replay ++ [⟨x.seq, f, s.clock⟩] } else x
    let s1 := s.setStrand d l y
    let s2 := if sequenced && y.replay.length == 1536 then s1.bump SLU_STR_CNT1.STALL (strandIx d l) else s1
    s2.emitFlit d l f

/-- Send a held flit again, with the ACK fields of now. -/
def State.resendFlit (s : State) (d l seq : Nat) : State :=
  match s.ackFields (s.strand d l) with
  | (ackt, x) =>
    match x.replay.find? fun h => h.seq == seq with
    | none => s.setStrand d l { s.strand d l with resend := none }
    | some h =>
      let t := trailer h.bytes
      let f := flitBytes (h.bytes.take 248) seq ((x.e + 4095) % 4096) ackt (natField t 58 2) (natField t 60 3) (natBit t 63)
      let next := (x.replay.find? fun g => decide (diff12 g.seq seq > 0)).map (·.seq)
      (s.setStrand d l { x with resend := next, replay := x.replay.map fun g => if g.seq == seq then { g with sent := s.clock } else g }).emitFlit d l f

/-- A link of a division box is 64 flits ahead of another: it is held (R311). -/
def State.fanHeld (s : State) (l : Nat) (t : TxPkt) : Bool :=
  match t.fan with
  | none => false
  | some base =>
    match SMap.find? s.route.fan (base + l) with
    | some n => s.route.fan.any fun e => e.1 / 32 == base / 32 && decide (e.2 + 64 ≤ n)
    | none => false

/-- Count a flit that the division box has sent on a link. -/
def State.fanSent (s : State) (l : Nat) (t : TxPkt) : State :=
  match t.fan with
  | none => s
  | some base =>
    match SMap.find? s.route.fan (base + l) with
    | some n => { s with route := { s.route with fan := SMap.insert s.route.fan (base + l) (n + 1) } }
    | none => s

/-- The bytes of the next flit of a packet have all arrived (R270). -/
def TxCur.ready (c : TxCur) : Bool := decide (c.of.missing ≤ c.rest.length - 248)

/-- Two packets that keep their order in a transmit queue: of one flow, or from one receive buffer (R270, R275). -/
def TxPkt.before (t u : TxPkt) : Bool :=
  (Pkt.job t.pkt == Pkt.job u.pkt && Pkt.src t.pkt == Pkt.src u.pkt && Pkt.dst t.pkt == Pkt.dst u.pkt && Pkt.chan t.pkt == Pkt.chan u.pkt) ||
    (t.from?.isSome && t.from? == u.from?)

/-- The packet that a VL sends from now, and its place in the queue: the one that has begun, where it may go on; else the head of the queue. On
the SCHED VLs a packet whose slot it is goes before those whose slot it is not (R277), but not before one that it must follow. -/
def Strand.nextOf (x : Strand) (vl : Nat) (may : TxPkt → Bool) : Option (TxCur × Nat) :=
  match SMap.find? x.cur vl with
  | some c => if may c.of && c.ready then some (c, 0) else none
  | none =>
    let q := SMap.get [] x.tx vl
    let n := if vl / 2 = 1 then q.length else 1
    ((upFrom 0 n).zip q).findSome? fun e =>
      if may e.2 && !((q.take e.1).any fun t => t.before e.2) then some (⟨Pkt.toBytes e.2.pkt, true, e.2⟩, e.1) else none

/-- A VL has a flit that may go and a credit for it. -/
def Strand.mayVl (x : Strand) (l vl : Nat) (may : TxPkt → Bool) : Bool := (x.nextOf vl may).isSome && decide (x.credit l vl > 0)

/-- Free the flit that a forwarded packet held on the strand it came in on. -/
def State.freeFrom (s : State) (t : TxPkt) : State :=
  match t.from? with
  | some k => s.mapStrand (k / 8 / 32) (k / 8 % 32) fun x => { x with freed := SMap.put 0 x.freed (k % 8) ((SMap.get 0 x.freed (k % 8) + 1) % 65536) }
  | none => s

/-- Send the next DATA flit of a VL. -/
def State.sendVl (s : State) (d l vl : Nat) (may : TxPkt → Bool) : State :=
  let x := s.strand d l
  match x.nextOf vl may with
  | none => s
  | some (c, i) =>
    let rest := c.rest.drop 248
    let y := { x with
      sent := SMap.put 0 x.sent vl ((SMap.get 0 x.sent vl + 1) % 65536)
      tx := if c.start then SMap.put [] x.tx vl (removeAt (SMap.get [] x.tx vl) i) else x.tx
      cur := if rest.isEmpty then SMap.erase x.cur vl else SMap.insert x.cur vl { rest := rest, start := false, of := c.of } }
    (((s.setStrand d l y).putFlit d l (body248 (c.rest.take 248)) 1 vl c.start true).freeFrom c.of).fanSent l c.of

/-- The slot of the course that a flit beginning now belongs to (R39, R247). -/
def State.slotNow (s : State) : Nat := (s.time >>> (s.k - 6)) % 64

/-- A schedule entry reserves this slot on a strand (R276). -/
def State.entryNow (s : State) (id d l : Nat) : Bool :=
  s.flag RTE_SCHED_A.VALID id && s.getF RTE_SCHED_A.BANK id == s.getF RTE_BANKSW.ACTIVE && s.getF RTE_SCHED_A.LINK id == l &&
  natBit (s.getF RTE_SCHED_A.STRANDS id) d && bit (s.reg .RTE_SCHED_B id) s.slotNow &&
  (s.courseNo + 2 ^ s.getF RTE_SCHED_A.PERIOD_LOG2 id * 65536 - s.getF RTE_SCHED_A.PHASE id) % 2 ^ s.getF RTE_SCHED_A.PERIOD_LOG2 id == 0

/-- A scheduled packet may be sent in this slot: in its entry's slots, or at a forwarder in those of the job's TRANSIT entries (R277,
R278). -/
def State.sendsNow (s : State) (d l : Nat) (t : TxPkt) : Bool :=
  match t.sched with
  | some id =>
    decide (t.course ≤ s.courseNo) &&
      (if t.vl % 2 = 1 then (s.schedEntries ((s.rsetOf (Pkt.job t.pkt)).getD 16) l 1).any fun e => s.entryNow e d l else s.entryNow id d l)
  | none => false

/-- SCHED traffic may not be sent on a link (R38, R47). -/
def State.schedStopped (s : State) (l : Nat) : Bool := s.gauge.stopped || (s.linkTime l).stopped

/-- A SCHED packet may be sent in the reserved slot of its entry now. -/
def State.mayReserved (s : State) (d l : Nat) (t : TxPkt) : Bool := s.sendsNow d l t && !(s.fanHeld l t)

/-- A packet may be sent in dynamic capacity. -/
def State.mayDynamic (s : State) (l : Nat) (t : TxPkt) : Bool := t.sched == none && !(s.fanHeld l t)

/-- The VL, H2 before H1, with a SCHED packet that may be sent in the reserved slot of its entry now (R277, R278). -/
def State.reservedVl (s : State) (d l : Nat) : Option Nat :=
  if s.schedStopped l then none else [3, 2].find? fun vl => (s.strand d l).mayVl l vl (s.mayReserved d l)

/-- The VL that a dynamic class may send from: 1 SCHED outside a reserved slot, 2 DYN-ORD, 3 DYN-UNORD. -/
def State.dynamicVl (s : State) (d l cls : Nat) : Option Nat :=
  if cls = 1 ∧ s.schedStopped l then none else [2 * cls + 1, 2 * cls].find? fun vl => (s.strand d l).mayVl l vl (s.mayDynamic l)

/-- The first LINK message that may be sent now: with the replay buffer full, an unsequenced one (R242). -/
def Strand.nextLink (x : Strand) : Option (Nat × List Byte) :=
  let full := decide (x.replay.length ≥ 1536)
  ((upFrom 0 x.linkTx.length).zip x.linkTx).find? fun e => !full || !(seqLtype (e.2.getD 0 0).toNat)

/-- Send a LINK message. -/
def State.sendLinkMsg (s : State) (d l i : Nat) (body : List Byte) : State :=
  (s.mapStrand d l fun x => { x with linkTx := removeAt x.linkTx i }).putFlit d l body 2 0 false (seqLtype (body.getD 0 0).toNat)

def State.sendIdle (s : State) (d l : Nat) : State := s.putFlit d l (body248 []) 0 0 false false

/-- Flit times of a slot that LINK and CTRL flits may take while reserved SCHED traffic waits: an eighth of them, rounded up. -/
def State.ctrlShare (s : State) : Nat := ceilDiv (25 * 2 ^ s.k) (2 ^ 15)

/-- One flit time of a strand in service (R247). -/
def State.arbitrateFlit (s : State) (d l : Nat) : State :=
  let slotId := s.time >>> (s.k - 6)
  let s0 := s.mapStrand d l fun x => if x.slot = slotId then x else { x with slot := slotId, slotCtrl := 0 }
  let x := s0.strand d l
  let full := decide (x.replay.length ≥ 1536)
  let reserved := if full then none else s0.reservedVl d l
  let ctrlOk := reserved.isNone || decide (x.slotCtrl < s0.ctrlShare)
  let took : State → State := fun s => s.mapStrand d l fun x => { x with slotCtrl := x.slotCtrl + 1 }
  match x.nextLink with
  | some (i, b) => if ctrlOk then took (s0.sendLinkMsg d l i b) else (match reserved with | some vl => s0.sendVl d l vl (s0.mayReserved d l) | none => s0)
  | none =>
    match if full || !ctrlOk then none else [1, 0].find? fun vl => x.mayVl l vl fun _ => true with
    | some vl => took (s0.sendVl d l vl fun _ => true)
    | none =>
      match reserved with
      | some vl => s0.sendVl d l vl (s0.mayReserved d l)
      | none =>
        let order := (upFrom x.rr 3).map fun i => [2, 3, 1].getD (i % 3) 2
        match if full then none else order.findSome? fun cls => (s0.dynamicVl d l cls).map fun vl => (cls, vl) with
        | some (cls, vl) =>
          (s0.sendVl d l vl (s0.mayDynamic l)).mapStrand d l fun x => { x with rr := match cls with | 2 => 1 | 3 => 2 | _ => 0 }
        | none => s0.sendIdle d l

/-- A flit boundary of a strand: what it sends depends on its state. -/
def execFlitBoundary (die : Die) (link : Link) (s : State) : Host.Outcome State Fault Refusal :=
  let d := die.toNat
  let l := link.toNat
  let st := s.strandState d l
  let x := s.strand d l
  let timeMsg := ((upFrom 0 x.linkTx.length).zip x.linkTx).find? fun e => !(seqLtype (e.2.getD 0 0).toNat)
  .next (if !(isStrand d l) then s
    else if st = SS.active then (match x.resend with | some q => s.resendFlit d l q | none => s.arbitrateFlit d l)
    else if st = SS.init then s.putFlit d l (initBody x) 2 0 false false
    else if st = SS.ident ∨ st = SS.verify then s.putFlit d l (s.identBody d l) 2 0 false false
    else if st = SS.verifyFail then (match timeMsg with | some (i, b) => s.sendLinkMsg d l i b | none => s.putFlit d l (s.identBody d l) 2 0 false false)
    else if st = SS.swap then (match x.nextLink with | some (i, b) => s.sendLinkMsg d l i b | none => s.putFlit d l (initBody x) 2 0 false false)
    else if st = SS.cal then s.sendIdle d l
    else s)

/-! ## Lane sparing (R255 to R257) -/

/-- The lane of a sluice die that a strand position uses (R234). -/
def laneOf (l pos : Nat) : Nat := if l ≤ 6 then 4 * l + pos else if l ≤ 14 then 28 + 4 * (l - 8) + pos else 56 + 4 * ((l - 16) % 4) + pos

/-- The group's spare macro of a lane is free. -/
def State.spareFree (s : State) (d lane : Nat) : Bool := !(bit (s.reg .SLU_SPARE d) (8 * (lane / 18) + 7))

/-- A lane loses CDR lock or codeword alignment (R255). -/
def execLaneFail (die : Die) (link : Link) (pos : BitVec 2) (s : State) : Host.Outcome State Fault Refusal :=
  let d := die.toNat
  let l := link.toNat
  .next (if isStrand d l then s.laneFails d l pos.toNat else s)

/-- The loopback test ends: a failed macro with a free spare is swapped; a lane that the peer swaps needs no more than its swap (R257); anything
else leads to one full training. -/
def execLoopbackTestDone (die : Die) (link : Link) (pos : BitVec 2) (passed : Bool) (s : State) : Host.Outcome State Fault Refusal :=
  let d := die.toNat
  let l := link.toNat
  let p := pos.toNat
  let lane := laneOf l p
  .next (if !(isStrand d l) || (s.strand d l).testing != some p then s
    else if !passed && s.spareFree d lane then
      let g := lane / 18
      let w := natSetField (s.reg .SLU_SPARE d).toNat (8 * g) 8 (lane + 128)
      let s1 := ((s.setReg .SLU_SPARE d (BitVec.ofNat 64 w)).setSF SLU_STR_STAT.SPARED d l 1).setSF SLU_STR_STAT.SPARED_POS d l p
      (s1.mapStrand d l fun x => { x with testing := none, swapping := some p, initSeen := false }).linkSend d l (swapBody p)
    else if passed && (s.strand d l).peerSwap == some p then s.mapStrand d l fun x => { x with testing := none }
    else s.lastTraining d l)

/-- A received SWAP: the peer replaces a lane; one procedure covers both ends (R257). -/
def execSwap (die : Die) (link : Link) (pos : BitVec 2) (s : State) : Host.Outcome State Fault Refusal :=
  let d := die.toNat
  let l := link.toNat
  .next (if !(isStrand d l) then s
    else if s.strandState d l = SS.active then
      ((s.setStrandState d l SS.swap).laneOk d l pos.toNat 0).mapStrand d l fun x => { x with initSeen := false, peerSwap := some pos.toNat }
    else if s.strandState d l = SS.swap then s.mapStrand d l fun x => { x with peerSwap := some pos.toNat }
    else s)

/-- A swap completes once INIT has been exchanged: replay resumes; the die that swapped records it, and the macro joins the fuse map. -/
def execSwapComplete (die : Die) (link : Link) (s : State) : Host.Outcome State Fault Refusal :=
  let d := die.toNat
  let l := link.toNat
  let x := s.strand d l
  .next (if !(isStrand d l) || s.strandState d l != SS.swap || x.testing.isSome || !x.initSeen then s
    else
      let s1 := ((s.setSF SLU_STR_STAT.LANES_OK d l 0xF).mapStrand d l fun x => { x with swapping := none, peerSwap := none }).setStrandState d l SS.active
      match x.swapping with
      | none => s1
      | some p =>
        let s2 := (s1.bump SLU_STR_CNT1.SWAPS (strandIx d l)).record { status := Status.ok, source := Src.die d }
        s2.addFieldEntry 4 (d + 4 * laneOf l p))

end Sys2Proof.Machine
end

