-- ==== Sys2Proof/Machine/Remote.lean ====
section
/-!
DEFINITION. Machine/Remote.lean: route sets and schedules (R264 to R266, R276 to R280), the checks of received packets (R289), forwarding
(R270, R273, R278), and the landing of remote operations (R196 to R202, R281 to R288).
-/
namespace Sys2Proof.Machine

/-! ## Writes of the RTE block -/

/-- A partition of the module is bound to the job of a route set. -/
def State.rsetBound (s : State) (i : Nat) : Bool := !(s.partsOf (s.getF RTE_RSET_A.JOB i)).isEmpty

/-- RTE_SELF locks while any partition is bound. -/
def State.writeRteSelf (s : State) (who : Nat) (val : Word) : State :=
  s.byManager who (Src.die 0) fun s =>
    s.writeWord .RTE_SELF 0 val (if s.anyBound then Reg.mask .RTE_SELF 0 .rwl else 0) (Src.die 0)

/-- RTE_RSET_B and RTE_RACK lock while a partition is bound to the route set's job (R266). -/
def State.writeRsetPart (s : State) (who : Nat) (r : Reg) (ix i : Nat) (val : Word) : State :=
  s.byManager who (Src.die 0) fun s => s.writeWord r ix val (if s.rsetBound i then r.mask 0 .rwl else 0) (Src.die 0)

/-- The checks of the table "Route set checks" on a route set whose fields are written: the status of the first that fails. -/
def State.rsetCheck (s : State) (i : Nat) : Option Nat :=
  let job := s.getF RTE_RSET_A.JOB i
  let others := (upFrom 0 16).filter fun j => j != i && s.flag RTE_RSET_A.VALID j
  let blo := s.getF RTE_RSET_B.BOARD_LO i
  let bhi := s.getF RTE_RSET_B.BOARD_HI i
  let slo := s.getF RTE_RSET_B.SLOT_LO i
  let shi := s.getF RTE_RSET_B.SLOT_HI i
  let racks := upFrom 0 256
  let load := ((i :: others).map fun j => s.sliceSize j * (s.getF RTE_RSET_B.ORD_CHANS_M1 j + 1)).sum
  if !(s.flag RTE_SELF.RACK_VALID) then some Status.badArg
  else if job == 0 || others.any fun j => s.getF RTE_RSET_A.JOB j == job then some Status.badArg
  else if !(decide (blo ≤ bhi) && decide (bhi ≤ s.getF TOP_MSIZE.BOARDS_M1) && decide (slo ≤ shi) && decide (shi ≤ s.getF TOP_MSIZE.MODS_M1) &&
      s.inSlice i s.epn && racks.all fun r => !(s.rackIn i r) || decide (r ≤ s.getF TOP_MSIZE.RACKS_M1)) then some Status.badArg
  else if !(racks.all fun r => !(s.rackReach i r) || (s.rackIn i r && r != s.rackNo)) then some Status.badArg
  else if load > 1048576 then some Status.noResource
  else if !(s.slotHolds (s.getF RTE_RSET_A.KEY i) job (s.flag RTE_RSET_A.KGEN_TX i)) then some Status.badArg
  else none

/-- The key slot of a route set that has come into force is in use from then on (R409). -/
def State.nameSlot (s : State) (slot : Nat) : State :=
  { s with sec := { s.sec with slots := SMap.insert s.sec.slots slot { SMap.get {} s.sec.slots slot with named := true } } }

/-- A write of RTE_RSET_A: locks (R266), the generations it names (R408), the detour of waiting traffic (R272), and the checks where VALID rises
(R265). -/
def State.writeRsetA (s : State) (who i : Nat) (val : Word) : State :=
  s.byManager who (Src.die 0) fun s =>
    let old := s.reg .RTE_RSET_A i
    let was := s.flag RTE_RSET_A.VALID i
    let s1 := s.writeWord .RTE_RSET_A i val (if s.rsetBound i then Reg.mask .RTE_RSET_A 0 .rwl else 0) (Src.die 0)
    let holds := fun (g : Nat) => s1.slotHolds (s1.getF RTE_RSET_A.KEY i) (s1.getF RTE_RSET_A.JOB i) (g == 1)
    let rx := s1.getF RTE_RSET_A.KGEN_RX i
    let good := holds (s1.getF RTE_RSET_A.KGEN_TX i) && (!(natBit rx 0) || holds 0) && (!(natBit rx 1) || holds 1)
    let s2 := if good then s1
      else ((s1.setF RTE_RSET_A.KGEN_TX i (field old 3 1)).setF RTE_RSET_A.KGEN_RX i (field old 4 2)).refuseWrite Status.badArg (Src.die 0)
    let s2 := if s2.flag RTE_RSET_A.ORD_DETOUR i && !(bit old 2) then s2.retryWaiting else s2
    if !was && s2.flag RTE_RSET_A.VALID i then
      (match (s2.setF RTE_RSET_A.VALID i 0).rsetCheck i with
       | some st => (s2.setF RTE_RSET_A.VALID i 0).refuseWrite st (Src.die 0)
       | none => s2.nameSlot (s2.getF RTE_RSET_A.KEY i))
    else s2

def execRouteSetValidate (who : Ident) (rset : BitVec 4) (val : Word) (s : State) : Host.Outcome State Fault Refusal :=
  .next (if bit val 0 then s.writeRsetA who.toNat rset.toNat val else s)

def execRouteSetInvalidate (who : Ident) (rset : BitVec 4) (val : Word) (s : State) : Host.Outcome State Fault Refusal :=
  .next (if bit val 0 then s else s.writeRsetA who.toNat rset.toNat val)

/-- Writes to an entry of the active bank of a bound job are ignored (R276). -/
def State.schedHeld (s : State) (n : Nat) : Bool :=
  s.getF RTE_SCHED_A.BANK n == s.getF RTE_BANKSW.ACTIVE && s.rsetBound (s.getF RTE_SCHED_A.RSET n)

/-- The refusals of R280. -/
def State.schedBad (s : State) (n : Nat) : Bool :=
  let slots := s.reg .RTE_SCHED_B n
  let strands := s.getF RTE_SCHED_A.STRANDS n
  let link := s.getF RTE_SCHED_A.LINK n
  let others := ((s.regs.filter fun e => e.1 % 256 == Reg.num .RTE_SCHED_A && bit e.2 0).map fun e => e.1 / 256).filter fun m => m != n
  !(s.flag RTE_RSET_A.VALID (s.getF RTE_SCHED_A.RSET n)) || !(isLink link) || strands == 0 ||
  others.any fun m => s.getF RTE_SCHED_A.BANK m == s.getF RTE_SCHED_A.BANK n && s.getF RTE_SCHED_A.LINK m == link &&
    (s.getF RTE_SCHED_A.STRANDS m &&& strands) != 0 && (s.reg .RTE_SCHED_B m &&& slots) != 0

def State.writeSchedA (s : State) (who n : Nat) (val : Word) : State :=
  s.byManager who (Src.die 0) fun s =>
    if s.schedHeld n then s.refuseWrite Status.denied (Src.die 0)
    else
      let s1 := s.writeWord .RTE_SCHED_A n val 0 (Src.die 0)
      if bit val 0 && s1.schedBad n then (s1.setF RTE_SCHED_A.VALID n 0).refuseWrite Status.badArg (Src.die 0) else s1

def State.writeSchedB (s : State) (who n : Nat) (val : Word) : State :=
  s.byManager who (Src.die 0) fun s => if s.schedHeld n then s.refuseWrite Status.denied (Src.die 0) else s.setReg .RTE_SCHED_B n val

/-- SCHED_ENTRY_VALIDATE: a write of RTE_SCHED_A with VALID set. -/
def execSchedEntryValidate (who : Ident) (n : BitVec 12) (val : Word) (s : State) : Host.Outcome State Fault Refusal :=
  .next (if bit val 0 then s.writeSchedA who.toNat n.toNat val else s)

/-! ### The bank swap (R279) -/

def State.bankRefuse (s : State) (status : Nat) : State := (s.setF RTE_BANKSW.STATUS 0 status).refuseWrite status (Src.die 0)

/-- Arm a swap: checks 2, 4, 5 and 7 of the course change. -/
def State.bankArm (s : State) : State :=
  let at_ := (s.reg .RTE_BANKSW_AT).toNat
  if s.flag RTE_BANKSW.ARM then s.bankRefuse Status.busy
  else if at_ % 65536 ≠ 0 then s.bankRefuse Status.badArg
  else if at_ < s.time + 262144 then s.bankRefuse Status.window
  else if s.gstate ≠ GS.locked then s.bankRefuse Status.offline
  else (s.setF RTE_BANKSW.ARM 0 1).setF RTE_BANKSW.STATUS 0 Status.ok

def State.bankCancel (s : State) : State :=
  if s.flag RTE_BANKSW.ARM ∧ s.time + 65536 ≤ (s.reg .RTE_BANKSW_AT).toNat then
    (s.setF RTE_BANKSW.ARM 0 0).setF RTE_BANKSW.STATUS 0 Status.ok
  else s.bankRefuse Status.window

def State.writeBanksw (s : State) (who : Nat) (val : Word) : State :=
  if !(Who.isManager who) then s.bankRefuse Status.denied
  else
    let s1 := if bit val 0 then s.bankArm else s
    if bit val 1 then s1.bankCancel else s1

def State.writeBankswAt (s : State) (who : Nat) (val : Word) : State :=
  if !(Who.isManager who) then s.refuseWrite Status.denied (Src.die 0)
  else if s.flag RTE_BANKSW.ARM ∧ val ≠ s.reg .RTE_BANKSW_AT then s.bankRefuse Status.busy
  else s.setReg .RTE_BANKSW_AT 0 val

def execBankSwapArm (who : Ident) (val : Word) (s : State) : Host.Outcome State Fault Refusal :=
  .next (if bit val 0 then s.writeBanksw who.toNat val else s)

def execBankSwapCancel (who : Ident) (val : Word) (s : State) : Host.Outcome State Fault Refusal :=
  .next (if bit val 1 then s.writeBanksw who.toNat val else s)

/-- Toggle the active bank for a switch or swap at a gauge value: once where both fall on it. -/
def State.toggleBank (s : State) (t : Nat) : State :=
  if s.route.lastToggle = some t then s
  else { s.setF RTE_BANKSW.ACTIVE 0 (1 - s.getF RTE_BANKSW.ACTIVE) with route := { s.route with lastToggle := some t } }

def execBankSwap (s : State) : Host.Outcome State Fault Refusal :=
  let t := (s.reg .RTE_BANKSW_AT).toNat
  .next (if s.flag RTE_BANKSW.ARM && decide (t ≤ s.time) then (s.setF RTE_BANKSW.ARM 0 0).toggleBank t else s)

/-! ## Groups (R296) -/

/-- A module's coordinate on a group's axis: slot, board or rack. -/
def axisOf (axis epn : Nat) : Nat := if axis = 0 then epn % 8 else if axis = 1 then epn / 8 % 8 else epn / 64

/-- The own EPN with another coordinate on an axis. -/
def State.epnOn (s : State) (axis x : Nat) : Nat :=
  if axis = 0 then epnAt s.rackNo s.boardNo x else if axis = 1 then epnAt s.rackNo x s.slotNo else epnAt x s.boardNo s.slotNo

/-- The members' coordinates, ascending. -/
def State.groupCoords (s : State) (g : Nat) : List Nat :=
  if s.getF COL_GRP_A.AXIS g = 2 then (upFrom 0 256).filter fun r => bit (s.reg .COL_GMASK (4 * g + r / 64)) (r % 64)
  else
    let lo := s.getF COL_GRP_A.LO g
    upFrom lo (s.getF COL_GRP_A.HI g + 1 - lo)

/-- The members' EPNs, in rank order. -/
def State.members (s : State) (g : Nat) : List Nat := (s.groupCoords g).map (s.epnOn (s.getF COL_GRP_A.AXIS g))

def State.groupRoot (s : State) (g : Nat) : Nat := s.epnOn (s.getF COL_GRP_A.AXIS g) (s.getF COL_GRP_A.ROOT g)

/-- The members but this module. -/
def State.peersIn (s : State) (g : Nat) : List Nat := (s.members g).filter fun e => e != s.epn

/-- This module is a member of the valid group that a group address names, and the group is the route set's. -/
def State.groupHere (s : State) (i dst : Nat) : Bool :=
  let g := dst - 0x8000
  isGroup dst && s.flag COL_GRP_A.VALID g && s.getF COL_GRP_A.RSET g == i && (s.members g).any (· == s.epn)

/-! ## The receive checks (R289) -/

/-- Check 1: type, reserved bits, LEN_M1, ARG and payload. -/
def Pkt.sane (p : Packet) : Bool :=
  let t := Pkt.type p
  let arg := Pkt.arg p
  let empty := Pkt.lenM1 p == 0
  let status := fun (c : Nat) => decide (c ≤ 0x0D)
  field p.w0 12 4 == 0 && field p.w2 53 11 == 0 && p.payload.length == Pkt.payloadLen p && (t == PT.signal || Pkt.addr p % 4 == 0) &&
  (if t = PT.put then Pkt.last p || arg / 65536 == 0
   else if t = PT.get then arg == 0
   else if t = PT.getRsp then decide (arg < 256) && status arg
   else if t = PT.signal then empty && decide (1 ≤ arg) && decide (arg ≤ 0x7FFF_FFFF)
   else if t = PT.ack then empty && decide (arg < 256) && status arg
   else if t = PT.cbcast ∨ t = PT.creduce then true
   else if t = PT.cctl then empty && decide (arg < 4096) && decide (1 ≤ arg / 256) && decide (arg / 256 ≤ 4) && status (arg % 256)
   else if t = PT.cnak then empty && decide (arg < 256) && status arg
   else if t = PT.abort then empty && decide (arg < 2 ^ 29) && status (arg / 65536 % 256)
   else if t = PT.lstate then empty && decide (arg < 0x300) && isLink (arg % 256)
   else false)

/-- Check 2: the counter of a packet whose stamp is out of range (R43, R45). -/
def State.outOfAge (s : State) (p : Packet) : Option Fld :=
  if Pkt.epoch p != s.epoch && s.course.oldStale then some CRS_STALE.COUNT
  else
    let k := if Pkt.epoch p = s.epoch then s.k else s.getF CRS_CHG.K_PREV
    let age := diff16 ((s.time >>> k) % 65536) (Pkt.course p)
    if age > 256 then some CRS_STALE.COUNT else if age < -1 then some CRS_FUTURE.COUNT else none

/-- Check 3: an LSTATE of a row or column peer, or a packet of a route set's job inside its slice, on a module that has its rack (R260). -/
def State.inJob (s : State) (l : Nat) (p : Packet) : Bool :=
  if Pkt.job p = 0 ∨ Pkt.type p = PT.lstate then
    Pkt.job p == 0 && Pkt.type p == PT.lstate && decide (l ≤ 14) && Pkt.src p == s.peerOf l && Pkt.dst p == s.epn
  else
    match (if s.flag RTE_SELF.RACK_VALID then s.rsetOf (Pkt.job p) else none) with
    | none => false
    | some i =>
      s.inSlice i (Pkt.src p) && s.inSlice i (s.peerOf l) &&
        (s.inSlice i (Pkt.dst p) || (Pkt.type p == PT.cbcast && s.groupHere i (Pkt.dst p)))

/-- Check 5: the route set's mode, and an accepted generation. -/
def State.modeGood (s : State) (p : Packet) : Bool :=
  Pkt.job p == 0 ||
    (match s.rsetOf (Pkt.job p) with
     | some i => Pkt.mode p == s.flag RTE_RSET_A.MODE i && natBit (s.getF RTE_RSET_A.KGEN_RX i) (b2n (Pkt.kgen p))
     | none => false)

/-- The job that a record of a packet names. -/
def State.pktJob (s : State) (p : Packet) : Option (Nat × Nat × Nat) := if Pkt.job p = 0 then none else some (s.jobRef (Pkt.job p))

/-- Take a packet out of its strand's receive buffer; the VL whose flits it holds, none where it does not stand there. -/
def State.takeArrived (s : State) (d l : Nat) (p : Packet) : Option Nat × State :=
  let x := s.strand d l
  match x.arrived.findIdx? fun e => e.2 == p with
  | some i => ((x.arrived[i]?).map (·.1), s.setStrand d l { x with arrived := removeAt x.arrived i })
  | none => (none, s)

/-- A tag that does not verify (R294). -/
def State.authFail (s : State) (d : Nat) (p : Packet) : State :=
  ((s.bump RTE_DROP0.AUTH).record { status := Status.integrity, source := Src.die d, sev := .partitionFatal, job := s.pktJob p }).raiseAbort
    (Pkt.job p) Status.jobAbort 5

/-- The route set and out-link of a packet that this module forwards; none where it is dropped (R270, R273, R290). -/
def State.wayOn (s : State) (p : Packet) : Option (Nat × Nat) :=
  match s.rsetOf (Pkt.job p) with
  | none => none
  | some i =>
    match s.forwardLink i (Pkt.dst p) with
    | none => none
    | some o => if s.linkState o == 2 || !(s.inSlice i (s.peerOf o)) then none else some (i, o)

/-- Send a forwarded packet on its out-link: on the strand of the same die while that is ACTIVE, else by the source's rule (R270, R274). A SCHED
packet without a TRANSIT entry goes in dynamic capacity and counts as an overrun (R278). -/
def State.passTo (s : State) (i o : Nat) (from_ : Option Nat) (missing d : Nat) (p : Packet) : State :=
  let ids := if Pkt.cls p = 1 then s.schedEntries i o 1 else []
  let courses := ids.map s.transferCourse
  let t : TxPkt := { pkt := p, vl := vlOf (Pkt.cls p) true, sched := ids.head?, course := courses.foldl min (courses.headD 0)
                     from? := from_, missing := missing }
  let same := (s.activeDies o).any (· == d)
  let e := if same then d else ((s.chooseStrand o t (Pkt.ordered p)).1).getD d
  let s1 := if Pkt.cls p = 1 ∧ ids = [] then s.overrunOn e o t else s
  if same then s1.queueOn d o t else s1.sendOn o t

/-- Forward a packet, or drop it. -/
def State.forward (s : State) (vl : Option Nat) (d l : Nat) (p : Packet) : State :=
  match s.wayOn p with
  | none => (s.bump RTE_DROP0.NO_ROUTE).consume vl d l p
  | some (i, o) => s.passTo i o (vl.map fun v => strandIx d l * 8 + v) 0 d p

/-- The checks that every die makes of a header (1 to 3): the state after the packet is dropped, none where it passes. -/
def State.headFails (s : State) (d l : Nat) (p : Packet) : Option State :=
  if !(Pkt.sane p) then some ((s.bump RTE_DROP0.BAD_HDR).recordOnce (.badHeader d) { status := Status.badHeader, source := Src.die d })
  else
    match s.outOfAge p with
    | some f => some ((s.bump f).recordOnce (.staleGen d (Pkt.job p)) { status := Status.staleGen, source := Src.die d, job := s.pktJob p })
    | none =>
      if !(s.inJob l p) then
        some ((s.bump RTE_DROP0.FOREIGN).recordOnce (.denied (Pkt.job p)) { status := Status.denied, source := Src.die d, job := s.pktJob p })
      else none

/-- Apply the receive checks to a packet: it is dropped, forwarded, or handed over with its plaintext. The landing that is handed the packet
frees its flits. -/
def State.receive (s : State) (d l : Nat) (p : Packet) (deliver : Option Nat → List Byte → State → State) : State :=
  match s.takeArrived d l p with
  | (vl, s1) =>
    match s1.headFails d l p with
    | some s2 => s2.consume vl d l p
    | none =>
      if Pkt.dst p != s1.epn && !(isGroup (Pkt.dst p)) then s1.forward vl d l p
      else if !(s1.modeGood p) then (s1.bump RTE_DROP0.FOREIGN).consume vl d l p
      else
        match s1.open? p with
        | (none, s2) => (s2.authFail d p).consume vl d l p
        | (some pt, s2) =>
          if Pkt.type p != PT.abort && s2.fenced p then (s2.bump RTE_DROP1.LATE).consume vl d l p else deliver vl pt s2

/-- A packet ends at this module. -/
def State.endsHere (s : State) (p : Packet) : Bool := Pkt.dst p == s.epn || isGroup (Pkt.dst p)

/-- Every earlier PUT and SIGNAL of a command's flow has landed. -/
def State.earlierLanded (s : State) (p : Packet) : Bool :=
  decide (diff32 (s.dstFlow (flowKey (Pkt.job p) (Pkt.src p) (Pkt.chan p))).through (Pkt.count p) ≥ 0)

/-- A PUT or SIGNAL of an ORDERED job whose earlier writes have not landed: it may not land yet (R197). -/
def State.landsLater (s : State) (d l : Nat) (p : Packet) : Bool :=
  (Pkt.type p == PT.put || Pkt.type p == PT.signal) && !(Pkt.mode p) && s.endsHere p && (s.headFails d l p).isNone && s.modeGood p &&
    !(s.fenced p) && !(s.earlierLanded p)

/-- An earlier packet of the same receive buffer goes first: on the VLs that keep arrival order every one, on a DYN-UNORD VL one that is
forwarded too (R270, R284). -/
def State.behind (s : State) (vl : Nat) (earlier : List (Nat × Packet)) (p : Packet) : Bool :=
  earlier.any fun e => e.1 == vl && (decide (vl < 6) || (!(s.endsHere e.2) && !(s.endsHere p)))

/-- It is a packet's turn to leave the receive buffer. -/
def State.itsTurn (s : State) (d l : Nat) (p : Packet) : Bool :=
  let q := (s.strand d l).arrived
  (match q.findIdx? fun e => e.2 == p with
   | some i => !(s.behind ((q[i]?.map (·.1)).getD 0) (q.take i) p)
   | none => true) && !(s.landsLater d l p)

/-- A row of one packet type: a packet of that type which ends here, once it is its turn. -/
def State.packetRow (s : State) (t d l : Nat) (p : Packet) (deliver : Option Nat → List Byte → State → State) : State :=
  if isStrand d l && Pkt.type p == t && s.endsHere p && s.itsTurn d l p then s.receive d l p deliver else s

/-- The VL of a packet that has only begun to arrive, and the bytes that are still missing (R270). -/
def State.arriving (s : State) (d l : Nat) (p : Packet) : Option (Nat × Nat) :=
  let x := s.strand d l
  x.rx.findSome? fun (e : Nat × List Byte) =>
    match padPacket e.2 with
    | some (q, m) => if q = p ∧ 0 < m ∧ ¬ s.behind e.1 x.arrived p then some (e.1, m) else none
    | none => none

/-- Forward a packet while it arrives, or discard it with what is still to come (R270). -/
def State.receivePart (s : State) (d l vl missing : Nat) (p : Packet) : State :=
  let x := s.strand d l
  let s1 := s.setStrand d l { x with rx := SMap.put [] x.rx vl [], coming := SMap.put 0 x.coming vl (flitsOf missing) }
  let got := flitsOf (48 + Pkt.payloadLen p) - flitsOf missing
  match s1.headFails d l p with
  | some s2 => s2.freeFlits d l vl got
  | none =>
    match s1.wayOn p with
    | none => (s1.bump RTE_DROP0.NO_ROUTE).freeFlits d l vl got
    | some (i, o) => s1.passTo i o (some (strandIx d l * 8 + vl)) missing d p

/-- A packet that does not end here, or whose TYPE is reserved; it need not have arrived whole (R270). -/
def execPacketForward (die : Die) (link : Link) (pkt : Packet) (s : State) : Host.Outcome State Fault Refusal :=
  let d := die.toNat
  let l := link.toNat
  let ends := 1 ≤ Pkt.type pkt && Pkt.type pkt ≤ 0xB && s.endsHere pkt
  .next (if !(isStrand d l) || ends then s
    else
      match s.arriving d l pkt with
      | some (vl, m) => s.receivePart d l vl m pkt
      | none => if s.itsTurn d l pkt then s.receive d l pkt fun vl _ s => s.consume vl d l pkt else s)

/-! ## Landing (R196 to R199, R282 to R288) -/

/-- Every byte of a range lies in the grants of the job's partitions (R157, R288). -/
def State.jobRange (s : State) (job a n : Nat) : Bool :=
  ((match region a with | .cistern | .tier | .scratch => true | _ => false) && region a == region (a + n - 1) &&
    rangeAll (fun x => (s.partsOf job).any fun q => s.granted q x) a n) || (s.partsOf job).any fun q => s.controlGrant q a n

/-- Land bytes that a packet brings; in control space as a write of the first core of the partition that holds the grant (DESIGN CHOICE, log entry
30). -/
def State.landFar (s : State) (job a : Nat) (data : List Byte) (poisoned : Bool) : State :=
  let q := ((s.partsOf job).find? fun q => s.controlGrant q a data.length).getD 0
  s.landHome ((s.coresOf q).headD 0) a data poisoned

/-- A batten of a partition bound to the job. -/
def State.jobBatten (s : State) (job b : Nat) : Bool :=
  match s.partOfSlate (b / 4096) with
  | some q => s.bound q && s.jobOf q == job
  | none => false

/-- A remote add that is dropped (R212). -/
def State.dropAdd (s : State) (d job : Nat) : State :=
  (s.bump BTN_DROP.COUNT).recordOnce (.other 212 job) { status := Status.denied, source := Src.die d, job := some (s.jobRef job) }

/-- Apply a remote add (R212). -/
def State.remoteAdd (s : State) (d job b v : Nat) : State := if s.jobBatten job b then s.batAdd b v else s.dropAdd d job

/-- The key of the flow that a received command belongs to. -/
def Pkt.flow (p : Packet) : Nat := flowKey (Pkt.job p) (Pkt.src p) (Pkt.chan p)

/-- Acknowledge a PUT or SIGNAL. -/
def State.sendAck (s : State) (p : Packet) (status : Nat) : State :=
  s.send { type := PT.ack, job := Pkt.job p, dst := Pkt.src p, gen := Pkt.gen p, chan := Pkt.chan p, count := Pkt.count p, arg := status }

/-- Step past the counts that have landed in a row. -/
def DstFlow.advance (f : DstFlow) : Nat → DstFlow
  | 0 => f
  | n + 1 => if f.above.any (· == f.through) then
      DstFlow.advance { f with through := (f.through + 1) % 2 ^ 32, above := f.above.filter fun c => c != f.through } n
    else f

/-- A command has landed whole. -/
def DstFlow.landed (f : DstFlow) (c : Nat) : DstFlow :=
  let g := { f with parts := f.parts.filter fun x => x.count != c }
  if diff32 c f.through < 0 ∨ f.above.any (· == c) then g
  else DstFlow.advance { g with above := f.above ++ [c] } (f.above.length + 1)

def State.markLanded (s : State) (p : Packet) : State := s.setDstFlow (Pkt.flow p) ((s.dstFlow (Pkt.flow p)).landed (Pkt.count p))

/-- Land a PUT packet with its plaintext payload; with the last of its command to land, the RSIG add and the ACK follow (R282). -/
def State.landPut (s : State) (d : Nat) (p : Packet) : State :=
  let s1 := s.landFar (Pkt.job p) (Pkt.addr p) p.payload (Pkt.poison p)
  let f := s1.dstFlow (Pkt.flow p)
  let x := (f.parts.find? fun x => x.count == Pkt.count p).getD ⟨Pkt.count p, 0, none⟩
  let y : Partial := { x with got := x.got + 1, total := if Pkt.last p then some (Pkt.arg p / 65536 + 1) else x.total }
  if y.total = some y.got then
    let s2 := s1.markLanded p
    let s3 := if Pkt.rsig p then s2.remoteAdd d (Pkt.job p) (Pkt.arg p % 65536) 1 else s2
    s3.sendAck p Status.ok
  else s1.setDstFlow (Pkt.flow p) { f with parts := (f.parts.filter fun x => x.count != Pkt.count p) ++ [y] }

/-- Apply a SIGNAL and acknowledge it (R282, R286). -/
def State.applySignal (s : State) (d : Nat) (p : Packet) : State :=
  ((s.remoteAdd d (Pkt.job p) (Pkt.addr p % 65536) (Pkt.arg p)).markLanded p).sendAck p Status.ok

/-- Bytes of a die's hold store in use. -/
def State.holdUsed (s : State) (d : Nat) : Nat :=
  ((s.route.holds.filter fun h => h.die == d && !h.parked).map fun h => 48 + h.pkt.payload.length).sum

/-- Hold a packet, or park it in its receive buffer while the hold store is full (R284). -/
def State.hold (s : State) (vl : Option Nat) (d l : Nat) (p : Packet) : State :=
  let fits := decide (s.holdUsed d + 48 + p.payload.length ≤ 8388608)
  let s1 : State := { s with route := { s.route with holds := s.route.holds ++ [⟨d, l, vl, p, !fits⟩] } }
  if fits then s1.consume vl d l p else s1.bump RTE_DROP1.PARKED

/-- A held packet lands at once, or waits in UNORDERED mode for its earlier writes (R198, R284). -/
def State.landOrHold (s : State) (vl : Option Nat) (d l : Nat) (p : Packet) : State :=
  let holds := Pkt.mode p && (Pkt.final p || Pkt.type p == PT.signal) && !(s.earlierLanded p)
  if holds then s.hold vl d l p
  else if Pkt.type p = PT.signal then (s.consume vl d l p).applySignal d p
  else (s.consume vl d l p).landPut d p

def execPutPacket (die : Die) (link : Link) (pkt : Packet) (s : State) : Host.Outcome State Fault Refusal :=
  let d := die.toNat
  let l := link.toNat
  .next (s.packetRow PT.put d l pkt fun vl pt s =>
    let range := s.jobRange (Pkt.job pkt) (Pkt.addr pkt) (Pkt.len pkt)
    let batten := !(Pkt.rsig pkt) || s.jobBatten (Pkt.job pkt) (Pkt.arg pkt % 65536)
    if range && batten then s.landOrHold vl d l { pkt with payload := pt }
    else
      let s1 := (s.consume vl d l pkt).bump RTE_DROP1.DENIED
      let s2 := if !batten && Pkt.last pkt then s1.dropAdd d (Pkt.job pkt) else s1
      s2.sendAck pkt Status.denied)

def execSignalPacket (die : Die) (link : Link) (pkt : Packet) (s : State) : Host.Outcome State Fault Refusal :=
  let d := die.toNat
  let l := link.toNat
  .next (s.packetRow PT.signal d l pkt fun vl _ s =>
    if s.jobBatten (Pkt.job pkt) (Pkt.addr pkt % 65536) then s.landOrHold vl d l pkt
    else (((s.consume vl d l pkt).bump RTE_DROP1.DENIED).dropAdd d (Pkt.job pkt)).sendAck pkt Status.denied)

/-- Take a held packet out of its store or buffer. -/
def State.unhold (s : State) (idx : Nat) (h : HeldPkt) : State :=
  let s1 : State := { s with route := { s.route with holds := removeAt s.route.holds idx } }
  if h.parked then s1.consume h.vl h.die h.link h.pkt else s1

def execHeldWriteLand (idx : Nat) (s : State) : Host.Outcome State Fault Refusal :=
  .next (match s.route.holds[idx]? with
    | none => s
    | some h =>
      if !(s.earlierLanded h.pkt) then s
      else if Pkt.type h.pkt = PT.signal then (s.unhold idx h).applySignal h.die h.pkt
      else (s.unhold idx h).landPut h.die h.pkt)

/-- A held write whose stamp has passed the stale limit is dropped and counted as stale (R21, R43), and the job aborts (R199). -/
def execFinalHoldExpiry (idx : Nat) (s : State) : Host.Outcome State Fault Refusal :=
  .next (match s.route.holds[idx]? with
    | none => s
    | some h =>
      if s.outOfAge h.pkt = some CRS_STALE.COUNT then
        (((s.unhold idx h).bump CRS_STALE.COUNT).record { status := Status.timeout, source := Src.die h.die, sev := .partitionFatal, job := s.pktJob h.pkt }).raiseAbort
          (Pkt.job h.pkt) Status.jobAbort 5
      else s)

/-- Serve a GET at home memory (R285, R288). -/
def execGetPacket (die : Die) (link : Link) (pkt : Packet) (s : State) : Host.Outcome State Fault Refusal :=
  let d := die.toNat
  let l := link.toNat
  .next (s.packetRow PT.get d l pkt fun vl pt s =>
    let s1 := s.consume vl d l pkt
    let a := Pkt.addr pkt
    let n := Pkt.len pkt
    let q : PktReq := { type := PT.getRsp, job := Pkt.job pkt, dst := Pkt.src pkt, gen := Pkt.gen pkt, chan := Pkt.chan pkt,
                        count := Pkt.count pkt, addr := leNat pt % 2 ^ 42 }
    if s1.jobRange (Pkt.job pkt) a n then
      (s1.noteRead a n).send { q with poison := s1.anyPoison a n, lenM1 := Pkt.lenM1 pkt, payload := s1.homeBytes a n }
    else (s1.bump RTE_DROP1.DENIED).send { q with arg := Status.denied })

/-- A command of this module faults with cause ACCESS on a refusal of its peer (R288). -/
def State.remoteDenied (s : State) (n id : Nat) : State :=
  match (s.getCore n).drun.find? fun r => r.id == id with
  | some r => s.engineFault n .dma r.entry.pc r.entry.instr [.access] 0
  | none => s

/-- Land the answer to an outstanding request (R285, R444). -/
def execGetRsp (die : Die) (link : Link) (pkt : Packet) (s : State) : Host.Outcome State Fault Refusal :=
  let d := die.toNat
  let l := link.toNat
  .next (s.packetRow PT.getRsp d l pkt fun vl pt s =>
    let s1 := s.consume vl d l pkt
    match s1.route.gets.find? fun g => g.tag == Pkt.count pkt && g.job == Pkt.job pkt && g.peer == Pkt.src pkt with
    | none => s1.bump RTE_DROP1.LATE
    | some g =>
      if Pkt.gen pkt != s1.gen g.part then s1.bump RTE_DROP1.LATE
      else
        let s2 : State := { s1 with route := { s1.route with gets := s1.route.gets.filter fun x => x.tag != g.tag } }
        if Pkt.arg pkt != Status.ok then s2.remoteDenied g.core g.dma
        else if !(s1.jobRange (Pkt.job pkt) (Pkt.addr pkt) (Pkt.len pkt)) then s1.bump RTE_DROP1.DENIED
        else
          ((s2.landFar (Pkt.job pkt) (Pkt.addr pkt) pt (Pkt.poison pkt)).mapRun g.core g.dma fun r =>
            { r with pendingParts := r.pendingParts - 1, poisoned := r.poisoned || Pkt.poison pkt }).sendGets g.core 1)

/-- An ACK completes its PUT or SIGNAL (R282, R444). -/
def execAck (die : Die) (link : Link) (pkt : Packet) (s : State) : Host.Outcome State Fault Refusal :=
  let d := die.toNat
  let l := link.toNat
  .next (s.packetRow PT.ack d l pkt fun vl _ s =>
    let s1 := s.consume vl d l pkt
    let f := s1.srcFlow (Pkt.flow pkt)
    match f.unacked.find? fun u => u.count == Pkt.count pkt with
    | none => s1.bump RTE_DROP1.LATE
    | some u =>
      if Pkt.gen pkt != s1.gen u.part then s1.bump RTE_DROP1.LATE
      else
        let s2 := s1.setSrcFlow (Pkt.flow pkt) { f with unacked := f.unacked.filter fun x => x.count != u.count }
        if Pkt.arg pkt = Status.ok then s2.mapRun u.core u.dma fun r => { r with pendingParts := 0 } else s2.remoteDenied u.core u.dma)

/-! ## Link states (R271) -/

/-- Tell the row and column peers of a link's state. -/
def execLstateSend (link : Link) (s : State) : Host.Outcome State Fault Refusal :=
  let l := link.toNat
  .next (match SMap.find? s.route.lstateDue l with
    | none => s
    | some _ =>
      let s1 : State := { s with route := { s.route with lstateDue := SMap.erase s.route.lstateDue l } }
      let peers := ((upFrom 0 15).filter fun m => isLink m && s.linkUp m)
      peers.foldl (fun s m => s.sendLink m { type := PT.lstate, job := 0, dst := s.peerOf m, arg := l + 256 * s.linkState l }) s1)

/-- A peer tells of one of its links. -/
def execLstate (die : Die) (link : Link) (pkt : Packet) (s : State) : Host.Outcome State Fault Refusal :=
  let d := die.toNat
  let l := link.toNat
  .next (s.packetRow PT.lstate d l pkt fun vl _ s =>
    let s1 := s.consume vl d l pkt
    let key := Pkt.src pkt * 32 + Pkt.arg pkt % 256
    ({ s1 with route := { s1.route with told := SMap.insert s1.route.told key (Pkt.arg pkt / 256) } } : State).retryWaiting)

end Sys2Proof.Machine
end

