-- ==== Sys2Proof/Machine/Tasks.lean ====
section
/-!
DEFINITION. Machine/Tasks.lean: battens from the host (R214), queues and dispatchers (R215 to R233), anchor windows and the cistern
interleave (R155, R163).
-/
namespace Sys2Proof.Machine

/-! ## Module stages and slates in service (R427, R436) -/

def Stage.riderBoot : Nat := 0x1
def Stage.links : Nat := 0x2
def Stage.rowCons : Nat := 0x3
def Stage.colCons : Nat := 0x4
def Stage.slates : Nat := 0x5
def Stage.topo : Nat := 0x6
def Stage.ready : Nat := 0x7
def Stage.topoFail : Nat := 0x8
def Stage.resetting : Nat := 0x9
def Stage.offline : Nat := 0xA
def Stage.recovery : Nat := 0xB
def Stage.tripped : Nat := 0xC

def State.stage (s : State) : Nat := s.getF BOOT_STAT.STAGE

/-- A slate is in service while the module is READY and its last start gave it 128 cores. -/
def State.slateUp (s : State) (sl : Nat) : Bool := s.stage == Stage.ready && s.flag TOP_SITES_HI.OK sl

/-! ## Host operations on battens (R214) -/

/-- A write of BTN_HOSTOP. -/
def State.hostBatten (s : State) (who : Nat) (val : Word) : State :=
  let b := field val 0 16
  let x := field val 32 32
  let op := field val 16 2
  let owner := ((s.partOfSlate (b / 4096)).map fun p => s.owner p == who && who != 0).getD false
  if !(Who.isPF who || owner) then s.record { status := Status.denied, source := Src.slate (b / 4096) }
  else if op = 0 ∧ 1 ≤ x ∧ x ≤ 0x7FFF_FFFF then s.batAdd b x
  else if op = 1 then s.batSet b x
  else s.record { status := Status.badArg, source := Src.slate (b / 4096) }

def execBtnHostAdd (who : Ident) (val : Word) (s : State) : Host.Outcome State Fault Refusal :=
  .next (if field val 16 2 = 0 then s.hostBatten who.toNat val else s)

def execBtnHostSet (who : Ident) (val : Word) (s : State) : Host.Outcome State Fault Refusal :=
  .next (if field val 16 2 = 1 then s.hostBatten who.toNat val else s)

/-- A gate or trigger watch that found no free entry is tried again (R211). -/
def execWatchRetry (idx : Nat) (s : State) : Host.Outcome State Fault Refusal :=
  .next (if s.power.stopped then s else match s.task.retry[idx]? with
    | some w => ({ s with task := { s.task with retry := removeAt s.task.retry idx } }).watch w
    | none => s)

/-! ## Queue contexts, doorbells, flush, cancel (R216 to R224) -/

/-- End a task: the core is idle. -/
def State.endTask (s : State) (n : Nat) : State := s.setCore n (s.getCore n).idle

/-- A task that ended by SYS.DONE and has drained cannot write its completion: it ends with an OFFLINE record, no completion and no add
(R233). -/
def State.endUnwritten (s : State) (n : Nat) (t : Task) : State :=
  let c := s.getCore n
  (s.record { status := Status.offline, source := s.queueSrc t.queue, job := some (c.job, c.gen, c.part) }).endTask n

/-- The cores whose task has ended by SYS.DONE, has drained, and completes into a queue. -/
def State.waitersOf (s : State) (q : Nat) : List (Nat × Task) :=
  s.core.cores.filterMap fun (e : Nat × Core) => match e.2.task, e.2.wait with
    | some t, .done _ => if t.cplEn && t.cplq == q && e.2.doneMet then some (e.1, t) else none
    | _, _ => none

/-- A write of a word of a queue context; a CPL queue that it disables ends the tasks that wait to complete into it (R233). -/
def State.ctxWrite (s : State) (who q word : Nat) (val : Word) : State :=
  let s1 := s.writeCtx who q word val
  if s.flag QM_CTX.EN q && !(s1.flag QM_CTX.EN q) then (s.waitersOf q).foldl (fun s e => s.endUnwritten e.1 e.2) s1 else s1

/-- A write of word 0 of a queue context that sets EN. -/
def execQueueEnable (who : Ident) (queue : BitVec 20) (val : Word) (s : State) : Host.Outcome State Fault Refusal :=
  .next (if bit val 0 then s.ctxWrite who.toNat queue.toNat 0 val else s)

/-- A write of word 0 of a queue context that clears EN. -/
def execQueueDisable (who : Ident) (queue : BitVec 20) (val : Word) (s : State) : Host.Outcome State Fault Refusal :=
  .next (if bit val 0 then s else s.ctxWrite who.toNat queue.toNat 0 val)

def execQmDoorbell (who : Ident) (val : Word) (s : State) : Host.Outcome State Fault Refusal :=
  .next (s.doorbell who.toNat (field val 0 20) (field val 32 16))

def execQmFlush (who : Ident) (val : Word) (s : State) : Host.Outcome State Fault Refusal :=
  .next (s.flush who.toNat (field val 0 20))

def execQmCancel (who : Ident) (val : Word) (s : State) : Host.Outcome State Fault Refusal :=
  .next (s.cancel who.toNat (field val 0 20) (field val 32 16))

def execOwedCompletionWrite (s : State) : Host.Outcome State Fault Refusal := .next s.payOwed

/-- The shadow of an advance of CONS is due no sooner than 256 ns after the last shadow write (R220). -/
def execShadowWrite (queue : BitVec 20) (s : State) : Host.Outcome State Fault Refusal :=
  let q := queue.toNat
  let x := s.queue q
  let ready := match x.lastShadow with | some t => decide (t + 256 ≤ s.clock) | none => true
  .next (if x.shadowDue.isSome && ready then s.writeShadow q else s)

/-! ## The dispatcher (R226 to R231) -/

/-- The fields of a work entry that must be zero (the table "Work entry"). -/
def entryReserved (w0 w1 w3 : Nat) : Bool :=
  natField w0 21 3 == 0 && natField w0 29 3 == 0 && natField w0 40 24 == 0 && natField w1 52 12 == 0 && w3 == 0

/-- The checks of R228 on an item, poison aside. -/
def State.itemGood (s : State) (q : Nat) (item : List Byte) : Bool :=
  let p := s.getF QM_CTX.PART q
  let w0 := itemWord item 0
  let inPart := fun b => natBit (s.slatesOf p) (b / 4096)
  entryReserved w0 (itemWord item 1) (itemWord item 3) && natField w0 0 2 == 0 &&
    (!(natBit w0 26) || s.cplUsable (natField (itemWord item 1) 32 20) p) &&
    (!(natBit w0 28) || inPart (natField (itemWord item 2) 0 16)) &&
    (!(natBit w0 27) || inPart (natField (itemWord item 2) 16 16))

/-- The granules of the entries from an index. -/
def State.itemBytes (s : State) (q i len : Nat) : List Byte := (upFrom 0 len).flatMap fun j => s.bytes (s.entryAddr q (i + j)) 64

/-- The dispatcher reads a head item that PROD covers, and checks it: a bad one faults the queue and aborts the job; a marked one is
skipped; a gated one gets its watch (R224, R227, R228). -/
def State.readHead (s : State) (q : Nat) : State :=
  let cons := s.getF QM_CTX.CONS q
  let left := dist16 (s.getF QM_CTX.PROD q) cons
  let x := s.queue q
  if ¬ (s.flag QM_CTX.EN q ∧ s.flag QM_CTX.TYPE q = false ∧ s.getF QM_CTX.STATE q = QS.active ∧ left ≠ 0 ∧ x.head = []) then s
  else
    let len := s.itemLen q cons
    if left < len then s
    else
      let p := s.getF QM_CTX.PART q
      let s := (upFrom 0 len).foldl (fun (s : State) j => s.noteRead (s.entryAddr q (cons + j)) 64) s
      let item := s.itemBytes q cons len
      let poison := (upFrom 0 len).any fun j => s.poisoned (s.entryAddr q (cons + j))
      if poison || !(s.itemGood q item) then
        let job := s.jobOf p
        let s1 := (s.setQState q QS.fault).record
          { status := if poison then Status.poison else Status.badArg, source := s.queueSrc q, sev := .partitionFatal, job := some (job, s.gen p, p) }
        s1.raiseAbort job Status.jobAbort 4
      else
        let s1 := (s.setQueue q { x with head := item, gateMet := !(natBit (itemWord item 0) 28) }).retireCancelled q
        if (s1.queue q).head = [] ∨ natBit (itemWord item 0) 28 = false then s1
        else s1.watch ⟨.gate q, natField (itemWord item 2) 0 16, natField (itemWord item 2) 32 32, 0⟩

def execWorkItemRead (queue : BitVec 20) (s : State) : Host.Outcome State Fault Refusal := .next (if s.power.stopped then s else s.readHead queue.toNat)

/-- The slate's partition is being cleared after UNBIND or an error, and takes no task (R413). -/
def State.slateClearing (s : State) (sl : Nat) : Bool :=
  match s.partOfSlate sl with | some p => SMap.get false s.sec.clearing p | none => false

/-- A core that is idle and in service. -/
def State.coreFree (s : State) (n : Nat) : Bool := !((s.getCore n).busy) && s.slateUp (n / 128) && !(s.slateClearing (n / 128))

/-- The core on which a head item would run (R227, R229); none where it has none. -/
def State.itemCore (s : State) (sl : Nat) (item : List Byte) : Option Nat :=
  let w0 := itemWord item 0
  if natBit w0 39 then (upFrom (sl * 128) 128).find? s.coreFree
  else
    let n := sl * 128 + natField w0 32 7
    if s.coreFree n then some n else none

/-- A queue whose head item is ready (R227). -/
def State.itemReady (s : State) (sl q : Nat) : Bool :=
  let x := s.queue q
  s.getF QM_CTX.STATE q == QS.active && x.head != [] && x.gateMet && (s.itemCore sl x.head).isSome

/-- The WORK queues of a slate with a ready head item, ascending. -/
def State.readyQueues (s : State) (sl : Nat) : List Nat :=
  ((s.regs.filter fun e => e.1 % 256 == Reg.num .QM_CTX && (e.1 / 256) % 4 == 0 && bit e.2 0 && !(bit e.2 1) && field e.2 4 4 == sl).map
    fun e => e.1 / 1024).filter fun q => s.itemReady sl q

/-- The queue that arbitration grants (R229): of the highest priority, the one that follows the last granted at that priority. -/
def State.arbitrate (s : State) (sl : Nat) : Option Nat :=
  let ready := s.readyQueues sl
  let top := ready.foldl (fun m q => max m (s.getF QM_CTX.PRIO q)) 0
  let cand := ready.filter fun q => s.getF QM_CTX.PRIO q == top
  match SMap.find? s.task.lastGrant (sl * 8 + top) with
  | some last => match cand.find? fun q => decide (q > last) with | some q => some q | none => cand.head?
  | none => cand.head?

/-- Start a task on a core in the state of R88; its fault state is cleared (R113). -/
def State.startTask (s : State) (n q index : Nat) (item : List Byte) : State :=
  let p := s.getF QM_CTX.PART q
  let w0 := itemWord item 0
  let w2 := itemWord item 2
  let old := s.getCore n
  let tmo := s.getF TSK_TASK_TMO.COURSES p
  let task : Task :=
    { queue := q, prio := s.getF QM_CTX.PRIO q, index := index, taskId := natField (itemWord item 1) 0 32
      cplEn := natBit w0 26, cplq := natField (itemWord item 1) 32 20, doneEn := natBit w0 27, doneBtn := natField w2 16 16
      start := s.time, courses := 0, limit := if tmo = 0 then 0x1000 else tmo }
  let c : Core :=
    { task := some task, pc := natField w0 0 21, job := s.jobOf p, gen := s.gen p, part := p, icache := old.icache
      rcacheEn := s.flag TSK_SORD.RCACHE_EN p }
  let c1 := (((c.setS 1 (BitVec.ofNat 64 (itemWord item 4))).setS 2 (BitVec.ofNat 64 (itemWord item 5))).setS 3
    (BitVec.ofNat 64 (itemWord item 6))).setS 4 (BitVec.ofNat 64 (itemWord item 7))
  let s : State := { s with power := { s.power with busy := SMap.insert s.power.busy (n / 128) true } }
  ((((s.setReg .TSK_CFLT_A n 0).setReg .TSK_CFLT_B n 0).setReg .TSK_CFLT_C n 0).setReg .TSK_CFLT_D n 0).setCore n c1

/-- Grant a queue's head item (R231): CONS passes it, its bytes go to the end of the core's scratch, its task starts. -/
def State.grant (s : State) (sl q : Nat) : State :=
  let item := (s.queue q).head
  match s.itemCore sl item with
  | none => s
  | some n =>
    let index := s.getF QM_CTX.CONS q
    let s1 := (s.startTask n q index item).advanceCons q (item.length / 64)
    let s2 := s1.land (scratchOf n + 0x1F_FF00) item false
    { s2 with task := { s2.task with lastGrant := SMap.insert s2.task.lastGrant (sl * 8 + s.getF QM_CTX.PRIO q) q } }

def execTaskGrant (slate : BitVec 4) (s : State) : Host.Outcome State Fault Refusal :=
  .next (match s.arbitrate slate.toNat with | some q => if s.power.stopped then s else s.grant slate.toNat q | none => s)

/-! ## The end of a task (R232, R233) -/

/-- A task that ended by SYS.DONE and has drained is finished: its completion, once there is space; its done add; its core. -/
def execTaskFinish (core : CoreId) (s : State) : Host.Outcome State Fault Refusal :=
  let n := core.toNat
  let c := s.getCore n
  .next (match c.task, c.wait with
    | some t, .done status =>
      if s.power.stopped ∨ ¬ c.doneMet then s
      else if t.cplEn ∧ ¬ s.cplUsable t.cplq c.part then s.endUnwritten n t
      else if t.cplEn ∧ ¬ s.cplSpace t.cplq then s
      else
        let s1 := if t.cplEn then
            s.writeCpl t.cplq ⟨t.taskId, status, 0, c.job, t.queue, t.index, c.gen, n, t.start, t.courses⟩
          else s
        let s2 := if t.doneEn then s1.batAdd t.doneBtn 1 else s1
        s2.endTask n
    | _, _ => s)

/-- A task that has not finished after its course boundaries faults with cause TIMEOUT (R232). -/
def execTaskTimeout (core : CoreId) (s : State) : Host.Outcome State Fault Refusal :=
  let n := core.toNat
  .next (match (s.getCore n).task with
    | some t => if t.courses ≥ t.limit then s.takeFault n (s.unraised n .timeout) else s
    | none => s)

/-! ## Anchor windows and the interleave (R155, R163) -/

def execAwinWrite (who : Ident) (slate : BitVec 4) (win : BitVec 3) (val : Word) (s : State) : Host.Outcome State Fault Refusal :=
  .next (s.writeAwin who.toNat slate.toNat win.toNat val)

/-- The bytes of the cisterns stay where they are stored, so their addresses change with the interleave (R155). -/
def State.relayCisterns (s : State) (val : Word) : State :=
  let s1 := s.setReg .TOP_CIL 0 val
  let move := fun (a : Nat) => match s.locate a with | (c, off, _) => s1.unlocate c off
  let keep := fun (a : Nat) => decide (cisternEnd ≤ a)
  let s2 := { s1 with
    mem := s.mem.foldl (fun (m : SMap Byte) (e : Nat × Byte) => SMap.insert m (if keep e.1 then e.1 else move e.1) e.2) []
    poison := s.poison.foldl (fun (m : SMap Bool) (e : Nat × Bool) => SMap.insert m (if keep (64 * e.1) then e.1 else move (64 * e.1) / 64) e.2) [] }
  { s2 with store := { s2.store with
    raw := s.store.raw.foldl (fun (m : SMap (List Word)) (e : Nat × List Word) => SMap.insert m (if keep (64 * e.1) then e.1 else move (64 * e.1) / 64) e.2) []
    edc := s.store.edc.foldl (fun (m : SMap (List Nat)) (e : Nat × List Nat) => SMap.insert m (if keep (64 * e.1) then e.1 else move (64 * e.1) / 64) e.2) []
    merge := s.store.merge.map fun (e : Nat × List MergeEntry) => (e.1, e.2.map fun (x : MergeEntry) => { x with granule := move x.granule }) } }

/-- A write of TOP_CIL: locked while any partition is bound; a reserved MODE is ignored. -/
def State.writeCil (s : State) (who : Nat) (val : Word) : State :=
  if ¬ Who.isManager who then s.record { status := Status.denied, source := Src.module }
  else
    let want := packW [(0, 2, field val 0 2), (4, 2, field val 4 2)]
    if s.anyBound then
      (if want = s.reg .TOP_CIL then s else s.record { status := Status.denied, source := Src.module })
    else if field val 0 2 = 3 then s.record { status := Status.badArg, source := Src.module }
    else s.relayCisterns want

def execTopCilWrite (who : Ident) (val : Word) (s : State) : Host.Outcome State Fault Refusal := .next (s.writeCil who.toNat val)

end Sys2Proof.Machine
end

