-- ==== Sys2Proof/Machine/Collectives.lean ====
section
/-!
DEFINITION. Machine/Collectives.lean: groups, trigger slots, yelms, the junction (R296 to R321), and the wakes of batten watches (R211).
-/
namespace Sys2Proof.Machine

/-! ## A slot and its role (R298) -/

def State.grpOf (s : State) (n : Nat) : Nat := s.getF COL_TRG.GROUP n
def State.isBcast (s : State) (n : Nat) : Bool := s.getF COL_TRG.OP n == 1
def State.isReduce (s : State) (n : Nat) : Bool := s.getF COL_TRG.OP n == 2
/-- The module is the root of the slot's group. -/
def State.isRoot (s : State) (n : Nat) : Bool := s.groupRoot (s.grpOf n) == s.epn
def State.trgState (s : State) (n : Nat) : Nat := s.getF COL_TRG_STAT.STATE n
def DT.raw : Nat := 0
def DT.wa : Nat := 1
def DT.fp32 : Nat := 2
def DT.bf16 : Nat := 3

/-- The yelm size. The field has four bits: 0 stands for 16 (DESIGN CHOICE, log entry). -/
def State.yelmLog (s : State) (n : Nat) : Nat := if s.getF COL_TRG.YELM_LOG2 n = 0 then 16 else s.getF COL_TRG.YELM_LOG2 n
def State.yelmSize (s : State) (n : Nat) : Nat := 2 ^ s.yelmLog n
def State.yelms (s : State) (n : Nat) : Nat := ceilDiv (s.getF COL_TRG.BYTES n) (s.yelmSize n)
/-- The bytes of yelm `y`: the last may be shorter. -/
def State.yelmLen (s : State) (n y : Nat) : Nat := min (s.yelmSize n) (s.getF COL_TRG.BYTES n - y * s.yelmSize n)

/-- Which of SRC, DST, SRC_TAGS and RES_TAGS the role uses. -/
def State.usedAddrs (s : State) (n : Nat) : Bool × Bool × Bool × Bool :=
  let wa := s.getF COL_TRG.DTYPE n == DT.wa
  if s.isBcast n then (s.isRoot n, !(s.isRoot n), false, false) else (true, s.isRoot n, wa, wa && s.isRoot n)

/-- The ranges the role uses: address, length, alignment. -/
def State.slotRanges (s : State) (n : Nat) : List (Nat × Nat × Nat) :=
  let b := s.getF COL_TRG.BYTES n
  let t := 4 * s.yelms n
  match s.usedAddrs n with
  | (u, v, w, x) =>
    (if u then [(s.getF COL_TRG.SRC n, b, 64)] else []) ++ (if v then [(s.getF COL_TRG.DST n, b, 64)] else []) ++
    (if w then [(s.getF COL_TRG.SRC_TAGS n, t, 4)] else []) ++ (if x then [(s.getF COL_TRG.RES_TAGS n, t, 4)] else [])

/-- A partition bound to the job holds what the slot uses (check 5 of the table "Trigger arm checks"). -/
def State.slotFits (s : State) (n p : Nat) : Bool :=
  (s.slotRanges n).all (fun r => r.1 % r.2.2 == 0 && s.inGrant p r.1 r.2.1) &&
  (!(s.flag COL_TRG.TRIG_EN n) || natBit (s.slatesOf p) (s.getF COL_TRG.TRIG_BTN n / 4096)) &&
  (!(s.flag COL_TRG.DONE_EN n) || natBit (s.slatesOf p) (s.getF COL_TRG.DONE_BTN n / 4096))

/-- The slot's partition: the lowest that fits. -/
def State.slotPart (s : State) (n : Nat) : Option Nat := (s.partsOf (s.slotJob n)).find? (s.slotFits n)

/-! ## Sending (R305 to R312) -/

/-- The identity of a yelm's byte in ADDR (R306). -/
def State.collAddr (s : State) (n off : Nat) : Nat := n * 4 + s.getF COL_TRG_STAT.INST n * 2 ^ 14 + off / 256 * 2 ^ 18

def State.slotGen (s : State) (n : Nat) : Nat := match s.slotPart n with | some p => s.gen p | none => 0

/-- A CCTL or CNAK of a slot. -/
def State.collCtl (s : State) (n dst type off arg : Nat) : State :=
  s.send { type := type, job := s.slotJob n, dst := dst, gen := s.slotGen n, addr := s.collAddr n off, arg := arg }

def Ctl.grant : Nat := 1
def Ctl.ready : Nat := 2
def Ctl.yack : Nat := 3
def Ctl.done : Nat := 4

/-- The link from this module to a member. -/
def State.memberLink (s : State) (g epn : Nat) : Nat :=
  match s.getF COL_GRP_A.AXIS g with
  | 0 => rowLink s.slotNo (epn % 8)
  | 1 => colLink s.boardNo (epn / 8 % 8)
  | _ => 16 + s.rackPort (s.getF COL_GRP_A.RSET g) (epn / 64)

/-- Queue a packet of yelm `y` for a member on its link: on strand y mod 4, or on the lowest that is ACTIVE (R307); with SCHED in the slots of the
lowest entry for the link (R310). -/
def State.queueYelm (s : State) (l y epn : Nat) (fan : Option Nat) (p : Packet) : State :=
  s.sendOn l { pkt := p, vl := vlOf (Pkt.cls p) false, fan := fan, die? := some (y % 4), member := some epn }

/-- The reads of a yelm at its source: its bytes, and its tag where it has one (R308, R358). -/
def State.noteYelm (s : State) (n y : Nat) : State :=
  let s1 := s.noteRead (s.getF COL_TRG.SRC n + y * s.yelmSize n) (s.yelmLen n y)
  if s1.getF COL_TRG.DTYPE n = DT.wa ∧ ¬ s1.isBcast n then s1.noteRead (s1.getF COL_TRG.SRC_TAGS n + 4 * y) 4 else s1

/-- The packets of a yelm to one address, in order (R305): each with its offset. -/
def State.yelmPkts (s : State) (n y dst : Nat) : List PktReq :=
  let bcast := s.isBcast n
  let len := s.yelmLen n y
  let base := y * s.yelmSize n
  let a := s.getF COL_TRG.SRC n + base
  let data := s.bytes a len
  let wa := s.getF COL_TRG.DTYPE n == DT.wa
  let ta := s.getF COL_TRG.SRC_TAGS n + 4 * y
  let tag := if wa && !bcast then leNat (s.bytes ta 4) else 0
  let tagBad := wa && !bcast && s.anyPoison ta 4
  let crc := crc32c (data ++ (if wa then leBytes 4 tag else []))
  let cnt := ceilDiv len 8192
  (upFrom 0 cnt).map fun i =>
    let part := (data.drop (8192 * i)).take 8192
    let full := part ++ List.replicate ((4 - part.length % 4) % 4) 0
    { type := if bcast then PT.cbcast else PT.creduce, job := s.slotJob n, dst := dst, gen := s.slotGen n, sched := s.flag COL_TRG.SCHED n
      poison := s.anyPoison (a + 8192 * i) part.length || tagBad, last := i + 1 == cnt, count := crc
      addr := s.collAddr n (base + 8192 * i), lenM1 := full.length / 4 - 1, arg := tag, payload := full }

/-- Send a yelm to one member: on its link, or by a detour while the link is DOWN (R307, R312, R321). -/
def State.sendYelmTo (s : State) (n y epn dst : Nat) : State :=
  let s := s.noteYelm n y
  let l := s.memberLink (s.grpOf n) epn
  if s.linkUp l then
    (s.yelmPkts n y dst).foldl (fun s q => match s.seal (s.makePkt q) with
      | (some p, s1) => s1.queueYelm l y epn none p
      | (none, s1) => s1.bump RTE_DROP0.NO_ROUTE) s
  else (s.yelmPkts n y epn).foldl (fun s q => s.send q (die? := some (y % 4))) s

/-- Send a broadcast yelm: one encryption for a row or column, a copy on each link that is up; a copy of its own for every other member
(R311, R312). -/
def State.bcastYelm (s : State) (n y : Nat) : State :=
  let g := s.grpOf n
  if s.getF COL_GRP_A.AXIS g = 2 then (s.peersIn g).foldl (fun s e => s.sendYelmTo n y e e) s
  else
    let up := (s.peersIn g).filter fun e => s.linkUp (s.memberLink g e)
    let down := (s.peersIn g).filter fun e => !(s.linkUp (s.memberLink g e))
    let s1 := if up = [] then s else
      (s.yelmPkts n y (0x8000 + g)).foldl (fun s q => match s.seal (s.makePkt q) with
        | (some p, s1) => up.foldl (fun s e => s.queueYelm (s.memberLink g e) y e (some ((y % 4 * 4096 + n) * 32)) p) s1
        | (none, s1) => s1.bump RTE_DROP0.NO_ROUTE) (s.noteYelm n y)
    down.foldl (fun s e => s.sendYelmTo n y e e) s1

/-- The division box of a broadcast starts its counts (R311). -/
def State.openFan (s : State) (n : Nat) : State :=
  let g := s.grpOf n
  let links := ((s.peersIn g).map (s.memberLink g)).filter s.linkUp
  let keys := (upFrom 0 4).flatMap fun q => links.map fun l => (q * 4096 + n) * 32 + l
  { s with route := { s.route with fan := keys.foldl (fun m k => SMap.insert m k 0) s.route.fan } }

/-- A reduce member sends its next yelms: at most 8 unacknowledged per die (R316). -/
def State.sendWindow (s : State) (n : Nat) : State :=
  let root := s.groupRoot (s.grpOf n)
  (upFrom 0 (s.yelms n)).foldl (fun s y =>
    let x := s.slot n
    let out := (x.sent.filter fun e => e.1 % 4 == y % 4 && !(SMap.get false x.acked e.1)).length
    if SMap.get false x.sent y || decide (out ≥ 8) then s
    else (s.setSlot n { x with sent := SMap.insert x.sent y true }).sendYelmTo n y root root) s

/-! ## Handshake and launch (R299 to R301, R316) -/

/-- The gauge of the next course boundary. -/
def State.nextBoundary (s : State) : Nat := (s.courseNo + 1) * 2 ^ s.k

/-- Note when the launch condition of a slot in HANDSHAKE first holds. -/
def State.checkLaunch (s : State) (n : Nat) : State :=
  let x := s.slot n
  let holds := if s.isBcast n then s.isRoot n && (s.peersIn (s.grpOf n)).all fun e => SMap.get false x.ready e else x.granted
  if s.trgState n == TS.handshake && x.holds.isNone && holds then s.setSlot n { x with holds := some s.nextBoundary } else s

/-- A slot's trigger is met, or it needs none: HANDSHAKE. -/
def State.enterHandshake (s : State) (n : Nat) : State :=
  let s1 := s.setF COL_TRG_STAT.STATE n TS.handshake
  let s2 := if s1.isBcast n && !(s1.isRoot n) then s1.collCtl n (s1.groupRoot (s1.grpOf n)) PT.cctl 0 (256 * Ctl.ready) else s1
  s2.checkLaunch n

/-- A slot becomes ARMED with its trigger watch. -/
def State.enterArmed (s : State) (n : Nat) : State :=
  let s1 := ((s.setF COL_TRG_STAT.STATE n TS.armed).setSlot n {}).unwatch (.trigger n)
  if s1.flag COL_TRG.TRIG_EN n then
    s1.watch ⟨.trigger n, s1.getF COL_TRG.TRIG_BTN n, s1.getF COL_TRG.TRIG_COUNT n, s1.getF COL_TRG.DEADLINE n⟩
  else s1.enterHandshake n

/-- The checks 2 to 5 of the table "Trigger arm checks": the status of the first that fails. -/
def State.armCheck (s : State) (n : Nat) : Option Nat :=
  let st := s.trgState n
  let dt := s.getF COL_TRG.DTYPE n
  let b := s.getF COL_TRG.BYTES n
  let unit := if dt = DT.wa then 16 else if dt = DT.bf16 then 2 else 4
  match s.usedAddrs n with
  | (u, v, w, x) =>
    if !(st == TS.idle || st == TS.done || st == TS.fault) then some Status.busy
    else if !((s.isBcast n || s.isReduce n) && (dt != DT.raw || s.isBcast n) && decide (8 ≤ s.yelmLog n) && b != 0 && b % unit == 0 &&
        decide (s.yelms n ≤ 65536) && (u || s.getF COL_TRG.SRC n == 0) && (v || s.getF COL_TRG.DST n == 0) &&
        (w || s.getF COL_TRG.SRC_TAGS n == 0) && (x || s.getF COL_TRG.RES_TAGS n == 0)) then some Status.badArg
    else if !(s.flag COL_GRP_A.VALID (s.grpOf n)) then some Status.badArg
    else if (s.slotPart n).isNone then some Status.denied
    else none

/-- Arm a slot, as the rider or a PF. -/
def State.armSlot (s : State) (n : Nat) : State :=
  match s.armCheck n with
  | some st => s.setF COL_TRG_STAT.STATUS n st
  | none => ((s.setF COL_TRG_STAT.STATUS n Status.ok).setF COL_TRG_STAT.INST n 0).enterArmed n

/-- The launch boundary of a slot in HANDSHAKE has come. -/
def State.launchTime (s : State) (n : Nat) : Bool :=
  s.trgState n == TS.handshake && (match (s.slot n).holds with | some t => s.reached t | none => false)

/-- Disarm a slot before its launch; in the clock of the launch, and later, the launch wins (R304). -/
def State.disarmSlot (s : State) (n : Nat) : State :=
  if (s.trgState n == TS.armed || s.trgState n == TS.handshake) && !(s.launchTime n && !s.gauge.stopped) then
    ((((s.setF COL_TRG_STAT.STATE n TS.idle).setF COL_TRG_STAT.STATUS n Status.ok).setSlot n {}).unwatch (.trigger n)).dropFan n
  else (s.setF COL_TRG_STAT.STATUS n Status.window).refuseWrite Status.window (Src.die 0)

/-- A write of COL_TRG_STAT. -/
def State.writeTrgStat (s : State) (who n : Nat) (val : Word) : State :=
  if !(Who.isManager who) then
    (if bit val 3 then (s.setF COL_TRG_STAT.STATUS n Status.denied) else s).refuseWrite Status.denied (Src.die 0)
  else
    let s1 := if bit val 3 then (match s.armCheck n with | some st => (s.armSlot n).refuseWrite st (Src.die 0) | none => s.armSlot n) else s
    if bit val 4 then s1.disarmSlot n else s1

def execTriggerArm (who : Ident) (slot : BitVec 12) (val : Word) (s : State) : Host.Outcome State Fault Refusal :=
  .next (if bit val 3 then s.writeTrgStat who.toNat slot.toNat val else s)

def execTriggerDisarm (who : Ident) (slot : BitVec 12) (val : Word) (s : State) : Host.Outcome State Fault Refusal :=
  .next (if bit val 4 then s.writeTrgStat who.toNat slot.toNat val else s)

/-- A slot is at rest: its descriptor and its group may change. -/
def State.slotRests (s : State) (n : Nat) : Bool := s.trgState n == TS.idle || s.trgState n == TS.done || s.trgState n == TS.fault

/-- A write of a word of COL_TRG. -/
def State.writeTrg (s : State) (who n w : Nat) (val : Word) : State :=
  s.byManager who (Src.die 0) fun s =>
    if s.slotRests n then s.writeWord .COL_TRG (8 * n + w) val 0 (Src.die 0) else s.refuseWrite Status.denied (Src.die 0)

/-- The checks of R297 on a group whose fields are written. -/
def State.groupGood (s : State) (g : Nat) : Bool :=
  let i := s.getF COL_GRP_A.RSET g
  let axis := s.getF COL_GRP_A.AXIS g
  let lo := s.getF COL_GRP_A.LO g
  let hi := s.getF COL_GRP_A.HI g
  let root := s.getF COL_GRP_A.ROOT g
  let cs := s.groupCoords g
  let own := axisOf axis s.epn
  s.flag RTE_RSET_A.VALID i && axis != 3 &&
  (if axis = 2 then
     cs.all (s.rackIn i) && cs.any (· == own) && cs.any (· == root) &&
       (if root = own then cs.all (fun r => r == own || s.rackReach i r) && decide (2 ≤ cs.length) && decide (cs.length ≤ 17) else s.rackReach i root)
   else
     decide (lo ≤ hi) && (if axis = 0 then s.slotIn i lo && s.slotIn i hi else s.boardIn i lo && s.boardIn i hi) &&
       decide (lo ≤ own) && decide (own ≤ hi) && decide (lo ≤ root) && decide (root ≤ hi))

/-- A slot that names a group is under way. -/
def State.groupBusy (s : State) (g : Nat) : Bool :=
  ((s.regs.filter fun e => e.1 % 256 == Reg.num .COL_TRG_STAT).map fun e => e.1 / 256).any fun n => s.grpOf n == g && !(s.slotRests n)

/-- A write of COL_GRP_A. -/
def State.writeGrpA (s : State) (who g : Nat) (val : Word) : State :=
  s.byManager who (Src.die 0) fun s =>
    if s.groupBusy g then s.refuseWrite Status.denied (Src.die 0)
    else
      let was := s.flag COL_GRP_A.VALID g
      let s1 := s.writeWord .COL_GRP_A g val 0 (Src.die 0)
      if !was && bit val 0 && !(s1.groupGood g) then (s1.setF COL_GRP_A.VALID g 0).refuseWrite Status.badArg (Src.die 0) else s1

/-- A write of a word of COL_GMASK. -/
def State.writeGmask (s : State) (who ix : Nat) (val : Word) : State :=
  s.byManager who (Src.die 0) fun s => if s.groupBusy (ix / 4) then s.refuseWrite Status.denied (Src.die 0) else s.setReg .COL_GMASK ix val

def execGroupValidate (who : Ident) (group : BitVec 10) (val : Word) (s : State) : Host.Outcome State Fault Refusal :=
  .next (if bit val 0 then s.writeGrpA who.toNat group.toNat val else s)

/-- Bytes of junction buffer reserved on each die by every slot. -/
def State.junctionUsed (s : State) : Nat := (s.coll.slots.map fun e => e.2.reserved).sum

/-- A root of a reduction in HANDSHAKE reserves its buffer where there is space, and then grants (R300, R316). -/
def execJunctionReserve (slot : BitVec 12) (s : State) : Host.Outcome State Fault Refusal :=
  let n := slot.toNat
  let g := s.grpOf n
  let need := (s.members g).length * 8 * s.yelmSize n
  .next (if s.trgState n == TS.handshake && s.isReduce n && s.isRoot n && (s.slot n).reserved == 0 && decide (s.junctionUsed + need ≤ 16777216) then
      let s1 := s.setSlot n { s.slot n with reserved := need, granted := true }
      ((s1.peersIn g).foldl (fun s e => s.collCtl n e PT.cctl 0 (256 * Ctl.grant)) s1).checkLaunch n
    else s)

/-! ## The junction (R313 to R318) -/

/-- Elements of a yelm as codes of a width. -/
def elems (width : Nat) (bs : List Byte) : List Nat := (chunksOf width (bs.length / width) bs).map leNat

/-- Two groups of WA128 values, each with its anchor and flags, added under R70. -/
def waYelmAdd (a b : List Nat × Int × WaFlags) : List Nat × Int × WaFlags :=
  let r := (a.1.zip b.1).map fun e => waAddFree (BitVec.ofNat 128 e.1) a.2.1 (BitVec.ofNat 128 e.2) b.2.1
  (r.map fun e => e.1.toNat, min a.2.1 b.2.1, r.foldl (fun f e => f.or e.2) (a.2.2.or b.2.2))

/-- The EXACT combination of contributions, each the bytes and the tag: the result's bytes and tag (R314). -/
def combineExact : List (List Byte × Nat) → List Byte × Nat
  | [] => ([], 0)
  | c :: cs =>
    let one := fun (x : List Byte × Nat) => (elems 16 x.1, tagAnchor (BitVec.ofNat 32 x.2), tagFlags (BitVec.ofNat 32 x.2))
    let r := cs.foldl (fun a x => waYelmAdd a (one x)) (one c)
    (r.1.flatMap (leBytes 16), (tagOf (codeOf 16 r.2.1) r.2.2).toNat)

/-- The ORDERED combination of contributions in rank order (R315). -/
def combineOrdered (f : Fmt) (width : Nat) : List (List Byte) → List Byte
  | [] => []
  | c :: cs =>
    let add := fun (a : List Nat) (x : List Byte) => (a.zip (elems width x)).map fun e => f.rne ((f.decode e.1).add (f.decode e.2))
    (cs.foldl add (elems width c)).flatMap (leBytes width)

/-- A slot ends under R320. -/
def State.endSlot (s : State) (n status : Nat) : State :=
  let job := s.slotJob n
  (((s.bump COL_CNT.TMO).slotFault n status).record
    { status := status, source := Src.die 0, sev := .partitionFatal, job := some (s.jobRef job) }).raiseAbort job Status.jobAbort 5

/-- The bytes a yelm's input holds, in order. -/
def YelmIn.bytes (x : YelmIn) : List Byte := x.parts.flatMap fun e => e.2

/-- Every other member's contribution to a yelm is in the junction buffer and has passed its check. -/
def State.yelmReady (s : State) (n y : Nat) : Bool :=
  (s.peersIn (s.grpOf n)).all fun e => (s.slot n).inputs.any fun x => x.src == e && x.yelm == y && x.good

/-- The root's own contribution to a yelm: its bytes and its tag. -/
def State.ownYelm (s : State) (n y : Nat) : List Byte × Nat :=
  (s.bytes (s.getF COL_TRG.SRC n + y * s.yelmSize n) (s.yelmLen n y),
   if s.getF COL_TRG.DTYPE n = DT.wa then leNat (s.bytes (s.getF COL_TRG.SRC_TAGS n + 4 * y) 4) else 0)

/-- The check value of a yelm (R308): over its bytes, and its tag where the type has one. -/
def State.yelmCrc (s : State) (n : Nat) (r : List Byte × Nat) : Nat :=
  crc32c (r.1 ++ (if s.getF COL_TRG.DTYPE n = DT.wa then leBytes 4 r.2 else []))

/-- The contributions to a yelm in rank order. -/
def State.contributions (s : State) (n y : Nat) : List (List Byte × Nat) :=
  (s.members (s.grpOf n)).map fun e =>
    if e = s.epn then s.ownYelm n y
    else match (s.slot n).inputs.find? fun v => v.src == e && v.yelm == y with
      | some v => (v.bytes.take (s.yelmLen n y), v.tag)
      | none => ([], 0)

/-- A contribution to a yelm is poisoned (R318). -/
def State.yelmPoison (s : State) (n y : Nat) : Bool :=
  s.anyPoison (s.getF COL_TRG.SRC n + y * s.yelmSize n) (s.yelmLen n y) ||
    (s.getF COL_TRG.DTYPE n == DT.wa && s.anyPoison (s.getF COL_TRG.SRC_TAGS n + 4 * y) 4) ||
    (s.slot n).inputs.any fun v => v.yelm == y && v.poison

/-- The sum of a yelm's contributions and its tag (R314, R315). In EXACT mode the order of the additions is open; it shows only where OVERFLOW is
raised. -/
def State.combined (s : State) (n y : Nat) : (List Byte × Nat) × State :=
  let parts := s.contributions n y
  let dt := s.getF COL_TRG.DTYPE n
  if dt = DT.wa then (combineExact (permuteBy parts.length s.fresh.1 parts), s.fresh.2)
  else if dt = DT.fp32 then ((combineOrdered Fmt.fp32 4 (parts.map (·.1)), 0), s)
  else ((combineOrdered Fmt.bf16 2 (parts.map (·.1)), 0), s)

/-- Land a result that has passed its check, and acknowledge the contributions (R309, R317, R318). -/
def State.landYelm (s : State) (n y : Nat) (r : List Byte × Nat) : State :=
  let x := s.slot n
  let wa := s.getF COL_TRG.DTYPE n == DT.wa
  let bad := s.yelmPoison n y
  let s1 := s.land (s.getF COL_TRG.DST n + y * s.yelmSize n) r.1 bad
  let s2 := if wa then s1.land (s1.getF COL_TRG.RES_TAGS n + 4 * y) (leBytes 4 r.2) false else s1
  let s3 := s2.setSlot n { x with inputs := x.inputs.filter (fun v => v.yelm != y), landed := SMap.insert x.landed y true
                                  flags := x.flags ||| (if wa then natField r.2 16 3 else 0), poison := x.poison || bad }
  (s3.peersIn (s.grpOf n)).foldl (fun s e => s.collCtl n e PT.cctl (y * s.yelmSize n) (256 * Ctl.yack)) s3

/-- The record that failing yelms of a slot leave once a course (R319). -/
def State.yelmRecord (s : State) (y n : Nat) : State :=
  s.recordOnce (.other 319 n) { status := Status.integrity, source := Src.die (y % 4), job := some (s.jobRef (s.slotJob n)) }

/-- A yelm fails a check of R309 once more; how often it has now. -/
def State.countFail (s : State) (n y src : Nat) : Nat × State :=
  let x := s.slot n
  let key := src * 65536 + y
  let fails := SMap.get 0 x.fails key + 1
  (fails, ((s.bump COL_CNT.CRC_BAD).setSlot n { x with fails := SMap.put 0 x.fails key fails }).yelmRecord y n)

/-- A byte of a buffer has changed. -/
def flipByte (bs : List Byte) (pos : Nat) (x : Byte) : List Byte := modifyAt (fun b => b ^^^ x) bs pos

/-- Combine a yelm and land the result, with what goes wrong on the way. The root's own yelm that fails its input check is read again, as a resend
of the root to itself; a residue mismatch, or a result that fails the check at its landing, is combined again once, and the second of them ends the
job (R309, R317, R319). -/
def State.junction (s : State) (n y : Nat) (again : Bool) : List JunctionFault → State
  | [] => match s.combined n y with | (r, s1) => s1.landYelm n y r
  | .residue :: rest =>
    let s1 := s.bump COL_CNT.RESID
    if again then s1.endSlot n Status.integrity else s1.junction n y true rest
  | .own pos x :: rest =>
    let own := s.ownYelm n y
    if s.yelmCrc n (flipByte own.1 pos x, own.2) = s.yelmCrc n own then s.junction n y again rest
    else
      match s.countFail n y s.epn with
      | (fails, s1) =>
        if fails ≥ 3 then s1.endSlot n Status.integrity
        else ((s1.bump COL_TRG_STAT.RESENDS n).noteYelm n y).junction n y again rest
  | .output pos x :: rest =>
    match s.combined n y with
    | (r, s1) =>
      if s1.yelmCrc n (flipByte r.1 pos x, r.2) = s1.yelmCrc n r then s1.landYelm n y r
      else
        let s2 := (s1.bump COL_CNT.CRC_BAD).yelmRecord y n
        if again then s2.endSlot n Status.integrity else s2.junction n y true rest

/-- Combine a yelm that is ready. -/
def State.tryCombine (s : State) (n y : Nat) (faults : List JunctionFault) : State :=
  if !(s.trgState n == TS.launched && s.yelmReady n y && !(SMap.get false (s.slot n).landed y)) then s
  else (s.noteYelm n y).junction n y false faults

/-! ## Launch (R301) -/

/-- A change of course length whose time has come: it goes before a launch at its boundary (R304). -/
def State.switchDue (s : State) : Bool := s.flag CRS_CHG.ARM && decide (s.getF CRS_CHG_AT.AT ≤ s.time)

/-- A slot may launch: its boundary has come, and what happens at the boundary has happened. -/
def State.launchDue (s : State) (n : Nat) : Bool :=
  s.launchTime n && !s.gauge.stopped && s.course.last == s.courseNo && !s.switchDue

/-- LAUNCH_LATE of a slot that launches after the end of its deadline course. -/
def State.launchLate (s : State) (n t : Nat) : State :=
  let dl := s.getF COL_TRG.DEADLINE n
  let due := (dl + 1) * 2 ^ s.k
  if dl ≠ 0 ∧ t > due then s.addLag 0 (s.slotJob n) 2 0xFF (if s.flag COL_TRG.TRIG_EN n then s.getF COL_TRG.TRIG_BTN n / 4096 else 0) (t - due) else s

def State.launch (s : State) (n : Nat) (faults : List (Nat × JunctionFault)) : State :=
  let t := ((s.slot n).holds).getD 0
  let s1 := (s.setF COL_TRG_STAT.STATE n TS.launched).launchLate n t
  if s1.isBcast n then (upFrom 0 (s1.yelms n)).foldl (fun s y => s.bcastYelm n y) (s1.openFan n)
  else if s1.isRoot n then
    (upFrom 0 (s1.yelms n)).foldl (fun s y => s.tryCombine n y ((faults.filter fun f => f.1 == y).map (·.2))) s1
  else s1.sendWindow n

/-- A slot launches; those of one boundary start in ascending order. -/
def execTriggerLaunch (launch : Launch) (s : State) : Host.Outcome State Fault Refusal :=
  let n := launch.slot.toNat
  let first := s.coll.slots.all fun e => decide (n ≤ e.1) || !(s.launchDue e.1)
  .next (if s.launchDue n && first then s.launch n launch.faults else s)

/-! ## Receiving (R306, R309, R319) -/

/-- The slot that a collective packet names. -/
def Pkt.slot (p : Packet) : Nat := natField (Pkt.addr p) 2 12
def Pkt.inst (p : Packet) : Nat := natField (Pkt.addr p) 14 4
def Pkt.off (p : Packet) : Nat := 256 * natField (Pkt.addr p) 18 24

/-- The slot receives packets of this type now, by its role and state. -/
def State.roleTakes (s : State) (n : Nat) (p : Packet) : Bool :=
  let st := s.trgState n
  let root := s.isRoot n
  let bc := s.isBcast n && s.flag COL_GRP_A.VALID (s.grpOf n)
  let rd := s.isReduce n && s.flag COL_GRP_A.VALID (s.grpOf n)
  let early := st == TS.armed || st == TS.handshake
  let late := st == TS.handshake || st == TS.launched
  let live := st == TS.launched
  let t := Pkt.type p
  let kind := Pkt.arg p / 256
  (t == PT.cbcast && bc && !root && late) || (t == PT.creduce && rd && root && late) ||
  (t == PT.cctl && kind == Ctl.grant && rd && !root && early) || (t == PT.cctl && kind == Ctl.ready && bc && root && early) ||
  (t == PT.cctl && kind == Ctl.yack && rd && !root && live) || (t == PT.cctl && kind == Ctl.done && bc && root && live) ||
  (t == PT.cnak && ((bc && root) || (rd && !root)) && live)

/-- A row of a collective packet type: the receive checks, then the identity (R306), then the generation tag, which is that of the slot's partition
on every member (R320; DEDUCED, log entry 39). -/
def State.collRow (s : State) (t d l : Nat) (p : Packet) (f : Nat → List Byte → State → State) : State :=
  s.packetRow t d l p fun vl pt s =>
    let s1 := s.consume vl d l p
    let n := Pkt.slot p
    if s1.slotJob n == Pkt.job p && s1.roleTakes n p && Pkt.inst p == s1.getF COL_TRG_STAT.INST n &&
        (s1.peersIn (s1.grpOf n)).any (· == Pkt.src p) then
      (if Pkt.gen p == s1.slotGen n then f n pt s1 else s1.bump RTE_DROP1.LATE)
    else s1.bump COL_CNT.STRAY

/-- Store a packet of a yelm. -/
def State.storeYelm (s : State) (n y : Nat) (p : Packet) (pt : List Byte) : State :=
  let x := s.slot n
  let old := (x.inputs.find? fun v => v.src == Pkt.src p && v.yelm == y).getD { src := Pkt.src p, yelm := y }
  let v := { old with parts := SMap.insert old.parts (Pkt.off p) pt, crc := Pkt.count p, tag := Pkt.arg p, poison := old.poison || Pkt.poison p }
  s.setSlot n { x with inputs := (x.inputs.filter fun v => !(v.src == Pkt.src p && v.yelm == y)) ++ [v] }

/-- The check of a whole yelm (R308, R309). -/
def State.yelmGood (s : State) (n : Nat) (v : YelmIn) : Bool := s.yelmCrc n (v.bytes.take (s.yelmLen n v.yelm), v.tag) == v.crc

/-- A yelm that fails its check: discarded, recorded by the die that owns it (R307), sent again; its third failure ends the job (R319). -/
def State.yelmFails (s : State) (n : Nat) (v : YelmIn) : State :=
  match s.countFail n v.yelm v.src with
  | (fails, s1) =>
    let x := s1.slot n
    let s2 := (s1.setSlot n { x with inputs := x.inputs.filter fun w => !(w.src == v.src && w.yelm == v.yelm) }).collCtl n v.src PT.cnak
      (v.yelm * s1.yelmSize n) Status.integrity
    if fails ≥ 3 then s2.endSlot n Status.integrity else s2

/-- Take a packet of a yelm in; `done` follows once the yelm is whole and has passed its check. One of a yelm that the operation does not have, or
that has landed, is dropped and counted (R21, R306). -/
def State.takeYelm (s : State) (n : Nat) (p : Packet) (pt : List Byte) (done : YelmIn → State → State) : State :=
  let y := Pkt.off p / s.yelmSize n
  if decide (y ≥ s.yelms n) || SMap.get false (s.slot n).landed y then s.bump COL_CNT.STRAY
  else
    let s1 := s.storeYelm n y p pt
    match (s1.slot n).inputs.find? fun v => v.src == Pkt.src p && v.yelm == y with
    | none => s1
    | some v =>
      if v.bytes.length < s1.yelmLen n y then s1
      else if s1.yelmGood n v then done v s1
      else s1.yelmFails n v

/-- A broadcast yelm packet: the whole yelm lands after its check. -/
def execCbcast (die : Die) (link : Link) (pkt : Packet) (s : State) : Host.Outcome State Fault Refusal :=
  .next (s.collRow PT.cbcast die.toNat link.toNat pkt fun n pt s => s.takeYelm n pkt pt fun v s =>
    let s1 := s.land (s.getF COL_TRG.DST n + v.yelm * s.yelmSize n) (v.bytes.take (s.yelmLen n v.yelm)) v.poison
    let x := s1.slot n
    s1.setSlot n { x with inputs := x.inputs.filter (fun w => w.yelm != v.yelm), landed := SMap.insert x.landed v.yelm true
                          poison := x.poison || v.poison })

/-- A contribution yelm packet: once every contribution is in, the junction combines. -/
def execCreduce (die : Die) (link : Link) (pkt : Packet) (faults : List JunctionFault) (s : State) : Host.Outcome State Fault Refusal :=
  .next (s.collRow PT.creduce die.toNat link.toNat pkt fun n pt s => s.takeYelm n pkt pt fun v s =>
    let x := s.slot n
    let s1 := s.setSlot n { x with inputs := x.inputs.map fun w => if w.src == v.src && w.yelm == v.yelm then { w with good := true } else w }
    s1.tryCombine n v.yelm faults)

/-- A CCTL of one kind. -/
def State.ctlRow (s : State) (kind d l : Nat) (p : Packet) (f : Nat → SlotSt → State → State) : State :=
  if Pkt.arg p / 256 = kind then s.collRow PT.cctl d l p fun n _ s => f n (s.slot n) s else s

def execCctlGrant (die : Die) (link : Link) (pkt : Packet) (s : State) : Host.Outcome State Fault Refusal :=
  .next (s.ctlRow Ctl.grant die.toNat link.toNat pkt fun n x s => (s.setSlot n { x with granted := true }).checkLaunch n)

def execCctlReady (die : Die) (link : Link) (pkt : Packet) (s : State) : Host.Outcome State Fault Refusal :=
  .next (s.ctlRow Ctl.ready die.toNat link.toNat pkt fun n x s =>
    (s.setSlot n { x with ready := SMap.insert x.ready (Pkt.src pkt) true }).checkLaunch n)

def execCctlYack (die : Die) (link : Link) (pkt : Packet) (s : State) : Host.Outcome State Fault Refusal :=
  .next (s.ctlRow Ctl.yack die.toNat link.toNat pkt fun n x s =>
    (s.setSlot n { x with acked := SMap.insert x.acked (Pkt.off pkt / s.yelmSize n) true }).sendWindow n)

def execCctlDone (die : Die) (link : Link) (pkt : Packet) (s : State) : Host.Outcome State Fault Refusal :=
  .next (s.ctlRow Ctl.done die.toNat link.toNat pkt fun n x s => s.setSlot n { x with done := SMap.insert x.done (Pkt.src pkt) true })

/-- The sender reads the yelm again and sends it again (R319). -/
def execCnak (die : Die) (link : Link) (pkt : Packet) (s : State) : Host.Outcome State Fault Refusal :=
  .next (s.collRow PT.cnak die.toNat link.toNat pkt fun n _ s =>
    let y := Pkt.off pkt / s.yelmSize n
    let g := s.grpOf n
    let s1 := s.bump COL_TRG_STAT.RESENDS n
    if s.isBcast n && s.getF COL_GRP_A.AXIS g != 2 then s1.sendYelmTo n y (Pkt.src pkt) (0x8000 + g)
    else s1.sendYelmTo n y (Pkt.src pkt) (Pkt.src pkt))

/-! ## Completion and timeout (R302, R303, R320) -/

/-- A slot has done all its role asks for. -/
def State.slotComplete (s : State) (n : Nat) : Bool :=
  let x := s.slot n
  let st := s.trgState n
  let all := fun (m : SMap Bool) => (upFrom 0 (s.yelms n)).all fun y => SMap.get false m y
  if s.isBcast n then
    (if s.isRoot n then st == TS.launched && (s.peersIn (s.grpOf n)).all fun e => SMap.get false x.done e
     else (st == TS.handshake || st == TS.launched) && all x.landed)
  else st == TS.launched && all (if s.isRoot n then x.landed else x.acked)

/-- REARM (R303). -/
def State.rearm (s : State) (n : Nat) : State :=
  if s.flag COL_TRG.REARM n then
    let s1 := s.setF COL_TRG.TRIG_COUNT n (s.getF COL_TRG.TRIG_COUNT n + s.getF COL_TRG.COUNT_STEP n)
    let dl := s.getF COL_TRG.DEADLINE n
    let s2 := if dl = 0 then s1 else s1.setF COL_TRG.DEADLINE n (dl + s.getF COL_TRG.DL_STEP n)
    (s2.setF COL_TRG_STAT.INST n (s.getF COL_TRG_STAT.INST n + 1)).enterArmed n
  else s

/-- CHAIN (R303): a slot that cannot be armed goes to FAULT, and the job aborts. -/
def State.chain (s : State) (n : Nat) : State :=
  if s.flag COL_TRG.CHAIN n then
    let m := s.getF COL_TRG.NEXT n
    match s.armCheck m with
    | none => s.armSlot m
    | some st =>
      let job := s.slotJob n
      ((s.slotFault m st).record { status := st, source := Src.die 0, sev := .partitionFatal, job := some (s.jobRef job) }).raiseAbort
        job Status.jobAbort 5
  else s

/-- Complete a slot: STATUS, the done batten, DONE, then REARM and CHAIN. -/
def State.completeSlot (s : State) (n : Nat) : State :=
  let x := s.slot n
  let root := s.groupRoot (s.grpOf n)
  let s0 := if s.isBcast n && !(s.isRoot n) then s.collCtl n root PT.cctl 0 (256 * Ctl.done) else s
  let s1 := (s0.setF COL_TRG_STAT.STATUS n (if x.poison then Status.poison else Status.ok)).setF COL_TRG_STAT.WAFLAGS n
    (if s.isReduce n && s.isRoot n then x.flags else 0)
  let s2 := if s1.flag COL_TRG.DONE_EN n then s1.batAdd (s1.getF COL_TRG.DONE_BTN n) 1 else s1
  ((((s2.setF COL_TRG_STAT.STATE n TS.done).setSlot n {}).dropFan n).rearm n).chain n

def execTriggerComplete (slot : BitVec 12) (s : State) : Host.Outcome State Fault Refusal :=
  .next (if s.slotComplete slot.toNat then s.completeSlot slot.toNat else s)

/-- The collective timeout, counted in course boundaries since HANDSHAKE. -/
def State.collLimit (s : State) (n : Nat) : Nat :=
  let t := s.getF COL_TMO.COURSES (s.getF COL_GRP_A.RSET (s.grpOf n))
  if t = 0 then 1024 else t

def execCollectiveTimeout (slot : BitVec 12) (s : State) : Host.Outcome State Fault Refusal :=
  let n := slot.toNat
  let st := s.trgState n
  .next (if (st == TS.handshake || st == TS.launched) && decide (s.collLimit n ≤ (s.slot n).courses) && !(s.slotComplete n) then
      s.endSlot n Status.timeout
    else s)

/-! ## Wakes (R211, R213) -/

/-- SLATE_LATE of a trigger watch that was met after its deadline course. -/
def State.slateLate (s : State) (n : Nat) (m : Met) : State :=
  let due := (m.watch.deadline + 1) * 2 ^ s.k
  if m.watch.deadline ≠ 0 ∧ m.time > due then
    s.addLag (4 + m.watch.batten / 4096) (s.slotJob n) 4 0xFF (m.watch.batten / 4096) (m.time - due)
  else s

/-- A watch that has been met wakes its waiter. -/
def execBattenWatchWake (idx : Nat) (s : State) : Host.Outcome State Fault Refusal :=
  .next (if s.power.stopped then s else match s.task.met[idx]? with
    | none => s
    | some m =>
      let s1 : State := { s with task := { s.task with met := removeAt s.task.met idx } }
      match m.watch.who with
      | .core n =>
        let c := s1.getCore n
        (match c.wait with
         | .btnWait rd => s1.setCore n { (((c.setS rd (BitVec.ofNat 64 m.count)).dropReadCache).retire 1 1) with wait := .none }
         | _ => s1)
      | .gate q => s1.setQueue q { s1.queue q with gateMet := true }
      | .trigger n =>
        if s1.trgState n == TS.armed then (s1.slateLate n m).enterHandshake n else s1)

end Sys2Proof.Machine
end

