-- ==== Sys2Proof/Machine/Store.lean ====
section
/-!
DEFINITION. Machine/Store.lean: erased dies and die marks (R350, R351), merge-buffer write-backs (R352), row repair (R355), scrubbing
(R356, R357), the error log's readers (R364) and the raw registers (R365).
-/
namespace Sys2Proof.Machine

/-! ## Erased dies (R350, R351) -/

/-- A cistern's erasure changed: data that returns from now on decodes with it. -/
def State.reviewRaw (s : State) (c : Nat) : State :=
  s.store.raw.foldl (fun (s : State) e =>
    if region (64 * e.1) == .cistern && (s.locate (64 * e.1)).1 == c then s.viewRaw (64 * e.1) e.2 else s) s

def State.setErase (s : State) (c die : Nat) (valid : Bool) : State :=
  ((s.setF ECC_ERASE.DIE c die).setF ECC_ERASE.VALID c (b2n valid)).reviewRaw c

/-- A write of ECC_ERASE. -/
def State.writeErase (s : State) (who c : Nat) (val : Word) : State :=
  let die := field val 0 5
  let v := bit val 5
  let no := fun st => s.record { status := st, source := Src.cistern c, detail := s.cisDetail c 31 31 0 0 }
  if !(Who.isManager who) then no Status.denied
  else if die > 17 then no Status.badArg
  else match s.erasedDie c with
    | none => s.setErase c die v
    | some e =>
      if v then (if die = e then s else no Status.busy)
      else if s.anyBound then no Status.denied
      else s.setErase c die false

def execDieEraseWrite (who : Ident) (cis : BitVec 4) (val : Word) (s : State) : Host.Outcome State Fault Refusal :=
  .next (s.writeErase who.toNat cis.toNat val)

/-- A die's tally of corrections. -/
def State.tally (s : State) (c d : Nat) : DieTally := (SMap.find? s.store.dies (c * 18 + d)).getD {}
def State.setTally (s : State) (c d : Nat) (t : DieTally) : State :=
  { s with store := { s.store with dies := SMap.insert s.store.dies (c * 18 + d) t } }

/-- A die's corrections call for a mark: it has met a condition of R351. -/
def State.markDue (s : State) (c d : Nat) : Bool := (s.tally c d).met.isSome

/-- The rider marks a die that is due, and its tally starts again; in a marked cistern it records that no margin is left. -/
def State.markDie (s : State) (c d : Nat) : State :=
  let rec_ := fun (s : State) (st : Nat) => s.record { status := st, source := Src.cistern c, detail := s.cisDetail c d 31 0 6 }
  match s.erasedDie c with
  | none => (rec_ ((s.setErase c d true).setTally c d {}) Status.ok).addFieldEntry 5 (c + 16 * d)
  | some e =>
    if e = d || (s.tally c d).told then s
    else rec_ (s.setTally c d { s.tally c d with told := true }) Status.noResource

/-- The die of a cistern that met a condition before another die did (R367). -/
def State.dueBefore (s : State) (c d : Nat) : Option Nat :=
  match (s.tally c d).met with
  | none => none
  | some t =>
    (upFrom 0 18).foldl (fun (b : Option Nat) x => match (s.tally c x).met with
      | some u => if u < (match b with | some y => ((s.tally c y).met).getD 0 | none => t) then some x else b
      | none => b) none

/-- DIE_MARK: the rider acts on a die that is due; where another die of an unmarked cistern met its condition first, on that one before. -/
def execDieMark (cis : BitVec 4) (die : BitVec 5) (s : State) : Host.Outcome State Fault Refusal :=
  let c := cis.toNat
  let d := die.toNat
  .next (if !(s.markDue c d) then s
    else match if (s.erasedDie c).isNone then s.dueBefore c d else none with
      | some x => (s.markDie c x).markDie c d
      | none => s.markDie c d)

/-! ## The merge buffer (R352) -/

/-- An entry writes back once no access has merged into it for 32 ns, or when the buffer needs room. -/
def execMergeWriteback (cis : BitVec 4) (chan : BitVec 5) (idx : Nat) (s : State) : Host.Outcome State Fault Refusal :=
  let key := cis.toNat * 32 + chan.toNat
  let l := SMap.get [] s.store.merge key
  .next (match l[idx]? with
    | some e => if !s.power.stopped && (decide (e.last + 32 ≤ s.clock) || decide (64 ≤ l.length)) then s.writeBack key idx else s
    | none => s)

/-! ## Row repair (R355) -/

/-- The address of the first granule of a tier row. -/
def rowAddr (tier bank row : Nat) : Nat :=
  tierBase + tier / 2 * tierSize + (bank * 0x80_0000 + row * 1024) * 2 + tier % 2 * 64

/-- A row whose corrections have reached ECC_THR.ROW moves to a spare row, while its bank has one. -/
def execRowRepair (tier : BitVec 5) (bank : BitVec 8) (row : BitVec 13) (s : State) : Host.Outcome State Fault Refusal :=
  let t := tier.toNat
  let b := bank.toNat
  let r := row.toNat
  let key := (t * 192 + b) * 8192 + r
  let used := SMap.get 0 s.store.spares (t * 192 + b)
  .next (if decide (192 ≤ b) || decide (SMap.get 0 s.store.rowCorr key < max 1 (s.getF ECC_THR.ROW)) || decide (32 ≤ used) then s
    else
      let last := SMap.get 0 s.store.rowLast key
      let s1 := { s with store := { s.store with spares := SMap.insert s.store.spares (t * 192 + b) (used + 1),
                                                 rowCorr := SMap.erase s.store.rowCorr key, rowLast := SMap.erase s.store.rowLast key } }
      let s2 := (s1.store.raw.map fun e => 64 * e.1).foldl (fun (s : State) g =>
        if region g == .tier && tierRow g == key then (s.noteDecode g 5).eraseRaw g else s) s1
      (s2.record { status := Status.ok, source := Src.tier t, addr := some (rowAddr t b r), detail := 5 * 2 ^ 16 + last }).addFieldEntry 2
        (t + b * 2 ^ 5 + r * 2 ^ 13))

/-! ## Scrubbing (R356, R357) -/

/-- A scrub read of a granule: `obs` is what its stored bits have become. A granule with a live merge entry is served from it. -/
def State.scrub (s : State) (g : Nat) (obs : Observed) : State :=
  let cis := region g == .cistern
  if cis && s.merging g then s
  else
    let c := (s.locate g).1
    let sus := (obs.suspects ++ s.suspects g).eraseDups
    let s1 := s.countEdc g sus
    let ws := if cis then cisWords (cisFlip (cisOfWords (s1.rawWords g)) obs.flips)
      else tierFlip (s1.rawWords g) (obs.flips.map fun f => (f.1, f.2.1))
    match s1.decodeRaw g ws sus with
    | .clean => s1
    | .poison => s1
    | .corrected syms dies =>
      let s2 := s1.countCorrected g syms dies
      if cis && some dies == (s1.erasedDie c).map fun e => [e] then
        { s2 with store := { s2.store with raw := SMap.insert s2.store.raw (g / 64) ws, edc := SMap.put [] s2.store.edc (g / 64) sus } }
      else
        let s3 := ((s2.setBytes g (decodedBytes cis ws (.corrected syms dies))).setPoison g false).eraseRaw g
        if cis then s3.mergeWrite g 0 0 false else s3
    | .uncorrectable => (s1.setBytes g (decodedBytes cis ws .uncorrectable)).createPoison g 2 sus (badWord ws)

/-- Passes completed by every channel of a cistern. -/
def State.cisternPasses (s : State) (c : Nat) : Nat :=
  ((upFrom (c * 32) 32).map fun k => SMap.get 0 s.store.scrubPasses k).foldl min (SMap.get 0 s.store.scrubPasses (c * 32))

/-- A cistern's pass ends: the counts that run over one pass start again (R351, R360). -/
def State.newPass (s : State) (c : Nat) : State :=
  { s with store := { s.store with dies := s.store.dies.map fun (e : Nat × DieTally) =>
                                     if e.1 / 18 == c then (e.1, { e.2 with pass := 0, told := false, met := if e.2.told then none else e.2.met })
                                     else e
                                   created := SMap.erase s.store.created c } }

/-- A scrubber moves on: its number, the granules it covers. -/
def State.scrubOn (s : State) (key total : Nat) : State :=
  let k := SMap.get 0 s.store.scrubPos key
  if k + 1 < total then { s with store := { s.store with scrubPos := SMap.put 0 s.store.scrubPos key (k + 1) } }
  else
    let s1 := { s with store := { s.store with
      scrubPos := SMap.erase s.store.scrubPos key
      scrubPasses := SMap.insert s.store.scrubPasses key (SMap.get 0 s.store.scrubPasses key + 1) } }
    if key < 512 ∧ s.cisternPasses (key / 32) < s1.cisternPasses (key / 32) then s1.newPass (key / 32) else s1

/-- The enable bit of a scrubber, its number, how many granules it covers, and the address of the `k`-th. -/
def State.scrubberOf (s : State) : ScrubUnit → Bool × Nat × Nat × (Nat → Nat)
  | .cistern c ch => (s.flag SCRB_CTL.CIS_EN, c.toNat * 32 + ch.toNat, 25_165_824,
      fun k => s.unlocate c.toNat ((k / 4 * 32 + ch.toNat) * 256 + k % 4 * 64))
  | .tier t => (s.flag SCRB_CTL.TIER_EN, 1024 + t.toNat, 25_165_824, fun k => rowAddr t.toNat 0 0 + 128 * k)
  | .scratch n => (s.flag SCRB_CTL.SCR_EN, 2048 + n.toNat, 32_768, fun k => scratchBase + n.toNat * scratchSize + 64 * k)

/-- The memory of a scrubber is powered: the bus is up and the rider released, no power loss has stopped the clocks, the stage has not switched the
rails off; in a compute reset, the slate's wave has begun and the cisterns are in self-refresh (R373, R396, R441, R452). -/
def State.powered (s : State) (unit : ScrubUnit) : Bool :=
  let st := s.getF BOOT_STAT.STAGE
  let slate := match unit with | .cistern _ _ => none | .tier t => some (t.toNat / 2) | .scratch n => some (n.toNat / 128)
  s.rst.busUp.isSome && s.rst.riderUp && !s.power.stopped && st != 0xA && st != 0xB && st != 0xC &&
    (st != 0x9 || match slate with
      | some sl => decide (sl % 4 < s.getF BOOT_STAT.WAVES) || (SMap.find? s.rst.starting sl).isSome
      | none => false)

/-- The next read of a scrubber: enabled, not paused by HOLD, and its memory powered. -/
def execScrubRead (unit : ScrubUnit) (obs : Observed) (s : State) : Host.Outcome State Fault Refusal :=
  match s.scrubberOf unit with
  | (en, key, total, addr) =>
    .next (if !en || s.flag ECC_RAW_CTL.HOLD || !(s.powered unit) then s
      else (s.scrub (addr (SMap.get 0 s.store.scrubPos key)) obs).scrubOn key total)

/-- A write of SCRB_CTL: disabling a scrubber is logged. -/
def State.writeScrb (s : State) (who : Nat) (val : Word) : State :=
  if !(Who.isManager who) then s.record { status := Status.denied, source := Src.module }
  else
    let s1 := s.setReg .SCRB_CTL 0 (packW [(0, 3, field val 0 3), (8, 8, field val 8 8), (16, 16, field val 16 16), (32, 16, field val 32 16)])
    if (upFrom 0 3).any fun i => bit (s.reg .SCRB_CTL) i && !(bit val i) then s1.record { status := Status.ok, source := Src.rider } else s1

/-! ## The error log (R364) -/

/-- The rider copies a record above CORRECTED to flash. -/
def execRecordFlashCopy (seq : BitVec 32) (s : State) : Host.Outcome State Fault Refusal :=
  let q := seq.toNat
  .next (if !s.paused && s.store.logToFlash.contains q then
      { s with store := { s.store with logToFlash := s.store.logToFlash.filter (fun x => x != q)
                                       flashLog := s.store.flashLog ++ s.store.log.filter fun r => r.seq == q } }
    else s)

/-- The record that ECC_LOG_SEL selects. -/
def State.selected (s : State) : Option ErrRec := s.store.log.find? fun r => r.seq == s.getF ECC_LOG_SEL.SEQ

def Sev.code : Sev → Nat
  | .corrected => 0
  | .deferred => 1
  | .partitionFatal => 2
  | .moduleFatal => 3

/-- The eight words of an error record (R362). -/
def ErrRec.words (r : ErrRec) : List Word :=
  let j := r.job.getD (0, 0, 0)
  [BitVec.ofNat 64 r.gauge,
   packW [(0, 8, r.status), (8, 2, r.sev.code), (10, 1, b2n r.wrapped), (11, 1, b2n r.addr.isSome), (12, 1, b2n r.job.isSome), (16, 16, r.source),
          (32, 16, j.1), (48, 8, j.2.1), (56, 4, j.2.2)],
   BitVec.ofNat 64 (r.addr.getD 0), packW [(0, 32, r.seq), (32, 32, r.count)], BitVec.ofNat 64 r.detail, 0, 0, 0]

/-- ECC_LOG_SEL and ECC_LOG_REC as they read. -/
def State.logSel (s : State) : Word := packW [(0, 32, s.getF ECC_LOG_SEL.SEQ), (32, 1, b2n s.selected.isSome)]
def State.logRec (s : State) (w : Nat) : Word := match s.selected with | some r => r.words.getD w 0 | none => 0

def State.writeLogSel (s : State) (who : Nat) (val : Word) : State :=
  if Who.isManager who then s.setF ECC_LOG_SEL.SEQ 0 (field val 0 32) else s.record { status := Status.denied, source := Src.module }

def execLogSelect (who : Ident) (val : Word) (s : State) : Host.Outcome State Fault Refusal := .next (s.writeLogSel who.toNat val)

/-! ## The raw registers (R365) -/

/-- A raw operation on a granule, after a live merge entry has written back. -/
def State.rawOp (s : State) (g : Nat) (write : Bool) : State :=
  let key := s.mergeKey g
  let s1 := if region g == .cistern then
      { s with store := { s.store with
        merge := SMap.put [] s.store.merge key ((SMap.get [] s.store.merge key).filter fun e => e.granule != g) } }
    else s
  if write then
    let ws := (upFrom 0 9).map fun i => s1.reg .ECC_RAW_DATA i
    s1.storeRaw g (if region g == .cistern then ws else modifyAt (fun w => BitVec.ofNat 64 (w.toNat % 2 ^ 39)) ws 8)
  else ((List.range 9).zip (s1.rawWords g)).foldl (fun (s : State) e => s.setReg .ECC_RAW_DATA e.1 e.2) s1

/-- A write of ECC_RAW_CTL: its fields, then GO with its checks. -/
def State.writeRaw (s : State) (who : Nat) (val : Word) : State :=
  let g := field val 0 42
  let go := bit val 49
  let no := fun (s : State) st =>
    (if go then s.setF ECC_RAW_CTL.STATUS 0 st else s).record { status := st, source := Src.module }
  if !(Who.isManager who) then no s Status.denied
  else
    let s1 := s.setReg .ECC_RAW_CTL 0 (packW [(0, 42, g), (48, 1, b2n (bit val 48)), (51, 1, b2n (bit val 51)), (56, 8, s.getF ECC_RAW_CTL.STATUS)])
    if !go then s1
    else if s.anyBound then no s1 Status.denied
    else if g % 64 != 0 || !(region g == .cistern || region g == .tier) then no s1 Status.badArg
    else (s1.setF ECC_RAW_CTL.STATUS 0 Status.ok).rawOp g (bit val 48)

def execRawRead (who : Ident) (val : Word) (s : State) : Host.Outcome State Fault Refusal :=
  .next (if bit val 49 && !(bit val 48) then s.writeRaw who.toNat val else s)

def execRawWrite (who : Ident) (val : Word) (s : State) : Host.Outcome State Fault Refusal :=
  .next (if bit val 49 && bit val 48 then s.writeRaw who.toNat val else s)

end Sys2Proof.Machine
end

