-- ==== Sys2Proof/Machine/HostPorts.lean ====
section
/-!
DEFINITION. Machine/HostPorts.lean: partitions and functions (R323 to R327), apertures (R329 to R331), the copy engine (R333 to R335),
MSI-X (R337), mailbox channels (R338 to R344), and the commands ECHO, INFO and PLACE (R172 to R174, R343).
-/
namespace Sys2Proof.Machine

/-! ## Partition ownership (R325) -/

/-- Each of an identity and 0x0000 is held by a writer's family. -/
def heldBy (who x : Nat) : Bool := x == 0 || Who.sameFamily who x

/-- A write of HIF_POWN. -/
def State.writePown (s : State) (who p : Nat) (val : Word) : State :=
  let old := s.owner p
  let new := field val 0 16
  let slates := field val 16 16
  let bad := fun (st : Nat) => s.record { status := st, source := Src.port (Who.port who) }
  if !(Who.isPF who) || !(heldBy who old && heldBy who new) || s.tdiHeld old then bad Status.denied
  else if s.bound p then bad Status.denied
  else if (upFrom 0 16).any fun q => q != p && (s.slatesOf q &&& slates) != 0 then bad Status.badArg
  else if new != 0 && slates == 0 then bad Status.badArg
  else (s.setF HIF_POWN.OWNER p new).setF HIF_POWN.SLATES p slates

/-- A waiting command is PF0's write of a partition's HIF_POWN: by its own row, or as a register write. -/
def pf0Pown (p : Nat) : Instr → Bool
  | .partitionOwnerWrite who part _ => who.toNat == Who.pf0 && part.toNat == p
  | .registerWrite who off _ => who.toNat == Who.pf0 && Reg.find off.toNat == some (.HIF_POWN, p)
  | _ => false

/-- A write of HIF_POWN (R326). Commands that wait together fall in the same clock, so PF1's write gives way to PF0's of the same register that waits
behind it, and is judged right after that one. -/
def State.pownWrite (s : State) (who p : Nat) (val : Word) : State :=
  if who = Who.pf1 ∧ s.pending.any (pf0Pown p) then { s with host := { s.host with pown := s.host.pown ++ [(p, val)] } }
  else
    let s1 := s.writePown who p val
    if who = Who.pf0 then
      let later := s1.host.pown.filter fun e => e.1 == p
      later.foldl (fun (s : State) e => s.writePown Who.pf1 p e.2)
        { s1 with host := { s1.host with pown := s1.host.pown.filter fun e => e.1 != p } }
    else s1

def execPartitionOwnerWrite (who : Ident) (part : BitVec 4) (val : Word) (s : State) : Host.Outcome State Fault Refusal :=
  .next (s.pownWrite who.toNat part.toNat val)

/-! ## Apertures (R329 to R331) -/

/-- Size of a function's memory aperture (R328): a PF's is resizable, 64 GiB at reset. -/
def State.apertureSize (s : State) (fn : Nat) : Nat :=
  if Who.isPF fn then 16 * 4 ^ SMap.get 1 s.host.barSize (Who.port fn) * 2 ^ 30 else 4 * 2 ^ 30

/-- The identities that write HIF_FN_A and HIF_FN_B of a function: itself and its PF. -/
def mayFn (who fn : Nat) : Bool := Who.isFn fn && (who == fn || (Who.isPF who && Who.pfOf fn == who))

/-- A write of HIF_FN_A: the base must be a multiple of the aperture size; a TDI's is frozen (R416). -/
def State.writeFnA (s : State) (who fn : Nat) (val : Word) : State :=
  let src := Src.port (Who.port fn)
  if !(mayFn who fn) || s.tdiHeld fn then s.record { status := Status.denied, source := src }
  else if field val 0 12 * 2 ^ 30 % s.apertureSize fn != 0 then s.record { status := Status.badArg, source := src }
  else s.setF HIF_FN_A.APBASE_GIB fn (field val 0 12)

def execApertureBaseWrite (who fn : Ident) (val : Word) (s : State) : Host.Outcome State Fault Refusal :=
  .next (s.writeFnA who.toNat fn.toNat val)

/-- A write of HIF_FN_B: CFREE is read only. -/
def State.writeFnB (s : State) (who fn : Nat) (val : Word) : State :=
  if !(mayFn who fn) then s.record { status := Status.denied, source := Src.port (Who.port fn) }
  else s.setReg .HIF_FN_B (Fld.at HIF_FN_B.EVEC fn)
    (BitVec.ofNat 64 (natSetField (s.reg .HIF_FN_B (Fld.at HIF_FN_B.EVEC fn)).toNat 0 20 (field val 0 20)))

/-- The module address of an offset in a function's aperture. -/
def State.apAddr (s : State) (fn off : Nat) : Nat := s.getF HIF_FN_A.APBASE_GIB fn * 2 ^ 30 + off

/-- Every byte of a range lies within the reach of a function (R330). -/
def State.fnRange (s : State) (fn a n : Nat) : Bool := rangeAll (s.fnReach fn) a n

/-- An access that a function may not make is counted, and recorded once per function and course (R330, R332). -/
def State.badAccess (s : State) (fn : Nat) : State :=
  (s.bump HIF_FN_C.BAD_ACCESS fn).recordOnce (.badAccess fn) { status := Status.denied, source := Src.port (Who.port fn) }

/-- A read through an aperture: the bytes, with EP where a granule is poisoned, or Completer Abort. -/
def execApertureRead (fn : Ident) (off : BitVec 42) (len : BitVec 13) (s : State) : Host.Outcome State Fault Refusal :=
  let f := fn.toNat
  let n := len.toNat
  let a := s.apAddr f off.toNat
  .next (if !(Who.isFn f && s.fnExists f) || decide (off.toNat + n > s.apertureSize f) then s
    else if s.tdi f == 3 then s.emit (.unsupported f)
    else if s.fnRange f a n then (s.noteRead a n).emit (.completion f (some (s.bytes a n)) (s.anyPoison a n))
    else (s.badAccess f).emit (.completion f none false))

/-- A posted write through an aperture: at home before any later one of its function. -/
def execApertureWrite (fn : Ident) (off : BitVec 42) (data : List Byte) (ep : Bool) (s : State) : Host.Outcome State Fault Refusal :=
  let f := fn.toNat
  let a := s.apAddr f off.toNat
  .next (if !(Who.isFn f && s.fnAccepts f) || decide (off.toNat + data.length > s.apertureSize f) then s
    else if s.fnRange f a data.length then s.land a data ep
    else s.badAccess f)

/-! ## The copy engine (R333 to R335) -/

def State.copies (s : State) (fn : Nat) : CopyQueue := SMap.get {} s.host.copies fn
def State.setCopies (s : State) (fn : Nat) (x : CopyQueue) : State :=
  { s with host := { s.host with copies := SMap.put {} s.host.copies fn x } }

/-- A descriptor that arrives as one write of 64 bytes takes a credit. -/
def State.copySubmit (s : State) (f : Nat) (data : List Byte) : State :=
  let x := s.copies f
  (if !(Who.isFn f && s.fnAccepts f) then s
    else if data.length != 64 || s.getF HIF_FN_B.CFREE f == 0 then
      (s.bump HIF_FN_C.CPY_DROP f).record { status := Status.noResource, source := Src.port (Who.port f) }
    else
      let ws := (chunksOf 8 8 data).map fun b => BitVec.ofNat 64 (leNat b)
      (s.setCopies f { x with queue := x.queue ++ [ws] }).setF HIF_FN_B.CFREE f (s.getF HIF_FN_B.CFREE f - 1))

def execCopySubmit (fn : Ident) (data : List Byte) (s : State) : Host.Outcome State Fault Refusal := .next (s.copySubmit fn.toNat data)

/-- A field of a descriptor. -/
def dword (ws : List Word) (i lo w : Nat) : Nat := field (ws.getD i 0) lo w

/-- Reserved values, misaligned addresses and lengths (R335). -/
def copyBad (ws : List Word) : Bool :=
  let len := dword ws 3 0 32
  dword ws 0 1 1 != 0 || dword ws 2 42 22 != 0 || dword ws 3 32 32 != 0 || dword ws 5 0 64 != 0 || dword ws 6 0 64 != 0 || dword ws 7 0 64 != 0 ||
  dword ws 1 0 2 != 0 || dword ws 2 0 2 != 0 || dword ws 4 0 4 != 0 ||
  decide (len < 4) || decide (len > 2 ^ 31) || len % 4 != 0

/-- A batten within the bounds of R330: of the function's partitions, or for a PF of any but a held VF's. -/
def State.fnBatten (s : State) (fn b : Nat) : Bool :=
  match s.partOfSlate (b / 4096) with
  | some p => if Who.isVF fn then s.owner p == fn else !(Who.isVF (s.owner p) && s.tdiHeld (s.owner p))
  | none => Who.isPF fn

/-- The status with which a descriptor is refused at its start. -/
def State.copyCheck (s : State) (fn : Nat) (ws : List Word) : Option Nat :=
  if copyBad ws then some Status.badArg
  else if !(s.fnRange fn (dword ws 2 0 42) (dword ws 3 0 32)) || (dword ws 0 4 1 == 1 && !(s.fnBatten fn (dword ws 0 16 16))) then some Status.denied
  else none

/-- Parts of a range at the granules it touches: address, length. -/
def granuleParts (a n : Nat) : List (Nat × Nat) := (granulesOf a n).map fun g => (max a g, min (a + n) (g + 64) - max a g)

/-- The writes of a module-to-host copy: a poisoned granule goes out with EP. -/
def State.copyOut (s : State) (host a n : Nat) : List CopyWrite :=
  (granuleParts a n).map fun g => ⟨host + (g.1 - a), s.bytes g.1 g.2, s.anyPoison g.1 g.2⟩

/-- The writes of a host-to-module copy, a granule at a time: the data of the TLPs in order, at most the descriptor's length, poisoned where a byte
came with EP (R335). -/
def copyIn (a n : Nat) (tlps : List (List Byte × Bool)) : List CopyWrite :=
  let bytes := (tlps.flatMap fun t => t.1.map fun b => (b, t.2)).take n
  (granuleParts a bytes.length).map fun g =>
    let part := (bytes.drop (g.1 - a)).take g.2
    ⟨g.1, part.map (·.1), part.any (·.2)⟩

/-- Land a part: in memory, or on the host bus. -/
def State.copyLand (s : State) (fn dir : Nat) (w : CopyWrite) : State :=
  if dir = 0 then s.land w.addr w.data w.poisoned else s.emit (.hostWrite (Who.port fn) w.addr w.data w.poisoned)

/-- A function's oldest descriptor starts (R335): a refused one moves nothing; a bus error ends it with any of its parts landed. -/
def execCopyStart (fn : Ident) (tlps : List (List Byte × Bool)) (busError : Bool) (s : State) : Host.Outcome State Fault Refusal :=
  let f := fn.toNat
  let x := s.copies f
  .next (match x.queue, x.running with
    | ws :: rest, none =>
      let dir := dword ws 0 0 1
      let a := dword ws 2 0 42
      let n := dword ws 3 0 32
      let run := fun (st : Nat) (wr : List CopyWrite) (s : State) => s.setCopies f { queue := rest, running := some ⟨ws, st, wr⟩ }
      (match s.copyCheck f ws with
       | some st => run st [] s
       | none =>
         let parts := if dir = 0 then copyIn a n tlps else s.copyOut (dword ws 1 0 64) a n
         let short := dir == 0 && (tlps.map fun t => t.1.length).sum != n
         let s0 := if dir = 0 then s.emit (.hostRead (Who.port f) (dword ws 1 0 64) n) else s.noteRead a n
         if busError || short then
           let s1 := parts.foldl (fun (s : State) w => if s.fresh.1 % 2 = 1 then s.fresh.2.copyLand f dir w else s.fresh.2) s0
           run Status.integrity [] s1
         else run (if dir = 1 && parts.any fun w => w.poisoned then Status.poison else Status.ok) parts s0)
    | _, _ => s)

/-- The steps of a finished descriptor, in order (R334), whatever its status. A batten out of the function's bounds (R330), for which the descriptor
was refused, is not added to: DEDUCED, log entry 98. -/
def execCopyComplete (fn : Ident) (s : State) : Host.Outcome State Fault Refusal :=
  let f := fn.toNat
  let x := s.copies f
  .next (match x.running with
    | none => s
    | some r =>
      let ws := r.words
      let s1 := r.writes.foldl (fun (s : State) w => s.copyLand f (dword ws 0 0 1) w) s
      let cpl := leBytes 8 (dword ws 0 32 32 + r.status * 2 ^ 32) ++ leBytes 8 s.time
      let s2 := if dword ws 0 2 1 = 1 then s1.emit (.hostWrite (Who.port f) (dword ws 4 0 64) cpl false) else s1
      let s3 := if dword ws 0 4 1 = 1 ∧ s2.fnBatten f (dword ws 0 16 16) = true then s2.batAdd (dword ws 0 16 16) 1 else s2
      let s4 := if dword ws 0 3 1 = 1 then s3.raiseVec f (dword ws 0 5 11) else s3
      (s4.setCopies f { x with running := none }).setF HIF_FN_B.CFREE f (s4.getF HIF_FN_B.CFREE f + 1))

/-- Discard a function's descriptors; the one that runs stops at a granule boundary, which one is open; CFREE is restored (R333). -/
def State.dropCopies (s : State) (fn : Nat) : State :=
  let s1 := match (s.copies fn).running with
    | some r =>
      let f := s.fresh
      (r.writes.take (f.1 % (r.writes.length + 1))).foldl (fun (s : State) w => s.copyLand fn (dword r.words 0 0 1) w) f.2
    | none => s
  (s1.setCopies fn {}).setF HIF_FN_B.CFREE fn (if Who.isPF fn then 256 else 32)

/-! ## Mailbox channels (R338 to R342) -/

def State.chan (s : State) (c : Nat) : Channel := SMap.get {} s.host.channels c
def State.setChan (s : State) (c : Nat) (x : Channel) : State := { s with host := { s.host with channels := SMap.put {} s.host.channels c x } }
def State.chanIdent (s : State) (c : Nat) : Nat := s.getF MBX_BIND.IDENT c
/-- SOURCE of a channel's records: the host port of its identity. -/
def State.chanSrc (s : State) (c : Nat) : Nat := Src.port (Who.port (s.chanIdent c))

/-- The requests not yet answered, and the messages a channel holds. -/
def Channel.reqFill (x : Channel) : Nat := (x.requests.filter fun r => !r.expired).length
def Channel.full (x : Channel) : Bool := decide (x.reqFill + x.responses.length ≥ 4)

/-- The bound identity and the PF of its port reach a page. -/
def State.mayChan (s : State) (who c : Nat) : Bool :=
  let id := s.chanIdent c
  id != 0 && (who == id || (Who.isPF who && Who.isFn id && Who.pfOf id == who))

/-- An access to a page by any other identity is ignored and recorded. -/
def State.byChan (s : State) (who c : Nat) (f : State → State) : State :=
  if s.mayChan who c then f s else s.record { status := Status.denied, source := s.chanSrc c }

/-- Raise a channel's vector, where it has one. -/
def State.chanVec (s : State) (c : Nat) : State :=
  if s.flag MBX_BIND.VEC_EN c then s.raiseVec (s.chanIdent c) (s.getF MBX_BIND.VEC c) else s

/-- A word of a request: those beyond WORDS_M1 are zero. -/
def MbxReq.word (h : MbxReq) (i : Nat) : Nat :=
  if i ≤ field (h.words.getD 0 0) 16 4 then (h.words.getD i 0).toNat else 0
def MbxReq.opcode (h : MbxReq) : Nat := field (h.words.getD 0 0) 0 8

/-- A response to a request: its header, then its words, sixteen in all. -/
def MbxReq.response (h : MbxReq) (status : Nat) (ws : List Nat) : List (BitVec 32) :=
  let head := field (h.words.getD 0 0) 0 16 + (ws.length % 16) * 2 ^ 16 + status * 2 ^ 24
  ((head :: ws) ++ List.replicate (15 - ws.length) 0).map (BitVec.ofNat 32)

/-- The rider answers a channel's first request: the response is posted and the vector raised, or it is discarded and LATE set where the
request's timer has expired or the channel been reset. -/
def State.mbxReply (s : State) (c status : Nat) (ws : List Nat) : State :=
  let x := s.chan c
  match x.requests with
  | [] => s
  | h :: rest =>
    if h.expired then (s.setChan c { x with requests := rest }).setF MBX_STAT.LATE c 1
    else (s.setChan c { x with requests := rest, responses := x.responses ++ [h.response status ws] }).chanVec c

/-- The rider has taken a channel's first request and answers it later. -/
def State.mbxTake (s : State) (c : Nat) : State :=
  let x := s.chan c
  match x.requests with
  | [] => s
  | h :: rest => s.setChan c { x with requests := { h with taken := true } :: rest }

/-- A well-formed header: STATUS and the reserved bits are zero (R343). -/
def MbxReq.headerGood (h : MbxReq) : Bool := field (h.words.getD 0 0) 20 12 == 0

/-- RETRY_AFTER: the rider's estimate of its backlog, an open value of 100 to 1,000,000 µs (R343, R457). -/
def State.mbxBusy (s : State) (c : Nat) : State :=
  let f := s.fresh
  f.2.mbxReply c Status.busy [100 + f.1 % 999901]

/-- Work of rider class 3 that is ready runs before any of classes 4 to 6 (R456): the records that wait go to flash in their order. -/
def State.riderFirst (s : State) : State :=
  if s.store.logToFlash.isEmpty then s
  else
    { s with store := { s.store with
      logToFlash := []
      flashLog := s.store.flashLog ++ s.store.logToFlash.flatMap fun q => s.store.log.filter fun r => r.seq == q } }

/-- The rider serves a channel's first request where its opcode is a row's, once a pause has ended; in recovery it serves the management port
alone (R402, R468). -/
def State.mbxRow (s : State) (c op : Nat) (f : (Nat → Nat) → State → State) : State :=
  match (s.chan c).requests with
  | [] => s
  | h :: _ =>
    if s.paused || h.taken || !h.headerGood || h.opcode != op || s.stage == Stage.recovery then s
    else if h.busy then s.riderFirst.mbxBusy c
    else f h.word s.riderFirst

/-- A command that is answered when it has been carried out: from the sender's identity and the request's words, the status, the response's
words and the state. -/
abbrev Cmd := Nat → (Nat → Nat) → State → (Nat × List Nat) × State

def State.mbxCmd (s : State) (c op : Nat) (f : Cmd) : State :=
  s.mbxRow c op fun w s => match f (s.chanIdent c) w s with
    | ((st, ws), s1) => s1.mbxReply c st ws

/-- New mailbox requests are answered BUSY (R457): the rider is loaded although telemetry is at its slowest, or a request has waited 2 ms. -/
def State.shedding (s : State) : Bool :=
  s.rider.saturated ||
    s.host.channels.any fun (e : Nat × Channel) => e.2.requests.any fun r => !r.expired && !r.taken && decide (r.sent + 2_000_000 ≤ s.clock)

/-- SEND (R340): with FULL, ignored with BUSY. -/
def State.mbxSend (s : State) (c : Nat) : State :=
  let x := s.chan c
  if x.full then (s.setF MBX_STAT.LAST c Status.busy).record { status := Status.busy, source := s.chanSrc c }
  else
    let r : MbxReq := { words := (upFrom 0 16).map fun i => SMap.get 0 x.staging i, sent := s.clock, expired := false
                        busy := s.shedding }
    (s.setChan c { x with requests := x.requests ++ [r] }).setF MBX_STAT.LAST c Status.ok

/-- POP (R340). -/
def State.mbxPop (s : State) (c : Nat) : State :=
  let x := s.chan c
  match x.responses with
  | [] => (s.setF MBX_STAT.LAST c Status.badArg).record { status := Status.badArg, source := s.chanSrc c }
  | _ :: rest => (s.setChan c { x with responses := rest }).setF MBX_STAT.LAST c Status.ok

/-- RESET (R340): a request that the rider works on stays until its answer has been discarded; whether it works on one it has not taken
for good is open. -/
def State.mbxReset (s : State) (c : Nat) : State :=
  let x := s.chan c
  let f := s.fresh
  let kept := match x.requests with
    | h :: _ => if h.taken || f.1 % 2 == 1 then [{ h with expired := true }] else []
    | [] => []
  let s1 := (f.2.setChan c { x with requests := kept, responses := [] }).setReg .MBX_LOCK (Fld.at MBX_LOCK.HELD c) 0
  s1.setF MBX_STAT.LAST c Status.ok

/-- A write of MBX_CTL. -/
def State.writeMbxCtl (s : State) (who c : Nat) (val : Word) : State :=
  s.byChan who c fun s =>
    let s1 := if bit val 0 then s.mbxSend c else s
    let s2 := if bit val 1 then s1.mbxPop c else s1
    if bit val 2 then s2.mbxReset c else s2

def execMbxSend (who : Ident) (chan : BitVec 6) (s : State) : Host.Outcome State Fault Refusal := .next (s.writeMbxCtl who.toNat chan.toNat 1)
def execMbxPop (who : Ident) (chan : BitVec 6) (s : State) : Host.Outcome State Fault Refusal := .next (s.writeMbxCtl who.toNat chan.toNat 2)
def execMbxReset (who : Ident) (chan : BitVec 6) (s : State) : Host.Outcome State Fault Refusal := .next (s.writeMbxCtl who.toNat chan.toNat 4)

/-- A write of MBX_LOCK (R341). -/
def State.writeMbxLock (s : State) (who c : Nat) (val : Word) : State :=
  s.byChan who c fun s =>
    let token := field val 32 16
    let held := s.flag MBX_LOCK.HELD c
    let s1 := if bit val 48 && token != 0 && !held then
        ((s.setF MBX_LOCK.HELD c 1).setF MBX_LOCK.HOLDER c who).setF MBX_LOCK.TOKEN c token
      else s
    if bit val 49 && s1.flag MBX_LOCK.HELD c && s1.getF MBX_LOCK.TOKEN c == token then s1.setReg .MBX_LOCK (Fld.at MBX_LOCK.HELD c) 0 else s1

def execMbxTake (who : Ident) (chan : BitVec 6) (token : BitVec 16) (s : State) : Host.Outcome State Fault Refusal :=
  .next (s.writeMbxLock who.toNat chan.toNat (packW [(32, 16, token.toNat), (48, 1, 1)]))
def execMbxGive (who : Ident) (chan : BitVec 6) (token : BitVec 16) (s : State) : Host.Outcome State Fault Refusal :=
  .next (s.writeMbxLock who.toNat chan.toNat (packW [(32, 16, token.toNat), (49, 1, 1)]))

/-- A write of MBX_BIND (R339). -/
def State.writeBind (s : State) (who c : Nat) (val : Word) : State :=
  let old := s.chanIdent c
  let new := if c < 2 then old else field val 0 16
  let x := s.chan c
  let bad := fun (st : Nat) => s.record { status := st, source := Src.port (Who.port who) }
  let idle := x.reqFill == 0 && x.responses.isEmpty && !(s.flag MBX_LOCK.HELD c)
  let frozen := (Who.isVF old && s.tdiHeld old) || (Who.isVF new && s.tdiHeld new)
  let count := ((upFrom 0 64).filter fun d => d != c && s.chanIdent d == new).length
  if !(Who.isPF who) || !(heldBy who old && heldBy who new) || frozen then bad Status.denied
  else if new != old && !idle then bad Status.busy
  else if new != old && Who.isVF new && decide (count ≥ 4) then bad Status.noResource
  else ((s.setF MBX_BIND.IDENT c new).setF MBX_BIND.VEC c (field val 16 11)).setF MBX_BIND.VEC_EN c (field val 27 1)

def execMailboxBind (who : Ident) (chan : BitVec 6) (val : Word) (s : State) : Host.Outcome State Fault Refusal :=
  .next (s.writeBind who.toNat chan.toNat val)

/-- Mark the first request that has not expired as expired. -/
def expireFirst : List MbxReq → List MbxReq
  | [] => []
  | r :: rs => if r.expired then r :: expireFirst rs else { r with expired := true } :: rs

/-- The opcodes of the table "Mailbox commands". -/
def knownOpcode (op : Nat) : Bool :=
  op == 0x01 || op == 0x02 || op == 0x10 || (0x20 ≤ op && op ≤ 0x26) || (0x30 ≤ op && op ≤ 0x36) || (0x40 ≤ op && op ≤ 0x4A) ||
  (0x50 ≤ op && op ≤ 0x53)

/-- The channel and the opcode that a row of the rider's mailbox answers (the table "Mailbox commands"). -/
def answers : Instr → Option (BitVec 6 × Nat)
  | .echo c => some (c, 0x01) | .info c => some (c, 0x02) | .place c => some (c, 0x10)
  | .bind c => some (c, 0x20) | .unbind c => some (c, 0x21) | .bindStatus c => some (c, 0x22) | .keyStatus c => some (c, 0x23)
  | .keyAdvance c => some (c, 0x24) | .keyDrop c => some (c, 0x25) | .unsealBlob c => some (c, 0x26) | .partReset c => some (c, 0x30)
  | .computeReset c => some (c, 0x31) | .abort c => some (c, 0x32) | .resetStatus c => some (c, 0x33) | .restore c => some (c, 0x34)
  | .topoRecheck c => some (c, 0x35) | .fmapRead c => some (c, 0x36) | .updBegin c => some (c, 0x40) | .updBlock c => some (c, 0x41)
  | .updVerify c => some (c, 0x42) | .updActivate c => some (c, 0x43) | .updStatus c => some (c, 0x44) | .updCancel c => some (c, 0x45)
  | .setRead c => some (c, 0x46) | .setReset c => some (c, 0x47) | .confirm c => some (c, 0x48) | .dumpList c => some (c, 0x49)
  | .dumpRead c => some (c, 0x4A) | .energy c => some (c, 0x50) | .snapshot c => some (c, 0x51) | .power c => some (c, 0x52)
  | .caps c => some (c, 0x53)
  | _ => none

/-- A waiting row answers a channel's request: commands that wait together fall in the same clock, and there the response wins over the
expiry (R342). -/
def State.answerWaits (s : State) (chan : BitVec 6) (r : MbxReq) : Bool :=
  (s.chan chan.toNat).requests.head? == some r && s.stage != Stage.recovery &&
  s.pending.any fun i =>
    if r.headerGood && knownOpcode r.opcode then answers i == some (chan, r.opcode) && !r.taken
    else i == .mailboxBadOpcode chan

/-- A request's timer reaches MBX_TMO: a TIMEOUT response, TMO, the vector (R342). -/
def execMailboxTimeout (chan : BitVec 6) (s : State) : Host.Outcome State Fault Refusal :=
  let c := chan.toNat
  let x := s.chan c
  let ms := if s.getF MBX_TMO.MS c = 0 then 10 else s.getF MBX_TMO.MS c
  .next (match x.requests.find? fun r => !r.expired with
    | none => s
    | some r =>
      if s.clock < r.sent + ms * 1000000 ∨ (s.clock = r.sent + ms * 1000000 ∧ s.answerWaits chan r = true) then s
      else
        ((s.setChan c { x with requests := expireFirst x.requests, responses := x.responses ++ [r.response Status.timeout []] }).setF
          MBX_STAT.TMO c 1).chanVec c)

/-! ## Functions that are reset or go (R323, R327, R345) -/

/-- An FLR: the function's channels, copies, MSI-X table, HIF_FN_A and HIF_FN_B. -/
def State.flr (s : State) (fn : Nat) : State :=
  let chans := (upFrom 0 64).filter fun c => s.chanIdent c == fn
  let s1 := chans.foldl (fun s c => s.mbxReset c) (s.dropCopies fn)
  let s2 := { s1 with host := { s1.host with vectors := s1.host.vectors.filter fun e => e.1 / 2048 != fn
                                             maskAll := SMap.put false s1.host.maskAll fn false } }
  let at_ := fun (f : Fld) (i : Nat) => i == Fld.at f fn
  (s2.clearRegs .HIF_FN_A (at_ HIF_FN_A.APBASE_GIB)).clearRegs .HIF_FN_B (at_ HIF_FN_B.EVEC)

/-- The functions of a port's family. -/
def family (port : Nat) : List Nat := (Who.pf0 + port) :: upFrom (1 + 512 * port) 512

/-- An FLR of a VF, or of a PF with its whole family. -/
def execFunctionLevelReset (fn : Ident) (s : State) : Host.Outcome State Fault Refusal :=
  let f := fn.toNat
  .next (if !(s.fnExists f) then s else if Who.isPF f then (family (Who.port f)).foldl State.flr s else s.flr f)

/-- A hot reset, a PERST assertion or a link failure of one port. -/
def execPortReset (port : Bool) (s : State) : Host.Outcome State Fault Refusal := .next ((family (b2n port)).foldl State.flr s)

/-- A VF ceases to exist: its partitions pass to its PF, its channels are reset and unbound, its copies go. -/
def State.vfRemove (s : State) (fn : Nat) : State :=
  let s1 := ((upFrom 0 16).filter fun p => s.owner p == fn).foldl (fun s p => s.setF HIF_POWN.OWNER p (Who.pfOf fn)) s
  let s2 := ((upFrom 0 64).filter fun c => s.chanIdent c == fn).foldl (fun s c => (s.mbxReset c).setF MBX_BIND.IDENT c 0) s1
  let s3 := s2.dropCopies fn
  { s3 with host := { s3.host with removed := SMap.put false s3.host.removed fn true } }

def execVfRemove (fn : Ident) (s : State) : Host.Outcome State Fault Refusal :=
  let f := fn.toNat
  .next (if Who.isVF f && s.fnExists f then s.vfRemove f else s)

/-- Merged raises of a vector go out as one message at the end of the interval. -/
def execMsixIntervalEnd (fn : Ident) (vec : BitVec 11) (s : State) : Host.Outcome State Fault Refusal :=
  let f := fn.toNat
  let v := s.vector f vec.toNat
  .next (match v.last with
    | some t => if v.merged && decide (t + 1000 * s.getF HIF_FN_B.IMOD_US f ≤ s.clock) then s.sendMsix f vec.toNat else s
    | none => s)

/-! ## ECHO, INFO and unknown opcodes (R343) -/

/-- A malformed header is answered BAD_HEADER, an unknown opcode BAD_ARG. -/
def execMailboxBadOpcode (chan : BitVec 6) (s : State) : Host.Outcome State Fault Refusal :=
  let c := chan.toNat
  .next (match (s.chan c).requests with
    | [] => s
    | h :: _ =>
      if h.taken || s.stage == Stage.recovery then s
      else if !h.headerGood then s.mbxReply c Status.badHeader []
      else if !(knownOpcode h.opcode) then s.mbxReply c Status.badArg []
      else s)

/-- ECHO: words 1 to 15 of the request, those past WORDS_M1 too. -/
def execEcho (chan : BitVec 6) (s : State) : Host.Outcome State Fault Refusal :=
  .next (s.mbxRow chan.toNat 0x01 fun _ s =>
    let ws := match (s.chan chan.toNat).requests with | h :: _ => (upFrom 1 15).map fun i => (h.words.getD i 0).toNat | [] => []
    s.mbxReply chan.toNat Status.ok ws)

/-- INFO: the PID, the variant and the rider firmware version. -/
def execInfo (chan : BitVec 6) (s : State) : Host.Outcome State Fault Refusal :=
  .next (s.mbxCmd chan.toNat 0x02 fun _ _ s =>
    ((Status.ok, [Config.pid % 2 ^ 32, natField Config.pid 32 16 + Config.variant * 2 ^ 16, s.getF UPD_BUILD.RUN]), s))

/-! ## PLACE (R172 to R174) -/

/-- An object record. -/
structure PlaceObj where
  size : Nat
  mask : Nat
  level : Nat
  split : Nat
  rank : Nat
  rest : Nat
  deriving DecidableEq, Repr

def placeObj (bs : List Byte) : PlaceObj :=
  let f := fun (lo n : Nat) => leNat ((bs.drop lo).take n)
  ⟨f 0 8, f 8 2, f 10 1, f 11 1, f 12 1, f 13 19⟩

/-- A record keeps its field rules, for a partition's slates. -/
def PlaceObj.good (o : PlaceObj) (slates : Nat) : Bool :=
  decide (1 ≤ o.size) && decide (o.size ≤ 2 ^ 40) && (o.mask &&& slates) == o.mask && decide (o.level ≤ 2) && decide (o.split ≤ 1) && o.rest == 0

/-- The objects' indices by rising rank, then by index. -/
def placeOrder (os : List PlaceObj) : List Nat :=
  (upFrom 0 256).flatMap fun r => (upFrom 0 os.length).filter fun i => (os.getD i ⟨0, 0, 0, 0, 0, 0⟩).rank == r

/-- The placement so far: the next MiB of each slate, cistern MiB used, and each object's result: index, tier bytes, offset, share,
cistern bytes, first cistern MiB (counted within the grant), cistern MiB. -/
structure Placing where
  next : SMap Nat
  used : Nat
  out : List (Nat × Nat × Nat × Nat × Nat × Nat × Nat)

/-- Place one object; none where a TIER_ONLY object does not fit. -/
def Placing.put (p : Placing) (slates i : Nat) (o : PlaceObj) : Option Placing :=
  let mask := if o.mask = 0 then slates else o.mask
  let sl := (upFrom 0 16).filter fun x => natBit mask x
  let share := ceilDiv o.size (sl.length * 2 ^ 20)
  let off := (sl.map fun x => SMap.get 0 p.next x).foldl max 0
  let fits := decide (off + share ≤ 3072)
  if o.level = 1 ∧ fits = false then none
  else
    let head := if o.level = 2 then 0 else if fits then share else if o.split = 1 then 3072 - off else 0
    let tb := min o.size (head * sl.length * 2 ^ 20)
    let cis := ceilDiv (o.size - tb) (2 ^ 20)
    some { next := if head > 0 then sl.foldl (fun m x => SMap.put 0 m x (off + head)) p.next else p.next
           used := p.used + cis
           out := p.out ++ [(i, tb, off, head, o.size - tb, p.used, cis)] }

/-- The GiB of cistern granted to a partition, ascending. -/
def State.grantGibs (s : State) (p : Nat) : List Nat := (upFrom 0 768).filter fun g => s.cisternGranted p (g * 2 ^ 30)

/-- The cistern address, in MiB, of a MiB counted within the grant. -/
def grantMib (gibs : List Nat) (m : Nat) : Nat :=
  match gibs[m / 1024]? with
  | some g => g * 1024 + m % 1024
  | none => match gibs.getLast? with | some g => g * 1024 + 1024 | none => 0

/-- A result record. -/
def placeResult (tb off share cb base short : Nat) : List Byte :=
  leBytes 8 tb ++ leBytes 4 off ++ leBytes 4 share ++ leBytes 8 cb ++ leBytes 4 base ++ leBytes 4 short

/-- Carry out the placement of objects: a status, the result records by object, and the plan. -/
def State.placeRun (s : State) (p : Nat) (os : List PlaceObj) : Nat × List (List Byte) × Option Plan :=
  let gibs := s.grantGibs p
  let total := 1024 * gibs.length
  let zero := List.replicate os.length (placeResult 0 0 0 0 0 0)
  let run := (placeOrder os).foldl (fun a i => a.bind fun (q : Placing) => q.put (s.slatesOf p) i (os.getD i ⟨0, 0, 0, 0, 0, 0⟩))
    (some { next := [], used := 0, out := [] })
  match run with
  | none => (Status.noResource, zero, none)
  | some q =>
    match q.out.find? fun (_, _, _, _, _, at_, cis) => decide (at_ + cis > total) with
    | some (i, _, _, _, _, at_, cis) => (Status.noResource, modifyAt (fun _ => placeResult 0 0 0 0 0 (at_ + cis - total)) zero i, none)
    | none =>
      let recs := q.out.foldl (fun (l : List (List Byte)) (i, tb, off, share, cb, at_, _) =>
        modifyAt (fun _ => placeResult tb off share cb (grantMib gibs at_) 0) l i) zero
      (Status.ok, recs, some ⟨q.out.map fun (i, tb, off, share, cb, _, _) => (i, tb, off, share, cb)⟩)

/-- The rights of a command's sender to a buffer (R344): DENIED outside them, POISON where a granule to be read is poisoned (R359). -/
def State.bufStatus (s : State) (who a n : Nat) (read : Bool) : Option Nat :=
  if !(Who.isFn who && s.fnRange who a n) then some Status.denied
  else if read && s.anyPoison a n then some Status.poison
  else none

/-- The rider reads a command's buffer where it may (R344): what its decode leaves (R358). -/
def State.readBuf (s : State) (who a n : Nat) : State := if Who.isFn who && s.fnRange who a n then s.noteRead a n else s

/-- The words of a request from one on are zero. -/
def zeroFrom (w : Nat → Nat) (i : Nat) : Bool := (upFrom i (16 - i)).all fun j => w j == 0

/-- An address in two words of a request. -/
def addr2 (w : Nat → Nat) (i : Nat) : Nat := w i + w (i + 1) * 2 ^ 32

def cmdPlace : Cmd := fun who w s0 =>
  let p := natField (w 1) 0 4
  let n := natField (w 1) 8 8 + 1
  let list := addr2 w 2
  let res := addr2 w 4
  let s := s0.readBuf who list (32 * n)
  let st : Option Nat :=
    if natField (w 1) 4 4 != 0 || natField (w 1) 16 16 != 0 || !(zeroFrom w 6) then some Status.badArg
    else if !(s.reaches who p) then some Status.denied
    else match s.bufStatus who list (32 * n) true with
      | some e => some e
      | none => s.bufStatus who res (32 * n) false
  match st with
  | some e => ((e, []), s)
  | none =>
    let os := (chunksOf 32 n (s.bytes list (32 * n))).map placeObj
    if os.any fun o => !(o.good (s.slatesOf p)) then ((Status.badArg, []), s)
    else
      match s.placeRun p os with
      | (code, recs, plan) =>
        let s1 := s.land res recs.flatten false
        let s2 := match plan with
          | some q => { s1 with task := { s1.task with plans := SMap.insert s1.task.plans p q } }
          | none => s1
        ((code, []), s2)

def execPlace (chan : BitVec 6) (s : State) : Host.Outcome State Fault Refusal := .next (s.mbxCmd chan.toNat 0x10 cmdPlace)

end Sys2Proof.Machine
end

