-- ==== Sys2Proof/Machine/Power.lean ====
section
/-!
DEFINITION. Machine/Power.lean: the feeds (R368 to R373), samples, limits and energy (R374 to R376, R387 to R394), the caps (R377, R378),
the phase-learning controller (R381 to R386), heat (R395 to R397) and the power mailbox commands (R398).
-/
namespace Sys2Proof.Machine

def State.feed (s : State) (f : Nat) : FeedSt := SMap.get {} s.power.feeds f
def State.setFeed (s : State) (f : Nat) (x : FeedSt) : State :=
  { s with power := { s.power with feeds := SMap.put {} s.power.feeds f x } }

/-- A record of the PWC. -/
def State.pwcRecord (s : State) (status : Nat) : State := s.record { status := status, source := Src.pwc }

def State.held (s : State) : Bool := s.flag FEED_STAT.HELD

/-- The PWC holds its outputs: in a feed hold, and through an activation pause (R371, R468, R469). -/
def State.outputsHeld (s : State) : Bool := s.held || s.paused

def State.feedOk (s : State) (f : Nat) : Bool := if f = 0 then s.flag FEED_STAT.A_OK else s.flag FEED_STAT.B_OK
def State.setFeedOk (s : State) (f : Nat) (v : Bool) : State :=
  if f = 0 then s.setF FEED_STAT.A_OK 0 (b2n v) else s.setF FEED_STAT.B_OK 0 (b2n v)
def State.claim (s : State) (f : Nat) : Nat := if f = 0 then s.getF FEED_STAT.A_CLAIM else s.getF FEED_STAT.B_CLAIM
def State.conducting (s : State) : Nat := s.getF FEED_STAT.COND

/-- The gauge less the time spent in holds and in the pauses of restarts, against which the bounds of R450 run (R450, R469). -/
def State.activeTime (s : State) : Nat :=
  s.clock - s.power.heldTotal - (match s.power.heldSince with | some t => s.clock - t | none => 0)

/-! ## Preference and ramp mode (R370, R372, R387) -/

/-- The preferred feed: in spec, with the higher claim, A where the claims are equal. -/
def State.preferred (s : State) : Option Nat :=
  match s.feedOk 0, s.feedOk 1 with
  | true, true => some (if s.claim 1 > s.claim 0 then 1 else 0)
  | true, false => some 0
  | false, true => some 1
  | false, false => none

/-- Ramp mode's conditions (R387). -/
def State.rampWanted (s : State) : Bool :=
  let hold := (if s.getF PWC_CTL.RAMP_HOLD_MS = 0 then 1000 else s.getF PWC_CTL.RAMP_HOLD_MS) * 1_000_000
  s.flag PWC_CTL.RAMP_EN || (s.feed s.conducting).rampNow ||
    (match s.power.switched with | some t => decide (s.clock < t + hold) | none => false) ||
    (match s.power.readyAt with | some t => decide (s.clock < t + hold) | none => s.rst.riderUp)

/-- RAMP shows whether ramp mode is active (R387). -/
def State.setRamp (s : State) : State := s.setF PWC_CTL.RAMP 0 (b2n s.rampWanted)

/-- What the feeds' events change beside themselves: the wait for a return, RAMP_REQ and, outside a hold or pause, RAMP (R371, R468). -/
def State.feedsChanged (s : State) : State :=
  let pref := match s.preferred with
    | none => none
    | some f =>
      if f = s.conducting then none
      else match s.power.preferred with
        | some (g, t) => if g = f then some (f, t) else some (f, s.clock)
        | none => some (f, s.clock)
  let s1 := ({ s with power := { s.power with preferred := pref } }).setF FEED_STAT.RAMP_REQ 0 (b2n (s.feed s.conducting).rampNow)
  if s1.outputsHeld then s1 else s1.setRamp

/-- Feed selection is stable at a gauge value (R378). -/
def State.stableAt (s : State) (t : Nat) : Bool :=
  (match s.power.switched with | some x => decide (x + 1_000_000 + s.time ≤ t + s.clock) | none => true) && s.feedOk s.conducting && !s.held &&
    s.power.lost.isNone

/-- FEED_STAT as it reads. -/
def State.feedStat (s : State) : Word :=
  BitVec.ofNat 64 (natSetField (s.reg .FEED_STAT).toNat 4 1 (b2n (s.stableAt s.time)))

/-! ## Pilots (R369) -/

/-- Put a feed's claim and RAMP into effect. -/
def State.setClaim (s : State) (f claim : Nat) (ramp : Bool) : State :=
  let s1 := if f = 0 then s.setF FEED_STAT.A_CLAIM 0 claim else s.setF FEED_STAT.B_CLAIM 0 claim
  (s1.setFeed f { s1.feed f with rampNow := ramp }).feedsChanged

/-- A claim that three frames carry takes effect, outside a hold. -/
def State.takeClaim (s : State) (f : Nat) : State :=
  let x := s.feed f
  if decide (x.count < 3) || s.held || (x.claim == s.claim f && x.ramp == x.rampNow) then s else s.setClaim f x.claim x.ramp

def execPilotFrame (feedB : Bool) (b0 b1 b2 b3 : Byte) (s : State) : Host.Outcome State Fault Refusal :=
  let f := b2n feedB
  let x := s.feed f
  let ramp := bit b2 0
  .next (if !s.rst.riderUp || b0 != 0x7E || b3 != (b1 ^^^ b2 ^^^ 0xFF) || (b2 >>> 1) != 0 then s
    else
      let same := x.claim == b1.toNat && x.ramp == ramp
      let s1 := s.setFeed f { x with claim := b1.toNat, ramp := ramp, count := if same then x.count + 1 else 1, last := s.clock }
      let s2 := if f = 0 then s1.setF FEED_STAT.A_PILOT_LOST 0 0 else s1.setF FEED_STAT.B_PILOT_LOST 0 0
      s2.takeClaim f)

def execPilotLost (feedB : Bool) (s : State) : Host.Outcome State Fault Refusal :=
  let f := b2n feedB
  let gone := if f = 0 then s.flag FEED_STAT.A_PILOT_LOST else s.flag FEED_STAT.B_PILOT_LOST
  .next (if gone || s.held || decide (s.clock < (s.feed f).last + 10_000_000) then s
    else
      let s1 := if f = 0 then s.setF FEED_STAT.A_PILOT_LOST 0 1 else s.setF FEED_STAT.B_PILOT_LOST 0 1
      ((s1.setFeed f { s1.feed f with claim := 0, ramp := false, count := 0 }).setClaim f 0 false).pwcRecord Status.ok)

/-! ## Feeds leave and return (R368, R371 to R373) -/

/-- Outputs are held from now on. -/
def State.startHold (s : State) : State :=
  if s.held then s else { s.setF FEED_STAT.HELD 0 1 with power := { s.power with heldSince := some (s.power.heldSince.getD s.clock) } }

/-- The load moves to a feed, a switch-over or a return: ramp mode begins, in a hold too (R371, R387, R399). -/
def State.moveLoad (s : State) (f : Nat) : State :=
  let s1 := (((s.setF FEED_STAT.COND 0 f).bump FEED_STAT.SWITCHES).setReg .FEED_LAST 0 (BitVec.ofNat 64 s.time))
  ({ s1 with power := { s1.power with switched := some s.clock, conducts := s.clock } }).feedsChanged.setRamp

/-- A closing path conducts once its gauge has come (R371). -/
def State.closePath (s : State) : State :=
  match s.power.switching with
  | some (f, t) =>
    if s.clock < t then s
    else (({ s with power := { s.power with switching := none } }).moveLoad f).pwcRecord Status.ok
  | none => s

/-- The conducting feed has left spec: the other takes over within 15 µs, or the module holds. -/
def State.loseFeed (s : State) (f : Nat) : State :=
  let s1 := s.startHold
  if s1.feedOk (1 - f) then
    let (v, s2) := s1.fresh
    { s2 with power := { s2.power with switching := some (1 - f, s2.clock + v % 13_001) } }
  else { s1 with power := { s1.power with switching := none, lost := some s1.clock } }

def execFeedOutOfSpec (feedB : Bool) (s : State) : Host.Outcome State Fault Refusal :=
  let f := b2n feedB
  let s1 := (s.setFeedOk f false).feedsChanged
  let carries := match s.power.switching with | some (g, _) => g == f | none => f == s.conducting
  .next (if !(s.feedOk f) then s
    else if s.rst.busUp.isSome && carries && s.power.lost.isNone then s1.loseFeed f else s1)

/-- A feed is in spec again; during a power loss it conducts at once and the clocks restart. -/
def execFeedInSpec (feedB : Bool) (s : State) : Host.Outcome State Fault Refusal :=
  let f := b2n feedB
  let s1 := (s.setFeedOk f true).feedsChanged
  .next (match s1.power.lost with
    | none => s1
    | some _ =>
      let s2 := { s1 with power := { s1.power with lost := none, stopped := s1.flag TOP_PINS.THERMTRIP, conducts := s1.clock } }
      if f = s2.conducting then s2 else (s2.moveLoad f).pwcRecord Status.ok)

/-- The load returns to the preferred feed, make-before-break. -/
def execFeedReturn (s : State) : Host.Outcome State Fault Refusal :=
  let ms := if s.getF FEED_CTL.RETURN_MS = 0 then 500 else s.getF FEED_CTL.RETURN_MS
  .next (match s.power.preferred with
    | some (f, t) => if s.held || decide (s.clock < t + ms * 1_000_000) then s else s.moveLoad f
    | none => s)

/-- Neither feed has conducted 20 µs after the first left spec, which was 2 µs before its detection. -/
def execPowerLossStop (s : State) : Host.Outcome State Fault Refusal :=
  .next (match s.power.lost with
    | some t =>
      if s.power.stopped || decide (s.clock < t + 18_000) then s
      else { s with power := { s.power with stopped := true, lossRecords := s.power.lossRecords ++ [s.time] } }
    | none => s)

/-! ## Caps (R377, R378) -/

/-- A cap that may be set. -/
def capValid (w : Nat) : Bool := w == 0 || (decide (1500 ≤ w) && decide (w ≤ Config.fusedLimit))

/-- EFF with its source: the first of the smallest. The feed term stands once a sample has been taken. -/
def State.effective (s : State) : Nat × Nat :=
  let mv := s.getF FEED_MEAS.MV s.conducting
  let terms := [(s.power.grid, 1), (s.power.job, 2), (s.power.board, 3)].filter fun t => t.1 != 0
  let feed := if mv = 0 then [] else [(mv * 160 / 1000, 4)]
  (terms ++ feed).foldl (fun b t => if t.1 < b.1 then t else b) (Config.fusedLimit, 0)

def State.setEff (s : State) : State :=
  let e := s.effective
  (s.setF PWC_EFF.EFF_W 0 e.1).setF PWC_EFF.LIMIT 0 e.2

/-- A refused write of the cap change registers. -/
def State.capRefuse (s : State) (status : Nat) : State := (s.setF PWC_CAP_NEXT.STATUS 0 status).pwcRecord status

/-- A write of PWC_CAP: JOB_W is PF0's and PF1's. -/
def State.writeCap (s : State) (who : Nat) (val : Word) : State :=
  let g := field val 0 16
  let j := field val 16 16
  let newG := g != s.getF PWC_CAP.GRID_W
  let newJ := j != s.getF PWC_CAP.JOB_W
  if !(Who.isManager who) || (newJ && !(Who.isPF who)) then s.pwcRecord Status.denied
  else if !(capValid g) || !(capValid j) then s.pwcRecord Status.badArg
  else
    let s1 := (s.setF PWC_CAP.GRID_W 0 g).setF PWC_CAP.JOB_W 0 j
    { s1 with power := { s1.power with gridWait := if newG then some (g, s.time) else s1.power.gridWait
                                       jobWait := if newJ then some (j, s.time) else s1.power.jobWait } }

/-- The arm of a scheduled change, its writer already checked. -/
def State.capArm (s : State) (g : Nat) : State :=
  if s.flag PWC_CAP_NEXT.ARM then s.capRefuse Status.busy
  else if !(capValid g) then s.capRefuse Status.badArg
  else ((s.setF PWC_CAP_NEXT.GRID_W 0 g).setF PWC_CAP_NEXT.ARM 0 1).setF PWC_CAP_NEXT.STATUS 0 Status.ok

def State.capCancel (s : State) : State :=
  if s.flag PWC_CAP_NEXT.ARM then (s.setF PWC_CAP_NEXT.ARM 0 0).setF PWC_CAP_NEXT.STATUS 0 Status.ok else s.capRefuse Status.window

/-- A write of PWC_CAP_NEXT. -/
def State.writeCapNext (s : State) (who : Nat) (val : Word) : State :=
  let g := field val 0 16
  if !(Who.isManager who) then s.capRefuse Status.denied
  else if s.flag PWC_CAP_NEXT.ARM && g != s.getF PWC_CAP_NEXT.GRID_W then s.capRefuse Status.busy
  else
    let s1 := if bit val 16 then s.capArm g
      else if capValid g then s.setF PWC_CAP_NEXT.GRID_W 0 g
      else s.capRefuse Status.badArg
    if bit val 17 then s1.capCancel else s1

def State.writeCapAt (s : State) (who : Nat) (val : Word) : State :=
  if !(Who.isManager who) then s.capRefuse Status.denied
  else if s.flag PWC_CAP_NEXT.ARM && val != s.reg .PWC_CAP_AT then s.capRefuse Status.busy
  else s.setReg .PWC_CAP_AT 0 val

/-- The last course boundary. -/
def State.boundary (s : State) : Nat := s.courseNo * 2 ^ s.k

/-- A change of time `at` has its course boundary: at or after it, with feed selection stable. -/
def State.capDue (s : State) (at_ : Nat) : Bool := decide (at_ ≤ s.boundary) && s.stableAt s.boundary

/-- The changes that are due take effect, outside a pause: a scheduled one, and those written. -/
def execCapApply (s : State) : Host.Outcome State Fault Refusal :=
  let sched := s.flag PWC_CAP_NEXT.ARM && s.capDue (s.reg .PWC_CAP_AT).toNat
  let due := fun (w : Option (Nat × Nat)) => match w with | some (v, t) => if s.capDue t then some v else none | none => none
  let s1 := match due s.power.gridWait with
    | some v => { s with power := { s.power with grid := v, gridWait := none } }
    | none => s
  let s2 := match due s.power.jobWait with
    | some v => { s1 with power := { s1.power with job := v, jobWait := none } }
    | none => s1
  let g := s2.getF PWC_CAP_NEXT.GRID_W
  let s3 := if sched then
      { (s2.setF PWC_CAP_NEXT.ARM 0 0).setF PWC_CAP.GRID_W 0 g with power := { s2.power with grid := g } }
    else s2
  .next (if !s.paused && (sched || (due s.power.gridWait).isSome || (due s.power.jobWait).isSome) then s3.setEff else s)

/-! ## Energy snapshots (R394) -/

/-- Every counter: module, IDLE, COMP, then the partitions. -/
def State.counters (s : State) : List Word := [s.reg .PWC_EN 0, s.reg .PWC_EN 1, s.reg .PWC_EN 2] ++ (upFrom 0 16).map fun p => s.reg .PWC_EN_P p

/-- Take a snapshot of counters into the bank that is not the newest. -/
def State.takeSnapshot (s : State) (stamp : Nat) (manual : Bool) (counters : List Word) : State :=
  let b := 1 - s.getF PWC_DINT.LATEST
  let seq := (s.getF PWC_DINT.SEQ + 1) % 65536
  let jobs := fun j => packW ((upFrom 0 4).map fun i => (16 * i, 16, s.jobOf (4 * j + i)))
  let ws : List Word := [BitVec.ofNat 64 stamp, packW [(0, 16, seq), (16, 1, b2n manual), (17, 1, s.getF GAUGE_STAT.WRAPPED)]] ++ counters ++
    ((upFrom 0 4).map jobs) ++ List.replicate 7 0
  let s1 := ((List.range 32).zip ws).foldl (fun (s : State) e => s.setReg .PWC_SNAP (32 * b + e.1) e.2) s
  (s1.setF PWC_DINT.LATEST 0 b).setF PWC_DINT.SEQ 0 seq

/-- The last multiple of a period in s that the gauge has come to. -/
def State.demandOf (s : State) (period : Nat) : Nat := s.time / (period * 1_000_000_000) * (period * 1_000_000_000)

/-- A demand boundary that the gauge has crossed since the last snapshot, if any. -/
def State.demandDue (s : State) : Option Nat :=
  let b := s.demandOf (s.getF PWC_DINT.PERIOD_S)
  if s.getF PWC_DINT.PERIOD_S = 0 ∨ b = s.power.demand then none else some b

/-- A sample that ends after a boundary whose snapshot is not written leaves the counters of the boundary for it (R394, R399). -/
def State.latchDemand (s : State) : State :=
  match s.demandDue with
  | some b =>
    if b = s.time ∨ (s.power.latched.any fun x => x.1 == b) then s else { s with power := { s.power with latched := some (b, s.counters) } }
  | none => s

/-- A write of PWC_DINT. -/
def State.writeDint (s : State) (who : Nat) (val : Word) : State :=
  if !(Who.isManager who) then s.pwcRecord Status.denied
  else if field val 0 12 > 3600 then s.pwcRecord Status.badArg
  else
    let s0 : State := if field val 0 12 = s.getF PWC_DINT.PERIOD_S then s
      else { s with power := { s.power with demand := s.demandOf (field val 0 12), latched := none } }
    let s1 := s0.setF PWC_DINT.PERIOD_S 0 (field val 0 12)
    if bit val 12 then s1.takeSnapshot s1.time true s1.counters else s1

/-- The demand boundary the gauge has crossed since the last one; with both feeds lost its snapshot waits (R399). -/
def execDemandSnapshot (s : State) : Host.Outcome State Fault Refusal :=
  .next (match s.demandDue with
    | some b =>
      if s.power.lost.isSome then s
      else
        let cs := match s.power.latched with | some (x, cs) => if x = b then cs else s.counters | none => s.counters
        ({ s with power := { s.power with demand := b, latched := none } }).takeSnapshot b false cs
    | none => s)

/-- The coarse view follows at each multiple of 100 ms (R393). -/
def execEnergyViewUpdate (s : State) : Host.Outcome State Fault Refusal :=
  let b := s.time / 100_000_000 * 100_000_000
  .next (if b = s.power.viewAt then s
    else { s with power := { s.power with viewAt := b
                                          view := (upFrom 0 16).map fun p => (p, (s.reg .PWC_EN_P p).toNat / 1000) } })

/-! ## Writes of the FEED and PWC blocks -/

/-- A write of PWC_CTL: a RAMP_RATE outside its range is ignored. -/
def State.writePwcCtl (s : State) (who : Nat) (val : Word) : State :=
  let r := field val 16 13
  if !(Who.isManager who) then s.pwcRecord Status.denied
  else
    let bad := decide (r < 10) || decide (r > 5000)
    let s1 := s.setReg .PWC_CTL 0 (packW [(0, 10, field val 0 10), (16, 13, if bad then s.getF PWC_CTL.RAMP_RATE else r), (29, 2, field val 29 2),
      (32, 16, field val 32 16), (48, 1, s.getF PWC_CTL.RAMP)])
    (if bad then s1.pwcRecord Status.badArg else s1).feedsChanged

/-- A write of a word of the FEED or PWC block, by its offset in control space. -/
def State.pwcWrite (s : State) (who off : Nat) (val : Word) : State :=
  match Reg.find off with
  | some (.PWC_CAP, _) => s.writeCap who val
  | some (.PWC_CAP_NEXT, _) => s.writeCapNext who val
  | some (.PWC_CAP_AT, _) => s.writeCapAt who val
  | some (.PWC_CTL, _) => s.writePwcCtl who val
  | some (.PWC_DINT, _) => s.writeDint who val
  | some (r, i) => if Who.isManager who then s.writeWord r i val 0 Src.pwc else s.pwcRecord Status.denied
  | none => s

/-- The same, outside a hold; one that lands during a hold takes effect when it ends (R371). -/
def State.writePower (s : State) (who off : Nat) (val : Word) : State :=
  if s.held then { s with power := { s.power with heldWrites := s.power.heldWrites ++ [(who, off, val)] } } else s.pwcWrite who off val

/-- The offset of a register in control space. -/
def Reg.offset (r : Reg) : Nat := r.place.base

def execCapWrite (who : Ident) (val : Word) (s : State) : Host.Outcome State Fault Refusal :=
  .next (s.writePower who.toNat (Reg.offset .PWC_CAP) val)
def execCapArm (who : Ident) (val : Word) (s : State) : Host.Outcome State Fault Refusal :=
  .next (if bit val 16 then s.writePower who.toNat (Reg.offset .PWC_CAP_NEXT) val else s)
def execCapCancel (who : Ident) (val : Word) (s : State) : Host.Outcome State Fault Refusal :=
  .next (if bit val 17 then s.writePower who.toNat (Reg.offset .PWC_CAP_NEXT) val else s)
def execSnap (who : Ident) (val : Word) (s : State) : Host.Outcome State Fault Refusal :=
  .next (if bit val 12 then s.writePower who.toNat (Reg.offset .PWC_DINT) val else s)

/-- The hold ends 10 µs after a feed has begun to conduct: what landed during it is taken, in order. -/
def execHoldEnd (s : State) : Host.Outcome State Fault Refusal :=
  .next (if !s.held || s.power.switching.isSome || s.power.lost.isSome || decide (s.clock < s.power.conducts + 10_000) then s
    else
      let since := s.power.heldSince.getD s.clock
      let restarting := s.rider.pause.any fun x => x.fallback
      let s1 := { s.setF FEED_STAT.HELD 0 0 with power := { s.power with
        heldWrites := [], heldSince := if restarting then some since else none
        heldTotal := if restarting then s.power.heldTotal else s.power.heldTotal + (s.clock - since) } }
      let s2 := s.power.heldWrites.foldl (fun (s : State) w => s.pwcWrite w.1 w.2.1 w.2.2) s1
      ((s2.takeClaim 0).takeClaim 1).feedsChanged)

/-! ## Samples (R374 to R376, R389, R391) -/

/-- A GUARANTEE_BREACH record naming a job, at most one a second (R400, R424). -/
def State.breach (s : State) (job : Nat) : State :=
  let due := match SMap.find? s.power.breaches job with | some t => decide (t + 1_000_000_000 ≤ s.clock) | none => true
  if job = 0 || !due then s
  else
    (({ s with power := { s.power with breaches := SMap.insert s.power.breaches job s.clock } }).bump PWC_CNT.BREACH).record
      { status := Status.breach, source := Src.pwc, job := some (s.jobRef job) }

/-- Add energy to a counter, in units of 100 pJ: whole mJ to its register, the rest kept. -/
def State.addEnergy (s : State) (key units : Nat) : State :=
  let x := SMap.get 0 s.power.fracs key + units
  let s1 : State := { s with power := { s.power with fracs := SMap.put 0 s.power.fracs key (x % 10_000_000) } }
  let add := fun (w : Word) => BitVec.ofNat 64 (w.toNat + x / 10_000_000)
  if key < 3 then s1.setReg .PWC_EN key (add (s1.reg .PWC_EN key)) else s1.setReg .PWC_EN_P (key - 3) (add (s1.reg .PWC_EN_P (key - 3)))

/-- Divide a sample's input energy among the counters (R391). -/
def State.divideEnergy (s : State) (m : PowerReading) (input : Nat) : State :=
  let uncore := m.cisterns.sum + m.sluices.sum + m.optics.sum + m.rider
  let rails := m.slates.sum + uncore
  let e := input + s.power.carry
  let s0 := s.addEnergy 0 input
  if rails = 0 then { s0 with power := { s0.power with carry := e } }
  else
    let key := fun sl => match s.partOfSlate sl with | some p => if s.bound p then 3 + p else 1 | none => 1
    let slateParts := (upFrom 0 16).map fun sl => (key sl, e * (m.slates.getD sl 0 - m.comp.getD sl 0) / rails)
    let compSum := ((upFrom 0 16).map fun sl => min (m.comp.getD sl 0) (m.slates.getD sl 0)).sum
    let bound := (upFrom 0 16).filter fun p => s.bound p
    let weight := (bound.map fun p => (s.slateList p).length).sum
    let uncoreParts :=
      if weight = 0 then [(1, e * uncore / rails)]
      else bound.map fun p => (3 + p, e * uncore * (s.slateList p).length / (rails * weight))
    let all := slateParts ++ [(2, e * compSum / rails)] ++ uncoreParts
    let s1 := all.foldl (fun (s : State) x => s.addEnergy x.1 x.2) s0
    { s1 with power := { s1.power with carry := e - (all.map fun x => x.2).sum } }

/-- The sums of the windows that end at a millisecond boundary: bins of the last `n` ms. -/
def State.window (s : State) (ms n : Nat) : List PowerBin := s.power.bins.filter fun b => decide (ms ≤ b.ms + n) && decide (b.ms < ms)

/-- Mean input power of bins in whole W. -/
def meanW (bs : List PowerBin) : Nat :=
  let n := (bs.map fun b => b.n).sum
  if n = 0 then 0 else (bs.map fun b => b.input).sum / (10_000 * n)

/-- A window's input energy is above its cap, the mean of EFF over it, times a number of hundredths (R375). -/
def overCap (bs : List PowerBin) (percent : Nat) : Bool :=
  decide (100 * (bs.map fun b => b.input).sum > percent * 10_000 * (bs.map fun b => b.eff).sum)

/-- The millisecond has ended: the windows that end here are judged (R375, R388). -/
def State.judge (s : State) (ms : Nat) : State :=
  let w := s.window ms 1000
  let s0 := (s.setF PWC_EFF.P1MS_W 0 (min 65535 (meanW (s.window ms 1)))).setF PWC_EFF.P1S_W 0 (min 65535 (meanW w))
  let s1 : State := { s0 with power := { s0.power with over1s := overCap w 100, over10ms := overCap (s.window ms 10) 110 } }
  if overCap w 100 && s.power.limited && s.flag PWC_CTL.RAMP then s1.boundJobs.foldl (fun (s : State) j => s.breach j) s1 else s1

/-- Add a sample to its millisecond and to the control interval. -/
def State.addSample (s : State) (m : PowerReading) (input : Nat) : State :=
  let ms := s.time / 1_000_000
  let sum := fun (a : List Nat) => (upFrom 0 16).map fun i => a.getD i 0 + m.slates.getD i 0
  let eff := s.getF PWC_EFF.EFF_W
  let bins := s.power.bins
  let bins1 := match bins.getLast? with
    | some b =>
      if b.ms = ms then bins.dropLast ++ [{ b with input := b.input + input, eff := b.eff + eff, n := b.n + 1, slates := sum b.slates }]
      else (bins.drop (bins.length - 1000)) ++ [⟨ms, input, eff, 1, sum []⟩]
    | none => [⟨ms, input, eff, 1, sum []⟩]
  let v := s.power.sums
  let s1 : State := { s with power := { s.power with bins := bins1, sums := ⟨v.input + input, sum v.slates, v.n + 1⟩ } }
  match bins.getLast? with
  | some b => if b.ms < ms then s1.judge ms else s1
  | none => s1

/-- The floor and the compensation flow in ramp mode (R389, R390); outside it the floor follows the draw. -/
def State.compensate (s : State) (input : Nat) (maxed : Bool) : State :=
  if !(s.flag PWC_CTL.RAMP) then { s with power := { s.power with floor := input, comp := if s.outputsHeld then s.power.comp else 0 } }
  else
    let f := max input (s.power.floor - 10 * s.getF PWC_CTL.RAMP_RATE)
    let low := decide (input + 200 * s.getF PWC_EFF.EFF_W < f)
    let comp := if s.outputsHeld then s.power.comp else if low then s.power.comp + 1 else if input > f then s.power.comp - 1 else s.power.comp
    let s1 : State := { s with power := { s.power with floor := f, comp := comp } }
    if low && maxed then
      let s2 := s1.bump PWC_CNT.COMP_SHORT
      match s2.power.shortAt with
      | some t => if s2.clock < t + 1_000_000_000 then s2
          else ({ s2 with power := { s2.power with shortAt := some s2.clock } }).pwcRecord Status.noResource
      | none => ({ s2 with power := { s2.power with shortAt := some s2.clock } }).pwcRecord Status.noResource
    else s1

/-- The fast limiter (R376). -/
def State.fastLimit (s : State) (m : PowerReading) (input : Nat) : State :=
  let eff := s.getF PWC_EFF.EFF_W
  let s1 : State := { s with power := { s.power with calm := if input < 11_000 * eff then s.power.calm + 1 else 0 } }
  if !s.power.limiter && (decide (input > 12_000 * eff) || decide (m.daA > 1900) || decide (m.daB > 1900)) then
    ({ s1 with power := { s1.power with limiter := true, calm := 0 } }).bump PWC_CNT.FASTLIM
  else s1

/-- A sample of 1 µs: input power in 0.1 mW is mV times 0.1 A. -/
def execPowerSample (m : PowerReading) (s : State) : Host.Outcome State Fault Refusal :=
  let input := m.mvA * m.daA + m.mvB * m.daB
  let s1 := (s.setReg .FEED_MEAS 0 (packW [(0, 16, m.mvA), (16, 16, m.daA)])).setReg .FEED_MEAS 1 (packW [(0, 16, m.mvB), (16, 16, m.daB)])
  let s2 := if s1.outputsHeld then s1.latchDemand else s1.latchDemand.setRamp
  .next ((((s2.addSample m input).divideEnergy m input).fastLimit m input).compensate input m.compMax)

def execFastLimiterRelease (s : State) : Host.Outcome State Fault Refusal :=
  .next (if s.power.limiter && decide (10 ≤ s.power.calm) then { s with power := { s.power with limiter := false } } else s)

/-! ## The phase-learning controller (R381 to R386) -/

/-- The dominant phase of a slate's counts with its count: the largest, the lower tag among equals. -/
def dominant (cs : List (Nat × Nat)) : Nat × Nat :=
  cs.foldl (fun b c => if c.2 > b.2 || (c.2 == b.2 && decide (c.1 < b.1)) then c else b) (0, 0)

def State.vf (_s : State) (i : Nat) : Nat × Nat := (Config.vfVolt i, Config.vfFreq i)
def State.slateTemp (s : State) (sl : Nat) : Nat := s.getF THM_SLATE.MAX_C sl

/-- pred(s, i) in units of 10 pW: C in 0.01 W per V²·GHz, mV² and MHz, and the leakage (R383). -/
def State.predict (s : State) (sl i : Nat) : Nat :=
  match s.vf i with
  | (v, f) => s.getF PWC_PHASE.C (256 * sl + s.getF PWC_SLATE.PHASE sl) * v * v * f + Config.leak sl v (s.slateTemp sl) * 100_000_000

/-- The slate was not idle: a partition is bound to it and one of its cores ran a task in the interval (R381). -/
def State.slateBusy (s : State) (sl : Nat) : Bool :=
  (match s.partOfSlate sl with | some p => s.bound p | none => false) &&
    (SMap.get false s.power.busy sl || (upFrom (128 * sl) 128).any fun n => (s.getCore n).busy)

/-- The slates on which a task runs into the interval that begins. -/
def State.runningSlates (s : State) : SMap Bool :=
  ((upFrom 0 16).filter fun sl => (upFrom (128 * sl) 128).any fun n => (s.getCore n).busy).map fun sl => (sl, true)

/-- The mean rail power of a slate over the interval, in mW. -/
def State.slateMean (s : State) (sl : Nat) : Nat := if s.power.sums.n = 0 then 0 else s.power.sums.slates.getD sl 0 / s.power.sums.n

/-- Update the coefficient of a slate's dominant phase (R382). -/
def State.learn (s : State) (sl tag : Nat) : State :=
  let i := 256 * sl + tag
  let (v, f) := s.vf (s.getF PWC_SLATE.POINT sl)
  let y : Int := v * v * f
  let x : Int := s.slateMean sl - Config.leak sl v (s.slateTemp sl)
  let c : Int := s.getF PWC_PHASE.C i
  let new := c + (x * 100_000_000 - c * y) / (8 * y)
  (s.setF PWC_PHASE.C i (if new < 0 then 0 else min 65535 new.toNat)).bump PWC_PHASE.SAMPLES i

/-- A slate's part of the end of an interval: what it counted, learned and was late by. -/
def State.closeSlate (s : State) (m : IntervalReading) (sl : Nat) : State :=
  let cs := m.counts.getD sl []
  let (tag, top) := dominant cs
  let total := (cs.map fun c => c.2).sum
  let busy := s.slateBusy sl
  let learn := s.flag PWC_CTL.LEARN_EN && busy && !(SMap.get false s.power.moved sl) && decide (total > 0) && decide (10 * top ≥ 9 * total)
  let s1 := if learn then s.learn sl tag else s
  let lag := min 15 (s.getF PWC_SLATE.LAG sl / 2 + SMap.get 0 s.power.lags sl)
  (((s1.setF PWC_SLATE.PHASE sl tag).setF PWC_SLATE.LAG sl lag).setF PWC_SLATE.IDLE sl (b2n !busy)).setF PWC_SLATE.POWER_W sl
    (min 4095 (s.slateMean sl / 1000))

/-- The thermal ceiling of a slate moves by one point (R395). -/
def State.moveCeil (s : State) (sl : Nat) : State :=
  let t := s.slateTemp sl
  let thr := s.getF THM_SLATE.THR_C sl
  let c := s.getF PWC_SLATE.CEIL sl
  let c1 := if t ≥ thr then c - 1 else if t + 3 ≤ thr then min Config.vfTop (c + 1) else c
  (s.setF PWC_SLATE.CEIL sl c1).setF THM_SLATE.THROTTLE sl (b2n (decide (c1 < Config.vfTop)))

/-- An allocation in progress: points by slate, power used, in units of 10 pW. -/
structure Alloc where
  pt : List Nat
  used : Int
  deriving DecidableEq, Repr

def Alloc.at (a : Alloc) (sl : Nat) : Nat := a.pt.getD sl 0
def Alloc.raise (a : Alloc) (sl : Nat) (d : Int) : Alloc := { pt := modifyAt (· + 1) a.pt sl, used := a.used + d }

/-- The cost of a slate's next point. -/
def State.stepCost (s : State) (a : Alloc) (sl : Nat) : Int := (s.predict sl (a.at sl + 1) : Int) - s.predict sl (a.at sl)

/-- The first of the slates by a key that counts, the lower number among equals. -/
def pickBy (key : Nat → Nat × Nat) : List Nat → Option Nat
  | [] => none
  | x :: xs =>
    match pickBy key xs with
    | none => some x
    | some y =>
      let kx := key x
      let ky := key y
      if kx.1 < ky.1 || (kx.1 == ky.1 && (decide (kx.2 < ky.2) || (kx.2 == ky.2 && decide (x ≤ y)))) then some x else some y

/-- Raise a partition's slates toward its share: the allocation, and whether the share was met. -/
def State.raiseShare (s : State) (slates : List Nat) (share budget : Int) : Nat → Alloc → Alloc × Bool
  | 0, a => (a, false)
  | n + 1, a =>
    if ((slates.map fun sl => (s.predict sl (a.at sl) : Int)).foldl (· + ·) 0) ≥ share then (a, true)
    else
      match pickBy (fun sl => (a.at sl, 0)) (slates.filter fun sl => decide (a.at sl < min (s.getF PWC_SLATE.CEIL sl) Config.vfTop)) with
      | none => (a, false)
      | some sl => if a.used + s.stepCost a sl > budget then (a, false) else s.raiseShare slates share budget n (a.raise sl (s.stepCost a sl))

/-- Raise the open slates by lag. -/
def State.raiseByLag (s : State) (budget : Int) : Nat → List Nat → Alloc → Alloc
  | 0, _, a => a
  | n + 1, open_, a =>
    match pickBy (fun sl => (15 - s.getF PWC_SLATE.LAG sl, a.at sl)) open_ with
    | none => a
    | some sl =>
      let d := s.stepCost a sl
      if a.used + d > budget then s.raiseByLag budget n (open_.filter fun x => x != sl) a
      else
        let a1 := a.raise sl d
        s.raiseByLag budget n (if a1.at sl < min (s.getF PWC_SLATE.CEIL sl) Config.vfTop then open_ else open_.filter fun x => x != sl) a1

/-- Units of 10 pW in a W. -/
def wUnit : Int := 100_000_000_000

/-- The budget before and after the ramp's clamp (R385, R388). -/
def State.newBudget (s : State) : Int × Int :=
  let v := s.power.sums
  let uncore : Int := if v.n = 0 then 0 else ((v.input : Int) - 10 * ((upFrom 0 16).map fun sl => v.slates.getD sl 0).sum) * 10_000_000 / v.n
  let b : Int := 985 * (s.getF PWC_EFF.EFF_W : Int) * 100_000_000 - uncore
  let courses := if s.getF PWC_CTL.INTERVAL = 0 then 32 else s.getF PWC_CTL.INTERVAL
  let d : Int := s.getF PWC_CTL.RAMP_RATE * 100_000 * (courses * 2 ^ s.k : Nat)
  (b, if s.flag PWC_CTL.RAMP then max (s.power.budget - d) (min b (s.power.budget + d)) else b)

/-- allocate() of R385. -/
def State.allocate (s : State) : State :=
  let (want, budget) := s.newBudget
  let a0 : Alloc := { pt := List.replicate 16 0, used := ((upFrom 0 16).map fun sl => (s.predict sl 0 : Int)).foldl (· + ·) 0 }
  let busy := (upFrom 0 16).filter fun sl => !(s.flag PWC_SLATE.IDLE sl)
  let shares := (upFrom 0 16).map fun p => (s.getF PWC_SHARE.SHARE_W p : Int) * wUnit
  let total := shares.foldl (· + ·) 0
  let free := max 0 (budget - a0.used)
  let scaled := decide (total > free)
  let parts := (upFrom 0 16).filter fun p => decide (0 < s.getF PWC_SHARE.SHARE_W p)
  let step := fun (x : Alloc × List Nat) p =>
    let mine := busy.filter fun sl => natBit (s.slatesOf p) sl
    let w := shares.getD p 0
    let share := if scaled then w * free / total else w
    let capped := mine.any fun sl => decide (s.getF PWC_SLATE.CEIL sl < Config.vfTop)
    match s.raiseShare mine share budget 256 x.1 with
    | (a, met) =>
      let byBudget := mine.any fun sl => decide (a.at sl < min (s.getF PWC_SLATE.CEIL sl) Config.vfTop)
      (a, if scaled || (!met && !mine.isEmpty && (capped || byBudget)) then x.2 ++ [p] else x.2)
  let (a1, unmet) := parts.foldl step (a0, [])
  let a2 := s.raiseByLag budget 512 (busy.filter fun sl => decide (a1.at sl < min (s.getF PWC_SLATE.CEIL sl) Config.vfTop)) a1
  let s1 := (upFrom 0 16).foldl (fun (s : State) sl =>
    (s.setF PWC_SLATE.POINT sl (a2.at sl)).setF PWC_SLATE.PRED_W sl (min 4095 (s.predict sl (a2.at sl) / 100_000_000_000))) s
  let moved := ((upFrom 0 16).filter fun sl => s.getF PWC_SLATE.POINT sl != a2.at sl).map fun sl => (sl, true)
  let s2 : State := { s1 with power := { s1.power with budget := budget, limited := decide (budget > want), moved := moved } }
  unmet.foldl (fun (s : State) p => if s.bound p then s.breach (s.jobOf p) else s) s2

/-- The first byte of I3C register 0x03 (the table "I3C target registers"). -/
def State.i3cStatus (s : State) : Nat :=
  s.getF TOP_PINS.ALERT + 2 * s.getF TOP_PINS.THERMTRIP + 4 * s.getF RST_STAT.OFFLINE + 8 * b2n (s.stage == Stage.ready) + 16 * s.getF PWC_CTL.RAMP

/-- What the board controller reads of an I3C register (the table "I3C target registers"): the straps and the variant, the mean input power, the
hottest slate, cistern and coolant outlet, the status. -/
def State.i3cReg (s : State) (index : Nat) : List Byte :=
  if index = 0 then leBytes 1 (s.getF TOP_PINS.SLOT_NOW + 64 * Config.variant)
  else if index = 1 then leBytes 2 (s.getF PWC_EFF.P1MS_W)
  else if index = 2 then
    leBytes 1 (((upFrom 0 16).map fun i => s.getF THM_SLATE.MAX_C i).foldl max 0) ++
      leBytes 1 (((upFrom 0 16).map fun i => s.getF THM_CIS.MAX_C i).foldl max 0) ++ leBytes 1 (s.getF THM_MISC.OUTLET_C)
  else if index = 3 then leBytes 1 s.i3cStatus
  else []

/-- A read of an I3C register, answered at the dynamic address (R473). -/
def State.i3cRead (s : State) (index : Nat) : State :=
  if s.edge.i3c.isNone ∨ s.i3cReg index = [] then s else s.emit (.i3c (index + 1) (s.i3cReg index))

/-- The IBI of an alert or a trip that asserts, where the module has its dynamic address (R473). -/
def State.ibi (s : State) (rises : Bool) : State := if rises && s.edge.i3c.isSome then s.emit (.i3c 0 (leBytes 1 s.i3cStatus)) else s

/-- ALERT_N is driven while a throttle or a coolant condition is in force. -/
def State.alert (s : State) : State :=
  let on := (upFrom 0 16).any (fun i => s.flag THM_SLATE.THROTTLE i || s.flag THM_CIS.THROTTLE i) || s.flag THM_MISC.COOLANT_ALERT
  (s.setF TOP_PINS.ALERT 0 (b2n on)).ibi (on && !(s.flag TOP_PINS.ALERT))

/-- The end of a control interval, once its courses have passed; during a hold or a pause it is skipped (R371, R468). -/
def execControlInterval (m : IntervalReading) (s : State) : Host.Outcome State Fault Refusal :=
  let courses := if s.getF PWC_CTL.INTERVAL = 0 then 32 else s.getF PWC_CTL.INTERVAL
  .next (if s.power.courses < courses then s
    else if s.outputsHeld then { s with power := { s.power with courses := 0, sums := {}, moved := [], busy := s.runningSlates } }
    else
      let s0 := (({ s with power := { s.power with board := s.getF PWC_CAP.BOARD_W } }).setEff).setRamp
      let s1 := (upFrom 0 16).foldl (fun (s : State) sl => (s.closeSlate m sl).moveCeil sl) s0
      let s2 := s1.allocate
      { s2 with power := { s2.power with courses := 0, sums := {}, lags := [], busy := s2.runningSlates } }.alert)

/-- A partition is bound: the phase tables of its slates and its energy counter start again (R382, R392). -/
def State.bindPower (s : State) (p : Nat) : State :=
  let s1 := (s.clearRegs .PWC_PHASE fun i => natBit (s.slatesOf p) (i / 256)).setReg .PWC_EN_P p 0
  { s1 with power := { s1.power with fracs := SMap.erase s1.power.fracs (3 + p) } }

/-! ## Heat (R395 to R397) -/

/-- One throttle record a second for a slate (0 to 15) or a cistern (16 to 31). -/
def State.throttleRecord (s : State) (i : Nat) : State :=
  let on := if i < 16 then s.flag THM_SLATE.THROTTLE i else s.flag THM_CIS.THROTTLE (i - 16)
  let due := match SMap.find? s.power.throttles i with | some t => decide (t + 1_000_000_000 ≤ s.clock) | none => true
  if !on then { s with power := { s.power with throttles := SMap.erase s.power.throttles i } }
  else if due then ({ s with power := { s.power with throttles := SMap.insert s.power.throttles i s.clock } }).record
      { status := Status.ok, source := if i < 16 then Src.slate i else Src.cistern (i - 16) }
  else s

/-- A cistern's throttle: on at its threshold, off 3 °C below. -/
def State.throttleCistern (s : State) (c : Nat) : State :=
  let t := s.getF THM_CIS.MAX_C c
  let thr := s.getF THM_CIS.THR_C c
  if t ≥ thr then s.setF THM_CIS.THROTTLE c 1 else if t + 3 ≤ thr then s.setF THM_CIS.THROTTLE c 0 else s

/-- The sensors at or above their trip limits, each with a number of its own: slates, cisterns, sluice dies, the rider die, engines. -/
def thermalOver (m : ThermalReading) : List Nat :=
  let ix := fun (l : List Nat) => (List.range l.length).zip l
  let dies := fun (ls : List (List Nat)) (base w lim : Nat) =>
    ((List.range ls.length).zip ls).flatMap fun e => ((ix e.2).filter fun x => decide (lim ≤ x.2)).map fun x => base + e.1 * w + x.1
  dies m.slates 0 8 110 ++ dies m.cisterns 128 2 100 ++ ((ix m.sluices).filter fun x => decide (110 ≤ x.2)).map (fun x => 160 + x.1) ++
    (if m.rider ≥ 110 then [164] else []) ++ ((ix m.optics).filter fun x => decide (85 ≤ x.2)).map fun x => 165 + x.1

/-- A thermal trip (R396): slate clocks and cistern traffic stop until the next cold start; it wins over a reset or a start (R455). -/
def State.trip (s : State) : State :=
  let s1 := ((s.setF BOOT_STAT.STAGE 0 Stage.tripped).setF TOP_PINS.THERMTRIP 0 1).ibi (!(s.flag TOP_PINS.THERMTRIP))
  let s2 := s1.boundJobs.foldl (fun (s : State) j => s.raiseAbort j Status.jobAbort 8) s1
  let s3 := s2.setF RST_STAT.COMP_BUSY 0 0
  ({ s3 with rst := { s3.rst with starting := [], parts := [], compute := none }, power := { s3.power with stopped := true } }).record
    { status := Status.offline, source := Src.pwc, sev := .moduleFatal }

/-- The coolant conditions of R397: their flag, and a record once a minute. -/
def State.coolantCheck (s : State) (m : ThermalReading) : State :=
  let ms := s.clock / 1_000_000
  let d : Int := (m.outlet : Int) - m.inlet
  let kept := s.power.rises.filter fun r => decide (ms < r.1 + 1000)
  let rises := match kept.getLast? with
    | some r => if r.1 = ms then kept.dropLast ++ [(ms, r.2.1 + d, r.2.2 + 1)] else kept ++ [(ms, d, 1)]
    | none => [(ms, d, 1)]
  let sum := (rises.map fun r => r.2.1).foldl (· + ·) 0
  let n := (rises.map fun r => r.2.2).sum
  let on := decide (m.inlet > 45) || decide (sum > 10 * (n : Int))
  let s1 := ({ s with power := { s.power with rises := rises } }).setF THM_MISC.COOLANT_ALERT 0 (b2n on)
  let due := match s1.power.coolant with | some t => decide (t + 60_000_000_000 ≤ s1.clock) | none => true
  if !on then { s1 with power := { s1.power with coolant := none } }
  else if due then ({ s1 with power := { s1.power with coolant := some s1.clock } }).pwcRecord Status.ok
  else s1

def execThermalSample (m : ThermalReading) (s : State) : Host.Outcome State Fault Refusal :=
  let top := fun (l : List Nat) => min 255 (l.foldl max 0)
  let hot1 := thermalOver m
  let trips := hot1.filter fun x => s.power.hot.contains x
  let s1 := (upFrom 0 16).foldl (fun (s : State) i =>
    ((s.setF THM_SLATE.MAX_C i (top (m.slates.getD i []))).setF THM_CIS.MAX_C i (top (m.cisterns.getD i []))).throttleCistern i) s
  let s2 := s1.setReg .THM_MISC 0 (packW [(0, 8, top m.sluices), (8, 8, top m.optics), (16, 8, min 255 m.rider), (24, 8, min 255 m.inlet),
    (32, 8, min 255 m.outlet), (40, 1, s1.getF THM_MISC.COOLANT_ALERT)])
  let s3 := (upFrom 0 32).foldl (fun (s : State) i => s.throttleRecord i) (s2.coolantCheck m)
  let s4 := ({ s3 with power := { s3.power with hot := hot1 } }).alert
  .next (if trips.isEmpty || s4.flag TOP_PINS.THERMTRIP then s4
    else (trips.foldl (fun (s : State) x =>
      if x < 128 then s.setF THM_SLATE.TRIP (x / 8) 1 else if x < 160 then s.setF THM_CIS.TRIP ((x - 128) / 2) 1 else s) s4).trip)

/-- A write of THM_SLATE or THM_CIS: a threshold outside its range is ignored. -/
def State.writeThr (s : State) (who : Nat) (cis : Bool) (i : Nat) (val : Word) : State :=
  let t := field val 8 8
  let src := if cis then Src.cistern i else Src.slate i
  if !(Who.isManager who) then s.refuseWrite Status.denied src
  else if t < 60 || t > (if cis then 85 else 95) then s.refuseWrite Status.badArg src
  else if cis then s.setF THM_CIS.THR_C i t else s.setF THM_SLATE.THR_C i t

/-! ## Mailbox commands (R398, R420) -/

/-- The checks that the power commands share: unused bits, then the partition's owner. -/
def powerCmd (f : Nat → Nat → State → List Nat) : Cmd := fun who w s =>
  let p := natField (w 1) 0 4
  if w 1 / 16 != 0 || !(zeroFrom w 2) then ((Status.badArg, []), s)
  else if !(s.reaches who p) then ((Status.denied, []), s)
  else ((Status.ok, f who p s), s)

/-- Two words of a 64-bit number. -/
def words2 (v : Nat) : List Nat := [v % 2 ^ 32, v / 2 ^ 32 % 2 ^ 32]

def cmdEnergy : Cmd := powerCmd fun _ p s => words2 (SMap.get 0 s.power.view p) ++ words2 s.power.viewAt

def cmdSnapshot : Cmd := powerCmd fun _ p s =>
  let b := 32 * s.getF PWC_DINT.LATEST
  words2 ((s.reg .PWC_SNAP (b + 5 + p)).toNat / 1000) ++ words2 (s.reg .PWC_SNAP b).toNat ++ [field (s.reg .PWC_SNAP (b + 1)) 0 16]

/-- Mean power of a partition's slates over 100 ms; a VF gets the window that ended at the last multiple of 100 ms, in steps of 25 W. -/
def cmdPower : Cmd := powerCmd fun who p s =>
  let ms := if Who.isVF who then s.time / 100_000_000 * 100 else s.time / 1_000_000
  let bs := s.window ms 100
  let n := (bs.map fun b => b.n).sum
  let mw := (bs.map fun b => ((s.slateList p).map fun sl => b.slates.getD sl 0).sum).sum
  let v := if n = 0 then 0 else mw / (1000 * n)
  [if Who.isVF who then v / 25 * 25 else v]

def cmdCaps : Cmd := powerCmd fun _ p s => [s.getF PWC_EFF.EFF_W + s.getF PWC_EFF.LIMIT * 65536, s.getF PWC_SHARE.SHARE_W p]

def execEnergy (chan : BitVec 6) (s : State) : Host.Outcome State Fault Refusal := .next (s.mbxCmd chan.toNat 0x50 cmdEnergy)
def execSnapshot (chan : BitVec 6) (s : State) : Host.Outcome State Fault Refusal := .next (s.mbxCmd chan.toNat 0x51 cmdSnapshot)
def execPower (chan : BitVec 6) (s : State) : Host.Outcome State Fault Refusal := .next (s.mbxCmd chan.toNat 0x52 cmdPower)
def execCaps (chan : BitVec 6) (s : State) : Host.Outcome State Fault Refusal := .next (s.mbxCmd chan.toNat 0x53 cmdCaps)

end Sys2Proof.Machine
end

