-- ==== Sys2Proof/Machine/Tenancy.lean ====
section
/-!
DEFINITION. Machine/Tenancy.lean: measurements (R403), key slots (R406 to R409), binding a partition to a job and clearing it (R411 to R413)
and sealed weights (R414, R415).
-/
namespace Sys2Proof.Machine

/-! ## Measurements (R403) -/

def State.measure (s : State) (i : Nat) (ws : List Word) : State :=
  { s with sec := { s.sec with measurements := SMap.insert s.sec.measurements i (Config.measure i ws) } }

/-- Index 0x07: SEC_STATE [7:0], the root revoke bits, the presence of the fabric key. -/
def State.measureState (s : State) : State :=
  s.measure 0x07 [BitVec.ofNat 64 (s.getF SEC_STATE.PRESENCE + field (s.reg .SEC_STATE) 1 7 * 2), BitVec.ofNat 64 s.sec.revoked.toNat,
    BitVec.ofNat 64 (s.getF SEC_STATE.FABRIC_KEY)]

/-- Index 0x10 + p: the partition's registers, its bound job and the registers of the job's route set. -/
def State.measurePart (s : State) (p : Nat) : State :=
  let i := match SMap.find? s.sec.bindings p with | some b => b.rset | none => 0
  s.measure (0x10 + p) ([s.reg .HIF_POWN p] ++ ((upFrom 0 4).map fun w => s.reg .TOP_CGRANT (4 * p + w)) ++ [BitVec.ofNat 64 (s.jobOf p)] ++
    (if s.bound p then [s.reg .RTE_RSET_A i, s.reg .RTE_RSET_B i] ++ (upFrom 0 32).map fun w => s.reg .RTE_RACK (32 * i + w) else []))

/-! ## Key slots (R406 to R409) -/

def State.keyMat (s : State) (slot : Nat) : KeyMat := SMap.get {} s.sec.slots slot
def State.setKeyMat (s : State) (slot : Nat) (m : KeyMat) : State := { s with sec := { s.sec with slots := SMap.put {} s.sec.slots slot m } }
def State.slotJobKey (s : State) (slot : Nat) : Nat := s.getF SEC_KSLOT.JOB slot

/-- A generation of a job is installed: its send counters and highest received counters start at 0, and no passing of 2^63 has been recorded
(R291 to R293). -/
def State.newGen (s : State) (job : Nat) (g : Bool) : State :=
  let keep : Nat × Nat → Bool := fun e => e.1 / 65536 % 2 ^ 17 != job * 2 + b2n g
  { s with route := { s.route with gcmTx := s.route.gcmTx.filter keep, gcmRx := s.route.gcmRx.filter keep
                                   warned := s.route.warned.filter fun e => e.1 / 65536 % 2 ^ 17 != job * 2 + b2n g } }

def State.countSlots (s : State) : State :=
  s.setF SEC_STATE.SLOTS_USED 0 (s.regs.filter fun e => e.1 % 256 == Reg.num .SEC_KSLOT && field e.2 0 16 != 0).length

/-- Destroy a slot with its material. -/
def State.dropSlot (s : State) (slot : Nat) : State := ((s.setReg .SEC_KSLOT slot 0).setKeyMat slot {}).countSlots

/-- A valid route set names the slot. -/
def State.slotNamed (s : State) (slot : Nat) : Bool :=
  (upFrom 0 16).any fun i => s.flag RTE_RSET_A.VALID i && s.getF RTE_RSET_A.KEY i == slot

/-- The first 4 bytes of HMAC-SHA-384(ROOT, "ridge-kcv"), as a word (R4, R406). -/
def kcv (root : BitVec 256) : Nat := leNat ((hmac384 (keyBytes root) (ascii "ridge-kcv")).take 4)

/-- KEY_DELIVER's request (R406): the answer's STATUS, SLOT and KCV, and the state. -/
def State.keyDeliver (s : State) (body : List Byte) : (Nat × Nat × Nat) × State :=
  let job := leNat (body.take 2)
  let nd := leNat ((body.drop 2).take 1)
  let root := BitVec.ofNat 256 (beNat ((body.drop 4).take 32))
  let used := ((s.regs.filter fun e => e.1 % 256 == Reg.num .SEC_KSLOT && field e.2 0 16 != 0).map fun e => e.1 / 256)
  if s.flag SEC_STATE.DEBUG then ((Status.denied, 0, 0), s)
  else if job = 0 || nd > 4 || (body.getD 3 0) != 0 || body.length != 36 + 32 * nd then ((Status.badArg, 0, 0), s)
  else if used.any fun n => s.slotJobKey n == job then ((Status.busy, 0, 0), s)
  else
    match (upFrom 0 4096).find? fun n => s.slotJobKey n == 0 with
    | none => ((Status.noResource, 0, 0), s)
    | some n =>
      let k := kcv root
      let dk := (upFrom 0 nd).map fun i => BitVec.ofNat 256 (beNat ((body.drop (36 + 32 * i)).take 32))
      let s1 := s.setReg .SEC_KSLOT n (packW [(0, 16, job), (16, 1, 1), (18, 3, nd), (32, 32, k)])
      ((Status.ok, n, k), ((s1.setKeyMat n { root := root, dkeys := dk }).newGen job false).countSlots)

/-- PF0, PF1, or the reach of a partition that is bound to the slot's job (R408). -/
def State.mayKey (s : State) (who slot : Nat) : Bool :=
  Who.isPF who || (s.slotJobKey slot != 0 && (s.partsOf (s.slotJobKey slot)).any fun p => s.reaches who p)

/-- The bits of word 1 outside a mask, and the words from one on, are zero. -/
def unusedZero (w : Nat → Nat) (mask from_ : Nat) : Bool := (w 1 &&& mask) == w 1 && zeroFrom w from_

def cmdKeyStatus : Cmd := fun who w s =>
  let n := natField (w 1) 8 12
  if !(unusedZero w 0xFFF00 2) then ((Status.badArg, []), s)
  else if !(s.mayKey who n) then ((Status.denied, []), s)
  else ((Status.ok, words2 (s.reg .SEC_KSLOT n).toNat), s)

def cmdKeyAdvance : Cmd := fun who w s =>
  let n := natField (w 1) 8 12
  let g := natField (w 1) 20 2
  let c := w 2
  let m := s.keyMat n
  let inUse := (upFrom 0 16).any fun i => s.flag RTE_RSET_A.VALID i && s.getF RTE_RSET_A.KEY i == n &&
    (s.getF RTE_RSET_A.KGEN_TX i == g || natBit (s.getF RTE_RSET_A.KGEN_RX i) g)
  if !(unusedZero w 0x3FFF00 3) then ((Status.badArg, []), s)
  else if !(s.mayKey who n) then ((Status.denied, []), s)
  else if s.slotJobKey n = 0 || g > 1 || c % 2 != g || c ≤ m.highest then ((Status.badArg, []), s)
  else if inUse then ((Status.busy, []), s)
  else
    let s1 := s.setKeyMat n (if g = 1 then { m with ctr1 := c, highest := c } else { m with ctr0 := c, highest := c })
    let s2 := if g = 1 then s1.setF SEC_KSLOT.GEN1 n 1 else s1.setF SEC_KSLOT.GEN0 n 1
    ((Status.ok, []), s2.newGen (s.slotJobKey n) (g == 1))

def cmdKeyDrop : Cmd := fun who w s =>
  let n := natField (w 1) 8 12
  if !(unusedZero w 0xFFF00 2) then ((Status.badArg, []), s)
  else if !(s.mayKey who n) then ((Status.denied, []), s)
  else if s.slotJobKey n = 0 then ((Status.badArg, []), s)
  else if s.slotNamed n then ((Status.busy, []), s)
  else ((Status.ok, []), s.dropSlot n)

def execKeyStatus (chan : BitVec 6) (s : State) : Host.Outcome State Fault Refusal := .next (s.mbxCmd chan.toNat 0x23 cmdKeyStatus)
def execKeyAdvance (chan : BitVec 6) (s : State) : Host.Outcome State Fault Refusal := .next (s.mbxCmd chan.toNat 0x24 cmdKeyAdvance)
def execKeyDrop (chan : BitVec 6) (s : State) : Host.Outcome State Fault Refusal := .next (s.mbxCmd chan.toNat 0x25 cmdKeyDrop)

/-- The SP destroys a slot that has been in use and that no valid route set names and no bound job uses (R409). -/
def execKeySlotAutoDestroy (slot : BitVec 12) (s : State) : Host.Outcome State Fault Refusal :=
  let n := slot.toNat
  .next (if s.slotJobKey n = 0 || !(s.keyMat n).named || s.slotNamed n || !(s.partsOf (s.slotJobKey n)).isEmpty then s else s.dropSlot n)

/-! ## Binding (R411, R412) -/

/-- The checks of the table "BIND checks", with the OFFLINE answers of R37 and R452. -/
def State.bindCheck (s : State) (who p i : Nat) : Option Nat :=
  let o := s.owner p
  let mine := o == who || (s.reaches who p && !(s.tdi o == 1 || s.tdi o == 2))
  if !mine then some Status.denied
  else if s.bound p || SMap.get false s.sec.clearing p then some Status.busy
  else if !(s.flag RTE_RSET_A.VALID i) then some Status.badArg
  else if s.getF RST_PART.STATE p = 2 || (s.slateList p).any (fun sl => !(s.slateUp sl)) || s.gstate = GS.free || s.gstate = GS.acquiring then
    some Status.offline
  else if !(s.slotHolds (s.getF RTE_RSET_A.KEY i) (s.getF RTE_RSET_A.JOB i) (s.flag RTE_RSET_A.KGEN_TX i)) then some Status.badArg
  else none

/-- Invalidate the caches of a partition's cores (R109, R179). -/
def State.dropCaches (s : State) (p : Nat) : State :=
  { s with core := { s.core with cores := SMap.mapV {} (fun c => c) (s.core.cores.map fun (e : Nat × Core) =>
      if natBit (s.slatesOf p) (e.1 / 128) then (e.1, { e.2 with icache := [], rcache := [] }) else e) } }

/-- The steps of R412. -/
def State.bindPart (s : State) (p i : Nat) : State :=
  let s1 := (s.setF HIF_POWN.BOUND p 1).setF ECC_RAW_CTL.HOLD 0 0
  let s2 : State := { s1 with sec := { s1.sec with bindings := SMap.insert s1.sec.bindings p ⟨s1.getF RTE_RSET_A.JOB i, i⟩ } }
  let s3 := (s2.slateList p).foldl State.batZero (s2.advanceGen p)
  ((s3.dropCaches p).bindPower p).measurePart p

def cmdBind : Cmd := fun who w s =>
  let p := natField (w 1) 0 4
  let i := natField (w 1) 4 4
  if !(unusedZero w 0xFF 2) then ((Status.badArg, []), s)
  else match s.bindCheck who p i with
    | some st => ((st, []), s)
    | none => let s1 := s.bindPart p i; ((Status.ok, [s1.gen p]), s1)

def execBind (chan : BitVec 6) (s : State) : Host.Outcome State Fault Refusal := .next (s.mbxCmd chan.toNat 0x20 cmdBind)

def cmdBindStatus : Cmd := fun who w s =>
  let p := natField (w 1) 0 4
  let st := if SMap.get false s.sec.clearing p then 2 else if s.bound p then 1 else 0
  let i := match SMap.find? s.sec.bindings p with | some b => b.rset | none => 0
  if !(unusedZero w 0xF 2) then ((Status.badArg, []), s)
  else if !(s.reaches who p) then ((Status.denied, []), s)
  else ((Status.ok, [st + s.jobOf p * 65536, i]), s)

def execBindStatus (chan : BitVec 6) (s : State) : Host.Outcome State Fault Refusal := .next (s.mbxCmd chan.toNat 0x22 cmdBindStatus)

/-! ## Unbinding and clearing (R413) -/

/-- A task of the partition runs, or a trigger slot of its job is between ARMED and LAUNCHED. -/
def State.partWorks (s : State) (p : Nat) : Bool :=
  (s.coresOf p).any (fun n => (s.getCore n).busy) ||
    (upFrom 0 4096).any fun n => let st := s.getF COL_TRG_STAT.STATE n
                                 decide (1 ≤ st) && decide (st ≤ 3) && s.slotJob n == s.jobOf p

def State.startClear (s : State) (p : Nat) : State := { s with sec := { s.sec with clearing := SMap.put false s.sec.clearing p true } }

def cmdUnbind : Cmd := fun who w s =>
  let p := natField (w 1) 0 4
  if !(unusedZero w 0xF 2) then ((Status.badArg, []), s)
  else if !(s.reaches who p) then ((Status.denied, []), s)
  else if SMap.get false s.sec.clearing p then ((Status.busy, []), s)
  else if !(s.bound p) then ((Status.badArg, []), s)
  else if s.partWorks p then ((Status.busy, []), s)
  else ((Status.ok, []), s.startClear p)

def execUnbind (chan : BitVec 6) (s : State) : Host.Outcome State Fault Refusal := .next (s.mbxCmd chan.toNat 0x21 cmdUnbind)

/-- The GiB of a partition's cistern windows. -/
def State.windowGibs (s : State) (p : Nat) : List Nat := (upFrom 0 768).filter fun g => s.cisternGranted p (g * 2 ^ 30)

/-- Zero a partition's scratch, accumulator tiles, tier windows, and the cistern GiB that no other bound partition covers. -/
def State.clearMemory (s : State) (p : Nat) : State :=
  let others := (upFrom 0 16).filter fun q => q != p && s.bound q
  let gibs := (s.windowGibs p).filter fun g => !(others.any fun q => s.cisternGranted q (g * 2 ^ 30))
  let mine := fun (n : Nat) => natBit (s.slatesOf p) (n / 128)
  let s1 := (s.slateList p).foldl (fun (s : State) sl =>
    (s.zeroRange (scratchBase + sl * 128 * scratchSize) (128 * scratchSize)).zeroRange (tierBase + sl * tierSize) tierSize) s
  let s2 := gibs.foldl (fun (s : State) g => s.zeroRange (g * 2 ^ 30) (2 ^ 30)) s1
  { s2 with core := { cores := s2.core.cores.filter fun e => !(mine e.1), accs := s2.core.accs.filter fun a => !(mine a.core) } }

/-- Clearing ends: BOUND clears and what R412 locked is unlocked. An UNSEAL of the partition that still runs lands nothing any more. -/
def State.endClear (s : State) (p : Nat) : State :=
  let s1 := (s.clearMemory p).setF HIF_POWN.BOUND p 0
  let running := s1.sec.unsealing.map fun u => if u.part = p then { u with cleared := true } else u
  ({ s1 with sec := { s1.sec with bindings := SMap.erase s1.sec.bindings p, clearing := SMap.erase s1.sec.clearing p
                                  unsealing := running } }).measurePart p

def execUnbindClearDone (part : BitVec 4) (s : State) : Host.Outcome State Fault Refusal :=
  let p := part.toNat
  .next (if SMap.get false s.sec.clearing p && s.getF RST_PART.STATE p != 1 then s.endClear p else s)

/-! ## Sealed weights (R414, R415) -/

/-- A sealed blob's header: job, data key, chunk size, length, nonce. -/
structure Blob where
  job : Nat
  key : Nat
  log2 : Nat
  len : Nat
  nonce : Nat
  deriving DecidableEq, Repr

def blobOf (h : List Byte) : Blob :=
  let f := fun (lo n : Nat) => leNat ((h.drop lo).take n)
  ⟨f 4 2, f 6 1, f 7 1, f 8 8, beNat ((h.drop 16).take 8)⟩

/-- A well-formed header. -/
def blobGood (h : List Byte) : Bool :=
  let b := blobOf h
  leNat (h.take 4) == 0x00015EA1 && decide (b.key ≤ 3) && decide (12 ≤ b.log2) && decide (b.log2 ≤ 24) && decide (1 ≤ b.len) &&
    decide (b.len ≤ 2 ^ 40) && (h.drop 24).all fun x => x == 0

def Blob.chunks (b : Blob) : Nat := ceilDiv b.len (2 ^ b.log2)
def Blob.bytes (b : Blob) : Nat := 64 + b.len + 16 * b.chunks

/-- A chunk's plaintext, where its tag verifies and no granule of it is poisoned. -/
def State.openChunk (s : State) (u : Unsealing) (h : List Byte) (j : Nat) : Option (List Byte) :=
  let b := blobOf h
  let at_ := u.src + 64 + j * (2 ^ b.log2 + 16)
  let n := min (2 ^ b.log2) (b.len - j * 2 ^ b.log2)
  if s.anyPoison at_ (n + 16) then none
  else gcmOpen u.key (b.nonce * 2 ^ 32 + j) (h ++ beBytes 4 j) (s.bytes at_ n) (BitVec.ofNat 128 (beNat (s.bytes (at_ + n) 16)))

/-- A range within a partition's grant. -/
def State.partRange (s : State) (p a n : Nat) : Bool := rangeAll (s.granted p) a n

def cmdUnseal : Cmd := fun who w s =>
  let p := natField (w 1) 0 4
  let src := addr2 w 2
  let dst := addr2 w 4
  let btn := natField (w 6) 0 16
  let rec_ := addr2 w 7
  let h := s.bytes src 64
  let b := blobOf h
  let slot := match SMap.find? s.sec.bindings p with | some x => s.getF RTE_RSET_A.KEY x.rset | none => 0
  let apart := decide (src + b.bytes ≤ dst) || decide (dst + b.len ≤ src)
  if (w 1 &&& 0x30000F) != w 1 || w 6 ≥ 65536 || !(zeroFrom w 9) then ((Status.badArg, []), s)
  else if !(s.reaches who p) then ((Status.denied, []), s)
  else if !(s.bound p) || SMap.get false s.sec.clearing p || !(s.partRange p src 64) then ((Status.badArg, []), s)
  else
    let s1 := s.noteRead src 64
    if s1.anyPoison src 64 then ((Status.poison, []), s1)
    else if !(blobGood h) || !(s.partRange p src b.bytes) || !(s.partRange p dst b.len) || !apart || !(natBit (s.slatesOf p) (btn / 4096)) ||
        !(s.partRange p rec_ 16) then ((Status.badArg, []), s1)
    else if b.job != s.jobOf p || b.key ≥ s.getF SEC_KSLOT.NDATA slot then ((Status.denied, []), s1)
    else
      let u : Unsealing := ⟨p, s.gen p, src, dst, btn, rec_, (s.keyMat slot).dkeys.getD b.key 0, h, false⟩
      ((Status.ok, []), { s1 with sec := { s1.sec with unsealing := s1.sec.unsealing ++ [u] } })

/-- UNSEAL; one that comes while a debug unlock waits is left in its channel until that has been decided (R426). -/
def execUnseal (chan : BitVec 6) (s : State) : Host.Outcome State Fault Refusal :=
  .next (if s.sec.debugWait.isSome then s else s.mbxCmd chan.toNat 0x26 cmdUnseal)

/-- An UNSEAL ends: all of its chunks, or zeros with the first failing chunk, or zeros after an abort; nothing where its partition has been
cleared, so that the next tenant finds zeros (R413). -/
def State.finishUnseal (s : State) (u : Unsealing) : State :=
  if u.cleared then s else
  let h := u.head
  let b := blobOf h
  let cs := (upFrom 0 b.chunks).map fun j => s.openChunk u h j
  let s0 := s.noteRead u.src b.bytes
  let (st, bad, data) :=
    if s.gen u.part != u.gen then (Status.jobAbort, 0, List.replicate b.len 0)
    else match cs.findIdx? fun c => c.isNone with
      | some j => (Status.integrity, j, List.replicate b.len 0)
      | none => (Status.ok, 0, cs.flatMap fun c => c.getD [])
  let s1 := s0.land u.dst data false
  let s2 := s1.land u.record (leBytes 4 st ++ leBytes 4 bad ++ leBytes 8 s.time) false
  s2.batAdd u.batten 1

end Sys2Proof.Machine
end

