-- ==== Sys2Proof/Machine/Recovery.lean ====
section
/-!
DEFINITION. Machine/Recovery.lean: slate starts (R430 to R432, R436), partition and compute resets (R440, R441), the job abort's commands
and windows (R445 to R448), supervision, escalation, OFFLINE and RESTORE (R450 to R453), and the reset mailbox commands (R454).
-/
namespace Sys2Proof.Machine

/-! ## Answers that come later -/

/-- A message on a management session in the framing of R343 (R474): the request's opcode and tag, the status and the words. -/
def mgmtMessage (head status : Nat) (ws : List Nat) : List Byte :=
  let body := leBytes 4 (head + (ws.length % 16) * 2 ^ 16 + status * 2 ^ 24) ++ ws.flatMap (leBytes 4)
  [0x7E, 0x00] ++ leBytes 2 body.length ++ body

/-- Answer a requester: a mailbox channel (0, channel), or a management session (1 + session, opcode and tag). -/
def State.answer (s : State) (dest : Nat × Nat) (status : Nat) (ws : List Nat) : State :=
  if dest.1 = 0 then s.mbxReply dest.2 status ws else s.emit (.mgmt (dest.1 - 1) (mgmtMessage dest.2 status ws))

/-! ## Slate starts (R85, R430 to R433, R436) -/

/-- A site that the fuse map disables: fused off, or on the run-time disable list. -/
def State.siteOff (s : State) (sl site : Nat) (isField : Bool) : Bool :=
  s.rst.fuseMap.any fun e => e.kind == 1 && e.isField == isField && e.location == sl + 16 * site

/-- The sites that a slate start tries. -/
def State.candidates (s : State) (sl : Nat) : List Nat := (upFrom 0 136).filter fun i => !(s.siteOff sl i false) && !(s.siteOff sl i true)

/-- Every failing row of a slate's tiers and scratch has a spare: 32 in a tier bank, 4 in a scratch bank (R355). -/
def State.rowsMended (s : State) (sl : Nat) : Bool :=
  (s.store.spares.all fun (e : Nat × Nat) => e.1 / 192 / 2 != sl || decide (e.2 ≤ 32)) &&
    s.store.scrSpares.all fun (e : Nat × Nat) => e.1 / 32 / 128 != sl || decide (e.2 ≤ 4)

/-- The slate's last start gave it 128 logical cores, and its rows could all be repaired (R85, R355). -/
def State.slateWhole (s : State) (sl : Nat) : Bool := (s.sites sl).length == 128 && s.rowsMended sl

/-- Name a slate's in-service set: the 128 lowest of the good sites, or none. SPARE is 0 to 8; where fewer than 128 sites are good it reads 8 at
most: DESIGN CHOICE, log entry 100. -/
def State.setSites (s : State) (sl : Nat) (good : List Nat) : State :=
  let on := if good.length ≥ 128 then good.take 128 else []
  let mask := fun (lo hi : Nat) => BitVec.ofNat 64 ((on.filter fun i => decide (lo ≤ i) && decide (i < hi)).map fun i => 2 ^ (i - lo)).sum
  let off := fun (f : Bool) => min 255 ((upFrom 0 136).filter fun i => s.siteOff sl i f).length
  let hi := packW [(0, 8, (mask 128 136).toNat), (8, 8, min 8 (good.length - on.length)), (16, 8, off false), (24, 8, off true),
    (32, 1, s.getF TOP_SITES_HI.OK sl)]
  ((s.setReg .TOP_SITES_LO sl (mask 0 64)).setReg .TOP_SITES_MID sl (mask 64 128)).setReg .TOP_SITES_HI sl hi

/-- A row as the fuse map locates it: kind and location (R432). -/
def findingRow : Finding → Option (Nat × Nat)
  | .tierRow t b r => some (2, t + b * 2 ^ 5 + r * 2 ^ 13)
  | .scratchRow n b r => some (3, n + b * 2 ^ 11 + r * 2 ^ 16)
  | .die _ _ _ | .dramRow _ _ _ => none

/-- The slate of such a row, and the bank whose spares it calls for: tier times 192 plus bank, or core times 32 plus bank. -/
def rowSlate (e : Nat × Nat) : Nat := if e.1 = 2 then e.2 % 32 / 2 else e.2 % 2048 / 128
def rowBank (e : Nat × Nat) : Nat := if e.1 = 2 then e.2 % 32 * 192 + e.2 / 32 % 256 else e.2 % 2048 * 32 + e.2 / 2048 % 32

/-- How many rows each bank has in a list of rows of one kind. -/
def bankRows (kind : Nat) (rows : List (Nat × Nat)) (m : SMap Nat) : SMap Nat :=
  (rows.filter fun e => e.1 == kind).foldl (fun (m : SMap Nat) e => SMap.insert m (rowBank e) (SMap.get 0 m (rowBank e) + 1)) m

/-- Rows that a march has found failing go to spares; one that is known already counts once (R355, R366). -/
def State.addRows (s : State) (fs : List Finding) : State :=
  let new := ((fs.filterMap findingRow).eraseDups).filter fun e => !(s.store.testRows.contains e) &&
    !(s.rst.fuseMap.any fun x => x.kind == e.1 && x.location == e.2)
  { s with store := { s.store with testRows := s.store.testRows ++ new
                                   spares := bankRows 2 new s.store.spares, scrSpares := bankRows 3 new s.store.scrSpares } }

/-- The spare rows in use in a slate after its fuse map and its march's findings have been applied (R355, R432). -/
def State.applyRows (s : State) (sl : Nat) : State :=
  let fused := (s.rst.fuseMap.filter fun e => e.kind == 2 || e.kind == 3).map fun e => (e.kind, e.location)
  let rows := ((fused ++ s.store.testRows).filter fun e => rowSlate e == sl).eraseDups
  { s with store := { s.store with
    rowCorr := s.store.rowCorr.filter fun e => e.1 / 8192 / 192 / 2 != sl
    rowLast := s.store.rowLast.filter fun e => e.1 / 8192 / 192 / 2 != sl
    spares := bankRows 2 rows (s.store.spares.filter fun e => e.1 / 192 / 2 != sl)
    scrSpares := bankRows 3 rows (s.store.scrSpares.filter fun e => e.1 / 32 / 128 != sl) } }

/-- A finding's record: CORRECTED, of KIND 4. -/
def State.findingRecord (s : State) (f : Finding) : State :=
  match f with
  | .die c d chs =>
    s.record { status := Status.ok, source := Src.cistern c, detail := s.cisDetail c d 31 (chs.getD 0 0) 4 }
  | .dramRow c ch _ => s.record { status := Status.ok, source := Src.cistern c, detail := s.cisDetail c 31 31 ch 4 }
  | .tierRow t b r => s.record { status := Status.ok, source := Src.tier t, addr := some (rowAddr t b r), detail := 4 * 2 ^ 16 }
  | .scratchRow n _ _ => s.record { status := Status.ok, source := Src.core n, detail := 4 * 2 ^ 16 }

/-- The march of a slate's wave: its tiers and scratch read zero, and the rows that it finds failing are known (R366, R430). At a cold start those of
the pattern test stay known. -/
def State.march (s : State) (sl : Nat) (findings : List Finding) : State :=
  let s1 := (s.zeroRange (tierBase + sl * tierSize) tierSize).zeroRange (scratchBase + sl * 128 * scratchSize) (128 * scratchSize)
  let s2 := if s.stage = Stage.slates then s1
    else { s1 with store := { s1.store with testRows := s1.store.testRows.filter fun e => rowSlate e != sl } }
  let mine := findings.filter fun f => match findingRow f with | some e => rowSlate e == sl | none => false
  (mine.foldl State.findingRecord s2).addRows mine

/-- A slate start begins: in a wave with the march over its tiers and scratch, in a partition reset without; then the spare rows are applied. -/
def State.startSlate (s : State) (sl : Nat) (failing : List Nat) (wave : Option (List Finding)) : State :=
  let s1 := (s.setF TOP_SITES_HI.OK sl 0).setF PWC_SLATE.POINT sl 0
  let s2 := (match wave with | some findings => s1.march sl findings | none => s1).applyRows sl
  { s2 with rst := { s2.rst with starting := SMap.insert s2.rst.starting sl { reports := [], scanFailed := failing } } }

/-- Every core of a starting slate has reported. -/
def State.allReported (s : State) (sl : Nat) (x : SlateStart) : Bool :=
  (s.candidates sl).all fun i => x.scanFailed.any (· == i) || (SMap.find? x.reports i).isSome

/-- A slate start ends: the in-service set is chosen, scratch is zeroed, a site that failed joins the fuse map. The slate is in service at
once where the module is READY and its partition is not being reset. -/
def State.finishSlate (s : State) (sl : Nat) (x : SlateStart) : State :=
  let tried := s.candidates sl
  let good := tried.filter fun i => !(x.scanFailed.any (· == i)) && SMap.get false x.reports i
  let bad := tried.filter fun i => !(good.any (· == i))
  let s1 := bad.foldl (fun (s : State) i => s.addFieldEntry 1 (sl + 16 * i)) s
  let s2 := (s1.setSites sl good).zeroRange (scratchBase + sl * 128 * scratchSize) (128 * scratchSize)
  let s3 : State := { s2 with
    rst := { s2.rst with starting := SMap.erase s2.rst.starting sl }
    core := { s2.core with cores := s2.core.cores.filter fun e => e.1 / 128 != sl } }
  if s3.rst.starting.isEmpty ∧ (s3.stage = Stage.slates ∨ s3.stage = Stage.resetting) then
    s3.setF BOOT_STAT.WAVES 0 (min 4 (s3.getF BOOT_STAT.WAVES + 1))
  else s3

/-- The slates of a wave (R430). -/
def waveSlates (w : Nat) : List Nat := [w, 4 + w, 8 + w, 12 + w]

/-- SLATE_WAVE: the next wave starts. At a cold start it waits for the cisterns. -/
def execSlateWave (found : WaveReading) (s : State) : Host.Outcome State Fault Refusal :=
  let w := s.getF BOOT_STAT.WAVES
  let may := (s.stage == Stage.slates && s.flag BOOT_STAT.CIS_DONE) || s.stage == Stage.resetting
  .next (if !may || decide (w ≥ 4) || !s.rst.starting.isEmpty || s.held then s
    else (waveSlates w).foldl
      (fun (s : State) sl => s.startSlate sl ((found.failing.filter fun f => f.1 == sl).map fun f => f.2) (some found.findings)) s)

/-- CORE_BOOT_REPORT: a site's boot image reports; the last report of a slate ends its start. The last slate of the fourth wave of a cold
start leads to the topology check. -/
def execCoreBootReport (slate : BitVec 4) (site : BitVec 8) (pass : Bool) (s : State) : Host.Outcome State Fault Refusal :=
  let sl := slate.toNat
  .next (match SMap.find? s.rst.starting sl with
    | none => s
    | some x =>
      let y : SlateStart := { x with reports := SMap.insert x.reports site.toNat pass }
      let s1 : State := { s with rst := { s.rst with starting := SMap.insert s.rst.starting sl y } }
      if !((s.candidates sl).any (· == site.toNat)) then s
      else if s1.allReported sl y then
        let s2 := s1.finishSlate sl y
        if s2.stage = Stage.slates ∧ s2.getF BOOT_STAT.WAVES = 4 then
          ({ s2 with rst := { s2.rst with stageStart := s2.clock } }).setF BOOT_STAT.STAGE 0 Stage.topo
        else s2
      else s1)

/-- The slates that have their 128 cores come into service, but those of an OFFLINE partition (R436). -/
def State.serviceSlates (s : State) : State :=
  let off := fun (sl : Nat) => match s.partOfSlate sl with | some p => s.getF RST_PART.STATE p == 2 | none => false
  (upFrom 0 16).foldl (fun (s : State) sl => s.setF TOP_SITES_HI.OK sl (b2n (s.slateWhole sl && !(off sl)))) s

/-! ## Quiesce (R440, R441) -/

/-- A partition's share of a reset: cores stopped, WORK queues flushed, tag advanced, battens, caches and tiles zeroed. -/
def State.quiescePart (s : State) (p : Nat) : State :=
  let s1 := (((s.stopCores p).flushPart p).advanceGen p).dropCaches p
  let s2 := (s1.slateList p).foldl State.batZero s1
  let mine := fun (n : Nat) => natBit (s2.slatesOf p) (n / 128)
  { s2 with core := { cores := s2.core.cores.filter fun e => !(mine e.1), accs := s2.core.accs.filter fun a => !(mine a.core) } }

/-- The rider's own record of an abort it raises, and the abort (R445). -/
def State.riderAbort (s : State) (job status : Nat) : State :=
  (s.record { status := status, source := Src.rider, sev := .partitionFatal, job := some (s.jobRef job) }).raiseAbort job status 7

/-! ## OFFLINE (R452) -/

/-- A partition goes OFFLINE: unbound and cleared, its slates at point 0. -/
def State.partOffline (s : State) (p : Nat) : State :=
  let job := if s.bound p then some (s.jobOf p, s.gen p, p) else none
  let s1 := (s.endClear p).setF RST_PART.STATE p 2
  let s2 := (s1.slateList p).foldl (fun (s : State) sl => s.setF PWC_SLATE.POINT sl 0) s1
  s2.record { status := Status.offline, source := Src.rider, sev := .partitionFatal, job := job }

/-- The module goes OFFLINE: jobs aborted, partitions cleared and unbound, rails off. What the unpowered memories hold is open until the
pattern test of a RESTORE has zeroed them; the model keeps the zeros of the clearing and the other bytes as they were. -/
def State.moduleOffline (s : State) : State :=
  let s1 := s.boundJobs.foldl (fun (s : State) j => s.raiseAbort j Status.jobAbort 7) s
  let s2 := ((upFrom 0 16).filter fun p => s1.bound p).foldl State.endClear s1
  let s3 := s2.rst.parts.foldl (fun (s : State) (e : Nat × PartReset) =>
    match e.2.requester with | some r => s.answer r Status.offline [] | none => s) s2
  let s4 := s3.rst.parts.foldl (fun (s : State) (e : Nat × PartReset) => s.setF RST_PART.STATE e.1 0) s3
  let s5 := (upFrom 0 16).foldl (fun (s : State) sl => (s.setF TOP_SITES_HI.OK sl 0).setF PWC_SLATE.POINT sl 0) s4
  let s6 := ((s5.setF BOOT_STAT.STAGE 0 Stage.offline).setF RST_STAT.OFFLINE 0 1).setF RST_STAT.COMP_BUSY 0 0
  ({ s6 with rst := { s6.rst with starting := [], parts := [], compute := none }, core := {} }).record
    { status := Status.offline, source := Src.rider, sev := .moduleFatal }

/-- CISTERN_FAIL: the poisons that decode created in a cistern in one scrub pass have reached CIS_FAIL (R360). -/
def State.failCistern (s : State) (c : Nat) : State :=
  let s1 := s.record { status := Status.integrity, source := Src.cistern c, sev := .moduleFatal, detail := s.cisDetail c 31 31 0 0 }
  let s2 : State := { s1 with store := { s1.store with failed := SMap.insert s1.store.failed c true } }
  (s2.addFieldEntry 6 c).moduleOffline

def execCisternFail (cis : BitVec 4) (s : State) : Host.Outcome State Fault Refusal :=
  let c := cis.toNat
  .next (if SMap.get false s.store.failed c || decide (SMap.get 0 s.store.created c < s.getF ECC_THR.CIS_FAIL) ||
      decide (SMap.get 0 s.store.created c = 0) then s
    else s.failCistern c)

/-! ## Compute reset (R441, R451) -/

/-- The resets of a list that fall within a window that ends now. -/
def State.within (s : State) (ts : List Nat) (span : Nat) : List Nat := ts.filter fun t => decide (s.clock < t + span)

/-- The counted compute resets within the module's window. -/
def State.compWindow (s : State) : List Nat :=
  s.within s.rst.compTimes ((if s.getF RST_ESC.MOD_WIN_MIN = 0 then 10 else s.getF RST_ESC.MOD_WIN_MIN) * 60_000_000_000)

/-- The counted resets of a partition within its window. -/
def State.partWindow (s : State) (p : Nat) : List Nat :=
  s.within (SMap.get [] s.rst.partTimes p) ((if s.getF RST_ESC.PART_WIN_S = 0 then 60 else s.getF RST_ESC.PART_WIN_S) * 1_000_000_000)

/-- RST_STAT and RST_PART as they read: their counts are those of the windows. -/
def State.rstStat (s : State) : Word := BitVec.ofNat 64 (natSetField (s.reg .RST_STAT).toNat 8 4 (min 15 s.compWindow.length))
def State.rstPart (s : State) (p : Nat) : Word := BitVec.ofNat 64 (natSetField (s.reg .RST_PART p).toNat 16 4 (min 15 (s.partWindow p).length))

/-- Every slate quiesces for a compute reset: cores stopped, WORK queues flushed, battens and tiles zeroed, live trigger slots in FAULT. -/
def State.quiesceAll (s : State) : State :=
  let busy := s.core.cores.filter fun (e : Nat × Core) => e.2.busy
  let s1 := busy.foldl (fun (s : State) (e : Nat × Core) => s.stopCore e.1 (s.unraised e.1 .extAbort)) s
  let s2 := (upFrom 0 16).foldl State.flushPart s1
  let s3 := (upFrom 0 16).foldl State.batZero s2
  let s4 := s3.liveSlots.foldl (fun (s : State) n => s.slotFault n Status.jobAbort) s3
  { s4 with core := {} }

/-- A compute reset is accepted. -/
def State.startCompute (s : State) (cause : Nat) (counts : Bool) : State :=
  let s1 := s.boundJobs.foldl (fun (s : State) j => if (s.abortWin j).isSome then s else s.riderAbort j Status.jobAbort) s
  let s2 := ((((s1.quiesceAll).setF BOOT_STAT.STAGE 0 Stage.resetting).setF BOOT_STAT.WAVES 0 0).setF RST_STAT.COMP_BUSY 0 1).setF
    RST_STAT.LAST_CAUSE 0 cause
  let s3 := (upFrom 0 16).foldl (fun (s : State) sl => s.setF TOP_SITES_HI.OK sl 0) (s2.setF GAUGE_CTL.LOCK 0 0)
  let times := if counts then s3.compWindow ++ [s3.clock] else s3.rst.compTimes
  let s4 : State := { s3 with rst := { s3.rst with
    starting := [], compute := some s3.activeTime, computeCounts := counts, compTimes := times, stageStart := s3.clock } }
  let n := s4.getF RST_ESC.MOD_N
  if counts ∧ n ≠ 0 ∧ s4.compWindow.length ≥ n then s4.moduleOffline else s4

/-- The module's stage lets a compute reset begin: its status where it does not. -/
def State.computeRefusal (s : State) : Option Nat :=
  let st := s.stage
  if st = Stage.offline ∨ st = Stage.tripped ∨ st = Stage.recovery then some Status.offline
  else if st = Stage.ready ∨ st = Stage.topoFail then none
  else some Status.busy

def cmdComputeReset : Cmd := fun who w s =>
  if !(zeroFrom w 1) then ((Status.badArg, []), s)
  else if !(Who.isPF who) then ((Status.denied, []), s)
  else match s.computeRefusal with
    | some st => ((st, []), s)
    | none => ((Status.ok, []), s.startCompute Status.ok true)

def execComputeReset (chan : BitVec 6) (s : State) : Host.Outcome State Fault Refusal := .next (s.mbxCmd chan.toNat 0x31 cmdComputeReset)

/-- A partition's reset ends within a compute reset: its response is posted with OK (R455). -/
def State.joinReset (s : State) (p : Nat) (x : PartReset) : State :=
  let s1 := s.setF RST_PART.STATE p 0
  match x.requester with | some r => s1.answer r Status.ok [s1.gen p] | none => s1

/-- COMPUTE_RESET_COMPLETE: the four waves are done; READY with advanced tags. -/
def execComputeResetComplete (s : State) : Host.Outcome State Fault Refusal :=
  .next (if s.rst.compute.isNone || s.getF BOOT_STAT.WAVES != 4 || !s.rst.starting.isEmpty then s
    else
      let s1 := (upFrom 0 16).foldl State.advanceGen s
      let s2 := ((s1.setF BOOT_STAT.STAGE 0 Stage.ready).setF RST_STAT.COMP_BUSY 0 0).serviceSlates
      let s3 := s2.rst.parts.foldl (fun (s : State) (e : Nat × PartReset) => s.joinReset e.1 e.2) s2
      { s3 with rst := { s3.rst with parts := [], compute := none, stageStart := s3.clock }
                power := { s3.power with readyAt := some s3.clock } })

/-- COMPUTE_RESET_TIMEOUT: 40 ms, less the time in holds. -/
def execComputeResetTimeout (s : State) : Host.Outcome State Fault Refusal :=
  .next (match s.rst.compute with
    | some t => if t + 40_000_000 ≤ s.activeTime then s.moduleOffline else s
    | none => s)

/-! ## Partition reset (R440, R450, R451) -/

/-- The counted resets of a partition, with this one where it counts (R451). -/
def State.notePartReset (s : State) (p : Nat) (counts : Bool) : State :=
  let times := if counts then s.partWindow p ++ [s.clock] else SMap.get [] s.rst.partTimes p
  { s with rst := { s.rst with partTimes := SMap.put [] s.rst.partTimes p times } }

/-- The slates of a partition start, and its reset is in progress. -/
def State.beginPartReset (s : State) (p : Nat) (requester : Option (Nat × Nat)) (counts : Bool) : State :=
  { s with rst := { s.rst with parts := SMap.insert s.rst.parts p ⟨s.activeTime, requester, counts⟩ } }

/-- A partition reset is accepted: the abort where the job is bound and not in its window, the quiesce, then the slate start, or OFFLINE where
the counts call for it. -/
def State.startPartReset (s : State) (p cause : Nat) (requester : Option (Nat × Nat)) (counts : Bool) : State :=
  let s1 := (s.setF RST_PART.STATE p 1).setF RST_PART.LAST_CAUSE p cause
  let s2 := if s1.bound p && (s1.abortWin (s1.jobOf p)).isNone then s1.riderAbort (s1.jobOf p) Status.jobAbort else s1
  let s3 := (s2.quiescePart p).notePartReset p counts
  let n := s3.getF RST_ESC.PART_N
  if counts && n != 0 && decide (n ≤ (s3.partWindow p).length) then
    let s4 := s3.partOffline p
    match requester with | some r => s4.answer r Status.offline [] | none => s4
  else ((s3.slateList p).foldl (fun (s : State) sl => s.startSlate sl [] none) s3).beginPartReset p requester counts

/-- PART_RESET's refusals. -/
def State.partRefusal (s : State) (who p : Nat) (w : Nat → Nat) : Option Nat :=
  if !(unusedZero w 0xF 2) then some Status.badArg
  else if !(s.reaches who p) then some Status.denied
  else if s.getF RST_PART.STATE p = 2 ∨ s.stage = Stage.offline ∨ s.stage = Stage.tripped then some Status.offline
  else if s.getF RST_PART.STATE p = 1 ∨ s.stage ≠ Stage.ready then some Status.busy
  else none

/-- PART_RESET, which is answered at its completion. -/
def execPartReset (chan : BitVec 6) (s : State) : Host.Outcome State Fault Refusal :=
  let c := chan.toNat
  .next (s.mbxRow c 0x30 fun w s =>
    let p := natField (w 1) 0 4
    match s.partRefusal (s.chanIdent c) p w with
    | some st => s.mbxReply c st []
    | none => (s.mbxTake c).startPartReset p Status.ok (some (0, c)) true)

/-- PART_RESET_COMPLETE: the slates have started; ACTIVE, or OFFLINE where a slate found no 128 cores (R436). -/
def execPartResetComplete (part : BitVec 4) (s : State) : Host.Outcome State Fault Refusal :=
  let p := part.toNat
  .next (match SMap.find? s.rst.parts p with
    | none => s
    | some x =>
      if s.rst.compute.isSome || (s.slateList p).any (fun sl => (SMap.find? s.rst.starting sl).isSome) then s
      else
        let s1 : State := { s with rst := { s.rst with parts := SMap.erase s.rst.parts p } }
        if (s.slateList p).all s.slateWhole then
          let s2 := (s1.slateList p).foldl (fun (s : State) sl => s.setF TOP_SITES_HI.OK sl 1) (s1.setF RST_PART.STATE p 0)
          match x.requester with | some r => s2.answer r Status.ok [s2.gen p] | none => s2
        else
          let s2 := ((s.slateList p).foldl (fun (s : State) sl => s.setF TOP_SITES_HI.OK sl (b2n (s.slateWhole sl))) s1).partOffline p
          match x.requester with | some r => s2.answer r Status.offline [] | none => s2)

/-- PART_RESET_TIMEOUT: 5 ms, less the time in holds, start a compute reset. -/
def execPartResetTimeout (part : BitVec 4) (s : State) : Host.Outcome State Fault Refusal :=
  .next (match SMap.find? s.rst.parts part.toNat with
    | some x => if s.rst.compute.isNone && decide (x.start + 5_000_000 ≤ s.activeTime) then s.startCompute Status.timeout true else s
    | none => s)

/-- The partition has a core that is not idle or a DMA engine that is not empty. -/
def State.partBusy (s : State) (p : Nat) : Bool :=
  (s.coresOf p).any fun n => let c := s.getCore n; c.busy || !c.dq.isEmpty || !c.drun.isEmpty

/-- ABORT_QUIESCE_TIMEOUT: the rider's look at a partition 1 ms after its abort, once for each abort. -/
def execAbortQuiesceTimeout (part : BitVec 4) (s : State) : Host.Outcome State Fault Refusal :=
  let p := part.toNat
  .next (match s.abortWin (s.jobOf p) with
    | none => s
    | some w =>
      if !(s.bound p) || w.checked || decide (s.clock < w.held + 1_000_000) then s
      else
        let s1 : State := { s with rst := { s.rst with aborts := SMap.insert s.rst.aborts (s.jobOf p) { w with checked := true } } }
        if s.partBusy p && s.getF RST_PART.STATE p == 0 then s1.startPartReset p Status.timeout none true else s1)

/-! ## The abort's commands and windows (R445 to R447) -/

def cmdAbort : Cmd := fun who w s =>
  let p := natField (w 1) 0 4
  if !(unusedZero w 0xF 2) then ((Status.badArg, []), s)
  else if !(s.reaches who p) then ((Status.denied, []), s)
  else if !(s.bound p) then ((Status.badArg, []), s)
  else ((Status.ok, []), s.riderAbort (s.jobOf p) Status.jobAbort)

def execAbort (chan : BitVec 6) (s : State) : Host.Outcome State Fault Refusal := .next (s.mbxCmd chan.toNat 0x32 cmdAbort)

/-- An ABORT that has passed its checks (R446, R447). -/
def State.takeAbort (s : State) (l : Nat) (p : Packet) : State :=
  let job := Pkt.job p
  let f := Pkt.arg p % 65536
  let status := natField (Pkt.arg p) 16 8
  let cls := natField (Pkt.arg p) 24 4
  let fe := natBit (Pkt.arg p) 28
  let origin := Pkt.count p % 65536
  match s.abortWin job with
  | none => (((s.enterWindow job status f fe origin cls).abortLocal job status f fe origin).sendAborts job status f fe origin cls (some l))
  | some w =>
    if w.earlierThan f fe then (s.enterWindow job status f fe origin cls).sendAborts job status f fe origin cls (some l) else s

def execAbortPacket (die : Die) (link : Link) (pkt : Packet) (s : State) : Host.Outcome State Fault Refusal :=
  let d := die.toNat
  let l := link.toNat
  .next (s.packetRow PT.abort d l pkt fun vl _ s => (s.takeAbort l pkt).consume vl d l pkt)

/-- ABORT_FENCE_END: course F has ended, and what was held back tries again. -/
def execAbortFenceEnd (job : BitVec 16) (s : State) : Host.Outcome State Fault Refusal :=
  let j := job.toNat
  .next (match s.abortWin j with
    | some w =>
      if !w.ended && s.reached w.fenceEnd then
        (({ s with rst := { s.rst with aborts := SMap.insert s.rst.aborts j { w with ended := true } } }).showAbort j).retryWaiting
      else s
    | none => s)

/-- ABORT_WINDOW_END: course F + 256 has ended. -/
def execAbortWindowEnd (job : BitVec 16) (s : State) : Host.Outcome State Fault Refusal :=
  let j := job.toNat
  .next (match s.abortWin j with
    | some w =>
      if s.reached w.winEnd then
        let s1 : State := { s with rst := { s.rst with aborts := SMap.erase s.rst.aborts j } }
        let s2 := match s1.rsetOf j with
          | some i => (s1.setF RST_JOB.ABORTED i 0).setF RST_JOB.HOLD i 0
          | none => s1
        s2.retryWaiting
      else s
    | none => s)

/-! ## Mailbox commands (R453, R454) -/

def cmdResetStatus : Cmd := fun who w s =>
  let p := natField (w 1) 0 4
  if !(unusedZero w 0xF 2) then ((Status.badArg, []), s)
  else if !(s.reaches who p) then ((Status.denied, []), s)
  else
    let j := match SMap.find? s.sec.bindings p with | some b => (s.reg .RST_JOB b.rset).toNat | none => 0
    ((Status.ok, words2 (s.rstPart p).toNat ++ words2 s.rstStat.toNat ++ words2 j), s)

def execResetStatus (chan : BitVec 6) (s : State) : Host.Outcome State Fault Refusal := .next (s.mbxCmd chan.toNat 0x33 cmdResetStatus)

/-- The fuse map holds a failed cistern. -/
def State.cisternLost (s : State) : Bool := s.rst.fuseMap.any fun e => e.kind == 6

/-- The module is restored: stages SLATES to READY after the cisterns have been brought up and tested again. -/
def State.restoreModule (s : State) : State :=
  let s1 := (((s.setF BOOT_STAT.STAGE 0 Stage.slates).setF BOOT_STAT.CIS_DONE 0 0).setF BOOT_STAT.WAVES 0 0).setF RST_STAT.OFFLINE 0 0
  { s1 with rst := { s1.rst with compTimes := [], stageStart := s1.clock, starting := [] } }

/-- RESTORE; a management session may always send it, PF0 and PF1 while HOST_RESTORE is 1. -/
def cmdRestore (mgmt : Bool) : Cmd := fun who w s =>
  let p := natField (w 1) 0 4
  if !(unusedZero w 0x10F 2) then ((Status.badArg, []), s)
  else if !(mgmt || (Who.isPF who && s.flag RST_ESC.HOST_RESTORE)) then ((Status.denied, []), s)
  else if natBit (w 1) 8 then
    (if s.cisternLost then ((Status.offline, []), s)
     else if s.rst.compute.isSome then ((Status.busy, []), s)
     else if s.stage ≠ Stage.offline then ((Status.badArg, []), s)
     else ((Status.ok, []), s.restoreModule))
  else if s.stage ≠ Stage.ready then ((if s.rst.compute.isSome then Status.busy else Status.offline, []), s)
  else if s.getF RST_PART.STATE p = 1 then ((Status.busy, []), s)
  else
    let s1 : State := { s with rst := { s.rst with partTimes := SMap.erase s.rst.partTimes p } }
    ((Status.ok, []), s1.startPartReset p Status.ok none false)

def execRestore (chan : BitVec 6) (s : State) : Host.Outcome State Fault Refusal := .next (s.mbxCmd chan.toNat 0x34 (cmdRestore false))

/-- A fuse-map entry (the table "Fuse-map entry"). -/
def FuseEntry.word (e : FuseEntry) : Word := packW [(0, 8, e.kind), (8, 1, b2n e.isField), (16, 48, e.location)]

def cmdFmapRead : Cmd := fun who w s =>
  let n := min (natField (w 1) 0 16) s.rst.fuseMap.length
  let buf := addr2 w 2
  if !(unusedZero w 0xFFFF 4) then ((Status.badArg, []), s)
  else if !(Who.isPF who) then ((Status.denied, []), s)
  else match if n = 0 then none else s.bufStatus who buf (8 * n) false with
    | some st => ((st, []), s)
    | none => ((Status.ok, [n]), s.land buf ((s.rst.fuseMap.take n).flatMap fun e => leBytes 8 e.word.toNat) false)

def execFmapRead (chan : BitVec 6) (s : State) : Host.Outcome State Fault Refusal := .next (s.mbxCmd chan.toNat 0x36 cmdFmapRead)

end Sys2Proof.Machine
end

