-- ==== Sys2Proof/Machine/Rider.lean ====
section
/-!
DEFINITION. Machine/Rider.lean: the rider's load and watchdog (R457, R458), the flash with its erase journal (R459, R460), bundles and the
update of a slot (R461 to R471), the settings (R472), telemetry (R476), PLDM (R475) and the update mailbox commands (R477).
-/
namespace Sys2Proof.Machine

/-- A record of the rider. -/
def State.riderRecord (s : State) (status : Nat) : State := s.record { status := status, source := Src.rider }

/-! ## Load (R457) -/

/-- The end of a 10 ms window: LOAD, and the telemetry period doubled or halved. -/
def execRiderLoadWindow (load : BitVec 8) (s : State) : Host.Outcome State Fault Refusal :=
  let v := min 100 load.toNat
  let d := s.getF RDR_STAT.DECIM
  let d1 := if v ≥ 90 then min 6 (d + 1) else if v < 70 then d - 1 else d
  .next (if s.paused || decide (s.clock < s.rider.loadAt + 10_000_000) then s
    else { (s.setF RDR_STAT.LOAD 0 v).setF RDR_STAT.DECIM 0 d1 with
      rider := { s.rider with loadAt := s.clock, saturated := decide (d = 6) && decide (90 ≤ v) } })

/-- RDR_STAT as it reads: shedding is a condition of now, and WDOG counts the last 10 min. -/
def State.expiriesNow (s : State) : List Nat := s.rider.expiries.filter fun t => decide (s.clock < t + 600_000_000_000)
def State.rdrStat (s : State) : Word :=
  let v := natSetField (s.reg .RDR_STAT).toNat 11 1 (b2n s.shedding)
  BitVec.ofNat 64 (natSetField v 16 8 (min 255 s.expiriesNow.length))

/-! ## The flash (R459, R460) -/

def State.flashSlot (s : State) (i : Nat) : FlashSlot := SMap.get {} s.rider.slots i
def State.setFlashSlot (s : State) (i : Nat) (x : FlashSlot) : State :=
  { s with rider := { s.rider with slots := SMap.put {} s.rider.slots i x } }

/-- The slot states of UPD_STAT. -/
def US.empty : Nat := 0
def US.erasing : Nat := 1
def US.receiving : Nat := 2
def US.verifying : Nat := 3
def US.verified : Nat := 4
def US.failed : Nat := 5

def State.slotState (s : State) (i : Nat) : Nat := if i = 0 then s.getF UPD_STAT.STATE_A else s.getF UPD_STAT.STATE_B
def State.setSlotState (s : State) (i v : Nat) : State := if i = 0 then s.setF UPD_STAT.STATE_A 0 v else s.setF UPD_STAT.STATE_B 0 v
def State.running (s : State) : Nat := s.getF UPD_STAT.RUNNING
def State.inactive (s : State) : Nat := 1 - s.running

/-- Every START of a half has its DONE. -/
def journalClosed (es : List JournalEntry) : Bool :=
  es.all fun e => !e.start || es.any fun d => !d.start && d.sector == e.sector && decide (e.seq < d.seq)

/-- Append an entry to the erase journal; a full half gives way to the other, erased, where every START in that one has its DONE. -/
def State.journalAdd (s : State) (sector : Nat) (start : Bool) : State :=
  let r := s.rider
  let full := decide ((r.journal.filter fun e => e.half == r.half).length ≥ 8192)
  let turn := full && journalClosed (r.journal.filter fun e => e.half != r.half)
  let kept := if turn then r.journal.filter fun e => e.half == r.half else r.journal
  let half := if turn then !r.half else r.half
  { s with rider := { r with journal := kept ++ [⟨r.journalSeq, sector, start, half⟩], journalSeq := r.journalSeq + 1, half := half } }

/-- The sectors with a START and no DONE after it. -/
def State.halfErased (s : State) : List Nat :=
  ((s.rider.journal.filter fun e => e.start &&
    !(s.rider.journal.any fun d => !d.start && d.sector == e.sector && decide (e.seq < d.seq))).map fun e => e.sector).eraseDups

/-- The sectors of a slot. -/
def inSlot (slot sector : Nat) : Bool := sector / 1024 == slot

/-- An erase of a sector of a slot begins: what stood there is gone. -/
def State.beginErase (s : State) (slot sector : Nat) : State :=
  let x := s.flashSlot slot
  let off := sector % 1024
  (s.journalAdd sector true).setFlashSlot slot
    { header := if off = 0 then [] else x.header, units := x.units.filter fun u => u.1 / 16 != off, factory := false }

/-- The sectors whose erase is in progress: of the slot that is updated, and of the settings. -/
def State.erasingNow (s : State) : List Nat := s.rider.setErase ++ match s.rider.update with | some u => u.erasing | none => []

/-- Up to 8 sectors are erased at once. -/
def State.fillErases (s : State) : State :=
  match s.rider.update with
  | none => s
  | some u =>
    let n := 8 - s.erasingNow.length
    let now := u.erase.take n
    let s1 := now.foldl (fun (s : State) x => s.beginErase u.slot x) s
    { s1 with rider := { s1.rider with update := some { u with erase := u.erase.drop n, erasing := u.erasing ++ now } } }

/-- FLASH_ERASE_DONE: the sector's DONE entry; with the last sector of an update its slot receives. An erase that a restart has cut off does
not end. -/
def execFlashEraseDone (sector : BitVec 13) (s : State) : Host.Outcome State Fault Refusal :=
  let x := sector.toNat
  .next (if !(s.erasingNow.any (· == x)) then s
    else
      let s0 := s.journalAdd x false
      let s1 : State := { s0 with rider := { s0.rider with setErase := s0.rider.setErase.filter fun e => e != x } }
      match s1.rider.update with
      | none => s1
      | some u =>
        let s2 := ({ s1 with rider := { s1.rider with update := some { u with erasing := u.erasing.filter fun e => e != x } } }).fillErases
        match s2.rider.update with
        | some v => if v.erasing.isEmpty && v.erase.isEmpty && s2.slotState v.slot == US.erasing then s2.setSlotState v.slot US.receiving else s2
        | none => s2)

/-! ## Bundles (R461, R462) -/

/-- A little-endian field of a header. -/
def hdr (h : List Byte) (lo n : Nat) : Nat := leNat ((h.drop lo).take n)
def zeros (bs : List Byte) (lo hi : Nat) : Bool := ((bs.drop lo).take (hi - lo)).all fun b => b == 0

/-- A component entry. -/
structure BundlePart where
  type : Nat
  svn : Nat
  off : Nat
  len : Nat
  digest : Nat
  deriving DecidableEq, Repr

def bundlePart (h : List Byte) (i : Nat) : BundlePart :=
  let b := 64 + 64 * i
  ⟨hdr h b 1, hdr h (b + 4) 4, hdr h (b + 8) 4, hdr h (b + 12) 4, beNat ((h.drop (b + 16)).take 48)⟩

def bundleLen (h : List Byte) : Nat := hdr h 8 8
def bundleParts (h : List Byte) : List BundlePart := (upFrom 0 5).map (bundlePart h)

/-- Check 1. -/
def headerSound (h : List Byte) : Bool :=
  decide (2048 ≤ h.length) && hdr h 2044 4 == crc32c (h.take 2044) && hdr h 0 4 == 0x52444742 && hdr h 4 2 == 1 && hdr h 6 2 == 2048 &&
    zeros h 19 20 && zeros h 48 64 && zeros h 1088 1936 && zeros h 2032 2044 &&
    (upFrom 0 5).all fun i => zeros h (65 + 64 * i) (68 + 64 * i)

/-- Ranges that do not overlap. -/
def apartAll : List (Nat × Nat) → Bool
  | [] => true
  | r :: rs => (rs.all fun q => decide (r.1 + r.2 ≤ q.1) || decide (q.1 + q.2 ≤ r.1)) && apartAll rs

/-- Check 3. -/
def headerPlaced (h : List Byte) : Bool :=
  let len := bundleLen h
  let ps := bundleParts h
  let chain := (hdr h 36 4, hdr h 40 4)
  let ranges := (ps.map fun p => (p.off, p.len)) ++ [chain]
  decide (2048 ≤ len) && decide (len ≤ 67_108_864) && hdr h 16 2 == 5 && hdr h 44 4 != 0 &&
    ((upFrom 1 5).all fun t => (ps.filter fun p => p.type == t).length == 1) &&
    (ps.all fun p => decide (p.svn ≤ 63) && decide (1 ≤ p.len) && (p.type != 5 || decide (p.len ≤ 65_536))) &&
    (ranges.all fun r => r.1 % 4096 == 0 && decide (4096 ≤ r.1) && decide (r.1 + r.2 ≤ len)) && apartAll ranges && zeros h 384 1088

/-- The ones of a thermometer-coded counter. -/
def ones (w : Word) : Nat := ((upFrom 0 64).filter fun i => bit w i).length

/-- The fused counter of a component type: the SP's and the rider's; the others have none (R401). -/
def State.fusedSvn (s : State) (type : Nat) : Nat := if type = 1 then ones s.sec.spSvn else if type = 2 then ones s.sec.riderSvn else 0

/-- A root key hash that is fused and not revoked (R401, R402). -/
def State.rootGood (s : State) (h : BitVec 384) : Bool := (upFrom 0 4).any fun i => Config.rootHash i == h && !(bit s.sec.revoked i)

/-- Check 4: the chain ends at an unrevoked root, and its leaf key signed the header. -/
def State.headerSigned (s : State) (h chain : List Byte) : Bool :=
  match Config.chainKey chain with
  | none => false
  | some (qx, qy, root) =>
    s.rootGood root &&
      ecdsaStatus (sha384 (h.take 1936)).toNat (beNat ((h.drop 1936).take 48)) (beNat ((h.drop 1984).take 48)) qx.toNat qy.toNat == 0

/-- The checks of R462: the status of the first that fails. -/
def State.headerCheck (s : State) (h chain : List Byte) : Option Nat :=
  if !(headerSound h) then some Status.badHeader
  else if !(natBit (hdr h 18 1) Config.variant) then some Status.badArg
  else if !(headerPlaced h) then some Status.badArg
  else if !(s.headerSigned h chain) then some Status.integrity
  else if (bundleParts h).any fun p => decide (p.svn < s.fusedSvn p.type) then some Status.denied
  else none

/-- Bytes of a slot's flash from a multiple of 4,096; erased bits read 1. -/
def FlashSlot.bytes (x : FlashSlot) (off len : Nat) : List Byte :=
  ((upFrom (off / 4096) (ceilDiv len 4096)).flatMap fun i =>
    let u := SMap.get [] x.units i
    u ++ List.replicate (4096 - u.length) 0xFF).take len

/-- The images of a slot match their digests, and its chain one that was held. -/
def FlashSlot.matches (x : FlashSlot) (h chain : List Byte) : Bool :=
  (bundleParts h).all (fun p => (sha384 (x.bytes p.off p.len)).toNat == p.digest) && x.bytes (hdr h 36 4) (hdr h 40 4) == chain

/-- A slot passes at start (R402, R470): the release of manufacture, or one whose header and images verify. -/
def State.slotPasses (s : State) (i : Nat) : Bool :=
  let x := s.flashSlot i
  let chain := x.bytes (hdr x.header 36 4) (hdr x.header 40 4)
  !(s.halfErased.any (inSlot i)) && (x.factory || ((s.headerCheck x.header chain).isNone && x.matches x.header chain))

/-- The slot's state after a start: what of it flash shows. -/
def State.slotAtStart (s : State) (i : Nat) : Nat :=
  let x := s.flashSlot i
  if s.halfErased.any (inSlot i) then US.failed
  else if x.factory || headerSound x.header then US.verified
  else if x.units.isEmpty then US.empty
  else US.failed

/-- BUILD, handover and settings formats of a slot. -/
def State.slotBuild (s : State) (i : Nat) : Nat := let x := s.flashSlot i; if x.factory then Config.riderVersion else hdr x.header 44 4
def State.slotHandover (s : State) (i : Nat) : Nat × Nat :=
  let x := s.flashSlot i
  if x.factory then (Config.handover, Config.handover) else (hdr x.header 28 4, hdr x.header 32 4)
def State.slotFormats (s : State) (i : Nat) : Nat × Nat :=
  let x := s.flashSlot i
  if x.factory then (Config.settingsFormat, Config.settingsFormat) else (hdr x.header 20 4, hdr x.header 24 4)

/-- UPD_BUILD follows the slots. -/
def State.showBuilds (s : State) : State :=
  let o := s.inactive
  (s.setF UPD_BUILD.RUN 0 (s.slotBuild s.running)).setF UPD_BUILD.OTHER 0 (if s.slotState o = US.verified then s.slotBuild o else 0)

/-- The status of the last update command. -/
def State.updLast (s : State) (st : Nat) : State := s.setF UPD_STAT.LAST 0 st

/-! ## Receiving a bundle (R464 to R466) -/

/-- UPD_BEGIN on a header and the certificate chain that belongs to it. -/
def State.beginUpdate (s : State) (head chain : List Byte) : Nat × State :=
  if s.flag UPD_STAT.TRIAL || s.rider.update.isSome then (Status.busy, s)
  else match s.headerCheck head chain with
    | some st => (st, s)
    | none =>
      let slot := s.inactive
      let need := upFrom (1024 * slot) (ceilDiv (bundleLen head) 65_536)
      let again := s.halfErased.filter fun x => inSlot slot x && !(need.any (· == x))
      let s1 := ((s.setSlotState slot US.erasing).setF UPD_STAT.PROGRESS 0 0).showBuilds
      (Status.ok, ({ s1 with rider := { s1.rider with update := some ⟨slot, head, chain, again ++ need, [], [], false⟩ } }).fillErases)

def cmdUpdBegin : Cmd := fun who w s =>
  let a := addr2 w 2
  let out := fun (r : Nat × State) => ((r.1, if r.1 = Status.ok then [r.2.inactive] else []), r.2.updLast r.1)
  if w 1 != 0 || !(zeroFrom w 4) then out (Status.badArg, s)
  else if !(Who.isPF who) then ((Status.denied, []), s)
  else match s.bufStatus who a 4096 true with
    | some st => out (st, s.readBuf who a 4096)
    | none =>
      let s := s.readBuf who a 4096
      let head := s.bytes a 4096
      let off := hdr head 36 4
      let len := hdr head 40 4
      let sound := headerSound head && headerPlaced head
      match if sound then s.bufStatus who (a + off) len true else none with
      | some st => out (st, s.readBuf who (a + off) len)
      | none => out ((if sound then s.readBuf who (a + off) len else s).beginUpdate head (if sound then s.bytes (a + off) len else []))

def execUpdBegin (chan : BitVec 6) (s : State) : Host.Outcome State Fault Refusal := .next (s.mbxCmd chan.toNat 0x40 cmdUpdBegin)

/-- A unit of the bundle that has been received: staged, or programmed. -/
def State.unitHeld (s : State) (u : Update) (i : Nat) : Option (List Byte) :=
  match u.staged.find? fun e => e.1 == i with
  | some e => some e.2
  | none => SMap.find? (s.flashSlot u.slot).units i

/-- Stage a block: units already held must agree, and the new ones must find room in the 4 MiB of staging. -/
def State.stageBlock (s : State) (u : Update) (off : Nat) (data : List Byte) : Nat × State :=
  let units := (upFrom (off / 4096) (ceilDiv data.length 4096)).zip (chunksOf 4096 (data.length / 4096 + 1) data)
  let new := units.filter fun e => (s.unitHeld u e.1).isNone
  let bytes := fun (l : List (Nat × List Byte)) => (l.map fun e => e.2.length).sum
  if units.any fun e => match s.unitHeld u e.1 with | some b => b != e.2 | none => false then (Status.badArg, s)
  else if bytes u.staged + bytes new > 4 * 2 ^ 20 then (Status.busy, s)
  else (Status.ok, { s with rider := { s.rider with update := some { u with staged := u.staged ++ new } } })

/-- Offset and length of a block that R465 admits. -/
def blockGood (u : Update) (off len : Nat) : Bool :=
  let total := bundleLen u.head
  off % 4096 == 0 && decide (4096 ≤ off) && decide (1 ≤ len) && decide (len ≤ 2 ^ 20) && decide (off + len ≤ total) &&
    (len % 4096 == 0 || off + len == total)

def cmdUpdBlock : Cmd := fun who w s =>
  let off := w 1
  let len := w 2
  let a := addr2 w 3
  let out := fun (st : Nat) (s : State) => ((st, []), s.updLast st)
  if !(zeroFrom w 5) then out Status.badArg s
  else if !(Who.isPF who) then ((Status.denied, []), s)
  else match s.rider.update with
    | none => out Status.badArg s
    | some u =>
      let busy := fun (s : State) => let f := s.fresh; ((Status.busy, [100 + f.1 % 999_901]), f.2.updLast Status.busy)
      if s.slotState u.slot = US.erasing then busy s
      else if !(blockGood u off len) then out Status.badArg s
      else match s.bufStatus who a len true with
        | some st => out st (s.readBuf who a len)
        | none =>
          let r := (s.readBuf who a len).stageBlock u off (s.bytes a len)
          if r.1 = Status.busy then busy r.2 else out r.1 r.2

def execUpdBlock (chan : BitVec 6) (s : State) : Host.Outcome State Fault Refusal := .next (s.mbxCmd chan.toNat 0x41 cmdUpdBlock)

/-- STAGING_PROGRAM: the oldest staged unit is programmed. PROGRESS counts it and the header's own unit, which the rider holds. -/
def execStagingProgram (s : State) : Host.Outcome State Fault Refusal :=
  .next (if s.paused then s else match s.rider.update with
    | none => s
    | some u =>
      match u.staged with
      | [] => s
      | e :: rest =>
        let x := s.flashSlot u.slot
        let y : FlashSlot := { x with units := SMap.insert x.units e.1 e.2 }
        let s1 := s.setFlashSlot u.slot y
        ({ s1 with rider := { s1.rider with update := some { u with staged := rest } } }).setF UPD_STAT.PROGRESS 0 (y.units.length + 1))

/-- Every byte of the bundle has been programmed. -/
def State.allProgrammed (s : State) (u : Update) : Bool :=
  u.staged.isEmpty && (upFrom 1 (ceilDiv (bundleLen u.head) 4096 - 1)).all fun i => (SMap.find? (s.flashSlot u.slot).units i).isSome

def State.startVerify (s : State) : Nat × State :=
  match s.rider.update with
  | some u =>
    if s.slotState u.slot = US.receiving && s.allProgrammed u then
      (Status.ok, ({ s with rider := { s.rider with update := some { u with verifying := true } } }).setSlotState u.slot US.verifying)
    else (Status.badArg, s)
  | none => (Status.badArg, s)

def cmdUpdVerify : Cmd := fun who w s =>
  if !(zeroFrom w 1) then ((Status.badArg, []), s.updLast Status.badArg)
  else if !(Who.isPF who) then ((Status.denied, []), s)
  else let r := s.startVerify; ((r.1, []), r.2.updLast r.1)

def execUpdVerify (chan : BitVec 6) (s : State) : Host.Outcome State Fault Refusal := .next (s.mbxCmd chan.toNat 0x42 cmdUpdVerify)

/-- UPD_VERIFY_DONE: the header is programmed and the slot VERIFIED, or FAILED. -/
def execUpdVerifyDone (s : State) : Host.Outcome State Fault Refusal :=
  .next (match s.rider.update with
    | some u =>
      if s.paused || !u.verifying then s
      else
        let x := s.flashSlot u.slot
        let s1 : State := { s with rider := { s.rider with update := none } }
        if x.matches u.head u.chain then
          ((s1.setFlashSlot u.slot { x with header := u.head.take 2048 }).setSlotState u.slot US.verified).showBuilds
        else (s1.setSlotState u.slot US.failed).showBuilds
    | none => s)

/-! ## Activation, trial and revert (R467 to R470) -/

/-- Name the preferred slot and the trial, in the boot record too. -/
def State.prefer (s : State) (slot : Nat) (trial : Bool) : State :=
  let s1 := (s.setF UPD_STAT.PREFERRED 0 slot).setF UPD_STAT.TRIAL 0 (b2n trial)
  { s1 with rider := { s1.rider with bootPreferred := slot, bootTrial := trial } }

/-- The digest of a component as a measurement's content. -/
def State.measureImage (s : State) (i slot type : Nat) : State :=
  let x := s.flashSlot slot
  let d := match (bundleParts x.header).find? fun p => p.type == type with | some p => if x.factory then 0 else p.digest | none => 0
  s.measure i [BitVec.ofNat 64 (s.slotBuild slot), BitVec.ofNat 64 d, BitVec.ofNat 64 (d / 2 ^ 64), BitVec.ofNat 64 (d / 2 ^ 128),
    BitVec.ofNat 64 (d / 2 ^ 192), BitVec.ofNat 64 (d / 2 ^ 256), BitVec.ofNat 64 (d / 2 ^ 320)]

/-- The PWC image of two slots is the same. -/
def State.samePwc (s : State) (a b : Nat) : Bool :=
  let x := s.flashSlot a
  let y := s.flashSlot b
  !x.factory && !y.factory && ((bundleParts x.header).find? fun p => p.type == 3).map (·.digest) ==
    ((bundleParts y.header).find? fun p => p.type == 3).map (·.digest)

/-- The rider and PWC run from a slot now. -/
def State.runFrom (s : State) (slot : Nat) : State :=
  let old := s.running
  let s1 := ((s.setF UPD_STAT.RUNNING 0 slot).showBuilds).measureImage 0x03 slot 2
  let s2 := if s.samePwc old slot then s1 else s1.measureImage 0x04 slot 3
  { s2 with rider := { s2.rider with trialSince := s2.clock, kicked := s2.clock } }

/-- A pause begins: of at most 5 ms, or 800 ms where the rider restarts; the length is open (R468, R469). -/
def State.beginPause (s : State) (fallback watchdog : Bool) (slot : Nat) (reply : Option (Nat × Nat)) : State :=
  let f := s.fresh
  let s1 := f.2.setF RDR_STAT.PAUSED 0 1
  let x : RiderPause := ⟨s1.clock + f.1 % ((if fallback then 800_000_000 else 5_000_000) + 1), fallback, watchdog, slot, reply⟩
  { s1 with rider := { s1.rider with pause := some x }
            power := if fallback then { s1.power with heldSince := some (s1.power.heldSince.getD s1.clock) } else s1.power }

/-- A restarting rider answers a channel's queued requests BUSY, RETRY_AFTER 800,000 µs. -/
def State.shedChannel (s : State) (c : Nat) : Nat → State
  | 0 => s
  | n + 1 =>
    match (s.chan c).requests with
    | h :: _ => if h.taken then s else (s.mbxReply c Status.busy [800_000]).shedChannel c n
    | [] => s

/-- What a restart of the rider processor leaves: queued requests answered, staged blocks lost, an erase cut off, a read-back begun anew. -/
def State.restartRider (s : State) : State :=
  let s1 := (s.host.channels.map fun e => e.1).foldl (fun (s : State) c => s.shedChannel c 4) s
  match s1.rider.update with
  | none => s1
  | some u =>
    if s1.slotState u.slot = US.erasing then
      ({ s1 with rider := { s1.rider with update := none } }).setSlotState u.slot
        (if s1.halfErased.any (inSlot u.slot) then US.failed else US.empty)
    else ({ s1 with rider := { s1.rider with update := some { u with staged := [], verifying := false } } }).setSlotState u.slot US.receiving

/-- A fallback activation of a slot: the rider restarts from it in the pause that begins (R469). -/
def State.fallback (s : State) (slot : Nat) (watchdog : Bool) : State := s.restartRider.beginPause true watchdog slot none

/-- The slot on trial is given up (R470). -/
def State.revert (s : State) : State :=
  let bad := s.getF UPD_STAT.PREFERRED
  let s1 := (s.prefer (1 - bad) false).riderRecord Status.integrity
  if s1.running = bad then s1.fallback (1 - bad) false else s1

/-- The refusals of UPD_ACTIVATE. -/
def State.activateRefusal (s : State) (mode : Nat) : Option Nat :=
  let o := s.inactive
  let own := (s.slotHandover s.running).1
  let (ver, min_) := s.slotHandover o
  if mode > 2 then some Status.badArg
  else if match s.rider.update with | some u => !u.staged.isEmpty | none => false then some Status.busy
  else if s.slotState o ≠ US.verified then some Status.badArg
  else if mode ≠ 0 ∧ !(s.slotPasses o) then some Status.integrity
  else if mode = 1 ∧ !(decide (min_ ≤ own) && decide (own ≤ ver)) then some Status.badArg
  else none

/-- Answer whoever waits for the response of an activation. -/
def State.answerSome (s : State) (dest : Option (Nat × Nat)) : State := match dest with | some d => s.answer d Status.ok [] | none => s

/-- Activate the inactive slot: 0 NEXT_START, 1 HITLESS, which is answered after its pause, 2 FALLBACK. -/
def State.activate (s : State) (mode : Nat) (dest : Option (Nat × Nat)) : State :=
  let o := s.inactive
  let s1 := (s.updLast Status.ok).prefer o true
  if mode = 0 then s1.answerSome dest else if mode = 1 then s1.beginPause false false o dest else (s1.answerSome dest).fallback o false

def execUpdActivate (chan : BitVec 6) (s : State) : Host.Outcome State Fault Refusal :=
  let c := chan.toNat
  .next (s.mbxRow c 0x43 fun w s =>
    if !(unusedZero w 3 2) then (s.updLast Status.badArg).mbxReply c Status.badArg []
    else if !(Who.isPF (s.chanIdent c)) then s.mbxReply c Status.denied []
    else match s.activateRefusal (w 1) with
      | some st => (s.updLast st).mbxReply c st []
      | none => (if w 1 = 1 then s.mbxTake c else s).activate (w 1) (some (0, c)))

/-- The lowest bundle offset not yet received. -/
def State.firstMissing (s : State) : Nat :=
  match s.rider.update with
  | none => 0
  | some u =>
    match (upFrom 1 (ceilDiv (bundleLen u.head) 4096 - 1)).find? fun i => (s.unitHeld u i).isNone with
    | some i => 4096 * i
    | none => bundleLen u.head

def cmdUpdStatus : Cmd := fun who w s =>
  if !(zeroFrom w 1) then ((Status.badArg, []), s)
  else if !(Who.isPF who) then ((Status.denied, []), s)
  else ((Status.ok, words2 (s.reg .UPD_STAT).toNat ++ words2 (s.reg .UPD_BUILD).toNat ++ [s.firstMissing]), s)

def execUpdStatus (chan : BitVec 6) (s : State) : Host.Outcome State Fault Refusal := .next (s.mbxCmd chan.toNat 0x44 cmdUpdStatus)

/-- UPD_CANCEL of an update that runs; without one there is nothing to cancel. -/
def cmdUpdCancel : Cmd := fun who w s =>
  if !(zeroFrom w 1) then ((Status.badArg, []), s.updLast Status.badArg)
  else if !(Who.isPF who) then ((Status.denied, []), s)
  else match s.rider.update with
    | none => ((Status.badArg, []), s.updLast Status.badArg)
    | some u =>
      let s1 : State := { s with rider := { s.rider with update := none } }
      ((Status.ok, []), ((s1.setSlotState u.slot US.failed).showBuilds).updLast Status.ok)

def execUpdCancel (chan : BitVec 6) (s : State) : Host.Outcome State Fault Refusal := .next (s.mbxCmd chan.toNat 0x45 cmdUpdCancel)

/-- The trial ends well. -/
def State.confirmTrial (s : State) : State := s.prefer (s.getF UPD_STAT.PREFERRED) false

def cmdConfirm : Cmd := fun who w s =>
  if !(zeroFrom w 1) then ((Status.badArg, []), s.updLast Status.badArg)
  else if !(Who.isPF who) then ((Status.denied, []), s)
  else ((Status.ok, []), s.confirmTrial.updLast Status.ok)

def execConfirm (chan : BitVec 6) (s : State) : Host.Outcome State Fault Refusal := .next (s.mbxCmd chan.toNat 0x48 cmdConfirm)

/-- The running slot is the one on trial. -/
def State.onTrial (s : State) : Bool := s.flag UPD_STAT.TRIAL && s.running == s.getF UPD_STAT.PREFERRED

def execTrialConfirmTimer (s : State) : Host.Outcome State Fault Refusal :=
  .next (if !s.paused && s.onTrial && s.stage == Stage.ready && decide (s.rider.trialSince + 600_000_000_000 ≤ s.clock) then s.confirmTrial else s)

/-- The slot on trial has not brought the module to READY within 18 s of the bus (R429, R470). -/
def execTrialReadyTimeout (s : State) : Host.Outcome State Fault Refusal :=
  .next (match s.rst.busUp with
    | some t => if !s.paused && s.onTrial && s.power.readyAt.isNone && decide (t + 18_000_000_000 ≤ s.clock) then s.revert else s
    | none => s)

/-! ## The watchdog (R458) -/

def State.kick (s : State) (who : Nat) : State :=
  if Who.isRider who then { s with rider := { s.rider with kicked := s.clock } } else s.refuseWrite Status.denied Src.rider

def execWatchdogKick (who : Ident) (s : State) : Host.Outcome State Fault Refusal := .next (s.kick who.toNat)

/-- The rider has not kicked for 100 ms: it restarts from its slot. A restart in progress stands, and an activation whose pause it cuts into
goes on as a restart from the slot that is activated (R458, R478). -/
def execRiderWatchdogExpiry (s : State) : Host.Outcome State Fault Refusal :=
  .next (if !s.rst.riderUp || decide (s.clock < s.rider.kicked + 100_000_000) then s
    else
      let s1 : State := { s with rider := { s.rider with expiries := s.expiriesNow ++ [s.clock], kicked := s.clock } }
      match s1.rider.pause with
      | none => s1.fallback s1.running true
      | some x =>
        if x.fallback then { s1 with rider := { s1.rider with pause := some { x with watchdog := true } } }
        else s1.restartRider.beginPause true true x.slot x.reply)

/-- What a rider that its watchdog restarted does: a dump, a record, and on the third expiry within 10 min a revert or a record (R458). -/
def State.afterWatchdog (s : State) : State :=
  let s1 := (s.crashDump true).riderRecord Status.timeout
  if s1.expiriesNow.length < 3 then s1
  else if s1.onTrial then s1.revert
  else s1.record { status := Status.timeout, source := Src.rider, sev := .moduleFatal }

/-- A pause ends, no sooner than a feed hold in it: the rider and the PWC run from their slot and go on (R468, R469, R478). -/
def State.endPause (s : State) : State :=
  match s.rider.pause with
  | none => s
  | some x =>
    if decide (s.clock < x.ends) || s.held then s
    else
      let s0 := s.setF RDR_STAT.PAUSED 0 0
      let since := s0.power.heldSince.getD s0.clock
      let s1 : State := { s0 with
        rider := { s0.rider with pause := none }
        power := if x.fallback then { s0.power with heldSince := none, heldTotal := s0.power.heldTotal + (s0.clock - since) } else s0.power }
      let s2 := (s1.runFrom x.slot).answerSome x.reply
      if x.watchdog then s2.afterWatchdog else s2

/-! ## Settings (R472) -/

/-- The registers and fields of the table "Settings". -/
def settingFlds : List (Fld × Nat) :=
  [(BOOT_CTL.STAGGER_MS, 0), (BOOT_CTL.EXP_VALID, 0)] ++
  ((upFrom 0 16).flatMap fun e => [(BOOT_EXP.PID, e), (BOOT_EXP.VARIANT, e), (BOOT_EXP.PRESENT, e)]) ++
  [(FEED_CTL.RETURN_MS, 0), (PWC_CTL.INTERVAL, 0), (PWC_CTL.RAMP_RATE, 0), (PWC_CTL.RAMP_HOLD_MS, 0), (PWC_CTL.LEARN_EN, 0),
    (PWC_DINT.PERIOD_S, 0)] ++
  ((upFrom 0 16).map fun i => (THM_SLATE.THR_C, i)) ++ ((upFrom 0 16).map fun i => (THM_CIS.THR_C, i)) ++
  [(SCRB_CTL.CIS_EN, 0), (SCRB_CTL.TIER_EN, 0), (SCRB_CTL.SCR_EN, 0), (SCRB_CTL.CIS_PASS_H, 0), (SCRB_CTL.TIER_PASS_MIN, 0),
    (SCRB_CTL.SCR_PASS_MIN, 0), (ECC_THR.DIE_MARK, 0), (ECC_THR.ROW, 0), (ECC_THR.CIS_FAIL, 0), (RST_ESC.PART_N, 0), (RST_ESC.PART_WIN_S, 0),
    (RST_ESC.MOD_N, 0), (RST_ESC.MOD_WIN_MIN, 0), (RDR_TELE.PERIOD_MS, 0), (RDR_TELE.EN, 0)]

def State.settings (s : State) : List Nat := settingFlds.map fun e => s.getF e.1 e.2
/-- The settings at their reset values. -/
def resetSettings : List Nat := settingFlds.map fun e => field (Reg.reset e.1.reg (Fld.at e.1 e.2)) e.1.lo e.1.w

/-- The copy with the highest sequence number, with its place. -/
def State.newestCopy (s : State) : Option (Nat × SettingsCopy) :=
  s.rider.copies.foldl (fun b (e : Nat × SettingsCopy) => match b with
    | some (_, c) => if c.seq < e.2.seq then some e else b
    | none => some e) none

/-- The copy that the settings are programmed into: the idle one, but on trial a copy in an older format is kept for a revert. -/
def State.saveTo (s : State) : Nat :=
  let fmt := (s.slotFormats s.running).1
  match s.newestCopy with
  | some (i, _) =>
    let older := match SMap.find? s.rider.copies (1 - i) with | some x => decide (x.format < fmt) | none => false
    if s.onTrial && older then i else 1 - i
  | none => 0

/-- The four sectors of a copy of the settings (R459). -/
def copySectors (i : Nat) : List Nat := upFrom (2320 + 4 * i) 4

/-- A copy is erased: nothing stands in it and no erase of it was cut off (R460). -/
def State.copyErased (s : State) (i : Nat) : Bool :=
  (SMap.find? s.rider.copies i).isNone && (copySectors i).all fun x => !(s.halfErased.any (· == x))

/-- Save the settings: the copy is programmed where it is erased, with a higher sequence number than any before; else its erase begins, once
the die has room for four more, and the change is programmed when the erase has ended (R459, R460, R472, R478). -/
def State.saveSettings (s : State) : State :=
  let i := s.saveTo
  let n := max s.rider.setSeq (match s.newestCopy with | some (_, c) => c.seq | none => 0) + 1
  if !s.rider.setErase.isEmpty then s
  else if s.copyErased i then
    { s with rider := { s.rider with setSeq := n, copies := SMap.insert s.rider.copies i ⟨n, (s.slotFormats s.running).1, s.settings⟩ } }
  else if s.erasingNow.length ≤ 4 then
    let s1 := (copySectors i).foldl (fun (s : State) x => s.journalAdd x true) s
    { s1 with rider := { s1.rider with copies := SMap.erase s1.rider.copies i, setErase := copySectors i } }
  else s

/-- The settings differ from those in flash, or stand there in an older format that this firmware converts (R472). -/
def State.settingsDue (s : State) : Bool :=
  let (fmt, min_) := s.slotFormats s.running
  match s.newestCopy with
  | some (_, c) => c.values != s.settings || (decide (min_ ≤ c.format) && decide (c.format < fmt))
  | none => resetSettings != s.settings

def execSettingsSave (s : State) : Host.Outcome State Fault Refusal :=
  .next (if s.rst.riderUp && !s.paused && s.settingsDue then s.saveSettings else s)

/-- The settings at start, from the copy that serves. -/
def State.loadSettings (s : State) : State :=
  let (fmt, min_) := s.slotFormats s.running
  if s.rider.resetNext then { s with rider := { s.rider with resetNext := false, copies := [] } }
  else match s.newestCopy with
    | none => s
    | some (_, c) =>
      if min_ ≤ c.format ∧ c.format ≤ fmt then
        let s1 := (settingFlds.zip c.values).foldl (fun (s : State) e => s.setF e.1.1 e.1.2 e.2) s
        if c.format < fmt then s1.saveSettings else s1
      else s.record { status := Status.ok, source := Src.rider, detail := c.format % 2 ^ 32 }

/-- Bytes of an image whose layout the spec leaves open, put into a buffer. -/
def imageBytes (id off n : Nat) : List Byte := (upFrom off n).map (Config.imageByte id)

def cmdSetRead : Cmd := fun who w s =>
  let (seq, fmt) := match s.newestCopy with | some (_, c) => (c.seq, c.format) | none => (0, (s.slotFormats s.running).1)
  let size := Config.imageSize 1
  let n := min (w 1) size
  let buf := addr2 w 2
  if !(zeroFrom w 4) then ((Status.badArg, []), s)
  else if !(Who.isPF who) then ((Status.denied, []), s)
  else match if n = 0 then none else s.bufStatus who buf n false with
    | some st => ((st, []), s)
    | none => ((Status.ok, [size, fmt]), s.land buf (imageBytes (2 * seq + 1) 0 n) false)

def execSetRead (chan : BitVec 6) (s : State) : Host.Outcome State Fault Refusal := .next (s.mbxCmd chan.toNat 0x46 cmdSetRead)

def cmdSetReset : Cmd := fun who w s =>
  if !(zeroFrom w 1) then ((Status.badArg, []), s)
  else if !(Who.isPF who) then ((Status.denied, []), s)
  else ((Status.ok, []), { s with rider := { s.rider with resetNext := true } })

def execSetReset (chan : BitVec 6) (s : State) : Host.Outcome State Fault Refusal := .next (s.mbxCmd chan.toNat 0x47 cmdSetReset)

/-! ## Crash dumps (R442, R477) -/

/-- The bytes of a dump: at most its 8 MiB of flash. -/
def dumpSize : Nat := min (Config.imageSize 0) (8 * 2 ^ 20)

/-- The list entry of a dump. -/
def dumpEntry (e : Nat × CrashDump) : List Byte := leBytes 8 e.2.gauge ++ leBytes 4 e.1 ++ leBytes 4 dumpSize

def cmdDumpList : Cmd := fun who w s =>
  let n := min (w 1) s.rst.dumps.length
  let buf := addr2 w 2
  if !(zeroFrom w 4) then ((Status.badArg, []), s)
  else if !(Who.isPF who) then ((Status.denied, []), s)
  else match if n = 0 then none else s.bufStatus who buf (16 * n) false with
    | some st => ((st, []), s)
    | none => ((Status.ok, []), s.land buf ((((upFrom 0 n).zip s.rst.dumps).map dumpEntry).flatten) false)

def execDumpList (chan : BitVec 6) (s : State) : Host.Outcome State Fault Refusal := .next (s.mbxCmd chan.toNat 0x49 cmdDumpList)

def cmdDumpRead : Cmd := fun who w s =>
  let n := w 3
  let buf := addr2 w 4
  if !(zeroFrom w 6) then ((Status.badArg, []), s)
  else if !(Who.isPF who) then ((Status.denied, []), s)
  else match s.rst.dumps[w 1]? with
    | none => ((Status.badArg, []), s)
    | some d =>
      let m := min n (dumpSize - w 2)
      match if m = 0 then none else s.bufStatus who buf m false with
      | some st => ((st, []), s)
      | none => ((Status.ok, [m]), s.land buf (imageBytes (2 * d.image) (w 2) m) false)

def execDumpRead (chan : BitVec 6) (s : State) : Host.Outcome State Fault Refusal := .next (s.mbxCmd chan.toNat 0x4A cmdDumpRead)

/-! ## PLDM (R475) -/

/-- An OPERATOR session that is open. -/
def State.operatorOn (s : State) (n : Nat) : Bool := match SMap.find? s.sec.mgmt n with | some m => m.operator | none => false

/-- A PLDM response on a management session: its completion code, 0 for success. -/
def State.pldmReply (s : State) (session st : Nat) : State := s.emit (.mgmt session [0x01, 0x00, 0x01, 0x00, if st = 0 then 0 else 1])

/-- Run an update command for a PLDM request; through a pause it is answered with an error. -/
def State.pldm (s : State) (session : Nat) (f : State → Nat × State) : State :=
  let s := s.riderFirst
  if s.operatorOn session && !s.paused then let r := f s; (r.2.updLast r.1).pldmReply session r.1 else s.pldmReply session 1

/-- UpdateComponent: UPD_BEGIN on the bytes that the module has pulled from the start of the bundle. -/
def execUpdateComponent (session : BitVec 2) (header : List Byte) (s : State) : Host.Outcome State Fault Refusal :=
  .next (s.pldm session.toNat fun s => s.beginUpdate (header.take 4096) ((header.drop (hdr header 36 4)).take (hdr header 40 4)))

/-- The data that answers RequestFirmwareData is a block. -/
def execRequestFirmwareData (session : BitVec 2) (offset : BitVec 32) (data : List Byte) (s : State) : Host.Outcome State Fault Refusal :=
  .next (match s.rider.update with
    | some u =>
      if s.operatorOn session.toNat && !s.paused && s.slotState u.slot != US.erasing && blockGood u offset.toNat data.length then
        let r := s.riderFirst.stageBlock u offset.toNat data
        r.2.updLast r.1
      else s
    | none => s)

def execTransferComplete (session : BitVec 2) (s : State) : Host.Outcome State Fault Refusal :=
  .next (s.pldm session.toNat State.startVerify)

def execActivateFirmware (session : BitVec 2) (selfContained : Bool) (s : State) : Host.Outcome State Fault Refusal :=
  let mode := b2n selfContained
  .next (s.pldm session.toNat fun s => match s.activateRefusal mode with | some st => (st, s) | none => (Status.ok, s.activate mode none))

/-! ## Telemetry (R476) -/

/-- The words of a telemetry frame, in the order in which R476 names them. -/
def State.telemetry (s : State) : List Word :=
  [s.gauge.now, s.reg .PWC_EFF, s.feedStat] ++ ((upFrom 0 16).map fun i => s.reg .PWC_SLATE i) ++ [s.reg .THM_MISC] ++
    [packW (((upFrom 0 32).filter isLink).map fun l => (2 * l, 2, s.linkState l))] ++ ((upFrom 0 3).map fun i => s.reg .PWC_EN i) ++
    (upFrom 0 16).map fun p => s.reg .PWC_EN_P p

def execTelemetryFrame (s : State) : Host.Outcome State Fault Refusal :=
  let ms := if s.getF RDR_TELE.PERIOD_MS = 0 then 100 else min 10_000 (s.getF RDR_TELE.PERIOD_MS)
  let due := decide (s.rider.teleAt + ms * 2 ^ s.getF RDR_STAT.DECIM * 1_000_000 ≤ s.clock)
  let body := s.telemetry.flatMap fun w => leBytes 8 w.toNat
  .next (if s.paused || !(s.flag RDR_TELE.EN) || !due then s
    else
      let s := s.riderFirst
      let s1 := (s.sec.mgmt.filter fun e => e.2.telemetry).foldl
        (fun (s : State) e => s.emit (.mgmt e.1 ([0x7E, 0x00] ++ leBytes 2 body.length ++ body))) s
      { s1 with rider := { s1.rider with teleAt := s1.clock } })

end Sys2Proof.Machine
end

