-- ==== Sys2Proof/Machine/Boot.lean ====
section
/-!
DEFINITION. Machine/Boot.lean: power up and off (R373, R428, R483), the rider's start (R401, R402, R432, R470 to R472), the pattern test
(R366), consistency (R434), the topology check and READY (R435, R436), and TOPO_RECHECK (R454).
-/
namespace Sys2Proof.Machine

/-! ## Power (R428, R442) -/

/-- The registers that a loss of power leaves: erasure marks and REQ_MUTUAL in flash, and what the pins and feeds show. -/
def State.keptRegs (s : State) : SMap Word :=
  let marks := s.regs.filter fun e => e.1 % 256 == Reg.num .ECC_ERASE
  let pins := BitVec.ofNat 64 ((s.reg .TOP_PINS).toNat &&& 0x17FC0)
  let s1 := ({ State.reset with regs := marks }).setReg .TOP_PINS 0 pins
  ((((s1.setF FEED_STAT.A_OK 0 (s.getF FEED_STAT.A_OK)).setF FEED_STAT.B_OK 0 (s.getF FEED_STAT.B_OK)).setF SEC_STATE.REQ_MUTUAL 0
    (s.getF SEC_STATE.REQ_MUTUAL)).setF SEC_STATE.PRESENCE 0 (s.getF SEC_STATE.PRESENCE)).regs

/-- The module is without power: what stands in flash and fuses is kept, everything else is at its reset value. -/
def State.powerOff (s : State) : State :=
  { State.reset with
    pending := s.pending, free := s.free, out := s.out, regs := s.keptRegs
    store := { flashLog := s.store.flashLog }
    rst := { fuseMap := s.rst.fuseMap, dumps := s.rst.dumps }
    power := { lossRecords := s.power.lossRecords }
    rider := { s.rider with update := none, kicked := 0, expiries := [], loadAt := 0, teleAt := 0, trialSince := 0, saturated := false
                            pause := none, frames := [], setErase := [] }
    sec := { revoked := s.sec.revoked, spSvn := s.sec.spSvn, riderSvn := s.sec.riderSvn, tenantAnchors := s.sec.tenantAnchors
             anchors := s.sec.anchors } }

/-- The 12 V bus comes up from a feed: a cold start begins, with the rider held. -/
def State.powerUp (s : State) (feed straps : Nat) (presence : Bool) : State :=
  let s1 := if feed = 0 then s.setF FEED_STAT.A_OK 0 1 else s.setF FEED_STAT.B_OK 0 1
  let s2 := (((s1.setF FEED_STAT.COND 0 feed).setF TOP_PINS.SLOT_NOW 0 straps).setF TOP_PINS.PRESENCE 0 (b2n presence)).setF
    SEC_STATE.PRESENCE 0 (b2n presence)
  let s3 := (s2.setF TOP_PINS.THERMTRIP 0 0).setF BOOT_STAT.STAGE 0 Stage.riderBoot
  { s3 with rst := { s3.rst with busUp := some s3.clock, stageStart := s3.clock }
            power := { s3.power with conducts := s3.clock } }

def execBusPowerUp (feedB : Bool) (straps : BitVec 6) (presence : Bool) (s : State) : Host.Outcome State Fault Refusal :=
  .next (if s.rst.busUp.isSome || s.edge.off then s else s.powerUp (b2n feedB) straps.toNat presence)

/-- BUS_HOLDUP_EXHAUSTED: no feed has returned before the bus fell below its limit. -/
def execBusHoldupExhausted (s : State) : Host.Outcome State Fault Refusal := .next (if s.power.lost.isSome then s.powerOff else s)

/-! ## The rider's start -/

/-- STAGGER_MS of the settings in flash. -/
def State.savedStagger (s : State) : Nat :=
  if s.rider.resetNext then 0x14 else match s.newestCopy with | some (_, c) => c.values.getD 0 0x14 | none => 0x14

/-- The stagger of R428 is over. -/
def State.staggerOver (s : State) : Bool :=
  match s.rst.busUp with
  | some t => decide (t + s.getF TOP_PINS.SLOT_NOW * s.savedStagger * 1_000_000 ≤ s.clock)
  | none => false

/-- The strand positions of a sluice die. -/
def strandPositions (d : Nat) : List (Nat × Nat) :=
  ((upFrom 0 32).filter fun l => isStrand d l).flatMap fun l => (upFrom 0 4).map fun p => (l, p)

/-- An entry of the fuse map is applied (R432): an erasure mark, or a SerDes macro that its group's spare replaces. -/
def State.applyFuse (s : State) (e : FuseEntry) : State :=
  if e.kind = 5 then (s.setF ECC_ERASE.DIE (e.location % 16) (e.location / 16 % 32)).setF ECC_ERASE.VALID (e.location % 16) 1
  else if e.kind = 4 then
    let d := e.location % 4
    let lane := e.location / 4 % 128
    let g := lane / 18
    let s1 := s.setReg .SLU_SPARE d (BitVec.ofNat 64 (natSetField (s.reg .SLU_SPARE d).toNat (8 * g) 8 (lane + 128)))
    match (strandPositions d).find? fun x => laneOf x.1 x.2 == lane with
    | some (l, p) => (s1.setSF SLU_STR_STAT.SPARED d l 1).setSF SLU_STR_STAT.SPARED_POS d l p
    | none => s1
  else s

/-- The measurements that a start takes (R403). -/
def State.measureStart (s : State) (slot : Nat) : State :=
  let s1 := [(0x02, 1), (0x03, 2), (0x04, 3), (0x05, 4), (0x06, 5)].foldl (fun (s : State) (e : Nat × Nat) => s.measureImage e.1 slot e.2)
    (s.measure 0x01 [])
  (upFrom 0 16).foldl (fun (s : State) p => s.measurePart p) s1.measureState

/-- The rider's own start: gauge from 0, straps latched, fuse map and settings applied (R32, R432, R472, R482). -/
def State.startRider (s : State) : State :=
  let s1 : State := ({ s with gauge := { s.gauge with now := 0, load := none }, course := { s.course with last := 0 } }).goFree
  let s2 := s1.setF TOP_PINS.SLOT_BOOT 0 (s1.getF TOP_PINS.SLOT_NOW)
  let s3 := (s2.setF SEC_STATE.SP_SVN 0 (ones s2.sec.spSvn)).setF SEC_STATE.RIDER_SVN 0 (ones s2.sec.riderSvn)
  let s4 := s3.rst.fuseMap.foldl State.applyFuse s3
  { s4 with rst := { s4.rst with riderUp := true, stageStart := s4.clock, members := [], rejudge := [] }
            rider := { s4.rider with kicked := s4.clock, loadAt := s4.clock, teleAt := s4.clock, trialSince := s4.clock } }

/-- The slot that boots: the preferred one, or the other (R470). -/
def State.bootSlot (s : State) : Option Nat :=
  if s.rider.recoveryNext then none
  else [s.rider.bootPreferred, 1 - s.rider.bootPreferred].find? fun i => s.slotPasses i

/-- Start from a slot; a slot on trial whose images failed has been reverted. -/
def State.bootFrom (s : State) (slot : Nat) : State :=
  let p := s.rider.bootPreferred
  let failed := s.rider.bootTrial && slot != p
  let s1 := s.startRider
  let s2 := (((s1.setSlotState 0 (s1.slotAtStart 0)).setSlotState 1 (s1.slotAtStart 1)).setF UPD_STAT.RUNNING 0 slot).prefer
    (if failed then slot else p) (s1.rider.bootTrial && !failed)
  let s3 := (s2.showBuilds.loadSettings.measureStart slot).setF BOOT_STAT.STAGE 0 Stage.links
  if failed then s3.riderRecord Status.integrity else s3

/-- The recovery image runs, or no slot has passed: only the management port is served (R402, R421). -/
def State.bootRecovery (s : State) : State :=
  let forced := s.rider.recoveryNext
  let s1 := (s.startRider).setF BOOT_STAT.STAGE 0 Stage.recovery
  let s2 := ((s1.setSlotState 0 (s1.slotAtStart 0)).setSlotState 1 (s1.slotAtStart 1)).setF SEC_STATE.RECOVERY 0 (b2n forced)
  ({ s2 with rider := { s2.rider with recoveryNext := false } }).measureState

def execRiderRelease (s : State) : Host.Outcome State Fault Refusal :=
  .next (if s.rst.riderUp || !s.staggerOver then s
    else match s.bootSlot with
      | some i => s.bootFrom i
      | none => s.bootRecovery)

/-! ## The pattern test (R366) -/


/-- The channels that a die's failing granules span. -/
def spanned (channels : List Nat) : Nat := (channels.filter fun c => decide (c < 32)).eraseDups.length

/-- What the test does with a finding: its record, then the mark or the spare row. -/
def State.takeFinding (s : State) (f : Finding) : State :=
  match f with
  | .die c d chs =>
    let s1 := s.findingRecord f
    if spanned chs ≥ 8 ∧ (s1.erasedDie c).isNone ∧ d ≤ 17 then (s1.setErase c d true).addFieldEntry 5 (c + 16 * d) else s1
  | .dramRow _ _ _ => s.findingRecord f
  | .tierRow _ _ _ | .scratchRow _ _ _ => (s.findingRecord f).addRows [f]

/-- The cisterns that a test's findings take out: two failing dies, or a DRAM row that repair did not mend. -/
def lostCisterns (before : Nat → Option Nat) (fs : List Finding) : List Nat :=
  (upFrom 0 16).filter fun c =>
    let dies := (fs.filterMap fun f => match f with | .die c' d chs => if c' = c ∧ spanned chs ≥ 8 then some d else none | _ => none).eraseDups
    let marked := match before c with | some d => (dies.filter fun x => x != d).length + 1 | none => dies.length
    decide (2 ≤ marked) || fs.any fun f => match f with | .dramRow c' _ ok => c' == c && !ok | _ => false

/-- Cisterns, tiers and scratch read zero, with valid check bits and no poison. -/
def State.zeroMemory (s : State) : State :=
  { s with mem := [], poison := [], store := { s.store with raw := [], edc := [], merge := [], created := [], dies := [], rowCorr := [], rowLast := [] } }

/-- PATTERN_TEST: once at a cold start, or in a RESTORE. -/
def execPatternTest (findings : List Finding) (s : State) : Host.Outcome State Fault Refusal :=
  let due := s.rst.riderUp && !(s.flag BOOT_STAT.CIS_DONE) && decide (Stage.links ≤ s.stage) && decide (s.stage ≤ Stage.slates)
  .next (if !due then s
    else
      let lost := lostCisterns s.erasedDie findings
      let s1 := (findings.foldl State.takeFinding s.zeroMemory).setF BOOT_STAT.CIS_DONE 0 1
      let s2 := (lost.filter fun c => !(SMap.get false s1.store.failed c)).foldl State.failCistern s1
      if lost.isEmpty && s2.cisternLost then s2.moduleOffline else s2)

/-! ## Consistency (R434) -/

/-- The row (or column) members: peer links that reached ACTIVE during LINKS. -/
def State.membersOf (s : State) (row : Bool) : List Nat := (s.rst.members.map fun e => e.1).filter fun l => (decide (l < 8)) == row

/-- The link of a module of the row or column to another, by their EPNs. -/
def linkBetween (row : Bool) (a b : Nat) : Nat := if row then rowLink (a % 8) (b % 8) else colLink (a / 8 % 8) (b / 8 % 8)

/-- The row, or the column, is consistent. -/
def State.consistent (s : State) (row : Bool) : Bool :=
  let ms := (s.membersOf row).map s.peerOf
  let base := if row then 0 else 8
  let heard := ms.all fun m => (upFrom base 7).all fun l => (SMap.find? s.route.told (m * 32 + l)).isSome
  let all := s.epn :: ms
  heard && all.all fun a => all.all fun b => a == b || s.knownLink a (linkBetween row a b) != 2

/-- Enter a stage of the start. -/
def State.enterStage (s : State) (st : Nat) : State :=
  ({ s with rst := { s.rst with stageStart := s.clock } }).setF BOOT_STAT.STAGE 0 st

/-- The links stage is over: every row and column strand that trains is ACTIVE and the gauge LOCKED, or 3.8 s have passed (R429). -/
def State.linksOver (s : State) : Bool :=
  (s.gstate == GS.locked && (upFrom 0 15).all fun l => l == 7 || s.linkState l != 2) ||
    (match s.rst.busUp with | some t => decide (t + 3_800_000_000 ≤ s.clock) | none => false)

/-- CONSISTENCY_CHECK: the row, then the column. -/
def execConsistencyCheck (s : State) : Host.Outcome State Fault Refusal :=
  .next (if s.stage = Stage.links then (if s.linksOver then s.enterStage Stage.rowCons else s)
    else if s.stage = Stage.rowCons then
      (if s.consistent true then (s.setF BOOT_TOPO.ROW_CONS 0 1).enterStage Stage.colCons else s)
    else if s.stage = Stage.colCons then
      (if s.flag BOOT_TOPO.ROW_CONS && s.consistent false then (s.setF BOOT_TOPO.COL_CONS 0 1).enterStage Stage.slates else s)
    else s)

/-- CONSISTENCY_TIMEOUT: 1 s after its stage began a check that has not passed is recorded, and the start proceeds. -/
def execConsistencyTimeout (s : State) : Host.Outcome State Fault Refusal :=
  .next (if (s.stage = Stage.rowCons ∨ s.stage = Stage.colCons) ∧ s.rst.stageStart + 1_000_000_000 ≤ s.clock then
      (s.record { status := Status.offline, source := Src.module }).enterStage (s.stage + 1)
    else s)

/-! ## Topology and READY (R435, R436) -/

/-- The link of an entry of BOOT_EXP; none for the two that name this module. -/
def State.entryLink (s : State) (e : Nat) : Option Nat :=
  if e < 8 then (if e = s.slotNo then none else some (rowLink s.slotNo e))
  else if e - 8 = s.boardNo then none else some (colLink s.boardNo (e - 8))

/-- An entry passes. -/
def State.entryPasses (s : State) (e : Nat) : Bool :=
  match s.entryLink e with
  | none => true
  | some l =>
    if s.flag BOOT_EXP.PRESENT e then
      s.linkState l != 2 && (match (s.activeDies l).head? with
        | some d => (match (s.strand d l).far with
          | some m => m.pid.toNat == s.getF BOOT_EXP.PID e && m.variant.toNat == s.getF BOOT_EXP.VARIANT e
          | none => false)
        | none => false)
    else (diesOf l).all fun d => s.strandState d l == SS.detect || s.strandState d l == SS.down

/-- The entries that fail, as bits. -/
def State.mismatches (s : State) : Nat := ((upFrom 0 16).map fun e => if s.entryPasses e then 0 else 2 ^ e).sum

/-- READY: slates come into service; the first READY of a cold start is timed. -/
def State.enterReady (s : State) : State :=
  let ms := match s.rst.busUp with | some t => satTo 16 ((s.clock - t) / 1_000_000) | none => 0
  let s1 := if s.power.readyAt.isNone then s.setF BOOT_STAT.READY_MS 0 ms else s
  let s2 := if s.stage = Stage.ready then s1
    else { s1.serviceSlates with power := { s1.power with readyAt := some s1.clock } }
  s2.enterStage Stage.ready

/-- The topology check. -/
def State.checkTopology (s : State) : State :=
  if !(s.flag BOOT_CTL.EXP_VALID) then ((s.setF BOOT_TOPO.MISMATCH 0 0).setF BOOT_TOPO.UNCHECKED 0 1).enterReady
  else
    let m := s.mismatches
    let s1 := (s.setF BOOT_TOPO.MISMATCH 0 m).setF BOOT_TOPO.UNCHECKED 0 0
    if m = 0 then s1.enterReady
    else (s1.enterStage Stage.topoFail).record { status := Status.integrity, source := Src.module, sev := .moduleFatal }

/-- The entries whose links have returned are judged again: after READY a mismatch is recorded; in TOPO_FAIL passing all leads to READY. -/
def State.rejudge (s : State) : State :=
  let es := (upFrom 0 16).filter fun e => match s.entryLink e with | some l => s.rst.rejudge.any (· == l) | none => false
  let s0 : State := { s with rst := { s.rst with rejudge := [] } }
  if !(s.flag BOOT_CTL.EXP_VALID) || es.isEmpty then s0
  else if s.stage = Stage.ready then
    (es.filter fun e => !(s.entryPasses e)).foldl (fun (s : State) e =>
      (s.setF BOOT_TOPO.MISMATCH 0 (natSetField (s.getF BOOT_TOPO.MISMATCH) e 1 1)).record { status := Status.integrity, source := Src.module }) s0
  else if s.stage = Stage.topoFail then
    let m := es.foldl (fun m e => natSetField m e 1 (b2n !(s.entryPasses e))) (s.getF BOOT_TOPO.MISMATCH)
    let s1 := s0.setF BOOT_TOPO.MISMATCH 0 m
    if m = 0 then s1.enterReady else s1
  else s0

/-- TOPOLOGY_CHECK: the stage TOPO's, or that of links that have returned. -/
def execTopologyCheck (s : State) : Host.Outcome State Fault Refusal :=
  .next (if s.stage = Stage.topo then s.checkTopology else if s.rst.rejudge.isEmpty then s else s.rejudge)

/-- TOPO_RECHECK's check runs from READY or TOPO_FAIL; in another stage it is answered BUSY, or OFFLINE where the module will not get there. -/
def cmdTopoRecheck : Cmd := fun who w s =>
  if !(zeroFrom w 1) then ((Status.badArg, []), s)
  else if !(Who.isPF who) then ((Status.denied, []), s)
  else if s.stage = Stage.ready ∨ s.stage = Stage.topoFail then
    let s1 := s.checkTopology
    ((Status.ok, [(s1.reg .BOOT_TOPO).toNat % 2 ^ 32]), s1)
  else ((if s.stage ≥ Stage.offline then Status.offline else Status.busy, []), s)

def execTopoRecheck (chan : BitVec 6) (s : State) : Host.Outcome State Fault Refusal := .next (s.mbxCmd chan.toNat 0x35 cmdTopoRecheck)

end Sys2Proof.Machine
end

