-- ==== Sys2Proof/Machine/Security.lean ====
section
/-!
DEFINITION. Machine/Security.lean: the SPDM responder (R404, R405), KEY_DELIVER (R406), the end of an UNSEAL (R415), TDISP and IDE (R416 to
R418), the fabric key (R410), management sessions and frames (R419, R474), and the operations that need physical presence (R421, R422).
-/
namespace Sys2Proof.Machine

/-! ## SPDM (R404, R405): the codes are those of DSP0274, which R405 names -/

def Spdm.version : Nat := 0x04
def Spdm.capabilities : Nat := 0x61
def Spdm.algorithms : Nat := 0x63
def Spdm.digests : Nat := 0x01
def Spdm.certificate : Nat := 0x02
def Spdm.challengeAuth : Nat := 0x03
def Spdm.measurements : Nat := 0x60
def Spdm.keyExchangeRsp : Nat := 0x64
def Spdm.finishRsp : Nat := 0x65
def Spdm.heartbeatAck : Nat := 0x68
def Spdm.keyUpdateAck : Nat := 0x69
def Spdm.endSessionAck : Nat := 0x6C
def Spdm.vendor : Nat := 0x7E
def Spdm.error : Nat := 0x7F
/-- Error codes. -/
def Spdm.invalidRequest : Nat := 0x01
def Spdm.invalidSession : Nat := 0x02
def Spdm.busy : Nat := 0x03
def Spdm.unexpected : Nat := 0x04
def Spdm.decryptError : Nat := 0x06

def Transport.key : Transport → Nat
  | .doe p => b2n p
  | .mgmt => 2
  | .i3c => 3

def State.conn (s : State) (t : Transport) : SpdmConn := SMap.get {} s.sec.conns (Transport.key t)
def State.setConn (s : State) (t : Transport) (c : SpdmConn) : State := { s with sec := { s.sec with conns := SMap.put {} s.sec.conns (Transport.key t) c } }

def State.measurement (s : State) (i : Nat) : BitVec 384 := SMap.get 0 s.sec.measurements i

/-- A response, with its signature under the alias key, which measurement 0x02 selects (R404). -/
def State.spdmReply (s : State) (t : Transport) (code : Nat) (body : List Byte) : State :=
  s.emit (.spdm t code (body ++ Config.aliasSign (s.measurement 0x02) (leBytes 1 code ++ body)))
def State.spdmError (s : State) (t : Transport) (e : Nat) : State := s.spdmReply t Spdm.error (leBytes 1 e ++ [0])

/-- The SP answers on a transport: in recovery on the management port alone (R402). -/
def State.spdmServes (s : State) (t : Transport) : Bool := s.stage != Stage.recovery || t == .mgmt

/-- A request that a connection must have come far enough for. -/
def State.spdm (s : State) (t : Transport) (ready : SpdmConn → Bool) (f : State → State) : State :=
  if !(s.spdmServes t) then s else if ready (s.conn t) then f s.riderFirst else s.riderFirst.spdmError t Spdm.unexpected

def SpdmConn.negotiated (c : SpdmConn) : Bool := c.version && c.capabilities && c.algorithms

def execGetVersion (t : Transport) (s : State) : Host.Outcome State Fault Refusal :=
  .next (s.spdm t (fun _ => true) fun s => (s.setConn t { version := true }).spdmReply t Spdm.version [0x13])

def execGetCapabilities (t : Transport) (s : State) : Host.Outcome State Fault Refusal :=
  .next (s.spdm t (fun c => c.version) fun s => (s.setConn t { version := true, capabilities := true }).spdmReply t Spdm.capabilities [])

/-- `supported`: the requester offers the algorithms of R405. -/
def execNegotiateAlgorithms (t : Transport) (supported : Bool) (s : State) : Host.Outcome State Fault Refusal :=
  .next (s.spdm t (fun c => c.capabilities) fun s =>
    if supported then (s.setConn t ⟨true, true, true⟩).spdmReply t Spdm.algorithms [] else s.spdmError t Spdm.invalidRequest)

def State.chain0 (s : State) : List Byte := Config.certChain (s.measurement 0x02)

def execGetDigests (t : Transport) (s : State) : Host.Outcome State Fault Refusal :=
  .next (s.spdm t SpdmConn.negotiated fun s => s.spdmReply t Spdm.digests (sha384Bytes s.chain0))

/-- Slot 0 holds the only chain. -/
def execGetCertificate (t : Transport) (slot : BitVec 8) (offset length : BitVec 16) (s : State) : Host.Outcome State Fault Refusal :=
  .next (s.spdm t SpdmConn.negotiated fun s =>
    if slot.toNat ≠ 0 ∨ offset.toNat ≥ s.chain0.length then s.spdmError t Spdm.invalidRequest
    else s.spdmReply t Spdm.certificate ((s.chain0.drop offset.toNat).take length.toNat))

/-- A nonce of the SP: an open value, kept for 60 s (R421). -/
def State.issueNonce (s : State) : Word × State :=
  let n := s.freshWord
  (n.1, { n.2 with sec := { n.2.sec with
    nonces := (s.sec.nonces.filter fun e => decide (s.clock < e.2 + 60_000_000_000)) ++ [(n.1.toNat, s.clock)] } })

def execChallenge (t : Transport) (slot : BitVec 8) (nonce : BitVec 256) (s : State) : Host.Outcome State Fault Refusal :=
  .next (s.spdm t SpdmConn.negotiated fun s =>
    if slot.toNat ≠ 0 then s.spdmError t Spdm.invalidRequest
    else
      let n := s.issueNonce
      n.2.spdmReply t Spdm.challengeAuth (sha384Bytes s.chain0 ++ leBytes 8 n.1.toNat ++ beBytes 32 nonce.toNat))

/-- The measurement blocks that an index asks for: all (0xFF), their number (0), or one. -/
def State.blocks (s : State) (i : Nat) : Option (List Byte) :=
  let block := fun (e : Nat × BitVec 384) => leBytes 1 e.1 ++ beBytes 48 e.2.toNat
  if i = 0 then some (leBytes 1 s.sec.measurements.length)
  else if i = 0xFF then some (s.sec.measurements.flatMap block)
  else (SMap.find? s.sec.measurements i).map fun v => block (i, v)

def execGetMeasurements (t : Transport) (index : BitVec 8) (nonce : BitVec 256) (s : State) : Host.Outcome State Fault Refusal :=
  .next (s.spdm t SpdmConn.negotiated fun s =>
    match s.blocks index.toNat with
    | none => s.spdmError t Spdm.invalidRequest
    | some b =>
      let n := s.issueNonce
      n.2.spdmReply t Spdm.measurements (b ++ leBytes 8 n.1.toNat ++ beBytes 32 nonce.toNat))

/-! ### Secured sessions -/

def State.sessions (s : State) : List SpdmSession := s.sec.sessions
def State.setSessions (s : State) (l : List SpdmSession) : State := { s with sec := { s.sec with sessions := l } }

/-- The session of a number on a transport. -/
def State.session (s : State) (t : Transport) (id : Nat) : Option SpdmSession := s.sessions.find? fun x => x.id == id && x.transport == t

/-- An established session: what R405 calls secured. -/
def State.secured (s : State) (t : Transport) (id : Option (BitVec 8)) : Bool :=
  match id with
  | some i => match s.session t i.toNat with | some x => x.established | none => false
  | none => false

/-- The lowest number that no session holds. -/
def State.freeSession (s : State) : Nat := ((upFrom 0 8).find? fun i => !(s.sessions.any fun x => x.id == i)).getD 8

/-- KEY_EXCHANGE: at most eight sessions at once; the module's share of the exchange is open. -/
def execKeyExchange (t : Transport) (random : BitVec 256) (exchange : List Byte) (s : State) : Host.Outcome State Fault Refusal :=
  .next (s.spdm t SpdmConn.negotiated fun s =>
    if s.sessions.length ≥ 8 then s.spdmError t Spdm.busy
    else
      let n := s.freshWord
      let id := s.freeSession
      (n.2.setSessions (s.sessions ++ [⟨id, t, false, false, 0⟩])).spdmReply t Spdm.keyExchangeRsp
        (leBytes 1 id ++ leBytes 8 n.1.toNat ++ beBytes 32 random.toNat ++ exchange))

/-- FINISH: `chain` names the tenant trust anchor that the requester's certificate chains to, `verified` says that its proofs hold. With
REQ_MUTUAL a requester without an anchor is turned away, and its session ends. -/
def execFinish (t : Transport) (session : BitVec 8) (chain : Option Nat) (verified : Bool) (s : State) : Host.Outcome State Fault Refusal :=
  .next (s.spdm t SpdmConn.negotiated fun s =>
    match s.session t session.toNat with
    | none => s.spdmError t Spdm.invalidSession
    | some x =>
      let others := s.sessions.filter fun y => y != x
      let mutualAuth := match chain with | some a => (SMap.find? s.sec.tenantAnchors a).isSome | none => false
      if x.established then s.spdmError t Spdm.unexpected
      else if !verified then (s.setSessions others).spdmError t Spdm.decryptError
      else if s.flag SEC_STATE.REQ_MUTUAL && !mutualAuth then (s.setSessions others).spdmError t Spdm.invalidRequest
      else (s.setSessions (s.sessions.map fun y => if y = x then { x with established := true, mutualAuth := mutualAuth } else y)).spdmReply t
        Spdm.finishRsp [])

/-- A request inside an established session. -/
def State.inSession (s : State) (t : Transport) (id : Option (BitVec 8)) (f : State → State) : State :=
  s.spdm t SpdmConn.negotiated fun s => if s.secured t id then f s else s.spdmError t Spdm.invalidSession

def execHeartbeat (t : Transport) (session : BitVec 8) (s : State) : Host.Outcome State Fault Refusal :=
  .next (s.inSession t (some session) fun s => s.spdmReply t Spdm.heartbeatAck [])

def execKeyUpdate (t : Transport) (session : BitVec 8) (s : State) : Host.Outcome State Fault Refusal :=
  .next (s.inSession t (some session) fun s =>
    (s.setSessions (s.sessions.map fun y =>
      if y.id = session.toNat ∧ y.transport = t then { y with keyUpdates := y.keyUpdates + 1 } else y)).spdmReply t Spdm.keyUpdateAck [])

def execEndSession (t : Transport) (session : BitVec 8) (s : State) : Host.Outcome State Fault Refusal :=
  .next (s.inSession t (some session) fun s =>
    (s.setSessions (s.sessions.filter fun y => !(y.id == session.toNat && y.transport == t))).spdmReply t Spdm.endSessionAck [])

/-- KEY_DELIVER inside a secured session (R406). -/
def execKeyDeliver (t : Transport) (session : Option (BitVec 8)) (body : List Byte) (s : State) : Host.Outcome State Fault Refusal :=
  .next (s.inSession t session fun s =>
    match s.keyDeliver body with
    | ((st, slot, k), s1) => s1.spdmReply t Spdm.vendor (leBytes 1 st ++ leBytes 2 slot ++ leBytes 4 k))

/-! ## Physical presence (R421, R422) -/

def State.spRecord (s : State) (status : Nat) : State := s.record { status := status, source := Src.sp }

def State.present (s : State) : Bool := s.flag SEC_STATE.PRESENCE

/-- Every key slot with its data keys, and the fabric key. -/
def State.destroyKeys (s : State) : State :=
  let s1 := s.clearRegs .SEC_KSLOT fun _ => true
  let s2 : State := { s1 with sec := { s1.sec with slots := [], fabric := [], fabricTx := false } }
  (s2.setF SEC_STATE.FABRIC_KEY 0 0).countSlots.measureState

/-- An entry of the fuse map as a fuse image gives it. -/
def burnt (w : Word) : FuseEntry := ⟨field w 0 8, bit w 8, field w 16 48⟩

/-- A cold start of the running module on the feed that conducts. -/
def State.coldStart (s : State) : State :=
  s.powerOff.powerUp (s.getF FEED_STAT.COND) (s.getF TOP_PINS.SLOT_NOW) (s.flag TOP_PINS.PRESENCE)

/-- One step of an operation. -/
def State.presenceStep (s : State) : PresenceStep → State
  | .destroyKeys => s.destroyKeys
  | .abortJobs => s.boundJobs.foldl (fun (s : State) j => s.raiseAbort j Status.jobAbort 9) s
  | .setDebug => (s.setF SEC_STATE.DEBUG 0 1).measureState
  | .revoke b => ({ s with sec := { s.sec with revoked := s.sec.revoked ||| b } }).measureState
  | .versions sp rider =>
    let s1 : State := { s with sec := { s.sec with spSvn := s.sec.spSvn ||| sp, riderSvn := s.sec.riderSvn ||| rider } }
    (s1.setF SEC_STATE.SP_SVN 0 (ones s1.sec.spSvn)).setF SEC_STATE.RIDER_SVN 0 (ones s1.sec.riderSvn)
  | .fuse w =>
    if s.rst.fuseMap.contains (burnt w) then s else { s with rst := { s.rst with fuseMap := s.rst.fuseMap ++ [burnt w] } }
  | .recoveryBoot => ({ s with rider := { s.rider with recoveryNext := true } }).coldStart
  | .eraseAnchors => { s with sec := { s.sec with anchors := [] } }
  | .eraseTenants => { s with sec := { s.sec with tenantAnchors := [] } }
  | .clearMutual => (s.setF SEC_STATE.REQ_MUTUAL 0 0).measureState

/-- Take the next step of the operation in progress, if any. -/
def State.nextStep (s : State) : State :=
  match s.sec.presence with
  | [] => s
  | p :: rest => ({ s with sec := { s.sec with presence := rest } }).presenceStep p

/-- Begin an operation: its first step at once, unless another operation is still taking its steps. -/
def State.beginSteps (s : State) (l : List PresenceStep) : State :=
  let idle := s.sec.presence.isEmpty
  let s1 : State := { s with sec := { s.sec with presence := s.sec.presence ++ l } }
  if idle then s1.nextStep else s1

/-- A signature that a fused, unrevoked root made (R421, R423). -/
def State.rootSigned (s : State) (g : Signature) : Bool :=
  s.rootGood (sha384 (beBytes 48 g.qx.toNat ++ beBytes 48 g.qy.toNat)) &&
    ecdsaStatus g.digest.toNat g.r.toNat g.s.toNat g.qx.toNat g.qy.toNat == Status.ok

/-- The conditions of a debug unlock. -/
def State.mayUnlock (s : State) (k : UnlockToken) : Bool :=
  s.present && k.pid.toNat == Config.pid && s.rootSigned k.sig &&
    (s.sec.nonces.any fun e => e.1 == k.nonce.toNat && decide (s.clock < e.2 + 60_000_000_000)) &&
    !((upFrom 0 1024).any fun v => s.getF SEC_TDI.STATE v == 1 || s.getF SEC_TDI.STATE v == 2)

/-- Decide a debug unlock: its steps, or DENIED. -/
def State.decideUnlock (s : State) (k : UnlockToken) : State :=
  if s.mayUnlock k then s.beginSteps [.destroyKeys, .abortJobs, .setDebug] else s.spRecord Status.denied

/-- DEBUG_UNLOCK, which waits for the UNSEALs that run (R426). -/
def execDebugUnlock (token : UnlockToken) (s : State) : Host.Outcome State Fault Refusal :=
  .next (if s.sec.unsealing.isEmpty then s.decideUnlock token
    else if s.mayUnlock token then { s with sec := { s.sec with debugWait := some token } }
    else s.spRecord Status.denied)

def execFuseProgramming (image : FuseImage) (s : State) : Host.Outcome State Fault Refusal :=
  .next (if s.present && image.pid.toNat == Config.pid && s.rootSigned image.sig then
      s.beginSteps ([.revoke image.revoke, .versions image.spSvn image.riderSvn] ++ image.entries.map .fuse)
    else s.spRecord Status.denied)

def execForcedRecoveryBoot (session : BitVec 2) (s : State) : Host.Outcome State Fault Refusal :=
  .next (if s.present && s.operatorOn session.toNat then s.beginSteps [.recoveryBoot] else s.spRecord Status.denied)

def execCredentialReset (s : State) : Host.Outcome State Fault Refusal :=
  .next (if s.present then s.beginSteps [.eraseAnchors, .eraseTenants, .clearMutual] else s.spRecord Status.denied)

/-- PRESENCE_N deasserts: the operation in progress stops before its next step. -/
def execPresenceDeassert (s : State) : Host.Outcome State Fault Refusal :=
  let s1 := ((s.setF TOP_PINS.PRESENCE 0 0).setF SEC_STATE.PRESENCE 0 0).measureState
  .next (if !s.present then s
    else if s.sec.presence.isEmpty then s1
    else ({ s1 with sec := { s1.sec with presence := [] } }).spRecord Status.denied)

/-! ## TDISP and IDE (R416 to R418) -/

/-- TDISP codes, as in a vendor-defined message. -/
def Tdisp.lockResponse : Nat := 0x03
def Tdisp.report : Nat := 0x04
def Tdisp.started : Nat := 0x06
def Tdisp.stopped : Nat := 0x07
def Tdisp.error : Nat := 0x7F

/-- The DOE of a VF's port. -/
def vfDoe (v : Nat) : Transport := .doe (decide (v ≥ 512))

def State.tdispReply (s : State) (v code : Nat) (body : List Byte) : State := s.spdmReply (vfDoe v) Spdm.vendor (leBytes 1 code ++ body)

/-- A TDISP request about a VF that exists, in a secured session of its port's DOE. -/
def State.tdisp (s : State) (v : Nat) (session : Option (BitVec 8)) (f : State → State) : State :=
  s.inSession (vfDoe v) session fun s => if s.fnExists (v + 1) then f s else s.tdispReply v Tdisp.error []

/-- The partitions that a VF owns. -/
def State.vfParts (s : State) (v : Nat) : List Nat := (upFrom 0 16).filter fun p => s.owner p == v + 1

/-- A stream is bound to another TDI of the port (R418). -/
def State.streamTaken (s : State) (v stream : Nat) : Bool :=
  (upFrom (v / 512 * 512) 512).any fun u => u != v && s.flag SEC_TDI.STREAM_VALID u && s.getF SEC_TDI.STREAM u == stream

def execLockInterfaceRequest (vf : BitVec 10) (session : Option (BitVec 8)) (stream : Option (BitVec 8)) (s : State) :
    Host.Outcome State Fault Refusal :=
  let v := vf.toNat
  .next (s.tdisp v session fun s =>
    let taken := match stream with | some x => s.streamTaken v x.toNat | none => false
    if s.getF SEC_TDI.STATE v != 0 || !((s.vfParts v).all fun p => s.bound p) || taken then s.tdispReply v Tdisp.error []
    else
      let w := match stream with | some x => packW [(0, 2, 1), (2, 1, 1), (8, 8, x.toNat)] | none => packW [(0, 2, 1)]
      (s.setReg .SEC_TDI v w).tdispReply v Tdisp.lockResponse [])

/-- The VF's ranges (its register HIF_FN_A and the aperture's size), its partitions and their measurements. -/
def execGetDeviceInterfaceReport (vf : BitVec 10) (session : Option (BitVec 8)) (s : State) : Host.Outcome State Fault Refusal :=
  let v := vf.toNat
  .next (s.tdisp v session fun s =>
    s.tdispReply v Tdisp.report (leBytes 8 (s.reg .HIF_FN_A (v + 1)).toNat ++ leBytes 8 (s.apertureSize (v + 1)) ++
      (s.vfParts v).flatMap fun p => leBytes 1 p ++ beBytes 48 (s.measurement (0x10 + p)).toNat))

/-- TDI_RUN_REQUEST: a locked VF with a stream enters RUN. -/
def execTdiRunRequest (vf : BitVec 10) (session : Option (BitVec 8)) (s : State) : Host.Outcome State Fault Refusal :=
  let v := vf.toNat
  .next (s.tdisp v session fun s =>
    if s.getF SEC_TDI.STATE v = 1 ∧ s.flag SEC_TDI.STREAM_VALID v then (s.setF SEC_TDI.STATE v 2).tdispReply v Tdisp.started []
    else s.tdispReply v Tdisp.error [])

/-- STOP_INTERFACE_REQUEST: turned away while a partition of the VF is being reset or cleared after an error. -/
def execStopInterfaceRequest (vf : BitVec 10) (session : Option (BitVec 8)) (s : State) : Host.Outcome State Fault Refusal :=
  let v := vf.toNat
  .next (s.tdisp v session fun s =>
    if (s.vfParts v).any fun p => SMap.get false s.sec.clearing p then s.tdispReply v Tdisp.error []
    else (s.setReg .SEC_TDI v 0).tdispReply v Tdisp.stopped [])

/-- Entry to ERROR: aborts with INTEGRITY, then resets and clearing (R417). -/
def State.tdiError (s : State) (v : Nat) : State :=
  let ps := s.vfParts v
  let jobs := ((ps.filter fun p => s.bound p).map s.jobOf).eraseDups
  let s1 := jobs.foldl (fun (s : State) j => s.raiseAbort j Status.integrity 9) (s.setF SEC_TDI.STATE v 3)
  ps.foldl (fun (s : State) p => (s.startPartReset p Status.integrity none true).startClear p) s1

/-- A TLP outside the stream of a VF in RUN; in another state it is served as R416 says. -/
def execTdiTlpViolation (vf : BitVec 10) (s : State) : Host.Outcome State Fault Refusal :=
  let v := vf.toNat
  .next (if s.getF SEC_TDI.STATE v = 2 then (s.emit (.unsupported (v + 1))).tdiError v else s)

/-- IDE_KM: a port has one link stream and eight selective ones. -/
def execIdeKm (port : Bool) (session : Option (BitVec 8)) (stream : BitVec 8) (key : BitVec 256) (s : State) : Host.Outcome State Fault Refusal :=
  let k := b2n port * 256 + stream.toNat
  .next (s.inSession (.doe port) session fun s =>
    let used := (s.sec.ide.filter fun e => e.1 / 256 == b2n port).length
    if (SMap.find? s.sec.ide k).isNone && decide (used ≥ 9) then s.spdmError (.doe port) Spdm.invalidRequest
    else ({ s with sec := { s.sec with ide := SMap.insert s.sec.ide k key } }).spdmReply (.doe port) Spdm.vendor [])

/-! ## Management (R410, R419, R474) -/

/-- FABRIC_KEY_INSTALL by an OPERATOR session: a generation gets the key, its counters start at 0, and it is sent under from now on. -/
def execFabricKeyInstall (session : BitVec 2) (gen : Bool) (key : BitVec 256) (s : State) : Host.Outcome State Fault Refusal :=
  .next (if !(s.operatorOn session.toNat) then s
    else
      let s1 : State := { s with sec := { s.sec with fabric := SMap.insert s.sec.fabric (b2n gen) key, fabricTx := gen } }
      ((s1.newGen 0 gen).setF SEC_STATE.FABRIC_KEY 0 1).measureState)

/-- The role of a client: that of the anchor its certificate chains to; where there is no anchor and PRESENCE_N is asserted, that of the
anchor which its session installs. -/
def State.mgmtRole (s : State) (anchor : Option (BitVec 2)) (newAnchor : Option AnchorReq) : Option (Bool × List (Nat × Bool)) :=
  match s.sec.anchors, newAnchor, anchor with
  | [], some r, _ => if s.present then some (r.operator, [(r.slot.toNat, r.operator)]) else none
  | as, _, some a => (SMap.find? as a.toNat).map fun r => (r, as)
  | _, _, none => none

/-- MGMT_SESSION_OPEN: at most four sessions; whether a session asks for telemetry is open. -/
def execMgmtSessionOpen (anchor : Option (BitVec 2)) (newAnchor : Option AnchorReq) (s : State) : Host.Outcome State Fault Refusal :=
  .next (match (upFrom 0 4).find? fun i => (SMap.find? s.sec.mgmt i).isNone, s.mgmtRole anchor newAnchor with
    | some i, some (role, as) =>
      let f := s.fresh
      { f.2 with sec := { f.2.sec with anchors := as, mgmt := SMap.insert f.2.sec.mgmt i ⟨role, f.1 % 2 == 1⟩ } }
    | _, _ => s)

/-- The words of a management message (R343, R474). -/
def frameWord (m : List Byte) (i : Nat) : Nat := if i < m.length / 4 then leNat ((m.drop (4 * i)).take 4) else 0

/-- The opcodes that change nothing but a buffer of the sender's: an AUDITOR may send these and, of the update commands, the two that R477
names. -/
def auditorOpcode (op : Nat) : Bool := [0x01, 0x02, 0x22, 0x23, 0x33, 0x36, 0x49, 0x4A, 0x50, 0x52, 0x53].contains op

/-- The command of an opcode that is answered at once; PART_RESET and UPD_ACTIVATE have forms of their own. -/
def mgmtCmd (op : Nat) : Cmd :=
  match op with
  | 0x01 => fun _ w s => ((Status.ok, (upFrom 1 15).map w), s)
  | 0x02 => fun _ _ s =>
    ((Status.ok, [Config.pid % 2 ^ 32, natField Config.pid 32 16 + Config.variant * 2 ^ 16, s.getF UPD_BUILD.RUN]), s)
  | 0x10 => cmdPlace
  | 0x20 => cmdBind
  | 0x21 => cmdUnbind
  | 0x22 => cmdBindStatus
  | 0x23 => cmdKeyStatus
  | 0x24 => cmdKeyAdvance
  | 0x25 => cmdKeyDrop
  | 0x26 => cmdUnseal
  | 0x31 => cmdComputeReset
  | 0x32 => cmdAbort
  | 0x33 => cmdResetStatus
  | 0x34 => cmdRestore true
  | 0x35 => cmdTopoRecheck
  | 0x36 => cmdFmapRead
  | 0x40 => cmdUpdBegin
  | 0x41 => cmdUpdBlock
  | 0x42 => cmdUpdVerify
  | 0x44 => cmdUpdStatus
  | 0x45 => cmdUpdCancel
  | 0x46 => cmdSetRead
  | 0x47 => cmdSetReset
  | 0x48 => cmdConfirm
  | 0x49 => cmdDumpList
  | 0x4A => cmdDumpRead
  | 0x50 => cmdEnergy
  | 0x51 => cmdSnapshot
  | 0x52 => cmdPower
  | 0x53 => cmdCaps
  | _ => fun _ _ s => ((Status.badArg, []), s)

/-- A management message: with PF0's reach, an AUDITOR's only where it changes nothing. -/
def State.mgmtMessage (s : State) (n : Nat) (m : List Byte) : State :=
  let w := frameWord m
  let op := w 0 % 256
  let head := w 0 % 65536
  let dest := (1 + n, head)
  let extra := (m.drop 64).any fun b => b != 0
  if w 0 / 2 ^ 20 != 0 then s.answer dest Status.badHeader []
  else if !(knownOpcode op) then s.answer dest Status.badArg []
  else if !(s.operatorOn n) && !(auditorOpcode op) then s.answer dest Status.denied []
  else if extra && op != 0x01 then s.answer dest Status.badArg []
  else if op = 0x26 ∧ s.sec.debugWait.isSome then { s with sec := { s.sec with waitFrames := s.sec.waitFrames ++ [(n, m)] } }
  else if op = 0x30 then
    let p := natField (w 1) 0 4
    (match s.partRefusal Who.pf0 p w with
     | some st => s.answer dest st []
     | none => s.startPartReset p Status.ok (some dest) true)
  else if op = 0x43 then
    (if !(unusedZero w 3 2) then (s.updLast Status.badArg).answer dest Status.badArg []
     else match s.activateRefusal (w 1) with
       | some st => (s.updLast st).answer dest st []
       | none => s.activate (w 1) (some dest))
  else match mgmtCmd op Who.pf0 w s with
    | ((st, ws), s1) => s1.answer dest st ws

/-- MGMT_FRAME: a management message is carried out; the messages of PLDM and SPDM in a frame are the commands of their own rows. A frame of
another form is not taken, and one that comes in a pause waits for its end (R468). -/
def execMgmtFrame (session : BitVec 2) (frame : List Byte) (s : State) : Host.Outcome State Fault Refusal :=
  let n := session.toNat
  let len := leNat ((frame.drop 2).take 2)
  let good := decide (8 ≤ frame.length) && frame.getD 1 0 == 0 && len == frame.length - 4 && decide (len ≤ 16380)
  .next (if good && (SMap.find? s.sec.mgmt n).isSome && frame.getD 0 0 == 0x7E then
      if s.paused || !s.rider.frames.isEmpty then { s with rider := { s.rider with frames := s.rider.frames ++ [(n, frame.drop 4)] } }
      else s.riderFirst.mgmtMessage n (frame.drop 4)
    else s)

/-- The oldest frame that waited for the end of a pause is served, with each nanosecond one. -/
def State.takeFrame (s : State) : State :=
  match s.rider.frames with
  | [] => s
  | f :: rest => if s.paused then s else ({ s with rider := { s.rider with frames := rest } }).riderFirst.mgmtMessage f.1 f.2

/-! ## The end of an UNSEAL (R415, R426) -/

/-- The last UNSEAL has ended: a debug unlock that waits is decided, then the UNSEALs that waited for it are taken. -/
def State.unsealsOver (s : State) : State :=
  match s.sec.debugWait, s.sec.unsealing with
  | some k, [] =>
    let s1 := ({ s with sec := { s.sec with debugWait := none, waitFrames := [] } }).decideUnlock k
    s.sec.waitFrames.foldl (fun (s : State) f => s.mgmtMessage f.1 f.2) s1
  | _, _ => s

/-- UNSEAL_COMPLETE: the oldest of the partition's. -/
def execUnsealComplete (part : BitVec 4) (s : State) : Host.Outcome State Fault Refusal :=
  .next (match s.sec.unsealing.findIdx? fun u => u.part == part.toNat with
    | none => s
    | some i =>
      match s.sec.unsealing[i]? with
      | some u => (({ s with sec := { s.sec with unsealing := removeAt s.sec.unsealing i } }).finishUnseal u).unsealsOver
      | none => s)

end Sys2Proof.Machine
end

