-- ==== Sys2Proof/Machine/Edge.lean ====
section
/-!
DEFINITION. Machine/Edge.lean: the I3C target (R377, R394, R473), MOD_RST_N (R483, R491), the slot straps (R482) and the IEEE 1149.1 port
(R485).
-/
namespace Sys2Proof.Machine

/-! ## I3C (R473) -/

def execI3cEntdaa (addr : BitVec 7) (s : State) : Host.Outcome State Fault Refusal :=
  .next { s with edge := { s.edge with i3c := some addr.toNat } }

def execI3cRstdaa (s : State) : Host.Outcome State Fault Refusal := .next { s with edge := { s.edge with i3c := none } }

/-- A write of register 0x04: BOARD_W, checked under R377. -/
def execI3cBoardW (watts : BitVec 16) (s : State) : Host.Outcome State Fault Refusal :=
  .next (if s.edge.i3c.isNone then s
    else if capValid watts.toNat then s.setF PWC_CAP.BOARD_W 0 watts.toNat
    else s.pwcRecord Status.badArg)

/-- A write of register 0x05: an energy snapshot. -/
def execI3cSnapshot (s : State) : Host.Outcome State Fault Refusal :=
  .next (if s.edge.i3c.isNone then s else s.takeSnapshot s.time true s.counters)

/-! ## MOD_RST_N (R483, R491) -/

/-- The power-off of R483: aborts with OFFLINE, a crash dump, both feed paths open, the bus bled. -/
def State.modOff (s : State) : State :=
  let off := s.edge.off
  let s1 := s.boundJobs.foldl (fun (s : State) j => s.riderAbort j Status.offline) s
  let s2 := (s1.crashDump false).powerOff
  { s2 with edge := { off := off } }

/-- A low level of 1 ms or more asks for a power-off, which waits for a feed hold to end. -/
def execModRstAssert (lowNs : BitVec 64) (s : State) : Host.Outcome State Fault Refusal :=
  let s1 : State := { s with edge := { s.edge with off := true } }
  .next (if lowNs.toNat < 1_000_000 then s
    else if s.rst.busUp.isNone then s1
    else if s.held then { s1 with edge := { s1.edge with offDue := true } }
    else s1.modOff)

/-- The feed a start closes its path to: the preferred one in spec. -/
def State.startFeed (s : State) : Option Nat :=
  if s.flag FEED_STAT.A_OK then some 0 else if s.flag FEED_STAT.B_OK then some 1 else none

/-- MOD_RST_N rises: a module that is off cold-starts; where the power-off has still to come, it completes and the next bus rise starts it. -/
def execModRstRelease (s : State) : Host.Outcome State Fault Refusal :=
  let s1 : State := { s with edge := { s.edge with off := false } }
  .next (if !s.edge.off then s
    else if s.rst.busUp.isSome then s1
    else match s1.startFeed with
      | some f => s1.powerUp f (s1.getF TOP_PINS.SLOT_NOW) (s1.flag TOP_PINS.PRESENCE)
      | none => s1)

/-! ## Straps (R482) -/

/-- A change on SLOT_ID: once the rider has latched them, SLOT_MOVED and a record. -/
def execSlotIdChange (straps : BitVec 6) (s : State) : Host.Outcome State Fault Refusal :=
  let s1 := s.setF TOP_PINS.SLOT_NOW 0 straps.toNat
  .next (if straps.toNat = s.getF TOP_PINS.SLOT_NOW then s
    else if s.rst.riderUp then (s1.setF TOP_PINS.SLOT_MOVED 0 1).record { status := Status.integrity, source := Src.rider }
    else s1)

/-! ## IEEE 1149.1 (R485) -/

/-- The IDCODE of the module's stepping. -/
def State.idcode (s : State) : Nat := s.getF SEC_ID.STEP % 16 * 2 ^ 28 + 0x7141 * 2 ^ 12 + 0x2A9 * 2 + 1

/-- BYPASS shifts a 0 through, IDCODE its value; SAMPLE/PRELOAD and EXTEST scan a boundary register whose contents the spec does not give,
while PRESENCE_N is asserted and nothing is bound; what another instruction does after a debug unlock the spec does not say, and it changes
nothing here. -/
def execJtagInstruction (op : JtagOp) (s : State) : Host.Outcome State Fault Refusal :=
  let scan := let f := s.fresh; f.2.emit (.jtag f.1)
  .next (match op with
    | .bypass => s.emit (.jtag 0)
    | .idcode => s.emit (.jtag s.idcode)
    | .samplePreload => if s.present && !s.anyBound then scan else s
    | .extest => if s.present && !s.anyBound then scan else s
    | .other _ => s)

end Sys2Proof.Machine
end

