-- ==== Sys2Proof/Machine/Matrix.lean ====
section
/-!
DEFINITION. Machine/Matrix.lean: the rows of the matrix engine (R120 to R130).
-/
namespace Sys2Proof.Machine

def execMxZero (core : CoreId) (s : State) : Host.Outcome State Fault Refusal :=
  .next (s.runHead core.toNat .matrix (fun q => q.func == 0x00) (mxZeroRun core.toNat))

def execMxMac (core : CoreId) (s : State) : Host.Outcome State Fault Refusal :=
  .next (s.runHead core.toNat .matrix (fun q => q.func == 0x01) (mxMacRun core.toNat))

def execMxOut (core : CoreId) (s : State) : Host.Outcome State Fault Refusal :=
  .next (s.runHead core.toNat .matrix (fun q => q.func == 0x02) (mxOutRun core.toNat))

def execMxStore (core : CoreId) (s : State) : Host.Outcome State Fault Refusal :=
  .next (s.runHead core.toNat .matrix (fun q => q.func == 0x03) (mxStoreRun core.toNat))

def execMxAddw (core : CoreId) (s : State) : Host.Outcome State Fault Refusal :=
  .next (s.runHead core.toNat .matrix (fun q => q.func == 0x04) (mxAddwRun core.toNat))

def execMxBias (core : CoreId) (s : State) : Host.Outcome State Fault Refusal :=
  .next (s.runHead core.toNat .matrix (fun q => q.func == 0x05) (mxBiasRun core.toNat))

def execMxFlags (core : CoreId) (s : State) : Host.Outcome State Fault Refusal :=
  .next (s.runHead core.toNat .matrix (fun q => q.func == 0x06) (mxFlagsRun core.toNat))

end Sys2Proof.Machine
end

