-- ==== Sys2Proof/Machine/Time.lean ====
section
/-!
DEFINITION. Machine/Time.lean: the passing of gauge time (R31, R32, R50), the time exchange and the choice of root and parent (R33 to R38,
R47, R253), course boundaries and lag reports (R39, R40, R48, R49) and the change of course length (R45).
-/
namespace Sys2Proof.Machine

/-! ## The gauge runs (R31, R32, R50) -/

/-- The gauge takes a value that does not follow from its last one: STEPPED is set, and the course it falls in begins anew. -/
def State.stepGauge (s : State) (v : Word) : State :=
  let s1 := ({ s with gauge := { s.gauge with now := v } }).setF GAUGE_STAT.STEPPED 0 1
  { s1 with course := { s1.course with last := s1.courseNo } }

/-- By how much the gauge advances with a nanosecond of the local reference, and what the rate correction has gathered then: one, or one
more or less where the correction has made up a nanosecond (R35). -/
def GaugeSt.pace (g : GaugeSt) : Nat × Int :=
  let x := g.slew + g.rate
  if 1_000_000_000 ≤ x then (2, x - 1_000_000_000) else if x ≤ -1_000_000_000 then (0, x + 1_000_000_000) else (1, x)

/-- The gauge runs on, and sets WRAPPED where it wraps (R31, R35, R50). -/
def State.runGauge (s : State) : State :=
  let p := s.gauge.pace
  let s1 : State := { s with gauge := { s.gauge with now := s.gauge.now + BitVec.ofNat 64 p.1, slew := p.2 } }
  if 2 ^ 64 ≤ s.time + p.1 then s1.setF GAUGE_STAT.WRAPPED 0 1 else s1

/-- One nanosecond: a load of GAUGE_SET takes effect, or the gauge runs on. A load that meets a partition bound since is refused as R32 refuses
one then, for the gauge never runs backwards under a job (R31): DESIGN CHOICE, log entry 14. -/
def State.advanceGauge (s : State) : State :=
  match s.gauge.load with
  | some v =>
    let s1 : State := { s with gauge := { s.gauge with load := none } }
    if s.anyBound then s1.runGauge.refuseWrite Status.denied Src.module else s1.stepGauge v
  | none => s.runGauge

def execGaugeWrap (s : State) : Host.Outcome State Fault Refusal :=
  .next (if 2 ^ 64 ≤ s.time + s.gauge.pace.1 then { s.advanceGauge with clock := s.clock + 1 } else s)

/-! ## The time exchange (R34, R253) -/

/-- A stamp now, in 1/16 ns: the fraction is an open value. -/
def State.stamp (s : State) : Word × State :=
  let f := s.fresh
  (BitVec.ofNat 64 (s.time * 16 + f.1 % 16), f.2)

/-- The strand that a link's time exchange runs on: the lowest-numbered ACTIVE one. -/
def State.timeStrand (s : State) (l : Nat) : Option Nat := if isLink l then (s.activeDies l).head? else none

/-- The fields of a time message that tell of the sender. -/
def State.timeMsg (s : State) (d l reqId : Nat) (t1 t2 t3 : Word) : TimeMsg :=
  let x := s.strand d l
  { k := BitVec.ofNat 5 s.k, epoch := s.epoch, gstate := BitVec.ofNat 3 s.gstate, hops := BitVec.ofNat 8 (s.getF GAUGE_STAT.HOPS),
    rootEpn := BitVec.ofNat 16 (s.getF GAUGE_STAT.ROOT_EPN), reqId := BitVec.ofNat 16 reqId, t1 := t1, t2 := t2, t3 := t3,
    txDly := BitVec.ofNat 32 x.txDly, rxDly := BitVec.ofNat 32 x.rxDly }

/-- Every 65,536 ns a link sends a request. Its REQ_ID is the low half of t1's low word. -/
def execTimeExchangeTick (link : Link) (s : State) : Host.Outcome State Fault Refusal :=
  let l := link.toNat
  let x := s.linkTime l
  let due := match x.asked with | some t => decide (t + 65536 ≤ s.clock) | none => true
  .next (match s.timeStrand l with
    | some d =>
      if !(s.flag GAUGE_CTL.SYNC_EN) || !due then s
      else
        let t := s.stamp
        let s1 := t.2.setLinkTime l { x with asked := some s.clock, sent := some t.1.toNat }
        s1.linkSend d l (timeBody 0x04 (s1.timeMsg d l (t.1.toNat % 65536) t.1 0 0))
    | none => s)

/-- A request is answered: t2 is its arrival, t3 the reply's departure, an open time later. -/
def execTimeReq (link : Link) (m : TimeMsg) (s : State) : Host.Outcome State Fault Refusal :=
  let l := link.toNat
  .next (match s.timeStrand l with
    | some d =>
      if !(s.flag GAUGE_CTL.SYNC_EN) then s
      else
        let t2 := s.stamp
        let w := t2.2.fresh
        w.2.linkSend d l (timeBody 0x05 (w.2.timeMsg d l m.reqId.toNat m.t1 t2.1 (t2.1 + BitVec.ofNat 64 w.1)))
    | none => s)

/-- The wrapped difference of two stamps, signed. -/
def stampDiff (a b : Word) : Int := (a - b).toInt

/-- The offset of R34, in 1/16 ns: positive where the peer is ahead. -/
def timeOffset (m : TimeMsg) (t4 : Word) : Int := (stampDiff m.t2 m.t1 - stampDiff t4 m.t3) / 2

/-- The delay of R34 in ns, its asym that of R253, saturating at 16 bits. -/
def State.timeDelay (s : State) (d l : Nat) (m : TimeMsg) (t4 : Word) : Nat :=
  let x := s.strand d l
  let asym : Int := ((x.txDly + m.rxDly.toNat + m.txDly.toNat + x.rxDly : Nat) : Int) / 2
  min 65535 (((stampDiff m.t2 m.t1 + stampDiff t4 m.t3) / 2 - asym) / 16).toNat

/-! ## Root and parent (R33, R37, R437) -/

def Offer.less (a b : Offer) : Bool :=
  decide (a.root < b.root) || (a.root == b.root && (decide (a.hops < b.hops) || (a.hops == b.hops && decide (a.epn < b.epn))))

/-- What the verified links offer, and the module itself where it is eligible. A module without an EPN (0xFFFF, "none") does not offer itself:
DESIGN CHOICE, log entry 14. -/
def State.offers (s : State) : List Offer :=
  s.linkOffers ++ if s.flag GAUGE_CTL.ROOT_ELIG && s.epn != 0xFFFF then [⟨0xFF, s.epn, 0, s.epn⟩] else []

/-- The smallest offer. -/
def bestOffer : List Offer → Option Offer
  | [] => none
  | o :: os => match bestOffer os with | none => some o | some b => if b.less o then some b else some o

/-- The module is its own root: it keeps its gauge as it stands, and shows LOCKED at once, for it has no parent to exchange with (DESIGN CHOICE,
log entry 14). -/
def State.becomeRoot (s : State) : State :=
  let s1 := s.setParent 0xFF 0 s.epn true
  if s1.gstate = GS.out then s1
  else { s1.setG GS.locked with gauge := { s1.gauge with holdover := none, bad := 0 } }

/-- Step to the parent's gauge, by an offset in 1/16 ns, and acquire. -/
def State.stepTo (s : State) (offset : Int) : State :=
  let v := BitVec.ofInt 64 ((s.time : Int) + (offset + 8) / 16)
  let s1 := ((s.stepGauge v).setG GS.acquiring).setF GAUGE_STAT.OFFSET 0 (codeOf 16 (max (-32768) (min 32767 offset)))
  { s1 with gauge := { s1.gauge with good := 0, bad := 0 } }

/-- A parent is taken: a module with no agreed time, or one with no partition bound that finds a smaller root, steps to it. -/
def State.takeParent (s : State) (o : Offer) (offset : Int) : State :=
  let newLink := s.getF GAUGE_STAT.PARENT_LINK != o.link
  let newRoot := s.getF GAUGE_STAT.ROOT_EPN != o.root
  let s1 := s.setParent o.link (min 255 (o.hops + 1)) o.root false
  let begins := s.gstate = GS.free || (s.gstate = GS.acquiring && newLink)
  let merges := s.gstate = GS.locked && newRoot && decide (o.root < s.getF GAUGE_STAT.ROOT_EPN)
  if (begins || merges) && !s.anyBound then s1.stepTo offset else s1

/-- The choice is made again after an exchange on a link. -/
def State.elect (s : State) (l : Nat) (offset : Int) : State :=
  match bestOffer s.offers with
  | none =>
    if s.gstate = GS.locked then (s.setParent 0xFF 0 0xFFFF false).holdOver
    else if s.gstate = GS.acquiring then s.goFree
    else s
  | some o => if o.link = 0xFF then s.becomeRoot else if o.link = l then s.takeParent o offset else s

/-- The exchange with the parent steers the gauge: its rate follows the offset by an open amount within 20 ppm; what 16 good or 4 bad
exchanges in a row bring is R37's. HOLDOVER, and its 250 ms, last until 16 good exchanges with the regained parent: DESIGN CHOICE, log entry
14, since the table gives no other way back to LOCKED. -/
def State.steer (s : State) (offset : Int) : State :=
  let f := s.fresh
  let small := decide (-80 ≤ offset) && decide (offset ≤ 80)
  let large := decide (offset < -4000) || decide (4000 < offset)
  let g := f.2.gauge
  let s1 : State := { f.2 with gauge := { g with
    rate := (f.1 % 40_001 : Nat) - 20_000, good := if small then g.good + 1 else 0, bad := if large then g.bad + 1 else 0 } }
  let s2 := s1.setF GAUGE_STAT.OFFSET 0 (codeOf 16 (max (-32768) (min 32767 offset)))
  if s2.gauge.bad ≥ 4 ∧ s2.gstate ≠ GS.out then s2.gaugeOut
  else if s2.gauge.good ≥ 16 ∧ (s2.gstate = GS.acquiring ∨ s2.gstate = GS.holdover) then
    { s2.setG GS.locked with gauge := { s2.gauge with holdover := none } }
  else s2

/-! ## Checks on each exchange (R38, R47) -/

/-- The jobs whose route set uses a link. -/
def State.jobsOn (s : State) (l : Nat) : List Nat :=
  ((upFrom 0 16).filter fun i => s.flag RTE_RSET_A.VALID i && (s.sliceLinks i).any (· == l)).map fun i => s.getF RTE_RSET_A.JOB i

/-- A peer's k or epoch that differs on two exchanges in a row stops SCHED traffic on the link and aborts the jobs that use it, whichever of the
two has switched (R47). The traffic resumes at the first exchange that agrees: DESIGN CHOICE, log entry 14. -/
def State.checkCourse (s : State) (l : Nat) (m : TimeMsg) : State :=
  let x := s.linkTime l
  if m.k.toNat = s.k ∧ m.epoch = s.epoch then s.setLinkTime l { x with differ := 0, stopped := false }
  else
    let n := x.differ + 1
    let s1 := s.setLinkTime l { x with differ := n, stopped := x.stopped || decide (n ≥ 2) }
    if n = 2 then (s1.jobsOn l).foldl (fun (s : State) j => s.raiseAbort j Status.jobAbort 5) s1 else s1

/-- An offset beyond 40 ns with a peer that is not the parent, in any state (R38); a module that has stopped already does not stop again. -/
def State.checkPair (s : State) (l : Nat) (offset : Int) : State :=
  if s.getF GAUGE_STAT.PARENT_LINK ≠ l ∧ (offset < -640 ∨ 640 < offset) ∧ ¬ s.gauge.stopped then
    s.loseTime
  else s

/-- A reply: it must be that of the request that is out. -/
def execTimeRsp (link : Link) (m : TimeMsg) (t4 : Word) (s : State) : Host.Outcome State Fault Refusal :=
  let l := link.toNat
  let x := s.linkTime l
  .next (match s.timeStrand l with
    | some d =>
      if !(s.flag GAUGE_CTL.SYNC_EN) || x.sent != some m.t1.toNat || m.reqId.toNat != m.t1.toNat % 65536 then s
      else
        let offset := timeOffset m t4
        let delay := s.timeDelay d l m t4
        let v : TimeView := ⟨m.rootEpn.toNat, m.hops.toNat, s.peerOf l, m.k.toNat, m.epoch⟩
        let s1 := (s.setLinkTime l { x with sent := none, view := some v, offset := offset, delay := delay }).setSF SLU_STR_STAT.FLIGHT d l delay
        let s2 := (s1.checkCourse l m).elect l offset
        if s2.getF GAUGE_STAT.PARENT_LINK = l then
          (if s2.gauge.now = s1.gauge.now then s2.steer offset else s2)
        else s2.checkPair l offset
    | none => s)

/-- 250 ms in HOLDOVER (R37). -/
def execHoldoverExpiry (s : State) : Host.Outcome State Fault Refusal :=
  .next (match s.gauge.holdover with
    | some t => if s.gstate = GS.holdover ∧ t + 250_000_000 ≤ s.clock then s.gaugeOut else s
    | none => s)

/-- A module that gave up its time acquires again once nothing is bound; it may step (R38). -/
def execGaugeReacquire (step : Option Word) (s : State) : Host.Outcome State Fault Refusal :=
  .next (if s.anyBound || !(s.gstate == GS.out || s.gauge.stopped) then s
    else
      let s1 := (s.setG GS.acquiring).setParent 0xFF 0 0xFFFF false
      let s2 : State := { s1 with gauge := { s1.gauge with stopped := false, good := 0, bad := 0, holdover := none } }
      match step with
      | some v => s2.stepGauge v
      | none => s2)

/-! ## Course boundaries (R39, R40, R277, R48) -/

/-- A scheduled packet's transfer course has ended (R277), as `le` says of course numbers. -/
def TxPkt.overrun (t : TxPkt) (le : Nat → Bool) : Bool := t.sched.isSome && le t.course

/-- A packet that falls into dynamic capacity. -/
def TxPkt.dynamic (t : TxPkt) (le : Nat → Bool) : TxPkt := if t.overrun le then { t with sched := none } else t

/-- The overruns of a strand at the end of a course: its waiting and begun packets, with the flits not yet sent. -/
def State.strandOverruns (s : State) (course key : Nat) : State :=
  let le := fun c => s.courseLe c course
  let d := key / 32
  let l := key % 32
  let x := s.strand d l
  let late := (x.tx.flatMap fun (q : Nat × List TxPkt) => (q.2.filter fun t => t.overrun le).map fun t => (Pkt.job t.pkt, flitsOf (48 + Pkt.payloadLen t.pkt))) ++
    (x.cur.filter fun (c : Nat × TxCur) => c.2.of.overrun le).map fun (c : Nat × TxCur) => (Pkt.job c.2.of.pkt, flitsOf c.2.rest.length)
  if late.isEmpty then s
  else
    let s1 := s.setStrand d l { x with
      tx := SMap.mapV [] (fun q => q.map fun t => t.dynamic le) x.tx
      cur := x.cur.map fun (c : Nat × TxCur) => (c.1, { c.2 with of := c.2.of.dynamic le }) }
    late.foldl (fun (s : State) (e : Nat × Nat) => s.addLag d e.1 1 l 0 e.2) s1

/-- The same of the packets that wait for a path (R272): the die charged is the lowest of the entry's strands (DESIGN CHOICE, log entry 16). -/
def State.waitOverruns (s : State) (course : Nat) : State :=
  let le := fun c => s.courseLe c course
  let late := s.route.waiting.filter fun t => t.overrun le
  late.foldl (fun (s : State) (t : TxPkt) =>
      let id := t.sched.getD 0
      let l := s.getF RTE_SCHED_A.LINK id
      s.addLag ((s.schedStrands id (diesOf l)).headD 0) (Pkt.job t.pkt) 1 l 0 (flitsOf (48 + Pkt.payloadLen t.pkt)))
    { s with route := { s.route with waiting := s.route.waiting.map fun t => t.dynamic le } }

/-- The scheduled transfers that the ended course leaves unfinished. -/
def State.overruns (s : State) (course : Nat) : State :=
  ((s.link.strands.map fun (e : Nat × Strand) => e.1).foldl (fun (s : State) key => s.strandOverruns course key) s).waitOverruns course

/-- The flits of a scheduled packet that has begun to arrive on a strand and is not whole: data expected in the course that has not arrived by
its boundary (kind INPUT_LATE: DEDUCED, log entry 15). -/
def inputLate (rx : List Byte) : Option (Nat × Nat) :=
  if rx.length < 32 then none
  else
    let p : Packet := { w0 := BitVec.ofNat 64 (leNat (rx.take 8)), w1 := 0, w2 := BitVec.ofNat 64 (leNat ((rx.drop 16).take 8)),
                        w3 := BitVec.ofNat 64 (leNat ((rx.drop 24).take 8)), payload := [], tag := 0 }
    some (Pkt.job p, flitsOf (48 + Pkt.payloadLen p) - flitsOf rx.length)

/-- The scheduled input that the ended course leaves unfinished, by strand and SCHED VL. -/
def State.inputsLate (s : State) : State :=
  (s.link.strands.flatMap fun (e : Nat × Strand) => (e.2.rx.filter fun (q : Nat × List Byte) => q.1 / 2 == 1).filterMap fun (q : Nat × List Byte) =>
      (inputLate q.2).map fun x => (e.1, x)).foldl
    (fun (s : State) (x : Nat × Nat × Nat) => s.addLag (x.1 / 32) x.2.1 3 (x.1 % 32) 0 x.2.2) s

/-- A lag report (the table "Lag report layout"). -/
def lagReport (course k : Nat) (e : LagEvent) : BitVec 128 :=
  let w := packW [(0, 48, course), (48, 16, e.job)]
  let hi := packW [(0, 8, e.kind), (8, 8, e.link), (16, 4, e.slate), (20, 4, k - 10), (24, 16, satTo 16 e.amount), (40, 16, satTo 16 e.count)]
  BitVec.ofNat 128 (w.toNat + hi.toNat * 2 ^ 64)

/-- Queue a report for the host, or count it lost. -/
def State.pushLag (s : State) (r : BitVec 128) : State :=
  if s.course.lagFifo.length ≥ 64 then s.bump CRS_LAG_STAT.LOST
  else { s with course := { s.course with lagFifo := s.course.lagFifo ++ [r] } }

/-- A report reaches the PWC: the events that name a slate count toward its lag (R384). -/
def State.pwcLag (s : State) (e : LagEvent) : State :=
  if e.kind = 2 ∨ e.kind = 4 then
    { s with power := { s.power with lags := SMap.put 0 s.power.lags e.slate (SMap.get 0 s.power.lags e.slate + e.count) } }
  else s

/-- The reports of the course that ended. -/
def State.reportLags (s : State) (course : Nat) : State :=
  let evs := s.course.lagEvents
  let s1 : State := { s with course := { s.course with lagEvents := [] } }
  evs.foldl (fun (s : State) e => (s.pushLag (lagReport course s.k e)).pwcLag e) s1

/-- Running tasks and DMA commands, trigger slots and the control interval count a boundary (R40). -/
def Core.countCourse (c : Core) : Core :=
  { c with
    task := c.task.map fun t => { t with courses := t.courses + 1 }
    drun := c.drun.map fun d => if d.posted then d else { d with counted := d.counted + 1 } }

def State.countCourses (s : State) : State :=
  let slots := SMap.mapV {} (fun (x : SlotSt) => x) (s.coll.slots.map fun (e : Nat × SlotSt) =>
    let st := s.getF COL_TRG_STAT.STATE e.1
    if st = TS.handshake ∨ st = TS.launched then (e.1, { e.2 with courses := e.2.courses + 1 }) else e)
  let waiting := (s.liveSlots.filter fun n => SMap.find? slots n == none &&
    (s.getF COL_TRG_STAT.STATE n == TS.handshake || s.getF COL_TRG_STAT.STATE n == TS.launched))
  let slots1 := waiting.foldl (fun (m : SMap SlotSt) n => SMap.insert m n { courses := 1 }) slots
  { s with
    core := { s.core with cores := SMap.mapV {} Core.countCourse s.core.cores }
    coll := { s.coll with slots := slots1 }
    power := { s.power with courses := s.power.courses + 1 } }

/-- A course has ended and the next begins. -/
def State.endCourse (s : State) : State :=
  let ended := s.course.last
  let s1 := (((s.overruns ended).inputsLate).reportLags ended).countCourses
  { s1 with course := { s1.course with last := (ended + 1) % 2 ^ (64 - s.k) }
            store := { s1.store with once := [] } }

/-- COURSE_BOUNDARY: the earliest boundary that has come and has not been taken. -/
def execCourseBoundary (s : State) : Host.Outcome State Fault Refusal := .next (if s.course.last = s.courseNo then s else s.endCourse)

/-! ## The change of course length (R45) -/

/-- A job in its abort window at a switch: every packet is dropped until the later of the window's end and 257 new courses (R455). -/
def AbortWin.atSwitch (w : AbortWin) (now k : Nat) : AbortWin :=
  let e := gaugeMax w.winEnd ((now + 257 * 2 ^ k) % 2 ^ 64)
  { w with all := true, winEnd := e, fenceEnd := e, ended := false }

/-- What a switch does at once. -/
def State.switchCourse (s : State) : State :=
  let at_ := s.getF CRS_CHG_AT.AT
  let kn := s.getF CRS_CHG.K_NEXT
  let s1 := ((((s.setF CRS_CHG.K_PREV 0 s.k).setF TOP_MSIZE.COURSE_K 0 kn).setF CRS_CHG.EPOCH 0 (1 - s.getF CRS_CHG.EPOCH)).setF CRS_CHG.ARM 0 0)
  let s2 := s1.toggleBank at_
  let s3 : State := { s2 with
    course := { s2.course with prevSwitch := some at_, oldStale := false, last := s2.courseNo }
    rst := { s2.rst with aborts := s2.rst.aborts.map fun (e : Nat × AbortWin) => (e.1, e.2.atSwitch s2.time kn) } }
  (s3.rst.aborts.map fun (e : Nat × AbortWin) => e.1).foldl (fun (s : State) j => s.showAbort j) s3

/-- The switch time has come: a boundary that is due at the old length is taken first. -/
def execCourseLengthSwitch (s : State) : Host.Outcome State Fault Refusal :=
  .next (if s.flag CRS_CHG.ARM && decide (s.getF CRS_CHG_AT.AT ≤ s.time) then
      (if s.course.last = s.courseNo then s else s.endCourse).switchCourse
    else s)

/-- 256 courses of the previous length after a switch, every stamp of the previous epoch is stale. -/
def execOldEpochExpiry (s : State) : Host.Outcome State Fault Refusal :=
  .next (match s.course.prevSwitch with
    | some t =>
      if s.reached (t + 256 * 2 ^ s.getF CRS_CHG.K_PREV) then { s with course := { s.course with oldStale := true } } else s
    | none => s)

/-! ## The lag report FIFO (R49) -/

/-- A read of CRS_LAG_HI pops the oldest report. -/
def State.popLag (s : State) (who : Nat) : State :=
  s.byManager who Src.module fun s => { s with course := { s.course with lagFifo := s.course.lagFifo.drop 1 } }

def execLagFifoPop (who : Ident) (s : State) : Host.Outcome State Fault Refusal := .next (s.popLag who.toNat)

end Sys2Proof.Machine
end

