-- ==== Sys2Proof/Machine/Tick.lean ====
section
/-!
DEFINITION. Machine/Tick.lean: what the passing of a nanosecond does of itself (R31), besides the events that are commands.
-/
namespace Sys2Proof.Machine

/-- A power-off that waited for a feed hold follows its end (R491). -/
def State.offAfterHold (s : State) : State := if s.edge.offDue && !s.held then s.modOff else s

/-- A nanosecond passes: the gauge advances, a closing feed path conducts, an operation under physical presence takes its next step, a
power-off that waited is carried out, an activation pause that is over ends, a frame that waited through it is served, links that have
returned are judged. -/
def State.tick (s : State) : State :=
  let s1 := ({ s with clock := s.clock + 1 }).advanceGauge
  let s2 := (s1.closePath.nextStep).offAfterHold.endPause.takeFrame
  if s2.rst.rejudge.isEmpty then s2 else s2.rejudge

end Sys2Proof.Machine
end

