-- ==== Sys2Proof/Machine/RegWrite.lean ====
section
/-!
DEFINITION. Machine/RegWrite.lean: what a write of any register of control space does (R5, R6, R492), TOP_MSIZE (R9 to R11), and what a read
of a register shows and clears.
-/
namespace Sys2Proof.Machine

/-! ## TOP_MSIZE (R10, R11) -/

/-- The conditions of R10 on a value. -/
def msizeGood (val : Word) : Bool :=
  let racks := field val 0 8
  let planes := field val 24 5
  if racks = 0 then planes == 0 else decide (1 ≤ planes) && decide (planes ≤ 16)

/-- A write of TOP_MSIZE: locked while any partition is bound (R11), then the conditions of R10. The rules name Ibtum alone as its writer; PF0, PF1
and the rider may write it, and any other identity's write is DENIED: DESIGN CHOICE, log entry 10. -/
def State.writeMsize (s : State) (who : Nat) (val : Word) : State :=
  s.byManager who Src.module fun s =>
    if s.anyBound then s.writeWord .TOP_MSIZE 0 val (Reg.mask .TOP_MSIZE 0 .rwl) Src.module
    else if msizeGood val then s.writeWord .TOP_MSIZE 0 val 0 Src.module
    else s.refuseWrite Status.badArg Src.module

def execTopMsizeWrite (who : Ident) (val : Word) (s : State) : Host.Outcome State Fault Refusal := .next (s.writeMsize who.toNat val)

/-! ## Registers with a rule of their own -/

/-- A write by PF0 or PF1; any other identity's is refused. -/
def State.byPF (s : State) (who src : Nat) (f : State → State) : State := if Who.isPF who then f s else s.refuseWrite Status.denied src

/-- TOP_CGRANT: a partition's windows lock while it is bound (R157). -/
def State.writeGrant (s : State) (who i : Nat) (val : Word) : State :=
  s.byPF who Src.module fun s =>
    s.writeWord .TOP_CGRANT i val (if s.bound (i / 4) then Reg.mask .TOP_CGRANT 0 .rwl else 0) Src.module

/-- RST_ESC: HOST_RESTORE is the rider's (R453). -/
def State.writeEsc (s : State) (who : Nat) (val : Word) : State :=
  s.byManager who Src.rider fun s => s.setReg .RST_ESC 0 (Reg.written .RST_ESC 0 (s.reg .RST_ESC)
    (if Who.isRider who then val else BitVec.ofNat 64 (natSetField val.toNat 40 1 (s.getF RST_ESC.HOST_RESTORE))) 0) |> fun s1 =>
      if !(Who.isRider who) && bit val 40 != s.flag RST_ESC.HOST_RESTORE then s1.refuseWrite Status.denied Src.rider else s1

/-- A staging word of a channel page, of 32 bits (R338). -/
def State.writeStaging (s : State) (who c i : Nat) (val : Word) : State :=
  s.byChan who c fun s =>
    let x := s.chan c
    s.setChan c { x with staging := SMap.put 0 x.staging i (BitVec.ofNat 32 (field val 0 32)) }

/-- ECC_RAW_DATA is written like ECC_RAW_CTL (R365). -/
def State.writeRawData (s : State) (who i : Nat) (val : Word) : State := s.byManager who Src.module fun s => s.setReg .ECC_RAW_DATA i val

/-- A channel's timer (R342). -/
def State.writeMbxTmo (s : State) (who c : Nat) (val : Word) : State :=
  s.byChan who c fun s => s.writeWord .MBX_TMO c val 0 (s.chanSrc c)

/-! ## The register map -/

/-- A write of a word of a register: the register and the word's index. -/
def State.regWrite (s : State) (who off : Nat) (val : Word) (r : Reg) (i : Nat) : State :=
  match r with
  | .TOP_MSIZE => s.writeMsize who val
  | .GAUGE_SET => s.writeGaugeSet who val
  | .GAUGE_CTL => s.writeGaugeCtl who val
  | .CRS_CHG => s.writeCrsChg who val
  | .CRS_CHG_AT => s.writeCrsAt who val
  | .TOP_CIL => s.writeCil who val
  | .TOP_CGRANT => s.writeGrant who i val
  | .TOP_AWIN => s.writeAwin who (i / 8) (i % 8) val
  | .TSK_DMA_TMO | .TSK_SORD | .TSK_TASK_TMO => s.byPF who Src.module fun s => s.writeWord r i val 0 Src.module
  | .BTN_HOSTOP => s.hostBatten who val
  | .QM_CTX => s.ctxWrite who (i / 4) (i % 4) val
  | .QM_DOORBELL => s.doorbell who (field val 0 20) (field val 32 16)
  | .QM_FLUSH => s.flush who (field val 0 20)
  | .QM_CANCEL => s.cancel who (field val 0 20) (field val 32 16)
  | .SLU_STR_CTL => s.writeStrCtl who (i / 32) (i % 32) val
  | .SLU_OPT_EXP => s.writeOptExp who (i / 32) (i % 32) val
  | .RTE_SELF => s.writeRteSelf who val
  | .RTE_RSET_A => s.writeRsetA who i val
  | .RTE_RSET_B => s.writeRsetPart who .RTE_RSET_B i i val
  | .RTE_RACK => s.writeRsetPart who .RTE_RACK i (i / 32) val
  | .RTE_SCHED_A => s.writeSchedA who i val
  | .RTE_SCHED_B => s.writeSchedB who i val
  | .RTE_BANKSW => s.writeBanksw who val
  | .RTE_BANKSW_AT => s.writeBankswAt who val
  | .COL_GRP_A => s.writeGrpA who i val
  | .COL_GMASK => s.writeGmask who i val
  | .COL_TRG => s.writeTrg who (i / 8) (i % 8) val
  | .COL_TRG_STAT => s.writeTrgStat who i val
  | .HIF_POWN => s.pownWrite who i val
  | .HIF_FN_A => s.writeFnA who i val
  | .HIF_FN_B => s.writeFnB who i val
  | .MBX_BIND => s.writeBind who i val
  | .MBX_CTL => s.writeMbxCtl who i val
  | .MBX_LOCK => s.writeMbxLock who i val
  | .MBX_TMO => s.writeMbxTmo who i val
  | .MBX_STAT => s.byChan who i fun s => s.writeWord .MBX_STAT i val 0 (s.chanSrc i)
  | .ECC_ERASE => s.writeErase who i val
  | .SCRB_CTL => s.writeScrb who val
  | .ECC_LOG_SEL => s.writeLogSel who val
  | .ECC_RAW_CTL => s.writeRaw who val
  | .ECC_RAW_DATA => s.writeRawData who i val
  | .FEED_CTL | .FEED_STAT | .FEED_MEAS | .FEED_LAST | .PWC_CAP | .PWC_CAP_NEXT | .PWC_CAP_AT | .PWC_EFF | .PWC_VF | .PWC_CTL
  | .PWC_SHARE | .PWC_SLATE | .PWC_PHASE | .PWC_EN | .PWC_EN_P | .PWC_DINT | .PWC_SNAP | .PWC_CNT => s.writePower who off val
  | .THM_SLATE => s.writeThr who false i val
  | .THM_CIS => s.writeThr who true i val
  | .RST_ESC => s.writeEsc who val
  | .RDR_WDOG => if bit val 0 then s.kick who else s
  | .GAUGE_STAT | .COL_TMO | .ECC_THR | .BOOT_CTL | .BOOT_EXP | .RDR_TELE | .TOP_PINS =>
    s.byManager who Src.module fun s => s.writeWord r i val 0 Src.module
  | .GAUGE_NOW | .CRS_STALE | .CRS_FUTURE | .CRS_NOW | .CRS_LAG_LO | .CRS_LAG_HI | .CRS_LAG_STAT | .TOP_SITES_LO | .TOP_SITES_MID
  | .TOP_SITES_HI | .TSK_CFLT_A | .TSK_CFLT_B | .TSK_CFLT_C | .TSK_CFLT_D | .BTN_CNT | .BTN_DROP | .SLU_STR_STAT | .SLU_STR_PEER
  | .SLU_STR_CNT0 | .SLU_STR_CNT1 | .SLU_SPARE | .RTE_DROP0 | .RTE_DROP1 | .COL_CNT | .HIF_FN_C | .ECC_DIE_CNT | .ECC_CIS_STAT
  | .SCRB_STAT | .ECC_LOG_STAT | .ECC_LOG_REC | .THM_MISC | .SEC_ID | .SEC_KSLOT | .SEC_TDI | .SEC_STATE | .BOOT_STAT | .BOOT_TOPO
  | .RST_JOB | .RST_STAT | .RST_PART | .RDR_STAT | .UPD_STAT | .UPD_BUILD => s

/-- A write at an offset of control space; where no register stands it changes nothing. -/
def State.offsetWrite (s : State) (who off : Nat) (val : Word) : State :=
  match Reg.find off with
  | some (r, i) => s.regWrite who off val r i
  | none =>
    let o := off - 0x6000000
    if 0x6000000 ≤ off ∧ o < 0x40000 ∧ o % 0x1000 < 0x40 ∧ o % 4 = 0 then s.writeStaging who (o / 0x1000) (o % 0x1000 / 4) val else s

def execRegisterWrite (who : Ident) (off : BitVec 32) (val : Word) (s : State) : Host.Outcome State Fault Refusal :=
  .next (s.offsetWrite who.toNat off.toNat val)

/-! ## What a read shows (R5) -/

/-- A word as it reads: registers that follow the rest of the state are computed, write-only ones and those of a link that a die does not have
(R259) read zero. -/
def State.regRead (s : State) (r : Reg) (i : Nat) : Word :=
  match r with
  | .SLU_STR_CTL | .SLU_STR_STAT | .SLU_STR_PEER | .SLU_STR_CNT0 | .SLU_STR_CNT1 | .SLU_OPT_EXP =>
    if isStrand (i / 32) (i % 32) then s.reg r i else 0
  | .GAUGE_NOW => s.gauge.now
  | .CRS_NOW => BitVec.ofNat 64 s.courseNo
  | .CRS_LAG_LO => match s.course.lagFifo with | x :: _ => x.setWidth 64 | [] => 0
  | .CRS_LAG_HI => match s.course.lagFifo with | x :: _ => (x >>> 64).setWidth 64 | [] => 0
  | .CRS_LAG_STAT => BitVec.ofNat 64 (natSetField (s.reg r).toNat 0 7 s.course.lagFifo.length)
  | .GAUGE_SET | .BTN_HOSTOP | .QM_DOORBELL | .QM_FLUSH | .QM_CANCEL => 0
  | .RTE_SELF => packW [(0, 16, s.epn), (16, 9, field (s.reg r) 16 9), (25, 3, s.boardNo), (28, 3, s.slotNo)]
  | .MBX_STAT =>
    let x := s.chan i
    packW [(0, 3, x.reqFill), (3, 3, x.responses.length), (6, 1, b2n x.full), (7, 1, b2n (!x.responses.isEmpty)), (8, 56, field (s.reg r i) 8 56)]
  | .SCRB_STAT =>
    let cis := (upFrom 0 16).map s.cisternPasses
    let tier := (upFrom 0 32).map fun t => SMap.get 0 s.store.scrubPasses (1024 + t)
    packW [(0, 16, min 65535 (cis.foldl min (cis.headD 0))), (16, 16, min 65535 (tier.foldl min (tier.headD 0)))]
  | .ECC_LOG_SEL => s.logSel
  | .ECC_LOG_REC => s.logRec i
  | .FEED_STAT => s.feedStat
  | .BOOT_STAT => BitVec.ofNat 64 (natSetField (s.reg r).toNat 16 16 (((upFrom 0 16).map fun sl => b2n (s.slateUp sl) * 2 ^ sl).sum))
  | .RST_STAT => s.rstStat
  | .RST_PART => s.rstPart i
  | .RDR_STAT => s.rdrStat
  | _ => s.reg r i

/-- The fields that a read clears (RC). -/
def State.readClears (s : State) (r : Reg) (i : Nat) : State :=
  let m := r.mask (i % r.place.words) .rc
  if m = 0 then s else s.setReg r i (s.reg r i &&& ~~~(BitVec.ofNat 64 m))

/-- MBX_RSP0 to 15 as they read: the oldest response not popped (R338). -/
def State.mbxRsp (s : State) (c w : Nat) : BitVec 32 :=
  match (s.chan c).responses with | x :: _ => x.getD w 0 | [] => 0

end Sys2Proof.Machine
end

