-- ==== Sys2Proof/Machine/Vector.lean ====
section
/-!
DEFINITION. Machine/Vector.lean: the rows of the vector engine (R139 to R147).
-/
namespace Sys2Proof.Machine

/-- The head command of the vector queue, where its FUNC is one of `count` from `first`. -/
def State.runVec (s : State) (n first count : Nat) : State :=
  s.runHead n .vector (fun q => decide (first ≤ q.func) && decide (q.func < first + count)) (vRun n)

def execVadd (core : CoreId) (s : State) : Host.Outcome State Fault Refusal := .next (s.runVec core.toNat 0x00 1)
def execVsub (core : CoreId) (s : State) : Host.Outcome State Fault Refusal := .next (s.runVec core.toNat 0x01 1)
def execVmul (core : CoreId) (s : State) : Host.Outcome State Fault Refusal := .next (s.runVec core.toNat 0x02 1)
def execVfma (core : CoreId) (s : State) : Host.Outcome State Fault Refusal := .next (s.runVec core.toNat 0x03 1)
def execVmin (core : CoreId) (s : State) : Host.Outcome State Fault Refusal := .next (s.runVec core.toNat 0x04 1)
def execVmax (core : CoreId) (s : State) : Host.Outcome State Fault Refusal := .next (s.runVec core.toNat 0x05 1)
def execVabs (core : CoreId) (s : State) : Host.Outcome State Fault Refusal := .next (s.runVec core.toNat 0x06 1)
def execVneg (core : CoreId) (s : State) : Host.Outcome State Fault Refusal := .next (s.runVec core.toNat 0x07 1)
def execVand (core : CoreId) (s : State) : Host.Outcome State Fault Refusal := .next (s.runVec core.toNat 0x08 1)
def execVor (core : CoreId) (s : State) : Host.Outcome State Fault Refusal := .next (s.runVec core.toNat 0x09 1)
def execVxor (core : CoreId) (s : State) : Host.Outcome State Fault Refusal := .next (s.runVec core.toNat 0x0A 1)
def execVshl (core : CoreId) (s : State) : Host.Outcome State Fault Refusal := .next (s.runVec core.toNat 0x0B 1)
def execVshr (core : CoreId) (s : State) : Host.Outcome State Fault Refusal := .next (s.runVec core.toNat 0x0C 1)
def execVsel (core : CoreId) (s : State) : Host.Outcome State Fault Refusal := .next (s.runVec core.toNat 0x0D 1)
def execVmov (core : CoreId) (s : State) : Host.Outcome State Fault Refusal := .next (s.runVec core.toNat 0x0E 1)
def execVidx (core : CoreId) (s : State) : Host.Outcome State Fault Refusal := .next (s.runVec core.toNat 0x0F 1)
def execVcmp (core : CoreId) (s : State) : Host.Outcome State Fault Refusal := .next (s.runVec core.toNat 0x10 4)
def execVmand (core : CoreId) (s : State) : Host.Outcome State Fault Refusal := .next (s.runVec core.toNat 0x14 4)
def execVrcp (core : CoreId) (s : State) : Host.Outcome State Fault Refusal := .next (s.runVec core.toNat 0x18 1)
def execVrsqrt (core : CoreId) (s : State) : Host.Outcome State Fault Refusal := .next (s.runVec core.toNat 0x19 1)
def execVsqrt (core : CoreId) (s : State) : Host.Outcome State Fault Refusal := .next (s.runVec core.toNat 0x1A 1)
def execVdiv (core : CoreId) (s : State) : Host.Outcome State Fault Refusal := .next (s.runVec core.toNat 0x1B 1)
def execVexp2 (core : CoreId) (s : State) : Host.Outcome State Fault Refusal := .next (s.runVec core.toNat 0x1C 1)
def execVlog2 (core : CoreId) (s : State) : Host.Outcome State Fault Refusal := .next (s.runVec core.toNat 0x1D 1)
def execVexp (core : CoreId) (s : State) : Host.Outcome State Fault Refusal := .next (s.runVec core.toNat 0x1E 1)
def execVtanh (core : CoreId) (s : State) : Host.Outcome State Fault Refusal := .next (s.runVec core.toNat 0x1F 1)
def execVsig (core : CoreId) (s : State) : Host.Outcome State Fault Refusal := .next (s.runVec core.toNat 0x20 1)
def execVsinpi (core : CoreId) (s : State) : Host.Outcome State Fault Refusal := .next (s.runVec core.toNat 0x21 1)
def execVcospi (core : CoreId) (s : State) : Host.Outcome State Fault Refusal := .next (s.runVec core.toNat 0x22 1)
def execVftoi (core : CoreId) (s : State) : Host.Outcome State Fault Refusal := .next (s.runVec core.toNat 0x23 1)
def execVitof (core : CoreId) (s : State) : Host.Outcome State Fault Refusal := .next (s.runVec core.toNat 0x24 1)
def execVrsum (core : CoreId) (s : State) : Host.Outcome State Fault Refusal := .next (s.runVec core.toNat 0x28 1)
def execVrmax (core : CoreId) (s : State) : Host.Outcome State Fault Refusal := .next (s.runVec core.toNat 0x29 1)
def execVrmin (core : CoreId) (s : State) : Host.Outcome State Fault Refusal := .next (s.runVec core.toNat 0x2A 1)
def execVramax (core : CoreId) (s : State) : Host.Outcome State Fault Refusal := .next (s.runVec core.toNat 0x2B 1)
def execVld (core : CoreId) (s : State) : Host.Outcome State Fault Refusal := .next (s.runVec core.toNat 0x30 1)
def execVst (core : CoreId) (s : State) : Host.Outcome State Fault Refusal := .next (s.runVec core.toNat 0x31 1)
def execVlds (core : CoreId) (s : State) : Host.Outcome State Fault Refusal := .next (s.runVec core.toNat 0x32 1)
def execVsts (core : CoreId) (s : State) : Host.Outcome State Fault Refusal := .next (s.runVec core.toNat 0x33 1)
def execVgather (core : CoreId) (s : State) : Host.Outcome State Fault Refusal := .next (s.runVec core.toNat 0x34 1)
def execVscatter (core : CoreId) (s : State) : Host.Outcome State Fault Refusal := .next (s.runVec core.toNat 0x35 1)
def execVldm (core : CoreId) (s : State) : Host.Outcome State Fault Refusal := .next (s.runVec core.toNat 0x36 1)
def execVstm (core : CoreId) (s : State) : Host.Outcome State Fault Refusal := .next (s.runVec core.toNat 0x37 1)
def execVcvtIn (core : CoreId) (s : State) : Host.Outcome State Fault Refusal := .next (s.runVec core.toNat 0x38 1)
def execVcvtOut (core : CoreId) (s : State) : Host.Outcome State Fault Refusal := .next (s.runVec core.toNat 0x39 1)
def execVcvtMxin (core : CoreId) (s : State) : Host.Outcome State Fault Refusal := .next (s.runVec core.toNat 0x3A 1)
def execVcvtMxout (core : CoreId) (s : State) : Host.Outcome State Fault Refusal := .next (s.runVec core.toNat 0x3B 1)
def execVstream (core : CoreId) (s : State) : Host.Outcome State Fault Refusal := .next (s.runVec core.toNat 0x40 64)

end Sys2Proof.Machine
end

