-- ==== Sys2Proof/Machine/Dispatch.lean ====
section
/-!
DEFINITION. Machine/Dispatch.lean: the meaning of each command, one arm per constructor of `Instr`.
-/
namespace Sys2Proof.Machine

/-- The effect of a command on everything but the queue of waiting commands. -/
def exec (i : Instr) (s : State) : Host.Outcome State Fault Refusal :=
  match i with
  | .registerWrite who off val => Sys2Proof.Machine.execRegisterWrite who off val s
  | .topMsizeWrite who val => Sys2Proof.Machine.execTopMsizeWrite who val s
  | .gaugeSet who val => Sys2Proof.Machine.execGaugeSet who val s
  | .gaugeLock who val => Sys2Proof.Machine.execGaugeLock who val s
  | .timeExchangeTick link => Sys2Proof.Machine.execTimeExchangeTick link s
  | .timeReq link m => Sys2Proof.Machine.execTimeReq link m s
  | .timeRsp link m t4 => Sys2Proof.Machine.execTimeRsp link m t4 s
  | .holdoverExpiry => Sys2Proof.Machine.execHoldoverExpiry s
  | .gaugeReacquire step => Sys2Proof.Machine.execGaugeReacquire step s
  | .gaugeWrap => Sys2Proof.Machine.execGaugeWrap s
  | .courseBoundary => Sys2Proof.Machine.execCourseBoundary s
  | .courseChangeArm who val => Sys2Proof.Machine.execCourseChangeArm who val s
  | .courseChangeCancel who val => Sys2Proof.Machine.execCourseChangeCancel who val s
  | .courseLengthSwitch => Sys2Proof.Machine.execCourseLengthSwitch s
  | .oldEpochExpiry => Sys2Proof.Machine.execOldEpochExpiry s
  | .lagFifoPop who => Sys2Proof.Machine.execLagFifoPop who s
  | .alu core rd rs1 rs2 func => Sys2Proof.Machine.execAlu core rd rs1 rs2 func s
  | .addi core rd rs1 imm => Sys2Proof.Machine.execAddi core rd rs1 imm s
  | .andi core rd rs1 imm => Sys2Proof.Machine.execAndi core rd rs1 imm s
  | .ori core rd rs1 imm => Sys2Proof.Machine.execOri core rd rs1 imm s
  | .xori core rd rs1 imm => Sys2Proof.Machine.execXori core rd rs1 imm s
  | .shifti core rd rs1 rs2 func => Sys2Proof.Machine.execShifti core rd rs1 rs2 func s
  | .slti core rd rs1 imm => Sys2Proof.Machine.execSlti core rd rs1 imm s
  | .lui core rd rs1 imm => Sys2Proof.Machine.execLui core rd rs1 imm s
  | .shin core rd rs1 imm => Sys2Proof.Machine.execShin core rd rs1 imm s
  | .cmp core rd rs1 rs2 func => Sys2Proof.Machine.execCmp core rd rs1 rs2 func s
  | .cmpi core rd rs1 imm => Sys2Proof.Machine.execCmpi core rd rs1 imm s
  | .plog core rd rs1 rs2 func => Sys2Proof.Machine.execPlog core rd rs1 rs2 func s
  | .ldD core rd rs1 imm => Sys2Proof.Machine.execLdD core rd rs1 imm s
  | .ldW core rd rs1 imm => Sys2Proof.Machine.execLdW core rd rs1 imm s
  | .ldWu core rd rs1 imm => Sys2Proof.Machine.execLdWu core rd rs1 imm s
  | .ldH core rd rs1 imm => Sys2Proof.Machine.execLdH core rd rs1 imm s
  | .ldHu core rd rs1 imm => Sys2Proof.Machine.execLdHu core rd rs1 imm s
  | .ldB core rd rs1 imm => Sys2Proof.Machine.execLdB core rd rs1 imm s
  | .ldBu core rd rs1 imm => Sys2Proof.Machine.execLdBu core rd rs1 imm s
  | .stD core rd rs1 imm => Sys2Proof.Machine.execStD core rd rs1 imm s
  | .stW core rd rs1 imm => Sys2Proof.Machine.execStW core rd rs1 imm s
  | .stH core rd rs1 imm => Sys2Proof.Machine.execStH core rd rs1 imm s
  | .stB core rd rs1 imm => Sys2Proof.Machine.execStB core rd rs1 imm s
  | .ldvD core rd rs1 imm => Sys2Proof.Machine.execLdvD core rd rs1 imm s
  | .ldvW core rd rs1 imm => Sys2Proof.Machine.execLdvW core rd rs1 imm s
  | .amo core rd rs1 rs2 func => Sys2Proof.Machine.execAmo core rd rs1 rs2 func s
  | .loadReturn core idx => Sys2Proof.Machine.execLoadReturn core idx s
  | .storeReachHome core => Sys2Proof.Machine.execStoreReachHome core s
  | .heldSetApply core => Sys2Proof.Machine.execHeldSetApply core s
  | .fence core rd rs1 rs2 func => Sys2Proof.Machine.execFence core rd rs1 rs2 func s
  | .jal core rd imm => Sys2Proof.Machine.execJal core rd imm s
  | .jalr core rd rs1 imm => Sys2Proof.Machine.execJalr core rd rs1 imm s
  | .beq core ra rb off => Sys2Proof.Machine.execBeq core ra rb off s
  | .bne core ra rb off => Sys2Proof.Machine.execBne core ra rb off s
  | .blt core ra rb off => Sys2Proof.Machine.execBlt core ra rb off s
  | .bge core ra rb off => Sys2Proof.Machine.execBge core ra rb off s
  | .bltu core ra rb off => Sys2Proof.Machine.execBltu core ra rb off s
  | .bgeu core ra rb off => Sys2Proof.Machine.execBgeu core ra rb off s
  | .bp core ra rb off => Sys2Proof.Machine.execBp core ra rb off s
  | .cwr core rd rs1 rs2 func => Sys2Proof.Machine.execCwr core rd rs1 rs2 func s
  | .cww core rd rs1 rs2 func => Sys2Proof.Machine.execCww core rd rs1 rs2 func s
  | .ewait core rd rs1 imm => Sys2Proof.Machine.execEwait core rd rs1 imm s
  | .eset core rd rs1 imm => Sys2Proof.Machine.execEset core rd rs1 imm s
  | .eclr core rd rs1 imm => Sys2Proof.Machine.execEclr core rd rs1 imm s
  | .etst core rd rs1 imm => Sys2Proof.Machine.execEtst core rd rs1 imm s
  | .btnRd core rd rs1 rs2 => Sys2Proof.Machine.execBtnRd core rd rs1 rs2 s
  | .btnAdd core rd rs1 rs2 => Sys2Proof.Machine.execBtnAdd core rd rs1 rs2 s
  | .btnSet core rd rs1 rs2 => Sys2Proof.Machine.execBtnSet core rd rs1 rs2 s
  | .btnWait core rd rs1 rs2 => Sys2Proof.Machine.execBtnWait core rd rs1 rs2 s
  | .btnTest core rd rs1 rs2 => Sys2Proof.Machine.execBtnTest core rd rs1 rs2 s
  | .sysNop core => Sys2Proof.Machine.execSysNop core s
  | .sysDone core rs1 => Sys2Proof.Machine.execSysDone core rs1 s
  | .sysTrap core rs1 => Sys2Proof.Machine.execSysTrap core rs1 s
  | .sysIinv core => Sys2Proof.Machine.execSysIinv core s
  | .sel core rd rs1 rs2 func => Sys2Proof.Machine.execSel core rd rs1 rs2 func s
  | .limm core pred rd mbz imm => Sys2Proof.Machine.execLimm core pred rd mbz imm s
  | .mx core w => Sys2Proof.Machine.execMx core w s
  | .vx core w => Sys2Proof.Machine.execVx core w s
  | .dmaSubmit core w => Sys2Proof.Machine.execDmaSubmit core w s
  | .icacheFill core line => Sys2Proof.Machine.execIcacheFill core line s
  | .coreFault core cause engine later => Sys2Proof.Machine.execCoreFault core cause engine later s
  | .enginePost core engine => Sys2Proof.Machine.execEnginePost core engine s
  | .mxZero core => Sys2Proof.Machine.execMxZero core s
  | .mxMac core => Sys2Proof.Machine.execMxMac core s
  | .mxOut core => Sys2Proof.Machine.execMxOut core s
  | .mxStore core => Sys2Proof.Machine.execMxStore core s
  | .mxAddw core => Sys2Proof.Machine.execMxAddw core s
  | .mxBias core => Sys2Proof.Machine.execMxBias core s
  | .mxFlags core => Sys2Proof.Machine.execMxFlags core s
  | .vadd core => Sys2Proof.Machine.execVadd core s
  | .vsub core => Sys2Proof.Machine.execVsub core s
  | .vmul core => Sys2Proof.Machine.execVmul core s
  | .vfma core => Sys2Proof.Machine.execVfma core s
  | .vmin core => Sys2Proof.Machine.execVmin core s
  | .vmax core => Sys2Proof.Machine.execVmax core s
  | .vabs core => Sys2Proof.Machine.execVabs core s
  | .vneg core => Sys2Proof.Machine.execVneg core s
  | .vand core => Sys2Proof.Machine.execVand core s
  | .vor core => Sys2Proof.Machine.execVor core s
  | .vxor core => Sys2Proof.Machine.execVxor core s
  | .vshl core => Sys2Proof.Machine.execVshl core s
  | .vshr core => Sys2Proof.Machine.execVshr core s
  | .vsel core => Sys2Proof.Machine.execVsel core s
  | .vmov core => Sys2Proof.Machine.execVmov core s
  | .vidx core => Sys2Proof.Machine.execVidx core s
  | .vcmp core => Sys2Proof.Machine.execVcmp core s
  | .vmand core => Sys2Proof.Machine.execVmand core s
  | .vrcp core => Sys2Proof.Machine.execVrcp core s
  | .vrsqrt core => Sys2Proof.Machine.execVrsqrt core s
  | .vsqrt core => Sys2Proof.Machine.execVsqrt core s
  | .vdiv core => Sys2Proof.Machine.execVdiv core s
  | .vexp2 core => Sys2Proof.Machine.execVexp2 core s
  | .vlog2 core => Sys2Proof.Machine.execVlog2 core s
  | .vexp core => Sys2Proof.Machine.execVexp core s
  | .vtanh core => Sys2Proof.Machine.execVtanh core s
  | .vsig core => Sys2Proof.Machine.execVsig core s
  | .vsinpi core => Sys2Proof.Machine.execVsinpi core s
  | .vcospi core => Sys2Proof.Machine.execVcospi core s
  | .vftoi core => Sys2Proof.Machine.execVftoi core s
  | .vitof core => Sys2Proof.Machine.execVitof core s
  | .vrsum core => Sys2Proof.Machine.execVrsum core s
  | .vrmax core => Sys2Proof.Machine.execVrmax core s
  | .vrmin core => Sys2Proof.Machine.execVrmin core s
  | .vramax core => Sys2Proof.Machine.execVramax core s
  | .vld core => Sys2Proof.Machine.execVld core s
  | .vst core => Sys2Proof.Machine.execVst core s
  | .vlds core => Sys2Proof.Machine.execVlds core s
  | .vsts core => Sys2Proof.Machine.execVsts core s
  | .vgather core => Sys2Proof.Machine.execVgather core s
  | .vscatter core => Sys2Proof.Machine.execVscatter core s
  | .vldm core => Sys2Proof.Machine.execVldm core s
  | .vstm core => Sys2Proof.Machine.execVstm core s
  | .vcvtIn core => Sys2Proof.Machine.execVcvtIn core s
  | .vcvtOut core => Sys2Proof.Machine.execVcvtOut core s
  | .vcvtMxin core => Sys2Proof.Machine.execVcvtMxin core s
  | .vcvtMxout core => Sys2Proof.Machine.execVcvtMxout core s
  | .vstream core => Sys2Proof.Machine.execVstream core s
  | .dmaCopy core => Sys2Proof.Machine.execDmaCopy core s
  | .dmaFill core => Sys2Proof.Machine.execDmaFill core s
  | .dmaAccum core => Sys2Proof.Machine.execDmaAccum core s
  | .tierAccumApply idx => Sys2Proof.Machine.execTierAccumApply idx s
  | .dmaPut core => Sys2Proof.Machine.execDmaPut core s
  | .dmaGet core => Sys2Proof.Machine.execDmaGet core s
  | .dmaSignal core => Sys2Proof.Machine.execDmaSignal core s
  | .dmaComplete core idx => Sys2Proof.Machine.execDmaComplete core idx s
  | .dmaTimeout core idx => Sys2Proof.Machine.execDmaTimeout core idx s
  | .awinWrite who slate win val => Sys2Proof.Machine.execAwinWrite who slate win val s
  | .topCilWrite who val => Sys2Proof.Machine.execTopCilWrite who val s
  | .place chan => Sys2Proof.Machine.execPlace chan s
  | .battenWatchWake idx => Sys2Proof.Machine.execBattenWatchWake idx s
  | .watchRetry idx => Sys2Proof.Machine.execWatchRetry idx s
  | .btnHostAdd who val => Sys2Proof.Machine.execBtnHostAdd who val s
  | .btnHostSet who val => Sys2Proof.Machine.execBtnHostSet who val s
  | .queueEnable who queue val => Sys2Proof.Machine.execQueueEnable who queue val s
  | .queueDisable who queue val => Sys2Proof.Machine.execQueueDisable who queue val s
  | .qmDoorbell who val => Sys2Proof.Machine.execQmDoorbell who val s
  | .qmFlush who val => Sys2Proof.Machine.execQmFlush who val s
  | .qmCancel who val => Sys2Proof.Machine.execQmCancel who val s
  | .owedCompletionWrite => Sys2Proof.Machine.execOwedCompletionWrite s
  | .shadowWrite queue => Sys2Proof.Machine.execShadowWrite queue s
  | .workItemRead queue => Sys2Proof.Machine.execWorkItemRead queue s
  | .taskGrant slate => Sys2Proof.Machine.execTaskGrant slate s
  | .taskFinish core => Sys2Proof.Machine.execTaskFinish core s
  | .taskTimeout core => Sys2Proof.Machine.execTaskTimeout core s
  | .flitReceive die link codes => Sys2Proof.Machine.execFlitReceive die link codes s
  | .replayTimeout die link => Sys2Proof.Machine.execReplayTimeout die link s
  | .creditSend die link => Sys2Proof.Machine.execCreditSend die link s
  | .credit die link freed => Sys2Proof.Machine.execCredit die link freed s
  | .init die link expSeq freed => Sys2Proof.Machine.execInit die link expSeq freed s
  | .ident die link m => Sys2Proof.Machine.execIdent die link m s
  | .swap die link pos => Sys2Proof.Machine.execSwap die link pos s
  | .strandTrainingStageDone die link found => Sys2Proof.Machine.execStrandTrainingStageDone die link found s
  | .trainingStageTimeout die link => Sys2Proof.Machine.execTrainingStageTimeout die link s
  | .lstateSend link => Sys2Proof.Machine.execLstateSend link s
  | .lstate die link pkt => Sys2Proof.Machine.execLstate die link pkt s
  | .trainingPatternDetect die link => Sys2Proof.Machine.execTrainingPatternDetect die link s
  | .strandEn who die link val => Sys2Proof.Machine.execStrandEn who die link val s
  | .strandRetrain who die link val => Sys2Proof.Machine.execStrandRetrain who die link val s
  | .strandLoop who die link val => Sys2Proof.Machine.execStrandLoop who die link val s
  | .sluOptExpWrite who die link val => Sys2Proof.Machine.execSluOptExpWrite who die link val s
  | .laneFail die link pos => Sys2Proof.Machine.execLaneFail die link pos s
  | .loopbackTestDone die link pos passed => Sys2Proof.Machine.execLoopbackTestDone die link pos passed s
  | .swapComplete die link => Sys2Proof.Machine.execSwapComplete die link s
  | .routeSetValidate who rset val => Sys2Proof.Machine.execRouteSetValidate who rset val s
  | .routeSetInvalidate who rset val => Sys2Proof.Machine.execRouteSetInvalidate who rset val s
  | .schedEntryValidate who n val => Sys2Proof.Machine.execSchedEntryValidate who n val s
  | .bankSwapArm who val => Sys2Proof.Machine.execBankSwapArm who val s
  | .bankSwapCancel who val => Sys2Proof.Machine.execBankSwapCancel who val s
  | .bankSwap => Sys2Proof.Machine.execBankSwap s
  | .packetForward die link pkt => Sys2Proof.Machine.execPacketForward die link pkt s
  | .putPacket die link pkt => Sys2Proof.Machine.execPutPacket die link pkt s
  | .heldWriteLand idx => Sys2Proof.Machine.execHeldWriteLand idx s
  | .finalHoldExpiry idx => Sys2Proof.Machine.execFinalHoldExpiry idx s
  | .getPacket die link pkt => Sys2Proof.Machine.execGetPacket die link pkt s
  | .getRsp die link pkt => Sys2Proof.Machine.execGetRsp die link pkt s
  | .signalPacket die link pkt => Sys2Proof.Machine.execSignalPacket die link pkt s
  | .ack die link pkt => Sys2Proof.Machine.execAck die link pkt s
  | .groupValidate who group val => Sys2Proof.Machine.execGroupValidate who group val s
  | .triggerArm who slot val => Sys2Proof.Machine.execTriggerArm who slot val s
  | .triggerDisarm who slot val => Sys2Proof.Machine.execTriggerDisarm who slot val s
  | .junctionReserve slot => Sys2Proof.Machine.execJunctionReserve slot s
  | .cctlGrant die link pkt => Sys2Proof.Machine.execCctlGrant die link pkt s
  | .cctlReady die link pkt => Sys2Proof.Machine.execCctlReady die link pkt s
  | .triggerLaunch launch => Sys2Proof.Machine.execTriggerLaunch launch s
  | .cbcast die link pkt => Sys2Proof.Machine.execCbcast die link pkt s
  | .creduce die link pkt faults => Sys2Proof.Machine.execCreduce die link pkt faults s
  | .cctlYack die link pkt => Sys2Proof.Machine.execCctlYack die link pkt s
  | .cctlDone die link pkt => Sys2Proof.Machine.execCctlDone die link pkt s
  | .cnak die link pkt => Sys2Proof.Machine.execCnak die link pkt s
  | .triggerComplete slot => Sys2Proof.Machine.execTriggerComplete slot s
  | .collectiveTimeout slot => Sys2Proof.Machine.execCollectiveTimeout slot s
  | .apertureRead fn off len => Sys2Proof.Machine.execApertureRead fn off len s
  | .apertureWrite fn off data ep => Sys2Proof.Machine.execApertureWrite fn off data ep s
  | .apertureBaseWrite who fn val => Sys2Proof.Machine.execApertureBaseWrite who fn val s
  | .partitionOwnerWrite who part val => Sys2Proof.Machine.execPartitionOwnerWrite who part val s
  | .copySubmit fn data => Sys2Proof.Machine.execCopySubmit fn data s
  | .copyStart fn tlps busError => Sys2Proof.Machine.execCopyStart fn tlps busError s
  | .copyComplete fn => Sys2Proof.Machine.execCopyComplete fn s
  | .functionLevelReset fn => Sys2Proof.Machine.execFunctionLevelReset fn s
  | .portReset port => Sys2Proof.Machine.execPortReset port s
  | .vfRemove fn => Sys2Proof.Machine.execVfRemove fn s
  | .msixIntervalEnd fn vec => Sys2Proof.Machine.execMsixIntervalEnd fn vec s
  | .mailboxBind who chan val => Sys2Proof.Machine.execMailboxBind who chan val s
  | .mbxSend who chan => Sys2Proof.Machine.execMbxSend who chan s
  | .mbxPop who chan => Sys2Proof.Machine.execMbxPop who chan s
  | .mbxReset who chan => Sys2Proof.Machine.execMbxReset who chan s
  | .mbxTake who chan token => Sys2Proof.Machine.execMbxTake who chan token s
  | .mbxGive who chan token => Sys2Proof.Machine.execMbxGive who chan token s
  | .mailboxTimeout chan => Sys2Proof.Machine.execMailboxTimeout chan s
  | .mailboxBadOpcode chan => Sys2Proof.Machine.execMailboxBadOpcode chan s
  | .echo chan => Sys2Proof.Machine.execEcho chan s
  | .info chan => Sys2Proof.Machine.execInfo chan s
  | .dieEraseWrite who cis val => Sys2Proof.Machine.execDieEraseWrite who cis val s
  | .dieMark cis die => Sys2Proof.Machine.execDieMark cis die s
  | .mergeWriteback cis chan idx => Sys2Proof.Machine.execMergeWriteback cis chan idx s
  | .rowRepair tier bank row => Sys2Proof.Machine.execRowRepair tier bank row s
  | .scrubRead unit obs => Sys2Proof.Machine.execScrubRead unit obs s
  | .cisternFail cis => Sys2Proof.Machine.execCisternFail cis s
  | .recordFlashCopy seq => Sys2Proof.Machine.execRecordFlashCopy seq s
  | .logSelect who val => Sys2Proof.Machine.execLogSelect who val s
  | .rawRead who val => Sys2Proof.Machine.execRawRead who val s
  | .rawWrite who val => Sys2Proof.Machine.execRawWrite who val s
  | .patternTest findings => Sys2Proof.Machine.execPatternTest findings s
  | .pilotFrame feedB b0 b1 b2 b3 => Sys2Proof.Machine.execPilotFrame feedB b0 b1 b2 b3 s
  | .pilotLost feedB => Sys2Proof.Machine.execPilotLost feedB s
  | .feedOutOfSpec feedB => Sys2Proof.Machine.execFeedOutOfSpec feedB s
  | .feedInSpec feedB => Sys2Proof.Machine.execFeedInSpec feedB s
  | .holdEnd => Sys2Proof.Machine.execHoldEnd s
  | .feedReturn => Sys2Proof.Machine.execFeedReturn s
  | .powerLossStop => Sys2Proof.Machine.execPowerLossStop s
  | .busHoldupExhausted => Sys2Proof.Machine.execBusHoldupExhausted s
  | .powerSample m => Sys2Proof.Machine.execPowerSample m s
  | .fastLimiterRelease => Sys2Proof.Machine.execFastLimiterRelease s
  | .controlInterval m => Sys2Proof.Machine.execControlInterval m s
  | .capWrite who val => Sys2Proof.Machine.execCapWrite who val s
  | .capArm who val => Sys2Proof.Machine.execCapArm who val s
  | .capCancel who val => Sys2Proof.Machine.execCapCancel who val s
  | .capApply => Sys2Proof.Machine.execCapApply s
  | .energyViewUpdate => Sys2Proof.Machine.execEnergyViewUpdate s
  | .demandSnapshot => Sys2Proof.Machine.execDemandSnapshot s
  | .snap who val => Sys2Proof.Machine.execSnap who val s
  | .thermalSample m => Sys2Proof.Machine.execThermalSample m s
  | .energy chan => Sys2Proof.Machine.execEnergy chan s
  | .snapshot chan => Sys2Proof.Machine.execSnapshot chan s
  | .power chan => Sys2Proof.Machine.execPower chan s
  | .caps chan => Sys2Proof.Machine.execCaps chan s
  | .getVersion t => Sys2Proof.Machine.execGetVersion t s
  | .getCapabilities t => Sys2Proof.Machine.execGetCapabilities t s
  | .negotiateAlgorithms t supported => Sys2Proof.Machine.execNegotiateAlgorithms t supported s
  | .getDigests t => Sys2Proof.Machine.execGetDigests t s
  | .getCertificate t slot offset length => Sys2Proof.Machine.execGetCertificate t slot offset length s
  | .challenge t slot nonce => Sys2Proof.Machine.execChallenge t slot nonce s
  | .getMeasurements t index nonce => Sys2Proof.Machine.execGetMeasurements t index nonce s
  | .keyExchange t random exchange => Sys2Proof.Machine.execKeyExchange t random exchange s
  | .finish t session chain verified => Sys2Proof.Machine.execFinish t session chain verified s
  | .heartbeat t session => Sys2Proof.Machine.execHeartbeat t session s
  | .keyUpdate t session => Sys2Proof.Machine.execKeyUpdate t session s
  | .endSession t session => Sys2Proof.Machine.execEndSession t session s
  | .keyDeliver t session body => Sys2Proof.Machine.execKeyDeliver t session body s
  | .bind chan => Sys2Proof.Machine.execBind chan s
  | .unbind chan => Sys2Proof.Machine.execUnbind chan s
  | .unbindClearDone part => Sys2Proof.Machine.execUnbindClearDone part s
  | .bindStatus chan => Sys2Proof.Machine.execBindStatus chan s
  | .keyStatus chan => Sys2Proof.Machine.execKeyStatus chan s
  | .keyAdvance chan => Sys2Proof.Machine.execKeyAdvance chan s
  | .keyDrop chan => Sys2Proof.Machine.execKeyDrop chan s
  | .keySlotAutoDestroy slot => Sys2Proof.Machine.execKeySlotAutoDestroy slot s
  | .unsealBlob chan => Sys2Proof.Machine.execUnseal chan s
  | .unsealComplete part => Sys2Proof.Machine.execUnsealComplete part s
  | .lockInterfaceRequest vf session stream => Sys2Proof.Machine.execLockInterfaceRequest vf session stream s
  | .getDeviceInterfaceReport vf session => Sys2Proof.Machine.execGetDeviceInterfaceReport vf session s
  | .stopInterfaceRequest vf session => Sys2Proof.Machine.execStopInterfaceRequest vf session s
  | .tdiTlpViolation vf => Sys2Proof.Machine.execTdiTlpViolation vf s
  | .ideKm port session stream key => Sys2Proof.Machine.execIdeKm port session stream key s
  | .fabricKeyInstall session gen key => Sys2Proof.Machine.execFabricKeyInstall session gen key s
  | .mgmtSessionOpen anchor newAnchor => Sys2Proof.Machine.execMgmtSessionOpen anchor newAnchor s
  | .mgmtFrame session frame => Sys2Proof.Machine.execMgmtFrame session frame s
  | .debugUnlock token => Sys2Proof.Machine.execDebugUnlock token s
  | .fuseProgramming image => Sys2Proof.Machine.execFuseProgramming image s
  | .forcedRecoveryBoot session => Sys2Proof.Machine.execForcedRecoveryBoot session s
  | .credentialReset => Sys2Proof.Machine.execCredentialReset s
  | .presenceDeassert => Sys2Proof.Machine.execPresenceDeassert s
  | .busPowerUp feedB straps presence => Sys2Proof.Machine.execBusPowerUp feedB straps presence s
  | .riderRelease => Sys2Proof.Machine.execRiderRelease s
  | .consistencyCheck => Sys2Proof.Machine.execConsistencyCheck s
  | .consistencyTimeout => Sys2Proof.Machine.execConsistencyTimeout s
  | .slateWave found => Sys2Proof.Machine.execSlateWave found s
  | .coreBootReport slate site pass => Sys2Proof.Machine.execCoreBootReport slate site pass s
  | .topologyCheck => Sys2Proof.Machine.execTopologyCheck s
  | .partReset chan => Sys2Proof.Machine.execPartReset chan s
  | .partResetComplete part => Sys2Proof.Machine.execPartResetComplete part s
  | .computeReset chan => Sys2Proof.Machine.execComputeReset chan s
  | .computeResetComplete => Sys2Proof.Machine.execComputeResetComplete s
  | .abort chan => Sys2Proof.Machine.execAbort chan s
  | .abortPacket die link pkt => Sys2Proof.Machine.execAbortPacket die link pkt s
  | .abortFenceEnd job => Sys2Proof.Machine.execAbortFenceEnd job s
  | .abortWindowEnd job => Sys2Proof.Machine.execAbortWindowEnd job s
  | .abortQuiesceTimeout part => Sys2Proof.Machine.execAbortQuiesceTimeout part s
  | .partResetTimeout part => Sys2Proof.Machine.execPartResetTimeout part s
  | .computeResetTimeout => Sys2Proof.Machine.execComputeResetTimeout s
  | .resetStatus chan => Sys2Proof.Machine.execResetStatus chan s
  | .restore chan => Sys2Proof.Machine.execRestore chan s
  | .topoRecheck chan => Sys2Proof.Machine.execTopoRecheck chan s
  | .fmapRead chan => Sys2Proof.Machine.execFmapRead chan s
  | .riderLoadWindow load => Sys2Proof.Machine.execRiderLoadWindow load s
  | .watchdogKick who => Sys2Proof.Machine.execWatchdogKick who s
  | .riderWatchdogExpiry => Sys2Proof.Machine.execRiderWatchdogExpiry s
  | .flashEraseDone sector => Sys2Proof.Machine.execFlashEraseDone sector s
  | .updBegin chan => Sys2Proof.Machine.execUpdBegin chan s
  | .updBlock chan => Sys2Proof.Machine.execUpdBlock chan s
  | .stagingProgram => Sys2Proof.Machine.execStagingProgram s
  | .updVerify chan => Sys2Proof.Machine.execUpdVerify chan s
  | .updVerifyDone => Sys2Proof.Machine.execUpdVerifyDone s
  | .updActivate chan => Sys2Proof.Machine.execUpdActivate chan s
  | .updStatus chan => Sys2Proof.Machine.execUpdStatus chan s
  | .updCancel chan => Sys2Proof.Machine.execUpdCancel chan s
  | .confirm chan => Sys2Proof.Machine.execConfirm chan s
  | .trialConfirmTimer => Sys2Proof.Machine.execTrialConfirmTimer s
  | .setRead chan => Sys2Proof.Machine.execSetRead chan s
  | .setReset chan => Sys2Proof.Machine.execSetReset chan s
  | .settingsSave => Sys2Proof.Machine.execSettingsSave s
  | .dumpList chan => Sys2Proof.Machine.execDumpList chan s
  | .dumpRead chan => Sys2Proof.Machine.execDumpRead chan s
  | .updateComponent session header => Sys2Proof.Machine.execUpdateComponent session header s
  | .requestFirmwareData session offset data => Sys2Proof.Machine.execRequestFirmwareData session offset data s
  | .transferComplete session => Sys2Proof.Machine.execTransferComplete session s
  | .activateFirmware session selfContained => Sys2Proof.Machine.execActivateFirmware session selfContained s
  | .telemetryFrame => Sys2Proof.Machine.execTelemetryFrame s
  | .i3cEntdaa addr => Sys2Proof.Machine.execI3cEntdaa addr s
  | .i3cRstdaa => Sys2Proof.Machine.execI3cRstdaa s
  | .i3cBoardW watts => Sys2Proof.Machine.execI3cBoardW watts s
  | .i3cSnapshot => Sys2Proof.Machine.execI3cSnapshot s
  | .modRstAssert lowNs => Sys2Proof.Machine.execModRstAssert lowNs s
  | .slotIdChange straps => Sys2Proof.Machine.execSlotIdChange straps s
  | .jtagInstruction op => Sys2Proof.Machine.execJtagInstruction op s
  | .flitBoundary die link => Sys2Proof.Machine.execFlitBoundary die link s
  | .modRstRelease => Sys2Proof.Machine.execModRstRelease s
  | .tdiRunRequest vf session => Sys2Proof.Machine.execTdiRunRequest vf session s
  | .trialReadyTimeout => Sys2Proof.Machine.execTrialReadyTimeout s

end Sys2Proof.Machine
end

