-- ==== Sys2Proof/Machine/HostPages.lean ====
section
/-!
DEFINITION. Machine/HostPages.lean: what a host reads and writes in BAR0 and BAR4 and no row of the table commands (R328, R332, R337, R338): reads
of control space, doorbell pages, function registers, MSI-X tables and mailbox windows, and the size of PF BAR2.
-/
namespace Sys2Proof.Machine

/-! ## Mailbox pages (R338) -/

/-- A 64-bit word of a channel's page as the bound identity and its PF read it; any other identity reads zero and is recorded. -/
def State.chanRead (s : State) (who c o : Nat) : Word × State :=
  if !(s.mayChan who c) then (0, s.record { status := Status.denied, source := s.chanSrc c })
  else
    let pair := fun (w : Nat → BitVec 32) => (w (o % 0x40 / 4 + 1)).setWidth 32 ++ (w (o % 0x40 / 4)).setWidth 32
    if o < 0x40 then (pair fun i => SMap.get 0 (s.chan c).staging i, s)
    else if o < 0x80 then (pair (s.mbxRsp c), s)
    else match Reg.find (0x6000000 + 0x1000 * c + o) with
      | some (r, i) => (s.regRead r i, s)
      | none => (0, s)

/-- A write to a channel's page: staging words of 32 bits, registers of 64. -/
def State.chanWrite (s : State) (who c o : Nat) (data : List Byte) : State :=
  if o < 0x40 then
    if o % 4 = 0 ∧ data.length % 4 = 0 then
      (upFrom 0 (data.length / 4)).foldl (fun (s : State) k =>
        s.writeStaging who c (o / 4 + k) (BitVec.ofNat 64 (leNat ((data.drop (4 * k)).take 4)))) s
    else s
  else if o % 8 = 0 ∧ data.length = 8 then s.offsetWrite who (0x6000000 + 0x1000 * c + o) (BitVec.ofNat 64 (leNat data))
  else s

/-! ## Control space through PF BAR0 (R5, R328) -/

/-- A 64-bit word of control space as a PF reads it, and what the read clears. -/
def State.ctlRead (s : State) (who off : Nat) : Word × State :=
  if 0x6000000 ≤ off ∧ off < 0x6040000 then s.chanRead who ((off - 0x6000000) / 0x1000) (off % 0x1000)
  else match Reg.find off with
    | some (r, i) => (s.regRead r i, s.readClears r i)
    | none => (0, s)

/-- A write there: a register takes an aligned 64-bit write. Narrower ones are ignored but for staging words: DESIGN CHOICE, log entry 9. -/
def State.ctlWrite (s : State) (who off : Nat) (data : List Byte) : State :=
  if 0x6000000 ≤ off ∧ off < 0x6040000 then s.chanWrite who ((off - 0x6000000) / 0x1000) (off % 0x1000) data
  else if off % 8 = 0 ∧ data.length = 8 then s.offsetWrite who off (BitVec.ofNat 64 (leNat data))
  else s

/-! ## MSI-X tables (R337) -/

/-- An entry of an MSI-X table: message address, message data, vector control (PCIe). -/
def Vector.entry (v : Vector) : List Byte := leBytes 8 v.addr ++ leBytes 4 v.data ++ leBytes 4 (b2n v.masked)

/-- A write within an entry; a vector that it unmasks sends what is pending. -/
def State.writeEntry (s : State) (fn vec o : Nat) (data : List Byte) : State :=
  let v := s.vector fn vec
  let bs := (v.entry.take o ++ data ++ v.entry.drop (o + data.length)).take 16
  (s.setVector fn vec { v with addr := leNat (bs.take 8), data := leNat ((bs.drop 8).take 4), masked := leNat (bs.drop 12) % 2 == 1 }).unmasked fn vec

/-- A word of the pending bit array. -/
def State.pbaWord (s : State) (fn k : Nat) : Word :=
  BitVec.ofNat 64 ((upFrom 0 64).map fun b => b2n (decide (64 * k + b < vectorsOf fn) && (s.vector fn (64 * k + b)).pending) * 2 ^ b).sum

/-! ## The pages of a function (R328, R332) -/

/-- What stands at an offset of PF BAR4 or VF BAR0. -/
inductive PageAt where
  | doorbell (o : Nat)
  | regs (o : Nat)
  | table (vec o : Nat)
  | pba (o : Nat)
  | window (i o : Nat)
  | nothing
  deriving DecidableEq, Repr

/-- The layouts of the table "Base address registers". -/
def pageAt (fn off : Nat) : PageAt :=
  let tab := if Who.isPF fn then 0x10000 else 0x1000
  let pba := if Who.isPF fn then 0x18000 else 0x1800
  if off < 0x800 then .doorbell off
  else if off < 0x1000 then .regs (off - 0x800)
  else if tab ≤ off ∧ off < tab + 16 * vectorsOf fn then .table ((off - tab) / 16) (off % 16)
  else if pba ≤ off ∧ off < pba + 8 * ceilDiv (vectorsOf fn) 64 then .pba (off - pba)
  else if Who.isVF fn ∧ 0x2000 ≤ off ∧ off < 0x6000 then .window ((off - 0x2000) / 0x1000) (off % 0x1000)
  else .nothing

/-- The channel of a VF's mailbox window: its i-th bound channel. -/
def State.windowChan (s : State) (fn i : Nat) : Option Nat := ((upFrom 0 64).filter fun c => s.chanIdent c == fn)[i]?

/-- A 64-bit word of a function's pages. The doorbell page reads zero. -/
def State.pageRead (s : State) (fn off : Nat) : Word × State :=
  match pageAt fn off with
  | .regs 0x00 => (s.regRead .HIF_FN_A fn, s)
  | .regs 0x08 => (s.regRead .HIF_FN_B fn, s)
  | .regs 0x10 => (s.regRead .HIF_FN_C fn, s.readClears .HIF_FN_C fn)
  | .table vec o => (BitVec.ofNat 64 (leNat (((s.vector fn vec).entry.drop o).take 8)), s)
  | .pba o => (s.pbaWord fn (o / 8), s)
  | .window i o => match s.windowChan fn i with | some c => s.chanRead fn c o | none => (0, s)
  | .regs _ | .doorbell _ | .nothing => (0, s)

/-- A write to a doorbell page: three 64-bit registers that act in the function's name, and copy descriptors; any other is counted (R332). -/
def State.doorbellWrite (s : State) (fn o : Nat) (data : List Byte) : State :=
  let val := BitVec.ofNat 64 (leNat data)
  if o = 0x40 then s.copySubmit fn data
  else if data.length = 8 ∧ o = 0x00 then s.doorbell fn (field val 0 20) (field val 32 16)
  else if data.length = 8 ∧ o = 0x08 then s.flush fn (field val 0 20)
  else if data.length = 8 ∧ o = 0x10 then s.cancel fn (field val 0 20) (field val 32 16)
  else s.badAccess fn

/-- A write to a function's pages. -/
def State.pageWrite (s : State) (fn off : Nat) (data : List Byte) : State :=
  let val := BitVec.ofNat 64 (leNat data)
  match pageAt fn off with
  | .doorbell o => s.doorbellWrite fn o data
  | .regs 0x00 => if data.length = 8 then s.writeFnA fn fn val else s
  | .regs 0x08 => if data.length = 8 then s.writeFnB fn fn val else s
  | .table vec o => s.writeEntry fn vec o data
  | .window i o => match s.windowChan fn i with | some c => s.chanWrite fn c o data | none => s
  | .regs _ | .pba _ | .nothing => s

/-! ## The requests that no row commands -/

/-- A function's read of its pages or, for a PF, of control space: at most what is left of an aligned word of 64 bits. -/
def State.reqRead (s : State) (fn bar off len : Nat) : State :=
  if !(Who.isFn fn && s.fnExists fn) then s
  else if s.tdi fn == 3 then s.emit (.unsupported fn)
  else
    let o := off - off % 8
    let answer := fun (x : Word × State) => x.2.emit (.completion fn (some (((leBytes 8 x.1.toNat).drop (off % 8)).take len)) false)
    if Who.isPF fn && bar == 0 then answer (s.ctlRead fn o)
    else if (Who.isPF fn && bar == 4) || (Who.isVF fn && bar == 0) then answer (s.pageRead fn o)
    else s

/-- A function's write there; a VF in ERROR writes nothing. -/
def State.reqWrite (s : State) (fn bar off : Nat) (data : List Byte) : State :=
  if !(Who.isFn fn && s.fnAccepts fn) then s
  else if Who.isPF fn && bar == 0 then s.ctlWrite fn off data
  else if (Who.isPF fn && bar == 4) || (Who.isVF fn && bar == 0) then s.pageWrite fn off data
  else s

/-- Function Mask of a function's MSI-X capability: clearing it sends what is pending (PCIe). -/
def State.setMaskAll (s : State) (fn : Nat) (on : Bool) : State :=
  let s1 := { s with host := { s.host with maskAll := SMap.put false s.host.maskAll fn on } }
  if on then s1 else (upFrom 0 (vectorsOf fn)).foldl (fun (s : State) v => s.unmasked fn v) s1

/-- A request that no row commands is served. -/
def State.serveReq (s : State) : HostReq → State
  | .read fn bar off len => s.reqRead fn bar off len
  | .write fn bar off data => s.reqWrite fn bar off data
  | .barSize port code =>
    if port < 2 ∧ code ≤ 4 then { s with host := { s.host with barSize := SMap.put 1 s.host.barSize port code } } else s
  | .maskAll fn on => if Who.isFn fn && s.fnExists fn then s.setMaskAll fn on else s
  | .i3cRead index => s.i3cRead index

end Sys2Proof.Machine
end

