-- ==== Sys2Proof/Machine/Idle.lean ====
section
/-!
DEFINITION. Machine/Idle.lean: what happens where no command waits: errors in SRAM stores (R354), the host requests that no row commands, and
the passing of time.
-/
namespace Sys2Proof.Machine

/-- A job's state is lost in an SRAM store: a PARTITION_FATAL record and the job abort (R354). A store that serves no job has no abort. -/
def State.storeLost (s : State) (src cls job : Nat) : State :=
  let r : Rec := { status := Status.integrity, source := src, sev := .partitionFatal }
  if s.boundJobs.any (· == job) then (s.record { r with job := some (s.jobRef job) }).raiseAbort job Status.jobAbort cls
  else s.record r

/-- The job of a partition that holds a slate. -/
def State.slateJob (s : State) (sl : Nat) : Nat := match s.partOfSlate sl with | some p => s.jobOf p | none => 0

/-- What an SRAM store does on an error that its code does not correct (the table "SRAM protection", R354). -/
def State.takeSram (s : State) (f : SramFault) : State :=
  match f with
  | .merge c ch i =>
    match (SMap.get [] s.store.merge (c * 32 + ch))[i]? with
    | some e => (s.createPoison e.granule 3 [] 0).mergeWrite e.granule 0 0 true
    | none => s
  | .junction n y m =>
    let x := s.slot n
    s.setSlot n { x with inputs := x.inputs.map fun v => if v.yelm == y && v.src == m then { v with poison := true } else v }
  | .replay d l => s.startReplay d l
  | .icache n line => s.setCore n { s.getCore n with icache := SMap.erase (s.getCore n).icache line }
  | .rcache n g => s.setCore n { s.getCore n with rcache := SMap.erase (s.getCore n).rcache g }
  | .batten b => s.storeLost (Src.slate (b / 4096)) 4 (s.slateJob (b / 4096))
  | .context q => s.storeLost (Src.slate (s.getF QM_CTX.SLATE q)) 4 (s.jobOf (s.getF QM_CTX.PART q))
  | .routeSet i => s.storeLost (Src.die 0) 5 (s.getF RTE_RSET_A.JOB i)
  | .slot n => s.storeLost (Src.die 0) 5 (s.slotJob n)

/-- What happens where no command waits: the oldest error of an SRAM store is met, or the oldest request that no row commands is served, or a
nanosecond passes. -/
def State.idle (s : State) : State :=
  match s.store.faults with
  | f :: rest => ({ s with store := { s.store with faults := rest } }).takeSram f
  | [] =>
    match s.host.reqs with
    | r :: rest => ({ s with host := { s.host with reqs := rest } }).serveReq r
    | [] => s.tick

end Sys2Proof.Machine
end

