-- ==== Sys2Proof/Safety.lean ====
section
/-!
DEFINITION. Safety.lean: what counts as a sound state of the module, in the terms the statements use.
-/
namespace Sys2Proof.Safety
open Sys2Proof.Machine

/-- Memory is in its canonical form: addresses strictly rising, no byte equal to the 0 that an unlisted address reads as. -/
def memoryWf (s : State) : Bool := SMap.wf 0 s.mem

/-- Poison is in its canonical form. -/
def poisonWf (s : State) : Bool := SMap.wf false s.poison

/-- The register file is in its canonical form: keys strictly rising, no word equal to its reset value. -/
def regsWf (s : State) : Bool := SMap.risingFrom none s.regs && s.regs.all fun e => !decide (e.2 = Reg.resetAt e.1)

/-- The error log holds at most 4,096 records (R364). -/
def logFits (s : State) : Bool := decide (s.store.log.length ≤ 4096)

/-- Flash holds at most 16 crash dumps (R442, R459). -/
def dumpsFit (s : State) : Bool := decide (s.rst.dumps.length ≤ 16)

/-- What holds of every state that the commands make: the stores in canonical form, the log and the dumps within their rings. -/
def Sound (s : State) : Prop :=
  memoryWf s = true ∧ poisonWf s = true ∧ regsWf s = true ∧ logFits s = true ∧ dumpsFit s = true

end Sys2Proof.Safety
end

