-- ==== Sys2Proof/WellFormed.lean ====
section
/-!
DEFINITION. WellFormed.lean: which operands a command may carry: identities, links and strands that exist, the sizes of packets, codewords,
frames and readings. Register fields are bounded by their widths in Syntax.lean.
-/
namespace Sys2Proof
namespace WellFormed

/-- The master identities (R324): the VFs, PF0, PF1, the rider, the SP, the PWC, and the cores. -/
def identOk (w : Ident) : Bool :=
  let n := w.toNat
  (decide (1 ≤ n) && decide (n ≤ 0x402)) || (decide (0x800 ≤ n) && decide (n ≤ 0x802)) || (decide (0x1000 ≤ n) && decide (n < 0x1800))

/-- A function of a host port. -/
def fnOk (w : Ident) : Bool := decide (1 ≤ w.toNat) && decide (w.toNat ≤ 0x402)

/-- The peer links that exist (R235): the row, the column and the optical ports. -/
def linkOk (l : Link) : Bool := l.toNat != 7 && l.toNat != 15

/-- A strand of a link on a sluice die (R259): row and column links have one on each die, an optical port on its own die alone. -/
def strandOk (d : Die) (l : Link) : Bool := linkOk l && (decide (l.toNat < 16) || (l.toNat - 16) / 4 == d.toNat)

/-- A packet's payload (R261). -/
def packetOk (p : Packet) : Bool := decide (p.payload.length ≤ 8192)

/-- A codeword is 560 symbols (R237). -/
def codeOk (c : Codeword) : Bool := c.symbols.length == 560

/-- The course exponent in a time message (R12). -/
def timeOk (m : TimeMsg) : Bool := decide (10 ≤ m.k.toNat) && decide (m.k.toNat ≤ 16)

/-- A reading has one figure for each thing it reads (R374). -/
def powerOk (m : PowerReading) : Bool :=
  m.slates.length == 16 && m.cisterns.length == 16 && m.sluices.length == 4 && m.optics.length == 16 && m.comp.length == 16

def intervalOk (m : IntervalReading) : Bool := m.counts.length == 16 && m.counts.all fun c => c.all fun e => decide (e.1 < 256)

def thermalOk (m : ThermalReading) : Bool :=
  m.slates.length == 16 && (m.slates.all fun x => x.length == 8) && m.cisterns.length == 16 && (m.cisterns.all fun x => x.length == 2) &&
    m.sluices.length == 4 && m.optics.length == 16

/-- A finding of the pattern test names a part that exists (R366). -/
def findingOk : Finding → Bool
  | .die c d chs => decide (c < 16) && decide (d < 18) && !chs.isEmpty && chs.all fun ch => decide (ch < 32)
  | .dramRow c ch _ => decide (c < 16) && decide (ch < 32)
  | .tierRow t b r => decide (t < 32) && decide (b < 192) && decide (r < 8192)
  | .scratchRow n b r => decide (n < 2048) && decide (b < 32) && decide (r < 1024)

/-- A scrub's observation: dies of a cistern, or words of a tier or scratch granule. -/
def observedOk (u : ScrubUnit) (o : Observed) : Bool :=
  match u with
  | .cistern _ _ => (o.flips.all fun f => decide (f.2.1 < 18)) && o.suspects.all fun d => decide (d < 18)
  | _ => (o.flips.all fun f => decide (f.1 < 4)) && o.suspects.isEmpty

/-- A site of a slate (R85). -/
def siteOk (n : Nat) : Bool := decide (n < 136)

/-- The freed counts of a CREDIT or INIT: one for each VL. -/
def freedOk (l : List Nat) : Bool := l.length == 8 && l.all fun n => decide (n < 65536)

end WellFormed

open WellFormed

/-- A command whose operands are such as the module can meet. -/
def Instr.wf (i : Instr) : Bool :=
  match i with
  | .registerWrite who _ _ => identOk who
  | .topMsizeWrite who _ => identOk who
  | .gaugeSet who _ => identOk who
  | .gaugeLock who _ => identOk who
  | .timeExchangeTick link => linkOk link
  | .timeReq link m => linkOk link && timeOk m
  | .timeRsp link m _ => linkOk link && timeOk m
  | .courseChangeArm who _ => identOk who
  | .courseChangeCancel who _ => identOk who
  | .lagFifoPop who => identOk who
  | .awinWrite who _ _ _ => identOk who
  | .topCilWrite who _ => identOk who
  | .btnHostAdd who _ => identOk who
  | .btnHostSet who _ => identOk who
  | .queueEnable who _ _ => identOk who
  | .queueDisable who _ _ => identOk who
  | .qmDoorbell who _ => identOk who
  | .qmFlush who _ => identOk who
  | .qmCancel who _ => identOk who
  | .flitReceive die link codes => strandOk die link && codes.all codeOk
  | .replayTimeout die link => strandOk die link
  | .creditSend die link => strandOk die link
  | .credit die link freed => strandOk die link && freedOk freed
  | .init die link _ freed => strandOk die link && freedOk freed
  | .ident die link _ => strandOk die link
  | .swap die link _ => strandOk die link
  | .strandTrainingStageDone die link _ => strandOk die link
  | .trainingStageTimeout die link => strandOk die link
  | .lstateSend link => linkOk link
  | .lstate die link pkt => strandOk die link && packetOk pkt
  | .trainingPatternDetect die link => strandOk die link
  | .strandEn who die link _ => identOk who && strandOk die link
  | .strandRetrain who die link _ => identOk who && strandOk die link
  | .strandLoop who die link _ => identOk who && strandOk die link
  | .sluOptExpWrite who die link _ => identOk who && strandOk die link
  | .laneFail die link _ => strandOk die link
  | .loopbackTestDone die link _ _ => strandOk die link
  | .swapComplete die link => strandOk die link
  | .routeSetValidate who _ _ => identOk who
  | .routeSetInvalidate who _ _ => identOk who
  | .schedEntryValidate who _ _ => identOk who
  | .bankSwapArm who _ => identOk who
  | .bankSwapCancel who _ => identOk who
  | .packetForward die link pkt => strandOk die link && packetOk pkt
  | .putPacket die link pkt => strandOk die link && packetOk pkt
  | .getPacket die link pkt => strandOk die link && packetOk pkt
  | .getRsp die link pkt => strandOk die link && packetOk pkt
  | .signalPacket die link pkt => strandOk die link && packetOk pkt
  | .ack die link pkt => strandOk die link && packetOk pkt
  | .groupValidate who _ _ => identOk who
  | .triggerArm who _ _ => identOk who
  | .triggerDisarm who _ _ => identOk who
  | .cctlGrant die link pkt => strandOk die link && packetOk pkt
  | .cctlReady die link pkt => strandOk die link && packetOk pkt
  | .cbcast die link pkt => strandOk die link && packetOk pkt
  | .creduce die link pkt _ => strandOk die link && packetOk pkt
  | .cctlYack die link pkt => strandOk die link && packetOk pkt
  | .cctlDone die link pkt => strandOk die link && packetOk pkt
  | .cnak die link pkt => strandOk die link && packetOk pkt
  | .apertureRead fn _ len => fnOk fn && (decide (1 ≤ len.toNat) && decide (len.toNat ≤ 4096))
  | .apertureWrite fn _ data _ => fnOk fn && (!data.isEmpty && decide (data.length ≤ 4096))
  | .apertureBaseWrite who fn _ => identOk who && fnOk fn
  | .partitionOwnerWrite who _ _ => identOk who
  | .copySubmit fn _ => fnOk fn
  | .copyStart fn _ _ => fnOk fn
  | .copyComplete fn => fnOk fn
  | .functionLevelReset fn => fnOk fn
  | .vfRemove fn => fnOk fn
  | .msixIntervalEnd fn _ => fnOk fn
  | .mailboxBind who _ _ => identOk who
  | .mbxSend who _ => identOk who
  | .mbxPop who _ => identOk who
  | .mbxReset who _ => identOk who
  | .mbxTake who _ _ => identOk who
  | .mbxGive who _ _ => identOk who
  | .dieEraseWrite who _ _ => identOk who
  | .dieMark _ die => decide (die.toNat < 18)
  | .rowRepair _ bank _ => decide (bank.toNat < 192)
  | .scrubRead unit obs => observedOk unit obs
  | .logSelect who _ => identOk who
  | .rawRead who _ => identOk who
  | .rawWrite who _ => identOk who
  | .patternTest findings => findings.all findingOk
  | .powerSample m => powerOk m
  | .controlInterval m => intervalOk m
  | .capWrite who _ => identOk who
  | .capArm who _ => identOk who
  | .capCancel who _ => identOk who
  | .snap who _ => identOk who
  | .thermalSample m => thermalOk m
  | .mgmtFrame _ frame => decide (frame.length ≤ 16384)
  | .slateWave found => (found.failing.all fun e => decide (e.1 < 16) && siteOk e.2) && found.findings.all findingOk
  | .coreBootReport _ site _ => siteOk site.toNat
  | .abortPacket die link pkt => strandOk die link && packetOk pkt
  | .watchdogKick who => identOk who
  | .flitBoundary die link => strandOk die link
  | .holdoverExpiry | .gaugeReacquire _ | .gaugeWrap | .courseBoundary | .courseLengthSwitch | .oldEpochExpiry | .alu _ _ _ _ _
  | .addi _ _ _ _ | .andi _ _ _ _ | .ori _ _ _ _ | .xori _ _ _ _ | .shifti _ _ _ _ _ | .slti _ _ _ _ | .lui _ _ _ _ | .shin _ _ _ _
  | .cmp _ _ _ _ _ | .cmpi _ _ _ _ | .plog _ _ _ _ _ | .ldD _ _ _ _ | .ldW _ _ _ _ | .ldWu _ _ _ _ | .ldH _ _ _ _ | .ldHu _ _ _ _
  | .ldB _ _ _ _ | .ldBu _ _ _ _ | .stD _ _ _ _ | .stW _ _ _ _ | .stH _ _ _ _ | .stB _ _ _ _ | .ldvD _ _ _ _ | .ldvW _ _ _ _
  | .amo _ _ _ _ _ | .loadReturn _ _ | .storeReachHome _ | .heldSetApply _ | .fence _ _ _ _ _ | .jal _ _ _ | .jalr _ _ _ _ | .beq _ _ _ _
  | .bne _ _ _ _ | .blt _ _ _ _ | .bge _ _ _ _ | .bltu _ _ _ _ | .bgeu _ _ _ _ | .bp _ _ _ _ | .cwr _ _ _ _ _ | .cww _ _ _ _ _
  | .ewait _ _ _ _ | .eset _ _ _ _ | .eclr _ _ _ _ | .etst _ _ _ _ | .btnRd _ _ _ _ | .btnAdd _ _ _ _ | .btnSet _ _ _ _ | .btnWait _ _ _ _
  | .btnTest _ _ _ _ | .sysNop _ | .sysDone _ _ | .sysTrap _ _ | .sysIinv _ | .sel _ _ _ _ _ | .limm _ _ _ _ _ | .mx _ _ | .vx _ _
  | .dmaSubmit _ _ | .icacheFill _ _ | .coreFault _ _ _ _ | .enginePost _ _ | .mxZero _ | .mxMac _ | .mxOut _ | .mxStore _ | .mxAddw _
  | .mxBias _ | .mxFlags _ | .vadd _ | .vsub _ | .vmul _ | .vfma _ | .vmin _ | .vmax _ | .vabs _ | .vneg _ | .vand _ | .vor _ | .vxor _
  | .vshl _ | .vshr _ | .vsel _ | .vmov _ | .vidx _ | .vcmp _ | .vmand _ | .vrcp _ | .vrsqrt _ | .vsqrt _ | .vdiv _ | .vexp2 _ | .vlog2 _
  | .vexp _ | .vtanh _ | .vsig _ | .vsinpi _ | .vcospi _ | .vftoi _ | .vitof _ | .vrsum _ | .vrmax _ | .vrmin _ | .vramax _ | .vld _
  | .vst _ | .vlds _ | .vsts _ | .vgather _ | .vscatter _ | .vldm _ | .vstm _ | .vcvtIn _ | .vcvtOut _ | .vcvtMxin _ | .vcvtMxout _
  | .vstream _ | .dmaCopy _ | .dmaFill _ | .dmaAccum _ | .tierAccumApply _ | .dmaPut _ | .dmaGet _ | .dmaSignal _ | .dmaComplete _ _
  | .dmaTimeout _ _ | .place _ | .battenWatchWake _ | .watchRetry _ | .owedCompletionWrite | .shadowWrite _ | .workItemRead _
  | .taskGrant _ | .taskFinish _ | .taskTimeout _ | .bankSwap | .heldWriteLand _ | .finalHoldExpiry _ | .junctionReserve _
  | .triggerLaunch _ | .triggerComplete _ | .collectiveTimeout _ | .portReset _ | .mailboxTimeout _ | .mailboxBadOpcode _ | .echo _
  | .info _ | .mergeWriteback _ _ _ | .cisternFail _ | .recordFlashCopy _ | .pilotFrame _ _ _ _ _ | .pilotLost _ | .feedOutOfSpec _
  | .feedInSpec _ | .holdEnd | .feedReturn | .powerLossStop | .busHoldupExhausted | .fastLimiterRelease | .capApply | .energyViewUpdate
  | .demandSnapshot | .energy _ | .snapshot _ | .power _ | .caps _ | .getVersion _ | .getCapabilities _ | .negotiateAlgorithms _ _
  | .getDigests _ | .getCertificate _ _ _ _ | .challenge _ _ _ | .getMeasurements _ _ _ | .keyExchange _ _ _ | .finish _ _ _ _
  | .heartbeat _ _ | .keyUpdate _ _ | .endSession _ _ | .keyDeliver _ _ _ | .bind _ | .unbind _ | .unbindClearDone _ | .bindStatus _
  | .keyStatus _ | .keyAdvance _ | .keyDrop _ | .keySlotAutoDestroy _ | .unsealBlob _ | .unsealComplete _ | .lockInterfaceRequest _ _ _
  | .getDeviceInterfaceReport _ _ | .stopInterfaceRequest _ _ | .tdiTlpViolation _ | .ideKm _ _ _ _ | .fabricKeyInstall _ _ _
  | .mgmtSessionOpen _ _ | .debugUnlock _ | .fuseProgramming _ | .forcedRecoveryBoot _ | .credentialReset | .presenceDeassert
  | .busPowerUp _ _ _ | .riderRelease | .consistencyCheck | .consistencyTimeout | .topologyCheck | .partReset _ | .partResetComplete _
  | .computeReset _ | .computeResetComplete | .abort _ | .abortFenceEnd _ | .abortWindowEnd _ | .abortQuiesceTimeout _
  | .partResetTimeout _ | .computeResetTimeout | .resetStatus _ | .restore _ | .topoRecheck _ | .fmapRead _ | .riderLoadWindow _
  | .riderWatchdogExpiry | .flashEraseDone _ | .updBegin _ | .updBlock _ | .stagingProgram | .updVerify _ | .updVerifyDone
  | .updActivate _ | .updStatus _ | .updCancel _ | .confirm _ | .trialConfirmTimer | .setRead _ | .setReset _ | .settingsSave
  | .dumpList _ | .dumpRead _ | .updateComponent _ _ | .requestFirmwareData _ _ _ | .transferComplete _ | .activateFirmware _ _
  | .telemetryFrame | .i3cEntdaa _ | .i3cRstdaa | .i3cBoardW _ | .i3cSnapshot | .modRstAssert _ | .slotIdChange _ | .jtagInstruction _
  | .modRstRelease | .tdiRunRequest _ _ | .trialReadyTimeout => true

end Sys2Proof
end

