-- ==== Sys2Proof/Certificates/Slice0/Obligations.lean ====
section
/-!
DEFINITION. Certificates/Slice0/Obligations.lean: the statements about the model, each `def Obligations.<Name> : Prop`, and the few
definitions in `Say` that they are written with.
-/
section Statements
open Sys2Proof Sys2Proof.Machine

/-! ## The machine as a whole -/

/-- A step takes the command at the front of the queue and runs it on the state with the queue's rest. Where the spec is silent it rests on the model's choices of log entry 1. -/
def Obligations.StepRunsFrontCommand : Prop :=
  ∀ (s : State) (c : Instr) (rest : List Instr), s.pending = c :: rest → step s = exec c { s with pending := rest }

/-- With no command waiting, a step meets the oldest error of an SRAM store, or serves the oldest request of a host that no command
carries, or lets one nanosecond pass (the model's choices, log entries 3, 9 and 99): where no load of the gauge is due, no feed path closes,
no operation under physical presence runs, no power-off waits, no link waits to be judged, no pause is to end and no frame waits for one, the clock advances by one and the gauge by one,
or by none or two where the rate correction has made up a nanosecond (R35); WRAPPED is set as the gauge passes from all ones to 0 (R31), and
nothing else changes. -/
def Obligations.EmptyQueueLetsANanosecondPass : Prop :=
  ∀ s : State, s.pending = [] →
    (∀ f fs, s.store.faults = f :: fs → step s = .next (({ s with store := { s.store with faults := fs } }).takeSram f)) ∧
    (∀ r rs, s.store.faults = [] → s.host.reqs = r :: rs → step s = .next (({ s with host := { s.host with reqs := rs } }).serveReq r)) ∧
    (s.store.faults = [] → s.host.reqs = [] → step s = .next s.tick) ∧
    (s.gauge.load = none → s.power.switching = none → s.sec.presence = [] → s.edge.offDue = false → s.rst.rejudge = [] → s.rider.pause = none →
      s.rider.frames = [] →
      let x := s.gauge.slew + s.gauge.rate
      let d : Nat := if 10 ^ 9 ≤ x then 2 else if x ≤ -10 ^ 9 then 0 else 1
      let t : State := { s with clock := s.clock + 1
                                gauge := { s.gauge with now := s.gauge.now + BitVec.ofNat 64 d, slew := x - ((d : Int) - 1) * 10 ^ 9 } }
      s.tick = if 2 ^ 64 ≤ s.gauge.now.toNat + d then t.setF GAUGE_STAT.WRAPPED 0 1 else t)

/-- Every command answers a next state, and leaves the queue of waiting commands alone. Where the spec is silent it rests on the model's choices of log entry 4. -/
def Obligations.EveryCommandCompletesAndKeepsTheQueue : Prop := ∀ (i : Instr) (s : State), ∃ t, exec i s = .next t ∧ t.pending = s.pending

/-- Every step keeps a sound state sound: memory, poison and registers in canonical form, the error log within 4,096 records (R364) and
the crash dumps within 16 (R442). -/
def Obligations.EveryStepKeepsSound : Prop := ∀ s t : State, Safety.Sound s → step s = .next t → Safety.Sound t

/-- The state after reset is sound and has no command waiting. -/
def Sys2Proof.Say.ResetIsSound : Prop := Safety.Sound State.reset ∧ State.reset.pending = []

namespace Sys2Proof.Say

/-- How many words an array of registers has. -/
def regWords (r : Reg) : Nat := (r.place.dims.map fun d => d.2).prod * r.place.words

/-- The distance from the array's first byte of its `i`-th register; the last index varies fastest. -/
def spread : List (Nat × Nat) → Nat → Nat
  | [], _ => 0
  | (st, _) :: ds, i => i / (ds.map fun d => d.2).prod * st + spread ds (i % (ds.map fun d => d.2).prod)

/-- The offset from 0x0300_0000_0000 of the `j`-th word of an array of registers. -/
def regOffset (r : Reg) (j : Nat) : Nat := r.place.base + spread r.place.dims (j / r.place.words) + 8 * (j % r.place.words)

end Sys2Proof.Say

/-- The register map is one to one: an offset of control space finds a word of a register exactly where it is that word's offset, for
every word of every register of the map. -/
def Obligations.RegisterMapRoundTrip : Prop :=
  ∀ (r : Reg) (j off : Nat), Reg.find off = some (r, j) ↔ j < Say.regWords r ∧ off = Say.regOffset r j

/-- The fields of every register lie within its words and do not overlap. -/
def Sys2Proof.Say.RegisterFieldsDoNotOverlap : Prop :=
  ∀ r : Reg, (∀ f ∈ r.fields, f.reg = r ∧ f.word < r.place.words ∧ 0 < f.w ∧ f.lo + f.w ≤ 64) ∧
    r.fields.Pairwise fun f g => f.word = g.word → f.lo + f.w ≤ g.lo ∨ g.lo + g.w ≤ f.lo

/-- A write of a field of a register reads back; every other field of that register, every other word of its array and every other
register keep their values, and so does memory. -/
def Sys2Proof.Say.FieldWriteReadsBack : Prop :=
  ∀ (s : State) (r : Reg) (f g : Fld) (i j v : Nat), f ∈ r.fields →
    (v < 2 ^ f.w → (s.setF f i v).getF f i = v) ∧
    (g ∈ r.fields → g ≠ f → (s.setF f i v).getF g i = s.getF g i) ∧
    (i ≠ j → (s.setF f i v).getF f j = s.getF f j) ∧
    (∀ q k, q ≠ r → (s.setF f i v).reg q k = s.reg q k) ∧ (∀ a, (s.setF f i v).byte a = s.byte a)

/-- Bytes put into memory read back, lowest address first, and no other byte changes; the number of little-endian bytes is the number
they were made of (R4). -/
def Sys2Proof.Say.MemoryReadsBackWhatWasPut : Prop :=
  (∀ (s : State) (a : Nat) (data : List Byte), (s.setBytes a data).bytes a data.length = data ∧
    ∀ x, x < a ∨ a + data.length ≤ x → (s.setBytes a data).byte x = s.byte x) ∧
  (∀ n v : Nat, v < 256 ^ n → leNat (leBytes n v) = v) ∧ (∀ l : List Byte, leBytes l.length (leNat l) = l)

/-- The reset values that the register tables give: the first value of each register that does not reset to all zeros, word 0. -/
def Sys2Proof.Say.ResetLeavesTheStatedValues : Prop :=
  let s := State.reset
  s.getF TOP_MSIZE.CORES = 2048 ∧ s.getF TOP_MSIZE.COURSE_K = 12 ∧ s.flag GAUGE_CTL.SYNC_EN ∧ s.flag GAUGE_CTL.ROOT_ELIG ∧
  s.getF GAUGE_STAT.PARENT_LINK = 0xFF ∧ s.getF GAUGE_STAT.ROOT_EPN = 0xFFFF ∧ s.getF CRS_CHG.K_NEXT = 12 ∧ s.getF CRS_CHG.K_PREV = 12 ∧
  s.getF TOP_CIL.MODE = 0 ∧ s.getF TOP_CIL.GRAN = 1 ∧
  (∀ i < 16, s.getF TSK_DMA_TMO.COURSES i = 0x400 ∧ s.flag TSK_SORD.RCACHE_EN i) ∧ s.getF TSK_TASK_TMO.COURSES = 0x1000 ∧
  s.getF RTE_SELF.EPN = 0xFFFF ∧ s.getF RTE_RSET_A.KGEN_RX = 1 ∧ s.getF RTE_SCHED_A.LINK = 0xFF ∧ s.getF RTE_SCHED_A.STRANDS = 0xF ∧
  s.getF COL_TMO.COURSES = 0x400 ∧ s.getF HIF_FN_B.CFREE 0x400 = 32 ∧ s.getF HIF_FN_B.CFREE 0x401 = 256 ∧
  s.getF MBX_BIND.IDENT 0 = 0x401 ∧ s.getF MBX_BIND.IDENT 1 = 0x402 ∧ s.getF MBX_BIND.IDENT 2 = 0 ∧ s.getF MBX_TMO.MS = 10 ∧
  s.getF ECC_THR.DIE_MARK = 0x1000 ∧ s.getF ECC_THR.ROW = 8 ∧ s.getF ECC_THR.CIS_FAIL = 0x400 ∧ s.getF SCRB_CTL.CIS_PASS_H = 24 ∧
  s.getF SCRB_CTL.TIER_PASS_MIN = 60 ∧ s.getF SCRB_CTL.SCR_PASS_MIN = 10 ∧ s.getF FEED_CTL.RETURN_MS = 500 ∧
  s.getF PWC_CTL.INTERVAL = 0x20 ∧ s.getF PWC_CTL.RAMP_RATE = 200 ∧ s.flag PWC_CTL.LEARN_EN ∧ s.getF PWC_CTL.RAMP_HOLD_MS = 1000 ∧
  s.getF PWC_DINT.PERIOD_S = 900 ∧ s.getF THM_SLATE.THR_C = 95 ∧ s.getF THM_CIS.THR_C = 85 ∧ s.getF BOOT_STAT.STAGE = 1 ∧
  s.getF BOOT_CTL.STAGGER_MS = 20 ∧ s.getF RST_JOB.ORIGIN = 0xFFFF ∧ s.getF RST_ESC.PART_N = 4 ∧ s.getF RST_ESC.PART_WIN_S = 60 ∧
  s.getF RST_ESC.MOD_N = 3 ∧ s.getF RST_ESC.MOD_WIN_MIN = 10 ∧ s.getF RDR_TELE.PERIOD_MS = 100 ∧ s.flag RDR_TELE.EN ∧ s.time = 0 ∧
  s.sec.bindings = [] ∧ (∀ n, s.getCore n = {})


/-! ## What the statements are written with -/

namespace Sys2Proof.Say

/-- The scalar unit of core `n` finds the instruction `f` at its PC, none of its clocks is stopped, the instruction is aligned, no
register that it names awaits a result, and no load or AMO before it is going to find poison (R90, R104, R108, R110). -/
def finds (s : State) (n : CoreId) (f : Fetch) (regs : List (BitVec 5)) : Bool :=
  (s.getCore n.toNat).fetches f && !s.power.stopped && !((s.getCore n.toNat).skewed f) && !(regs.any (s.getCore n.toNat).awaits) &&
    !(s.doomedBefore (s.getCore n.toNat) (s.getCore n.toNat).ids)

/-- Core `n` becomes `c`. -/
def core (s : State) (n : CoreId) (c : Core) : Host.Outcome State Fault Refusal := .next (s.setCore n.toNat c)

/-- Core `n` writes `v` to rd and retires an instruction of `words` words that costs one clock. -/
def writes (s : State) (n : CoreId) (rd : BitVec 5) (v : Word) (words : Nat := 1) : Host.Outcome State Fault Refusal :=
  core s n (((s.getCore n.toNat).setS rd.toNat v).retire words 1)

/-- Core `n` changes as `f` says and retires an instruction of one word and one clock. -/
def retires (s : State) (n : CoreId) (f : Core → Core) : Host.Outcome State Fault Refusal := core s n ((f (s.getCore n.toNat)).retire 1 1)

end Sys2Proof.Say

/-! ## Scalar instructions (04) -/

/-- The arithmetic and move instructions write rd with the result of R92 and R93, LIMM with its constant where its predicate holds; the PC
passes the instruction, which counts as retired, and nothing else changes. -/
def Sys2Proof.Say.ScalarArithmeticWritesRd : Prop :=
  ∀ (s : State) (n : CoreId) (rd rs1 rs2 : BitVec 5) (imm : BitVec 16) (func : BitVec 11) (pred : BitVec 3) (k : BitVec 48),
    let c := s.getCore n.toNat
    let a := c.sreg rs1.toNat
    let b := c.sreg rs2.toNat
    (∀ v, aluFn func.toNat a b = some v → (func.toNat < 0x018 ∨ rs2 = 0) → Say.finds s n { word := wordRR 0x00 rd rs1 rs2 func } [rd, rs1, rs2] →
      exec (.alu n rd rs1 rs2 func) s = Say.writes s n rd v) ∧
    (Say.finds s n { word := wordRI 0x01 rd rs1 imm } [rd, rs1] → exec (.addi n rd rs1 imm) s = Say.writes s n rd (a + imm.signExtend 64)) ∧
    (Say.finds s n { word := wordRI 0x02 rd rs1 imm } [rd, rs1] → exec (.andi n rd rs1 imm) s = Say.writes s n rd (a &&& imm.zeroExtend 64)) ∧
    (Say.finds s n { word := wordRI 0x03 rd rs1 imm } [rd, rs1] → exec (.ori n rd rs1 imm) s = Say.writes s n rd (a ||| imm.zeroExtend 64)) ∧
    (Say.finds s n { word := wordRI 0x04 rd rs1 imm } [rd, rs1] → exec (.xori n rd rs1 imm) s = Say.writes s n rd (a ^^^ imm.zeroExtend 64)) ∧
    (Say.finds s n { word := wordRR 0x05 rd rs1 0 func } [rd, rs1] → func.toNat < 0x040 →
      exec (.shifti n rd rs1 0 func) s = Say.writes s n rd (a <<< (func.toNat % 64))) ∧
    (Say.finds s n { word := wordRR 0x05 rd rs1 0 func } [rd, rs1] → 0x040 ≤ func.toNat → func.toNat < 0x080 →
      exec (.shifti n rd rs1 0 func) s = Say.writes s n rd (a >>> (func.toNat % 64))) ∧
    (Say.finds s n { word := wordRR 0x05 rd rs1 0 func } [rd, rs1] → 0x080 ≤ func.toNat → func.toNat < 0x0C0 →
      exec (.shifti n rd rs1 0 func) s = Say.writes s n rd (a.sshiftRight (func.toNat % 64))) ∧
    (Say.finds s n { word := wordRI 0x06 rd rs1 imm } [rd, rs1] →
      exec (.slti n rd rs1 imm) s = Say.writes s n rd (if a.toInt < (imm.signExtend 64).toInt then 1 else 0)) ∧
    (Say.finds s n { word := wordRI 0x07 rd 0 imm } [rd] → exec (.lui n rd 0 imm) s = Say.writes s n rd (imm.signExtend 64 <<< 16)) ∧
    (Say.finds s n { word := wordRI 0x08 rd rs1 imm } [rd, rs1] → exec (.shin n rd rs1 imm) s = Say.writes s n rd ((a <<< 16) ||| imm.zeroExtend 64)) ∧
    (Say.finds s n { word := wordRR 0x2C rd rs1 rs2 func } [rd, rs1, rs2] → func.toNat < 8 →
      exec (.sel n rd rs1 rs2 func) s = Say.writes s n rd (if c.pred func.toNat then a else b)) ∧
    (Say.finds s n { word := 0x3C * 2 ^ 26 + pred.toNat * 2 ^ 23 + (k.toNat >>> 32) * 2 ^ 5 + rd.toNat, second := some (k.toNat % 2 ^ 32) } [rd] →
      exec (.limm n pred rd 0 k) s = if c.pred pred.toNat then Say.writes s n rd (k.signExtend 64) 2 else Say.core s n (c.retire 2 1))

/-- DIV, DIVU, REM and REMU never fault (R94): a quotient by zero is all ones, a remainder by zero is rs1, the most negative number over
minus one gives itself and remainder zero; elsewhere the signed quotient is truncated and the remainder has the sign of rs1. -/
def Obligations.DivisionNeverFaults : Prop :=
  (∀ (s : State) (n : CoreId) (rd rs1 rs2 : BitVec 5) (func : BitVec 11), 0x014 ≤ func.toNat → func.toNat ≤ 0x017 →
    Say.finds s n { word := wordRR 0x00 rd rs1 rs2 func } [rd, rs1, rs2] →
    ∃ v, aluFn func.toNat ((s.getCore n.toNat).sreg rs1.toNat) ((s.getCore n.toNat).sreg rs2.toNat) = some v ∧
      exec (.alu n rd rs1 rs2 func) s = Say.writes s n rd v) ∧
  (∀ a : Word, aluFn 0x014 a 0 = some (-1) ∧ aluFn 0x015 a 0 = some (BitVec.ofNat 64 (2 ^ 64 - 1)) ∧ aluFn 0x016 a 0 = some a ∧
    aluFn 0x017 a 0 = some a) ∧
  aluFn 0x014 (BitVec.intMin 64) (-1) = some (BitVec.intMin 64) ∧ aluFn 0x016 (BitVec.intMin 64) (-1) = some 0 ∧
  (∀ a b q r : Word, b ≠ 0 → ¬(a = BitVec.intMin 64 ∧ b = -1) → aluFn 0x014 a b = some q → aluFn 0x016 a b = some r →
    q.toInt = a.toInt.tdiv b.toInt ∧ r.toInt = a.toInt.tmod b.toInt) ∧
  (∀ a b q r : Word, b ≠ 0 → aluFn 0x015 a b = some q → aluFn 0x017 a b = some r →
    q.toNat = a.toNat / b.toNat ∧ r.toNat = a.toNat % b.toNat)

/-- MUL gives the low 64 bits of the product, MULH the high 64 bits of the signed product and MULHU those of the unsigned one (R93): the
low and the high word together are the exact product. -/
def Sys2Proof.Say.ProductIsExact : Prop :=
  ∀ a b lo hi hu : Word, aluFn 0x010 a b = some lo → aluFn 0x011 a b = some hi → aluFn 0x012 a b = some hu →
    hi.toInt * 2 ^ 64 + lo.toNat = a.toInt * b.toInt ∧ hu.toNat * 2 ^ 64 + lo.toNat = a.toNat * b.toNat

/-- Compares and predicate logic write one predicate, PTOS and STOP move all; ESET, ECLR and ETST set, clear and test the event flags; CWR
reads a control word, CWW writes NSTAT, SRSEED, SRTILE or PHASE; SYS.NOP changes nothing else and SYS.IINV empties the instruction cache. -/
def Sys2Proof.Say.PredicateAndControlEffects : Prop :=
  ∀ (s : State) (n : CoreId) (rd rs1 rs2 : BitVec 5) (imm : BitVec 16) (func : BitVec 11),
    let c := s.getCore n.toNat
    let a := c.sreg rs1.toNat
    (Say.finds s n { word := wordRR 0x09 rd rs1 rs2 func } [rs1, rs2] → rd.toNat < 8 → func.toNat < 64 → func.toNat % 8 < 6 →
      exec (.cmp n rd rs1 rs2 func) s =
        Say.retires s n fun c => c.setP rd.toNat (cond (func.toNat % 8) a (c.sreg rs2.toNat) && c.pred (func.toNat / 8))) ∧
    (Say.finds s n { word := wordRI 0x0A rd rs1 imm } [rs1] →
      exec (.cmpi n rd rs1 imm) s = Say.retires s n fun c => c.setP (rd.toNat % 8) (cond (rd.toNat / 8) a (imm.signExtend 64))) ∧
    (Say.finds s n { word := wordRR 0x0B rd rs1 rs2 func } [] → rd.toNat < 8 → rs1.toNat < 8 → rs2.toNat < 8 → func.toNat < 4 →
      exec (.plog n rd rs1 rs2 func) s = Say.retires s n fun c => c.setP rd.toNat (plogFn func.toNat (c.pred rs1.toNat) (c.pred rs2.toNat))) ∧
    (Say.finds s n { word := wordRR 0x0B rd rs1 0 4 } [] → rd.toNat < 8 → rs1.toNat < 8 →
      exec (.plog n rd rs1 0 4) s = Say.retires s n fun c => c.setP rd.toNat (!c.pred rs1.toNat)) ∧
    (Say.finds s n { word := wordRR 0x0B rd 0 0 0x010 } [rd] →
      exec (.plog n rd 0 0 0x010) s = Say.writes s n rd (BitVec.ofNat 64 (c.p ||| 1).toNat)) ∧
    (Say.finds s n { word := wordRR 0x0B 0 rs1 0 0x011 } [rs1] →
      exec (.plog n 0 rs1 0 0x011) s = Say.retires s n fun c => { c with p := BitVec.ofNat 8 a.toNat ||| 1 }) ∧
    (Say.finds s n { word := wordRI 0x27 0 0 imm } [] → c.sb = [] →
      exec (.eset n 0 0 imm) s = Say.retires s n fun c => { c with e := c.e ||| imm }) ∧
    (Say.finds s n { word := wordRI 0x27 0 0 imm } [] → c.sb ≠ [] →
      exec (.eset n 0 0 imm) s = Say.retires s n fun c => { c with sb := c.sb ++ [SbItem.eset c.ids imm] }) ∧
    (Say.finds s n { word := wordRI 0x28 0 0 imm } [] → exec (.eclr n 0 0 imm) s = Say.retires s n fun c => c.clearFlags imm) ∧
    (Say.finds s n { word := wordRI 0x29 rd 0 imm } [] → rd.toNat < 8 →
      exec (.etst n rd 0 imm) s = Say.retires s n fun c => { c.setP rd.toNat ((c.view &&& imm) != 0) with rcache := [] }) ∧
    (Say.finds s n { word := wordRR 0x24 rd 0 0 func } [rd] → func.toNat ≤ 0x00E → func.toNat ≠ 0x005 →
      ∃ v, s.controlWord n.toNat c func.toNat = some v ∧ exec (.cwr n rd 0 0 func) s = Say.writes s n rd (BitVec.ofNat 64 v)) ∧
    (Say.finds s n { word := wordRR 0x25 0 rs1 0 func } [rs1] → func.toNat ≤ 0x00E →
      exec (.cww n 0 rs1 0 func) s = Say.retires s n fun c =>
        match func.toNat with
        | 0x008 => { c with nstat := c.nstat &&& ~~~(BitVec.ofNat 4 a.toNat) }
        | 0x009 => { c with srseed := a }
        | 0x00A => { c with srtile := BitVec.ofNat 64 (a.toNat % 2 ^ 32) }
        | 0x00B => { c with phase := BitVec.ofNat 8 a.toNat }
        | _ => c) ∧
    (Say.finds s n (sysFetch 0) [] → exec (.sysNop n) s = Say.retires s n id) ∧
    (Say.finds s n (sysFetch 3) [] → exec (.sysIinv n) s = Say.core s n ({ c with icache := [] }.retire 1 4))

/-- JAL and JALR write the address after themselves and go to their target; a branch goes to its own address plus four times its offset
where its condition holds, and else to the next instruction (R92, R105). -/
def Sys2Proof.Say.JumpsAndBranchesMoveThePc : Prop :=
  ∀ (s : State) (n : CoreId) (rd rs1 : BitVec 5) (imm : BitVec 16) (far : BitVec 21),
    let c := s.getCore n.toNat
    let a := c.sreg rd.toNat
    let b := c.sreg rs1.toNat
    let goes (t : Word) (c : Core) : Core :=
      { c with pc := t.toNat, retired := c.retired + 1, cycle := c.cycle + 3, ids := c.ids + 1 }
    let branch (taken : Bool) : Host.Outcome State Fault Refusal :=
      Say.core s n (if taken then goes (BitVec.ofNat 64 c.pc + 4 * imm.signExtend 64) c else c.retire 1 1)
    (Say.finds s n { word := wordJ 0x1B rd far } [rd] →
      exec (.jal n rd far) s =
        Say.core s n (goes (BitVec.ofNat 64 c.pc + 4 * far.signExtend 64) (c.setS rd.toNat (BitVec.ofNat 64 (c.pc + 4))))) ∧
    (Say.finds s n { word := wordRI 0x1C rd rs1 imm } [rd, rs1] → (b + imm.signExtend 64).toNat % 4 = 0 →
      exec (.jalr n rd rs1 imm) s = Say.core s n (goes (b + imm.signExtend 64) (c.setS rd.toNat (BitVec.ofNat 64 (c.pc + 4))))) ∧
    (Say.finds s n { word := wordRI 0x1C rd rs1 imm } [rd, rs1] → (b + imm.signExtend 64).toNat % 4 ≠ 0 →
      exec (.jalr n rd rs1 imm) s = .next (s.scalarFault n.toNat [.align] (b + imm.signExtend 64).toNat 0)) ∧
    (Say.finds s n { word := wordRI 0x1D rd rs1 imm } [rd, rs1] → exec (.beq n rd rs1 imm) s = branch (decide (a = b))) ∧
    (Say.finds s n { word := wordRI 0x1E rd rs1 imm } [rd, rs1] → exec (.bne n rd rs1 imm) s = branch (decide (a ≠ b))) ∧
    (Say.finds s n { word := wordRI 0x1F rd rs1 imm } [rd, rs1] → exec (.blt n rd rs1 imm) s = branch (decide (a.toInt < b.toInt))) ∧
    (Say.finds s n { word := wordRI 0x20 rd rs1 imm } [rd, rs1] → exec (.bge n rd rs1 imm) s = branch (decide (b.toInt ≤ a.toInt))) ∧
    (Say.finds s n { word := wordRI 0x21 rd rs1 imm } [rd, rs1] → exec (.bltu n rd rs1 imm) s = branch (decide (a.toNat < b.toNat))) ∧
    (Say.finds s n { word := wordRI 0x22 rd rs1 imm } [rd, rs1] → exec (.bgeu n rd rs1 imm) s = branch (decide (b.toNat ≤ a.toNat))) ∧
    (Say.finds s n { word := wordRI 0x23 rd 0 imm } [] → bit rd 3 = false → exec (.bp n rd 0 imm) s = branch (c.pred (rd.toNat % 8) != bit rd 4))

/-- What the scalar instructions of the three statements above leave alone, whatever they meet but a fault, of their own or of the fetch: every other core, every
register, every byte of memory and every granule's poison; in their own core everything but the PC, the counts, and the register,
predicate, flag, control word or cache that the instruction writes. -/
def Sys2Proof.Say.ScalarInstructionFrame : Prop :=
  ∀ (s t : State) (n : CoreId) (rd rs1 rs2 : BitVec 5) (imm : BitVec 16) (func : BitVec 11) (far : BitVec 21) (pred : BitVec 3) (k : BitVec 48)
    (i : Instr),
    i ∈ [.alu n rd rs1 rs2 func, .addi n rd rs1 imm, .andi n rd rs1 imm, .ori n rd rs1 imm, .xori n rd rs1 imm, .slti n rd rs1 imm,
      .shin n rd rs1 imm, .limm n pred rd 0 k, .cmpi n rd rs1 imm, .jal n rd far, .beq n rd rs1 imm, .bne n rd rs1 imm, .blt n rd rs1 imm,
      .bge n rd rs1 imm, .bltu n rd rs1 imm, .bgeu n rd rs1 imm, .sysNop n] →
    (i = .limm n pred rd 0 k → (s.getCore n.toNat).pc % 8 ≠ 4) → (i = .alu n rd rs1 rs2 func → aluLegal func.toNat rs2) →
    s.fetchFault? n.toNat = none → exec i s = .next t →
    (∀ m, m ≠ n.toNat → t.getCore m = s.getCore m) ∧ (∀ r j, t.reg r j = s.reg r j) ∧ (∀ x, t.byte x = s.byte x) ∧
    (∀ x, t.poisoned x = s.poisoned x) ∧ t.store = s.store ∧ t.out = s.out ∧
    (∀ r, r ≠ rd.toNat → (t.getCore n.toNat).sreg r = (s.getCore n.toNat).sreg r) ∧
    (t.getCore n.toNat).v = (s.getCore n.toNat).v ∧ (t.getCore n.toNat).m = (s.getCore n.toNat).m ∧
    (t.getCore n.toNat).wa0 = (s.getCore n.toNat).wa0 ∧ (t.getCore n.toNat).wa1 = (s.getCore n.toNat).wa1 ∧
    (t.getCore n.toNat).e = (s.getCore n.toNat).e ∧ (t.getCore n.toNat).sb = (s.getCore n.toNat).sb ∧
    (t.getCore n.toNat).mq = (s.getCore n.toNat).mq ∧ (t.getCore n.toNat).vq = (s.getCore n.toNat).vq ∧
    (t.getCore n.toNat).dq = (s.getCore n.toNat).dq

/-! ## Scalar loads, stores, atomics, battens and waits (04, 07, 08) -/

/-- A load at an aligned, granted address with one of the eight places free takes a place and retires (R95, R104); one that raises causes
faults; nothing but its core changes where it takes its place. -/
def Sys2Proof.Say.LoadsTakeAPlace : Prop :=
  ∀ (s : State) (n : CoreId) (rd rs1 : BitVec 5) (imm : BitVec 16) (major size : Nat) (signed vol : Bool) (i : Instr),
    (i, major, size, signed, vol) ∈
      [(Instr.ldD n rd rs1 imm, 0x0C, 8, false, false), (.ldW n rd rs1 imm, 0x0D, 4, true, false), (.ldWu n rd rs1 imm, 0x0E, 4, false, false),
       (.ldH n rd rs1 imm, 0x0F, 2, true, false), (.ldHu n rd rs1 imm, 0x10, 2, false, false), (.ldB n rd rs1 imm, 0x11, 1, true, false),
       (.ldBu n rd rs1 imm, 0x12, 1, false, false), (.ldvD n rd rs1 imm, 0x17, 8, false, true), (.ldvW n rd rs1 imm, 0x18, 4, false, true)] →
    Say.finds s n { word := wordRI major rd rs1 imm } [rd, rs1] →
    let c := s.getCore n.toNat
    let a := (c.sreg rs1.toNat + imm.signExtend 64).toNat
    c.loads.length < 8 →
    (s.accessFaults c a size false = [] →
      exec i s = Say.retires s n fun c =>
        { c with out := c.out ++ [⟨c.ids, c.pc, wordRI major rd rs1 imm, .load rd.toNat a size signed vol (c.cacheHit a size vol)⟩] }) ∧
    (∀ x xs, s.accessFaults c a size false = x :: xs → exec i s = .next (s.scalarFault n.toNat (x :: xs) a 0))

/-- An access raises ALIGN off its natural alignment, ADDR at no byte of the map, ACCESS outside its partition's grant, and nothing
elsewhere (R95, R110, R157). -/
def Sys2Proof.Say.AccessChecks : Prop :=
  ∀ (s : State) (c : Core) (a size : Nat), 0 < size →
    (a % size ≠ 0 → FaultCause.align ∈ s.accessFaults c a size false) ∧
    (region a = .none ∨ 2 ^ 42 ≤ a → FaultCause.addr ∈ s.accessFaults c a size false) ∧
    (region a = .cistern ∨ region a = .tier ∨ region a = .scratch →
      (s.granted c.part a = false ↔ FaultCause.access ∈ s.accessFaults c a size false)) ∧
    (a % size = 0 → region a = .cistern ∨ region a = .tier ∨ region a = .scratch → s.granted c.part a → s.accessFaults c a size false = [])

/-- A load's result returns where no load or AMO before it is going to fault: its register takes the little-endian bytes at its address with
the core's earlier buffered stores laid over, sign- or zero-extended, its place is free, and no byte of memory changes (R95, R105, R110, R180). -/
def Sys2Proof.Say.LoadReturnsTheBytes : Prop :=
  ∀ (s : State) (n : CoreId) (idx : Nat) (o : Outst) (rd a size : Nat) (signed vol : Bool),
    let c := s.getCore n.toNat
    s.power.stopped = false → c.out[idx]? = some o → o.op = .load rd a size signed vol none → 0 < rd → c.mayServe o → s.doomedBefore c o.ord = false → region a ≠ .control →
    (s.noteRead a size).poisoned a = false →
    ∃ t, exec (.loadReturn n idx) s = .next t ∧
      (t.getCore n.toNat).sreg rd = extend (leNat (s.overlay c o.ord a size)) size signed ∧
      (t.getCore n.toNat).out = c.out.filter (fun x => x.ord != o.ord) ∧ (∀ x, t.byte x = s.byte x)

/-- An atomic at an aligned, granted address of memory takes a place, drops its line from the read cache and retires; as its result
returns, rd takes the old value and the location the new one, and no other byte of memory changes (R96). -/
def Sys2Proof.Say.AtomicsReadAndWriteTogether : Prop :=
  (∀ (s : State) (n : CoreId) (rd rs1 rs2 : BitVec 5) (func : BitVec 11),
    Say.finds s n { word := wordRR 0x19 rd rs1 rs2 func } [rd, rs1, rs2] → func.toNat < 32 → func.toNat % 8 ≤ 4 →
    let c := s.getCore n.toNat
    let a := (c.sreg rs1.toNat).toNat
    c.loads.length < 8 → s.accessFaults c a (if bit func 3 then 4 else 8) true = [] →
      exec (.amo n rd rs1 rs2 func) s = Say.retires s n fun c =>
        { c with out := c.out ++ [⟨c.ids, c.pc, wordRR 0x19 rd rs1 rs2 func, .amo rd.toNat a func.toNat (c.sreg rs2.toNat) (c.sreg rd.toNat)⟩],
                 rcache := SMap.erase c.rcache (a / 64) }) ∧
  (∀ (s : State) (n : CoreId) (idx : Nat) (o : Outst) (rd a func : Nat) (operand comparand : Word),
    let c := s.getCore n.toNat
    let size := if func.testBit 3 then 4 else 8
    s.power.stopped = false → c.out[idx]? = some o → o.op = .amo rd a func operand comparand → 0 < rd → c.mayServe o → s.doomedBefore c o.ord = false →
    (s.fillAmo a).poisoned a = false →
    ∃ t, exec (.loadReturn n idx) s = .next t ∧
      (t.getCore n.toNat).sreg rd = BitVec.ofNat 64 (leNat (s.bytes a size)) ∧
      t.bytes a size = leBytes size (amoFn func (8 * size) (leNat (s.bytes a size)) operand.toNat comparand.toNat) ∧
      ∀ x, x < a ∨ a + size ≤ x → t.byte x = s.byte x)

/-- The new value of an atomic: add, minimum and maximum by func[4] signed or unsigned, swap, and compare and swap (R96). -/
def Sys2Proof.Say.AtomicFunctions : Prop :=
  ∀ old x c : Nat, old < 2 ^ 64 → x < 2 ^ 64 → c < 2 ^ 64 →
    amoFn 0 64 old x c = (old + x) % 2 ^ 64 ∧
    (signedOf 64 (amoFn 1 64 old x c) = min (signedOf 64 old) (signedOf 64 x)) ∧
    (signedOf 64 (amoFn 2 64 old x c) = max (signedOf 64 old) (signedOf 64 x)) ∧
    amoFn 0x11 64 old x c = min old x ∧ amoFn 0x12 64 old x c = max old x ∧ amoFn 3 64 old x c = x ∧
    amoFn 4 64 old x c = (if old = c then x else old)

/-- A store at an aligned, granted address takes one of the eight entries of the store buffer and retires, with memory unchanged; as it
reaches home the bytes at its address are the low bytes of its register, lowest first, and no other byte changes (R4, R95, R180). -/
def Sys2Proof.Say.StoresReachHome : Prop :=
  (∀ (s : State) (n : CoreId) (rd rs1 : BitVec 5) (imm : BitVec 16) (major size : Nat) (i : Instr),
    (i, major, size) ∈ [(Instr.stD n rd rs1 imm, 0x13, 8), (.stW n rd rs1 imm, 0x14, 4), (.stH n rd rs1 imm, 0x15, 2), (.stB n rd rs1 imm, 0x16, 1)] →
    Say.finds s n { word := wordRI major rd rs1 imm } [rd, rs1] →
    let c := s.getCore n.toNat
    let a := (c.sreg rs1.toNat + imm.signExtend 64).toNat
    c.stores.length < 8 →
    (s.accessFaults c a size false = [] →
      exec i s = Say.retires s n fun c =>
        { c.writeLine a size (c.sreg rd.toNat) with sb := c.sb ++ [SbItem.store c.ids a size (c.sreg rd.toNat)] }) ∧
    (∀ x xs, s.accessFaults c a size false = x :: xs → exec i s = .next (s.scalarFault n.toNat (x :: xs) a 0))) ∧
  (∀ (s : State) (n : CoreId), s.power.stopped = false → s.drainable (s.getCore n.toNat) ≠ [] →
    ∃ o a size d t, SbItem.store o a size d ∈ s.drainable (s.getCore n.toNat) ∧ exec (.storeReachHome n) s = .next t ∧
      (region a ≠ .control → (∀ i ∈ (t.getCore n.toNat).sb, i.ord ≠ o) ∧ t.bytes a size = leBytes size d.toNat ∧
        ∀ x, x < a ∨ a + size ≤ x → t.byte x = s.byte x))

/-- A held ESET with no store before it, and no load or AMO before it that is going to fault, sets its flags; a held batten change so placed
changes its batten, and its result is the count before (R110, R184, R208). -/
def Sys2Proof.Say.HeldChangesApplyInOrder : Prop :=
  ∀ (s : State) (n : CoreId) (o : Nat) (m : BitVec 16) (rest : List SbItem),
    let c := s.getCore n.toNat
    s.power.stopped = false → s.doomedBefore c o = false →
    (c.sb = .eset o m :: rest → c.wait = .none →
      exec (.heldSetApply n) s = Say.core s n { c with sb := rest, e := c.e ||| m }) ∧
    (∀ x rd func b operand r, c.sb = .btn o :: rest → c.out.find? (fun x => x.ord == o) = some x → x.op = .btn rd func b operand r →
      func = 1 ∨ func = 2 →
      ∃ t, exec (.heldSetApply n) s = .next t ∧
        t.batten b = (if func = 1 then (s.batten b + operand) % 2 ^ 32 else operand % 2 ^ 32) ∧ (∀ k, k ≠ b → t.batten k = s.batten k) ∧
        ∀ y ∈ (t.getCore n.toNat).out, y.ord = o → y.op = .btn rd func b operand (some (s.batten b)))

/-- BTN.RD, BTN.ADD, BTN.SET and BTN.TEST of a batten of the partition's slates take their place in program order, the changes behind the
stores before them; a read returns the count and a test the signed distance past its operand (R207, R208); outside the partition they fault. -/
def Sys2Proof.Say.BattenInstructions : Prop :=
  ∀ (s : State) (n : CoreId) (rd rs1 rs2 : BitVec 5) (func : Nat) (i : Instr),
    (i, func) ∈ [(Instr.btnRd n rd rs1 rs2, 0), (.btnAdd n rd rs1 rs2, 1), (.btnSet n rd rs1 rs2, 2), (.btnTest n rd rs1 rs2, 4)] →
    Say.finds s n { word := wordRR 0x2A rd rs1 rs2 (BitVec.ofNat 11 func) } [rd, rs1, rs2] →
    let c := s.getCore n.toNat
    let b := (c.sreg rs1.toNat).toNat % 2 ^ 16
    let x := (c.sreg rs2.toNat).toNat % 2 ^ 32
    ((s.slatesOf c.part).testBit (b / 4096) = true → (func = 1 → 1 ≤ x ∧ x ≤ 0x7FFF_FFFF) →
      exec i s = Say.retires s n fun c =>
        { c with out := c.out ++ [⟨c.ids, c.pc, wordRR 0x2A rd rs1 rs2 (BitVec.ofNat 11 func), .btn rd.toNat func b x none⟩],
                 sb := c.sb ++ if func = 1 ∨ func = 2 then [SbItem.btn c.ids] else [] }) ∧
    ((s.slatesOf c.part).testBit (b / 4096) = false → (func = 1 → 1 ≤ x ∧ x ≤ 0x7FFF_FFFF) →
      exec i s = .next (s.scalarFault n.toNat [.access] 0 0)) ∧
    ((s.slatesOf c.part).testBit (b / 4096) = true → func = 1 → ¬(1 ≤ x ∧ x ≤ 0x7FFF_FFFF) →
      exec i s = .next (s.scalarFault n.toNat [.illegal] 0 0))

/-- The result of a batten operation reaches rd: the count for a read, the signed distance of the count past the operand for a test, the
count before it for a change that has been applied; the read cache is empty after it (R179, R207, R208). -/
def Sys2Proof.Say.BattenResultsReturn : Prop :=
  ∀ (s : State) (n : CoreId) (idx : Nat) (o : Outst) (rd func b operand : Nat) (r : Option Nat),
    let c := s.getCore n.toNat
    s.power.stopped = false → c.out[idx]? = some o → o.op = .btn rd func b operand r → 0 < rd → (func = 0 ∧ r = none ∨ func = 4 ∧ r = none ∨ r.isSome) →
    s.doomedBefore c o.ord = false →
    ∃ t, exec (.loadReturn n idx) s = .next t ∧ (t.getCore n.toNat).rcache = [] ∧
      (t.getCore n.toNat).sreg rd = (match r with
        | some x => BitVec.ofNat 64 x
        | none => if func = 4 then BitVec.ofInt 64 (serialDiff 32 (s.batten b) operand) else BitVec.ofNat 64 (s.batten b)) ∧
      ∀ k, t.batten k = s.batten k

/-- EWAIT goes on where its flags are set, FENCE where what it names is empty, and each else waits; a clearing EWAIT clears what it took
unless an engine takes it first, and the heads that wait on those flags without clearing them are met with it (R106, R107, R188). SYS.DONE waits for TASK_FINISH and SYS.TRAP faults with its code (R110, R114). -/
def Sys2Proof.Say.WaitsAndTraps : Prop :=
  ∀ (s : State) (n : CoreId) (rd rs1 : BitVec 5) (imm : BitVec 16) (func : BitVec 11),
    let c := s.getCore n.toNat
    let seen := (if bit rd 1 then c.view &&& ~~~c.claimed else c.view) &&& imm
    let met := if bit rd 0 then seen != 0 else seen == imm
    (Say.finds s n { word := wordRI 0x26 rd 0 imm } [] → rd.toNat < 4 → imm ≠ 0 →
      exec (.ewait n rd 0 imm) s =
        if met then Say.retires s n fun c => { (if bit rd 1 then (c.meetHeads seen).clearFlags seen else c) with rcache := [] }
        else Say.core s n { c with wait := .ewait imm (bit rd 0) (bit rd 1) }) ∧
    (Say.finds s n { word := wordRR 0x1A 0 0 0 func } [] → func.toNat < 32 →
      exec (.fence n 0 0 0 func) s =
        if c.fenceMet func.toNat then Say.retires s n fun c => if bit func 3 || bit func 4 then { c with rcache := [] } else c
        else Say.core s n { c with wait := .fence func.toNat }) ∧
    (Say.finds s n (sysFetch1 1 rs1) [rs1] →
      exec (.sysDone n rs1) s = Say.core s n { c with wait := .done ((c.sreg rs1.toNat).toNat % 2 ^ 8) }) ∧
    (Say.finds s n (sysFetch1 2 rs1) [rs1] →
      exec (.sysTrap n rs1) s = .next (s.scalarFault n.toNat [.trap] 0 ((c.sreg rs1.toNat).toNat % 2 ^ 16)))

/-- BTN.WAIT registers its watch and stalls the core (R211); the watch is met at once where the count has reached its target. -/
def Sys2Proof.Say.BattenWaitRegistersItsWatch : Prop :=
  ∀ (s : State) (n : CoreId) (rd rs1 rs2 : BitVec 5),
    let c := s.getCore n.toNat
    let b := (c.sreg rs1.toNat).toNat % 2 ^ 16
    let w : Watch := ⟨.core n.toNat, b, (c.sreg rs2.toNat).toNat % 2 ^ 32, 0⟩
    Say.finds s n { word := wordRR 0x2A rd rs1 rs2 3 } [rd, rs1, rs2] → (s.slatesOf c.part).testBit (b / 4096) = true →
    ∃ t, exec (.btnWait n rd rs1 rs2) s = .next t ∧ t.getCore n.toNat = { c with wait := .btnWait rd.toNat } ∧
      (if serialDiff 32 (s.batten b) w.target ≥ 0 then (∃ x ∈ t.task.met, x.watch = w) else w ∈ t.task.watches) ∧ ∀ k, t.batten k = s.batten k

/-- A miss of the instruction cache brings in its line as scratch holds it, and the next line is prefetched where it is not there (R108). -/
def Sys2Proof.Say.InstructionCacheFills : Prop :=
  ∀ (s : State) (n : CoreId) (line : BitVec 15),
    let c := s.getCore n.toNat
    let a := scratchOf n.toNat + 64 * line.toNat
    s.power.stopped = false → c.busy → c.pc / 64 = line.toNat → SMap.find? c.icache line.toNat = none → s.poisoned a = false →
    ∃ t, exec (.icacheFill n line) s = .next t ∧
      SMap.find? (t.getCore n.toNat).icache line.toNat = some (BitVec.ofNat 512 (leNat (s.bytes a 64))) ∧
      (line.toNat + 1 < 2 ^ 15 → SMap.find? c.icache (line.toNat + 1) = none → s.poisoned (a + 64) = false →
        SMap.find? (t.getCore n.toNat).icache (line.toNat + 1) = some (BitVec.ofNat 512 (leNat (s.bytes (a + 64) 64)))) ∧
      (∀ x, t.byte x = s.byte x) ∧ ∀ m, m ≠ n.toNat → t.getCore m = s.getCore m

/-- A core fault that an event brings is taken: HW of a unit at any time, TIMEOUT of a task at its limit, EXT_ABORT while the job is in its abort
window, and for every other cause the fault that stands at the unit, which is the FETCH of a PC past the end of scratch, the ILLEGAL of a word
that no table defines, or the refusal of a queue's head. HW, TIMEOUT and EXT_ABORT are not precise and record ADDR 0; TIMEOUT and EXT_ABORT
record the scalar unit. MORE counts the faults that arise while the core carries out R111 (R92, R108, R110 to R113). -/
def Sys2Proof.Say.CoreFaultIsTaken : Prop :=
  ∀ (s : State) (n : CoreId) (e : Engine) (later : Nat),
    let c := s.getCore n.toNat
    let late (cause : FaultCause) (e : Engine) (pc : Nat) (f : CoreFaultInfo) : Prop :=
      f.cause = cause ∧ f.engine = e ∧ f.pc = pc ∧ f.instr = s.wordAt n.toNat pc ∧ f.precise = false ∧ f.trap = 0 ∧ f.addr = 0 ∧ f.more = later
    let taken (cause : FaultCause) (is : CoreFaultInfo → Prop) : Prop :=
      ∃ f, exec (.coreFault n cause e later) s = .next (s.takeFault n.toNat f) ∧ is f
    (∀ q qs, e = .matrix → c.mrun = q :: qs → taken .hw (late .hw .matrix q.pc)) ∧
    (∀ q qs, e = .vector → c.vrun = q :: qs → taken .hw (late .hw .vector q.pc)) ∧
    (e = .scalar ∨ e = .dma → taken .hw (late .hw .scalar c.pc)) ∧
    (∀ t, c.task = some t → t.limit ≤ t.courses → taken .timeout (late .timeout .scalar c.pc)) ∧
    ((s.abortWin c.job).isSome → taken .extAbort (late .extAbort .scalar c.pc)) ∧
    (∀ f, s.standingAt n.toNat e = some f → f.cause ∉ [FaultCause.hw, .timeout, .extAbort] → taken f.cause (fun g => g = { f with more := f.more + later })) ∧
    (c.busy → c.wait = .none → 2 ^ 21 ≤ c.pc → e = .scalar → taken .fetch fun f => f.cause = .fetch ∧ f.engine = .scalar ∧ f.precise = true ∧ f.pc = c.pc) ∧
    (∀ w, c.busy → c.wait = .none → c.pc < 2 ^ 21 → c.cachedWord c.pc = some w → reservedWord w = true → e = .scalar →
      taken .illegal fun f => f.cause = .illegal ∧ f.engine = .scalar ∧ f.precise = true ∧ f.pc = c.pc ∧ f.instr = w)

/-- The words that no opcode table defines: the majors 0x2D to 0x37, 0x3B and 0x3D to 0x3F, the functions of SYS past 3 and of BTN past 4
(R92, R208). -/
def Sys2Proof.Say.ReservedWords : Prop :=
  ∀ w : BitVec 32,
    let major := (w.extractLsb' 26 6).toNat
    let func := (w.extractLsb' 0 11).toNat
    reservedWord w.toNat = true ↔
      (0x2D ≤ major ∧ major ≤ 0x37) ∨ major = 0x3B ∨ 0x3D ≤ major ∨ (major = 0x2B ∧ 3 < func) ∨ (major = 0x2A ∧ 4 < func)

/-- A fault of a busy core stops it with the fault that ranks first of those standing at its units in that clock, MORE counting the others, and
raises the job's abort; an EXT_ABORT writes no record and raises none (R111, R112). -/
def Sys2Proof.Say.FaultsOfOneClockAreRanked : Prop :=
  ∀ (s : State) (n : Nat) (f : CoreFaultInfo), (s.getCore n).busy → f.cause ≠ .extAbort →
    let r := s.recorded n f
    s.takeFault n f = (s.faultStop n f).raiseAbort (s.getCore n).job Status.jobAbort 3 ∧
    (r = { f with more := r.more } ∨ ∃ o ∈ s.standing n f.engine, r = { o with more := r.more }) ∧
    (∀ o ∈ f :: s.standing n f.engine, causeRank r.cause ≤ causeRank o.cause) ∧
    f.more + (s.standing n f.engine).length ≤ r.more ∧ (s.standing n f.engine = [] → r = f)

/-- A stopped core is idle, with nothing queued, running, outstanding or buffered, and its fault state holds the cause, its status, the
engine, the PC, the word and the address (R111, R113). -/
def Sys2Proof.Say.StoppedCoreIsIdleAndRecorded : Prop :=
  ∀ (s : State) (n : Nat) (f : CoreFaultInfo), f.pc < 2 ^ 21 → f.instr < 2 ^ 32 → f.trap < 2 ^ 16 → f.addr < 2 ^ 64 →
    let t := s.stopCore n f
    let c := t.getCore n
    c.task = none ∧ c.wait = .none ∧ c.mq = [] ∧ c.vq = [] ∧ c.dq = [] ∧ c.mrun = [] ∧ c.vrun = [] ∧ c.drun = [] ∧ c.out = [] ∧ c.sb = [] ∧
    t.getF TSK_CFLT_A.VALID n = 1 ∧ t.flag TSK_CFLT_A.PRECISE n = f.precise ∧ t.getF TSK_CFLT_A.ENGINE n = engineCode f.engine ∧
    t.getF TSK_CFLT_A.MORE n = min f.more 15 ∧ t.getF TSK_CFLT_A.CAUSE n = causeCode f.cause ∧
    t.getF TSK_CFLT_A.STATUS n = causeStatus f.cause ∧ t.getF TSK_CFLT_A.PC n = f.pc ∧ t.getF TSK_CFLT_B.INSTR n = f.instr ∧
    t.getF TSK_CFLT_B.TRAPCODE n = f.trap ∧ t.getF TSK_CFLT_C.ADDR n = f.addr

/-- Of several causes in one clock the one of the highest priority is recorded: HW, POISON, ACCESS, ADDR, FETCH, ALIGN, ILLEGAL, TRAP,
TIMEOUT, EXT_ABORT (R112). -/
def Sys2Proof.Say.CausePriority : Prop :=
  ∀ (l : List FaultCause) (c : FaultCause), topCause l = some c → c ∈ l ∧
    ∀ x ∈ l, [FaultCause.hw, .poison, .access, .addr, .fetch, .align, .illegal, .trap, .timeout, .extAbort].idxOf c ≤
      [FaultCause.hw, .poison, .access, .addr, .fetch, .align, .illegal, .trap, .timeout, .extAbort].idxOf x

/-- A long form at an aligned PC whose predicate is true and whose queue has room is queued with what its registers, seeds and phase hold
at issue; DMA SUBMIT copies its descriptor too, and another FUNC of the DMA form, which its engine refuses, copies none. With a false predicate a
form retires with no effect. A nonzero must-be-zero field of either faults with cause ILLEGAL (R91, R98, R99); that it does so before the
predicate is looked at is the model's choice of log entry 101. -/
def Sys2Proof.Say.LongFormsAreQueued : Prop :=
  ∀ (s : State) (n : CoreId) (w : Word),
    let c := s.getCore n.toNat
    let f : Fetch := { word := w.toNat % 2 ^ 32, second := some (w.toNat >>> 32) }
    let regs := [BitVec.ofNat 5 w.toNat, BitVec.ofNat 5 (w.toNat >>> 59), BitVec.ofNat 5 (w.toNat >>> 54)]
    let on := c.pred ((w.toNat >>> 23) % 8)
    let legal := bit w 15 || !bit w 5
    let submit := (w.toNat >>> 16) % 128 = 0
    let legalDma := legal && (!decide submit || decide ((w.toNat >>> 32) % 2 ^ 22 = 0))
    let a := scratchOf n.toNat + (c.sreg (w.toNat % 32)).toNat
    let illegal : Host.Outcome State Fault Refusal := .next (s.scalarFault n.toNat [.illegal] 0 0)
    ((w.toNat >>> 26) % 64 = 0x38 → legal = true → Say.finds s n f regs → on = true → c.mq.length < 32 →
      exec (.mx n w) s = Say.core s n ({ c with mq := c.mq ++ [c.queueEntry w []] }.retire 2 1)) ∧
    ((w.toNat >>> 26) % 64 = 0x39 → legal = true → Say.finds s n f regs → on = true → c.vq.length < 32 →
      exec (.vx n w) s = Say.core s n ({ c with vq := c.vq ++ [c.queueEntry w []] }.retire 2 1)) ∧
    ((w.toNat >>> 26) % 64 = 0x3A → legalDma = true → Say.finds s n f regs → on = true → c.dq.length < 64 → submit →
      (c.sreg (w.toNat % 32)).toNat % 64 = 0 → (c.sreg (w.toNat % 32)).toNat < 2 ^ 21 → s.poisoned a = false →
      exec (.dmaSubmit n w) s = Say.core s n ({ c with dq := c.dq ++ [c.queueEntry w
        ((upFrom 0 8).map fun i => BitVec.ofNat 64 (leNat (s.overlay c c.ids (a + 8 * i) 8)))] }.retire 2 2)) ∧
    ((w.toNat >>> 26) % 64 = 0x3A → legalDma = true → Say.finds s n f regs → on = true → c.dq.length < 64 → ¬submit →
      exec (.dmaSubmit n w) s = Say.core s n ({ c with dq := c.dq ++ [c.queueEntry w []] }.retire 2 2)) ∧
    (Say.finds s n f [] → on = false →
      ((w.toNat >>> 26) % 64 = 0x38 → legal = true → exec (.mx n w) s = Say.core s n (c.retire 2 1)) ∧
      ((w.toNat >>> 26) % 64 = 0x39 → legal = true → exec (.vx n w) s = Say.core s n (c.retire 2 1)) ∧
      ((w.toNat >>> 26) % 64 = 0x3A → legalDma = true → exec (.dmaSubmit n w) s = Say.core s n (c.retire 2 1))) ∧
    (Say.finds s n f [] →
      ((w.toNat >>> 26) % 64 = 0x38 → legal = false → exec (.mx n w) s = illegal) ∧
      ((w.toNat >>> 26) % 64 = 0x39 → legal = false → exec (.vx n w) s = illegal) ∧
      ((w.toNat >>> 26) % 64 = 0x3A → legalDma = false → exec (.dmaSubmit n w) s = illegal))


/-! ## Engines (05, 06, 07) -/

namespace Sys2Proof.Say

/-- The rows of the matrix engine: command and function code. -/
def mxRows (n : CoreId) : List (Instr × Nat) :=
  [(.mxZero n, 0x00), (.mxMac n, 0x01), (.mxOut n, 0x02), (.mxStore n, 0x03), (.mxAddw n, 0x04), (.mxBias n, 0x05), (.mxFlags n, 0x06)]

/-- The vector rows whose results are computed lane by lane: command and function code. -/
def laneRows (n : CoreId) : List (Instr × Nat) :=
  [(.vadd n, 0x00), (.vsub n, 0x01), (.vmul n, 0x02), (.vfma n, 0x03), (.vmin n, 0x04), (.vmax n, 0x05), (.vabs n, 0x06), (.vneg n, 0x07),
   (.vand n, 0x08), (.vor n, 0x09), (.vxor n, 0x0A), (.vshl n, 0x0B), (.vshr n, 0x0C), (.vsel n, 0x0D), (.vmov n, 0x0E), (.vidx n, 0x0F),
   (.vrcp n, 0x18), (.vrsqrt n, 0x19), (.vsqrt n, 0x1A), (.vdiv n, 0x1B), (.vexp2 n, 0x1C), (.vlog2 n, 0x1D), (.vexp n, 0x1E), (.vtanh n, 0x1F),
   (.vsig n, 0x20), (.vsinpi n, 0x21), (.vcospi n, 0x22)]

/-- The other vector rows: command, first function code, how many. -/
def vecRows (n : CoreId) : List (Instr × Nat × Nat) :=
  (laneRows n).map (fun r => (r.1, r.2, 1)) ++
  [(.vcmp n, 0x10, 4), (.vmand n, 0x14, 4), (.vftoi n, 0x23, 1), (.vitof n, 0x24, 1), (.vrsum n, 0x28, 1), (.vrmax n, 0x29, 1), (.vrmin n, 0x2A, 1),
   (.vramax n, 0x2B, 1), (.vld n, 0x30, 1), (.vst n, 0x31, 1), (.vlds n, 0x32, 1), (.vsts n, 0x33, 1), (.vgather n, 0x34, 1),
   (.vscatter n, 0x35, 1), (.vldm n, 0x36, 1), (.vstm n, 0x37, 1), (.vcvtIn n, 0x38, 1), (.vcvtOut n, 0x39, 1), (.vcvtMxin n, 0x3A, 1),
   (.vcvtMxout n, 0x3B, 1), (.vstream n, 0x40, 64)]

/-- The command `h` stands at the head of a queue of core `n` whose clocks run. -/
def heads (s : State) (n : CoreId) (e : Engine) (h : QEntry) (rest : List QEntry) : Bool :=
  decide ((s.getCore n.toNat).queueOf e = h :: rest) && !s.power.stopped

/-- The head command is taken and does what `run` says, leaving its post owed; a wait of the scalar unit that is met ends. Where `run` meets
poison the command faults at a granule that it read. -/
def taken (s : State) (n : CoreId) (e : Engine) (h : QEntry) (rest : List QEntry) (run : State → Ran) : Host.Outcome State Fault Refusal :=
  match run (s.setCore n.toNat ((s.getCore n.toNat).takeHead e h rest)) with
  | (u, []) => .next ((u.ran n.toNat e h).settle n.toNat)
  | (u, g :: gs) => .next (u.poisonStop n.toNat e h (g :: gs))

/-- The head command whose flag is not yet set, or that is refused. -/
def stays (s : State) : Host.Outcome State Fault Refusal := .next s

/-- A byte of memory once the writes of a DMA command have landed in order. -/
def landed (s : State) (ws : List DmaWrite) (x : Nat) : Byte := (ws.foldl (fun (s : State) w => s.setBytes w.addr w.data) s).byte x

end Sys2Proof.Say

/-- A matrix or vector command at the head of its queue runs whole once its flag is set and, where it clears the flag, no engine before it
takes it, and waits while that is not so; a head that breaks a rule of its engine, an undefined FUNC included, is refused before its wait, which
every row of the engine finds (R101, R107, R118, R120, R139). -/
def Sys2Proof.Say.EngineHeadRunsWaitsOrIsRefused : Prop :=
  ∀ (s : State) (n : CoreId) (h : QEntry) (rest : List QEntry),
    let c := s.getCore n.toNat
    (∀ r ∈ Say.mxRows n, Say.heads s n .matrix h rest →
      (h.func = r.2 → mxBad h = [] → c.waitMet .matrix h → exec r.1 s = Say.taken s n .matrix h rest (mxRun n.toNat h)) ∧
      (mxBad h = [] → c.waitMet .matrix h = false → exec r.1 s = Say.stays s) ∧
      (∀ b bs, mxBad h = b :: bs → exec r.1 s = .next (s.refuse n.toNat .matrix h (b :: bs)))) ∧
    (∀ r ∈ Say.vecRows n, Say.heads s n .vector h rest →
      (r.2.1 ≤ h.func → h.func < r.2.1 + r.2.2 → vBad c h = [] → c.waitMet .vector h →
        exec r.1 s = Say.taken s n .vector h rest (vRun n.toNat h)) ∧
      (vBad c h = [] → c.waitMet .vector h = false → exec r.1 s = Say.stays s) ∧
      (∀ b bs, vBad c h = b :: bs → exec r.1 s = .next (s.refuse n.toNat .vector h (b :: bs)))) ∧
    (0x07 ≤ h.func → mxBad h = [(.illegal, 0)]) ∧
    (h.func ∈ [0x25, 0x26, 0x27, 0x2C, 0x2D, 0x2E, 0x2F, 0x3C, 0x3D, 0x3E, 0x3F] → vBad c h = [(.illegal, 0)])

/-- A refused command faults with the cause of the highest priority that it breaks, at the address of that condition, which counts from the
start of the core's scratch; ILLEGAL records ADDR 0 (R112, R113, R118). -/
def Sys2Proof.Say.RefusedCommandsFault : Prop :=
  ∀ (s : State) (n : Nat) (e : Engine) (h : QEntry) (b : Bad) (k : FaultCause), topCause ((b.map Prod.fst).eraseDups) = some k →
    ∃ f, s.refuse n e h b = s.takeFault n f ∧ f.cause = k ∧ f.precise = false ∧ f.engine = e ∧ f.pc = h.pc ∧ f.instr = h.instr ∧
      f.more + 1 = (b.map Prod.fst).eraseDups.length ∧ (k = .illegal → f.addr = 0) ∧
      (k ≠ .illegal → ∃ a, (k, a) ∈ b ∧ f.addr = (if e = .dma then 0 else scratchOf n) + a)

/-- MX.ZERO clears its tile and sets its tag; MX.MAC accumulates the products of its lines into the rows it names; MX.ADDW and MX.BIAS add to
every element: each element of the tile is the rule's function of what it was, and elements outside the command keep their values (R122 to R129). -/
def Sys2Proof.Say.MatrixCommandsChangeEveryElement : Prop :=
  ∀ (s : State) (n : CoreId) (h : QEntry) (rest : List QEntry) (i : Nat),
    let c := s.getCore n.toNat
    let t := h.im 0 1
    let src := fun (j : Nat) => BitVec.ofNat 128 (leNat (s.scr n.toNat (h.aOff + (j / 64) * h.aAux + 16 * (j % 64)) 16))
    let tag : BitVec 32 := BitVec.ofNat 32 (leNat (s.scr n.toNat h.bOff 4))
    let done := fun (r : Instr) (u : State) => exec r s = .next u ∧ ∀ x, u.byte x = s.byte x
    let noPoison := fun rs => s.scrPoison n.toNat rs = []
    Say.heads s n .matrix h rest → c.waitMet .matrix h → mxBad h = [] → i < 4096 →
    (h.func = 0x00 → ∃ u, done (.mxZero n) u ∧ (u.getCore n.toNat).elem t i = 0 ∧
      (u.getCore n.toNat).tag t = BitVec.ofNat 32 (if h.im 1 1 = 1 then h.a.toNat % 65536 else h.im 2 16)) ∧
    (h.func = 0x01 →
      noPoison (operandRegions (h.im 1 4) h.aOff h.aAux (macK h) ++ operandRegions (h.im 5 4) h.bOff h.bAux (macK h)) →
      ∃ u, done (.mxMac n) u ∧ (u.getCore n.toNat).elem t i =
        if i < 64 * macRows h then
          (waAccumulate (c.elem t i) (tagAnchor (c.tag t))
            (((s.operandLine n.toNat (h.im 1 4) h.aOff h.aAux (macK h) (i / 64)).zip
              (s.operandLine n.toNat (h.im 5 4) h.bOff h.bAux (macK h) (i % 64))).map fun e => macProduct e.1 e.2)
            (Config.freeNat (s.free + i))).1
        else c.elem t i) ∧
    (h.func = 0x04 → noPoison (((upFrom 0 64).map fun r => (h.aOff + r * h.aAux, 1024)) ++ [(h.bOff, 4)]) →
      ∃ u, done (.mxAddw n) u ∧
        (u.getCore n.toNat).elem t i = (waAddFixed (c.elem t i) (tagAnchor (c.tag t)) (src i) (tagAnchor tag)).1) ∧
    (h.func = 0x05 → noPoison (biasRegions h) →
      ∃ u, done (.mxBias n) u ∧ (u.getCore n.toNat).elem t i =
        (waAddLoaded (c.elem t i) (tagAnchor (c.tag t)) (Fmt.fp32.decode (leNat (s.scr n.toNat (biasAt h i) 4)))).1)

/-- MX.OUT writes each row converted to its format, MX.STORE each element's 16 bytes and its tag, MX.FLAGS its tag: the bytes stored are
the rule's function of the tile, and no byte outside them changes (R126, R127, R130). -/
def Sys2Proof.Say.MatrixCommandsWriteScratch : Prop :=
  ∀ (s : State) (n : CoreId) (h : QEntry) (rest : List QEntry) (e : Elem),
    let c := s.getCore n.toNat
    let t := h.im 0 1
    let b := scratchOf n.toNat
    let ex := tagAnchor (c.tag t) + signedOf 10 (h.im 7 10)
    Say.heads s n .matrix h rest → c.waitMet .matrix h → mxBad h = [] →
    (h.func = 0x02 → outFmt (h.im 1 3) = some e → ∃ u, exec (.mxOut n) s = .next u ∧
      (∀ r < 64, u.scr n.toNat (h.aOff + r * h.aAux) (8 * e.bits) =
        pack e.bits ((upFrom (64 * r) 64).map fun i => (e.out (h.im 4 2) (h.im 6 1 == 1) (h.sr i) (waValue (c.elem t i) ex)).1)) ∧
      ∀ x, (∀ r < 64, x < b + h.aOff + r * h.aAux ∨ b + h.aOff + r * h.aAux + 8 * e.bits ≤ x) → u.byte x = s.byte x) ∧
    (h.func = 0x03 → (∀ r < 64, h.bOff + 4 ≤ h.aOff + r * h.aAux ∨ h.aOff + r * h.aAux + 1024 ≤ h.bOff) →
      ∃ u, exec (.mxStore n) s = .next u ∧ u.scr n.toNat h.bOff 4 = leBytes 4 (c.tag t).toNat ∧
      (∀ i < 4096, u.scr n.toNat (h.aOff + i / 64 * h.aAux + 16 * (i % 64)) 16 = leBytes 16 (c.elem t i).toNat) ∧
      ∀ x, (∀ r < 64, x < b + h.aOff + r * h.aAux ∨ b + h.aOff + r * h.aAux + 1024 ≤ x) → x < b + h.bOff ∨ b + h.bOff + 4 ≤ x →
        u.byte x = s.byte x) ∧
    (h.func = 0x06 → ∃ u, exec (.mxFlags n) s = .next u ∧ u.scr n.toNat h.aOff 8 = leBytes 8 (c.tag t).toNat ∧
      ∀ x, x < b + h.aOff ∨ b + h.aOff + 8 ≤ x → u.byte x = s.byte x)

/-- A lane-wise vector command writes, in every lane that its mask leaves on, the command's function of that lane's operands; lanes off keep
their values, and so do every other register, every mask register and all of memory (R134 to R141). -/
def Sys2Proof.Say.VectorLanesAreComputed : Prop :=
  ∀ (s : State) (n : CoreId) (h : QEntry) (rest : List QEntry),
    let c := s.getCore n.toNat
    ∀ r ∈ Say.laneRows n, Say.heads s n .vector h rest → h.func = r.2 → vBad c h = [] → c.waitMet .vector h →
      ∃ u, exec r.1 s = .next u ∧ (∀ x, u.byte x = s.byte x) ∧ (u.getCore n.toNat).m = c.m ∧
        (∀ k, k ≠ h.vd → (u.getCore n.toNat).vreg k = c.vreg k) ∧
        ∀ i < 64, ((u.getCore n.toNat).vreg h.vd).getD i 0 =
          if bit (c.act h) i then
            laneFn h.ty h.func ((c.vreg h.va).getD i 0) (if h.bsrc then h.scalar else (c.vreg h.vb).getD i 0) ((c.vreg h.vd).getD i 0)
              (bit (c.mreg h.msel) i) i % 2 ^ 32
          else (c.vreg h.vd).getD i 0

/-- VCMP writes a mask bit from each lane's comparison and VMAND, VMOR, VMXOR and VMNOT from mask registers, where their mask leaves the bit
on; a reduction writes every lane with the tree of the lanes left on, the others standing as its identity (R139, R142). -/
def Sys2Proof.Say.VectorMasksAndReductions : Prop :=
  ∀ (s : State) (n : CoreId) (h : QEntry) (rest : List QEntry),
    let c := s.getCore n.toNat
    Say.heads s n .vector h rest → vBad c h = [] → c.waitMet .vector h →
    (0x10 ≤ h.func → h.func < 0x14 → ∃ u, exec (.vcmp n) s = .next u ∧ (∀ x, u.byte x = s.byte x) ∧ (u.getCore n.toNat).v = c.v ∧
      ∀ i < 64, bit ((u.getCore n.toNat).mreg h.vd) i =
        if bit (c.act h) i then cmpFn h.ty (h.func - 0x10) ((c.vreg h.va).getD i 0) (if h.bsrc then h.scalar else (c.vreg h.vb).getD i 0)
        else bit (c.mreg h.vd) i) ∧
    (0x14 ≤ h.func → h.func < 0x18 → ∃ u, exec (.vmand n) s = .next u ∧ (∀ x, u.byte x = s.byte x) ∧ (u.getCore n.toNat).v = c.v ∧
      ∀ i < 64, bit ((u.getCore n.toNat).mreg h.vd) i =
        if bit (c.act h) i then
          (if h.func = 0x14 then bit (c.mreg h.va) i && bit (c.mreg h.vb) i else if h.func = 0x15 then bit (c.mreg h.va) i || bit (c.mreg h.vb) i
           else if h.func = 0x16 then bit (c.mreg h.va) i != bit (c.mreg h.vb) i else !bit (c.mreg h.va) i)
        else bit (c.mreg h.vd) i) ∧
    (∀ r ∈ [(Instr.vrsum n, 0x28), (.vrmax n, 0x29), (.vrmin n, 0x2A), (.vramax n, 0x2B)], h.func = r.2 →
      ∃ u, exec r.1 s = .next u ∧ (∀ x, u.byte x = s.byte x) ∧ (u.getCore n.toNat).m = c.m ∧
        ∀ i < 64, ((u.getCore n.toNat).vreg h.vd).getD i 0 =
          reduceTree (redOp h.func h.ty) (((c.vreg h.va).zip (upFrom 0 64)).map fun p =>
            if bit (c.act h) p.2 then (if h.func = 0x2B then Fmt.fp32.lane 0x06 p.1 0 0 else p.1) else redIdent h.func h.ty) % 2 ^ 32)

/-- Vector loads write each lane left on with the four bytes at its offset, which for VGATHER and VSCATTER adds operand B, the scalar with BSRC, and vector stores write those bytes from their lanes; VLDM and
VSTM move a mask register; no other byte of memory changes, and a load changes none (R143). -/
def Sys2Proof.Say.VectorLoadsAndStores : Prop :=
  ∀ (s : State) (n : CoreId) (h : QEntry) (rest : List QEntry),
    let c := s.getCore n.toNat
    let act := c.act h
    let b := scratchOf n.toNat
    let offs := fun i => match h.func with
      | 0x30 => h.aOff + 4 * i
      | 0x31 => h.bOff + 4 * i
      | 0x32 => h.aOff + i * h.aAux
      | 0x33 => h.bOff + i * h.bAux
      | 0x34 => h.aOff + if h.bsrc then h.scalar else (c.vreg h.vb).getD i 0
      | _ => h.bOff + if h.bsrc then h.scalar else (c.vreg h.vb).getD i 0
    Say.heads s n .vector h rest → vBad c h = [] → c.waitMet .vector h →
    (∀ r ∈ [(Instr.vld n, 0x30), (.vlds n, 0x32), (.vgather n, 0x34)], h.func = r.2 →
      (∀ i < 64, bit act i → s.poisoned (b + offs i) = false) →
      ∃ u, exec r.1 s = .next u ∧ (∀ x, u.byte x = s.byte x) ∧
        ∀ i < 64, ((u.getCore n.toNat).vreg h.vd).getD i 0 = if bit act i then leNat (s.scr n.toNat (offs i) 4) else (c.vreg h.vd).getD i 0) ∧
    (∀ r ∈ [(Instr.vst n, 0x31), (.vsts n, 0x33), (.vscatter n, 0x35)], h.func = r.2 →
      ∃ u, exec r.1 s = .next u ∧
        (∀ i < 64, bit act i → (∀ j < 64, i < j → bit act j → offs j ≠ offs i) → u.scr n.toNat (offs i) 4 = leBytes 4 ((c.vreg h.va).getD i 0)) ∧
        ∀ x, (∀ i < 64, bit act i → x < b + offs i ∨ b + offs i + 4 ≤ x) → u.byte x = s.byte x) ∧
    (h.func = 0x36 → s.poisoned (b + h.aOff) = false → act ≠ 0 →
      ∃ u, exec (.vldm n) s = .next u ∧ (∀ x, u.byte x = s.byte x) ∧
        ∀ i < 64, bit ((u.getCore n.toNat).mreg h.vd) i =
          if bit act i then (leNat (s.scr n.toNat h.aOff 8)).testBit i else bit (c.mreg h.vd) i) ∧
    (h.func = 0x37 → act ≠ 0 → ∃ u, exec (.vstm n) s = .next u ∧
      (∀ i < 64, (leNat (u.scr n.toNat h.bOff 8)).testBit i =
        if bit act i then bit (c.mreg h.va) i else (leNat (s.scr n.toNat h.bOff 8)).testBit i) ∧
      ∀ x, x < b + h.bOff ∨ b + h.bOff + 8 ≤ x → u.byte x = s.byte x)

/-- The conversions between FP32 and integer lanes, and the widening of a row or of a block pair's line from scratch, write the lanes
left on with the conversion of each and no byte of memory; the narrowing conversions write the converted row or line to scratch and no other
byte; a stream form works row by row in ascending order (R145 to R147). -/
def Sys2Proof.Say.VectorConversions : Prop :=
  ∀ (s : State) (n : CoreId) (h : QEntry) (rest : List QEntry),
    let c := s.getCore n.toNat
    Say.heads s n .vector h rest → vBad c h = [] → c.waitMet .vector h →
    (h.func = 0x23 ∨ h.func = 0x24 → ∃ u, exec (if h.func = 0x23 then .vftoi n else .vitof n) s = .next u ∧ (∀ x, u.byte x = s.byte x) ∧
      ∀ i < 64, ((u.getCore n.toNat).vreg h.vd).getD i 0 =
        if bit (c.act h) i then
          (if h.func = 0x23 then
             (roundInt 32 (-(2 : Int) ^ 31) (2 ^ 31 - 1) 0 h.rm (h.sr (h.base + i)) (Fmt.fp32.decode ((c.vreg h.va).getD i 0))).1
           else
             (Fmt.fp32.round h.rm false (h.sr (h.base + i))
               (.num (decide (signedOf 32 ((c.vreg h.va).getD i 0) < 0)) (signedOf 32 ((c.vreg h.va).getD i 0)).natAbs 0)).1) % 2 ^ 32
        else (c.vreg h.vd).getD i 0) ∧
    (∀ r ∈ [(Instr.vcvtIn n, 0x38), (.vcvtMxin n, 0x3A)], h.func = r.2 → s.rowPoison n.toNat (s.vSource n.toNat c h 0 h.base) = [] →
      ∃ u, exec r.1 s = .next u ∧ (∀ x, u.byte x = s.byte x) ∧
        ∀ i < 64, ((u.getCore n.toNat).vreg h.vd).getD i 0 =
          if bit (c.act h) i then (s.vSource n.toNat c h 0 h.base).vals.getD i 0 % 2 ^ 32 else (c.vreg h.vd).getD i 0) ∧
    (h.func = 0x39 → ∀ e, elemOf h.fmt = some e → ∃ u, exec (.vcvtOut n) s = .next u ∧
      (∀ i < 64, (unpack e.bits 64 (u.scr n.toNat h.bOff (8 * e.bits))).getD i 0 =
        if bit (c.act h) i then (e.out h.rm h.sat (h.sr (h.base + i)) (Fmt.fp32.decode ((c.vreg h.va).getD i 0))).1 % 2 ^ e.bits
        else (unpack e.bits 64 (s.scr n.toNat h.bOff (8 * e.bits))).getD i 0) ∧
      ∀ x, x < scratchOf n.toNat + h.bOff ∨ scratchOf n.toNat + h.bOff + 8 * e.bits ≤ x → u.byte x = s.byte x) ∧
    (h.func = 0x3B → ∃ u, exec (.vcvtMxout n) s = .next u ∧
      ∀ x, u.byte x = Say.landed s ((mxRow h h.line0 (c.vreg h.va) h.base).1.map fun w => ⟨scratchOf n.toNat + w.1, w.2, false⟩) x) ∧
    (0x40 ≤ h.func → h.func < 0x80 → exec (.vstream n) s = Say.taken s n .vector h rest fun u => u.vRows u n.toNat h h.reps 0)

/-- ENGINE_POST sets the flag of the oldest command of its engine that has completed, and that command is gone (R103). -/
def Sys2Proof.Say.EnginePostSetsItsFlag : Prop :=
  ∀ (s : State) (n : CoreId) (r : Running) (rs : List Running) (d : DmaRun),
    let c := s.getCore n.toNat
    s.power.stopped = false → c.wait = .none →
    (c.mrun = r :: rs → exec (.enginePost n .matrix) s = Say.core s n { c with mrun := rs, e := c.e ||| flagMask r.postEv }) ∧
    (c.vrun = r :: rs → exec (.enginePost n .vector) s = Say.core s n { c with vrun := rs, e := c.e ||| flagMask r.postEv }) ∧
    (c.drun.find? (fun d => d.entry.postEn) = some d → d.posted → exec (.enginePost n .dma) s =
      Say.core s n { c with drun := c.drun.filter fun x => x.id != d.id, e := c.e ||| flagMask d.entry.postEv })


/-! ## DMA (07, 10) -/

namespace Sys2Proof.Say

/-- A DMA command at the head of its queue may start: no rule refuses it, its flag is set, fewer than four commands run, its flow may
inject (R169, R171, R283, R447). -/
def dmaStarts (s : State) (n : CoreId) (h : QEntry) (rest : List QEntry) (op : Nat) : Prop :=
  let c := s.getCore n.toNat
  c.dq = h :: rest ∧ h.dop = op ∧ s.power.stopped = false ∧ s.dmaBad h = [] ∧ c.waitMet .dma h = true ∧ (c.drun.filter fun d => !d.posted).length < 4 ∧
    (0x10 ≤ op → s.flowReady h = true) ∧ (0x10 ≤ op → s.injectionHeld h.job = false)

/-- The running command of core `n` that stands last. -/
def lastRun (s : State) (n : CoreId) : Option DmaRun := (s.getCore n.toNat).drun.getLast?

end Sys2Proof.Say

/-- A COPY of one row of memory whose destination does not meet its source, a FILL and an accumulating copy start: the command leaves its queue and runs; a
COPY's writes carry the source bytes, a FILL's the pattern over every row, and no byte of memory changes until they land (R165 to R167). -/
def Sys2Proof.Say.LocalDmaStarts : Prop :=
  ∀ (s : State) (n : CoreId) (h : QEntry) (rest : List QEntry),
    (Say.dmaStarts s n h rest DOp.copy → ∃ t d, exec (.dmaCopy n) s = .next t ∧ Say.lastRun t n = some d ∧ d.entry = h ∧ d.posted = false ∧
      d.pendingParts = 0 ∧ d.bytes = (h.rowBytes * h.rows) % 2 ^ 32 ∧ ((s.getCore n.toNat).wait = .none → (t.getCore n.toNat).dq = rest) ∧ (∀ x, t.byte x = s.byte x) ∧
      (h.rows = 1 → region h.src ≠ .control → (h.src + h.rowBytes ≤ h.dst ∨ h.dst + h.rowBytes ≤ h.src) →
        ∀ x < h.rowBytes, Say.landed s d.writes (h.dst + x) = s.byte (h.src + x))) ∧
    (Say.dmaStarts s n h rest DOp.fill → ∃ t d, exec (.dmaFill n) s = .next t ∧ Say.lastRun t n = some d ∧ d.entry = h ∧ d.posted = false ∧
      d.pendingParts = 0 ∧ ((s.getCore n.toNat).wait = .none → (t.getCore n.toNat).dq = rest) ∧ (∀ x, t.byte x = s.byte x) ∧
      ∀ i < h.rows, ∀ x < h.rowBytes, Say.landed s d.writes (h.dst + i * h.dstPitch + x) = BitVec.ofNat 8 (h.pay / 256 ^ (x % 4))) ∧
    (Say.dmaStarts s n h rest DOp.accum → ∃ t d, exec (.dmaAccum n) s = .next t ∧ Say.lastRun t n = some d ∧ d.entry = h ∧ d.posted = false ∧
      ((s.getCore n.toNat).wait = .none → (t.getCore n.toNat).dq = rest) ∧ (∀ x, t.byte x = s.byte x) ∧
      ∃ parts : List AccWrite, t.core.accs = s.core.accs ++ parts ∧ d.pendingParts = parts.length ∧
        ∀ a ∈ parts, a.core = n.toNat ∧ a.dma = d.id ∧ a.atype = h.atype ∧ a.granule % 64 = 0)

/-- A PUT and a SIGNAL start: each takes its flow's next ordering count, stays unacknowledged under it, and runs until its answer; a GET
starts with one request for each of its pieces (R196, R275, R281 to R286). -/
def Sys2Proof.Say.RemoteDmaStarts : Prop :=
  ∀ (s : State) (n : CoreId) (h : QEntry) (rest : List QEntry),
    let f := s.srcFlow (flowKey h.job h.peer h.chan)
    (∀ r ∈ [(Instr.dmaPut n, DOp.put), (.dmaSignal n, DOp.signal)], Say.dmaStarts s n h rest r.2 →
      ∃ t d, exec r.1 s = .next t ∧ Say.lastRun t n = some d ∧ d.entry = h ∧ d.posted = false ∧ d.pendingParts = 1 ∧ d.ord = f.next ∧
        ((s.getCore n.toNat).wait = .none → (t.getCore n.toNat).dq = rest) ∧ (t.srcFlow (flowKey h.job h.peer h.chan)).next = (f.next + 1) % 2 ^ 32 ∧
        ⟨f.next, n.toNat, d.id, h.gen, h.part⟩ ∈ (t.srcFlow (flowKey h.job h.peer h.chan)).unacked ∧ ∀ x, t.byte x = s.byte x) ∧
    (Say.dmaStarts s n h rest DOp.get → ∃ t d, exec (.dmaGet n) s = .next t ∧ Say.lastRun t n = some d ∧ d.entry = h ∧ d.posted = false ∧
      d.pendingParts = h.pieces.length ∧ ((s.getCore n.toNat).wait = .none → (t.getCore n.toNat).dq = rest) ∧ ∀ x, t.byte x = s.byte x)

/-- An accumulating write that a window holds, or that is of plain floating point, is applied to its granule and counted off its command; a
WA128 write that no window holds is discarded and its command faults with cause ADDR (R161, R162). -/
def Sys2Proof.Say.AccumulatingWritesApply : Prop :=
  ∀ (s : State) (idx : Nat) (a : AccWrite) (d : DmaRun),
    let s1 : State := { s with core := { s.core with accs := removeAt s.core.accs idx } }
    s.power.stopped = false → s.core.accs[idx]? = some a →
    (∀ u f, s1.accumulate a = some (u, f) → ∃ t, exec (.tierAccumApply idx) s = .next t ∧ t.core.accs = removeAt s.core.accs idx ∧
      (∀ x, t.byte x = u.byte x) ∧
      (t.getCore a.core).drun = (s.getCore a.core).drun.map fun d =>
        if d.id == a.dma then { d with pendingParts := d.pendingParts - 1, flags := d.flags ||| f.toNat } else d) ∧
    (s1.accumulate a = none → (s.getCore a.core).drun.find? (fun d => d.id == a.dma) = some d →
      exec (.tierAccumApply idx) s = .next (s1.engineFault a.core .dma d.entry.pc d.entry.instr [.addr] a.granule))

/-- An element that an accumulating write covers takes the rounded sum of what stood there and what came; the granule's other bytes and all
of memory outside it keep their values (R160, R161). -/
def Sys2Proof.Say.AccumulationAddsEachElement : Prop :=
  ∀ (s : State) (a : AccWrite) (anchor : Int) (j : Nat), a.granule % 64 = 0 → j < 64 / accSize a.atype →
    let t := (s.accAdd a anchor).1
    let size := accSize a.atype
    t.bytes (a.granule + size * j) size =
      (if bit a.mask (size * j) then
         leBytes size (accElem a.atype anchor (BitVec.ofNat 32 a.tag) (leNat (s.bytes (a.granule + size * j) size)) (field a.data (8 * size * j) (8 * size))).1
       else s.bytes (a.granule + size * j) size) ∧
    ∀ x, x < a.granule ∨ a.granule + 64 ≤ x → t.byte x = s.byte x

/-- A DMA command that writes memory, and whose parts have all come, completes: its writes land, then its record where it asks for one, its batten rises by one where
it asks, and the command is gone, or owes its post; no other byte of memory changes (R167, R168). -/
def Sys2Proof.Say.DmaCompletes : Prop :=
  ∀ (s : State) (n : CoreId) (idx : Nat) (d : DmaRun),
    let c := s.getCore n.toNat
    let record := leBytes 8 ((if d.poisoned then Status.poison else Status.ok) + d.flags * 2 ^ 8 + d.bytes * 2 ^ 32) ++ leBytes 8 s.time
    s.power.stopped = false → c.drun[idx]? = some d → d.posted = false → d.pendingParts = 0 → (∀ w ∈ d.writes, region w.addr ≠ .control) →
    ∃ t, exec (.dmaComplete n idx) s = .next t ∧
      (∀ x, t.byte x = Say.landed s (d.writes ++ if d.entry.cplEn then [⟨scratchOf n.toNat + d.entry.cplOff, record, false⟩] else []) x) ∧
      (d.entry.btnEn → t.batten d.entry.btnNum = (s.batten d.entry.btnNum + 1) % 2 ^ 32) ∧
      (∀ k, ¬(d.entry.btnEn ∧ k = d.entry.btnNum) → t.batten k = s.batten k) ∧
      (d.entry.postEn = false → (t.getCore n.toNat).drun = c.drun.filter fun x => x.id != d.id) ∧
      (d.entry.postEn = true → ∀ x ∈ (t.getCore n.toNat).drun, x.id = d.id → x.posted = true)

/-- A running command that has stood at as many boundaries as its timeout allows faults with cause TIMEOUT, not precise; one that has not
yet is left alone (R170). -/
def Sys2Proof.Say.DmaTimesOut : Prop :=
  ∀ (s : State) (n : CoreId) (idx : Nat) (d : DmaRun), (s.getCore n.toNat).drun[idx]? = some d → d.posted = false →
    (d.limit ≤ d.counted → exec (.dmaTimeout n idx) s =
      .next (s.takeFault n.toNat { cause := .timeout, precise := false, engine := .dma, pc := d.entry.pc, instr := s.wordAt n.toNat d.entry.pc })) ∧
    (d.counted < d.limit → exec (.dmaTimeout n idx) s = .next s)


/-! ## Register writes, the gauge and the course (01, 02, 03) -/

/-- What a write leaves in each field of a register's word (R5): RW fields and unlocked RWL fields take the written value, locked RWL fields and
fields that cannot be written keep theirs, a W1C field loses the bits written as 1, a W1S field gains them. -/
def Sys2Proof.Say.WritesFollowTheAccessTypes : Prop :=
  ∀ (r : Reg) (f : Fld) (old val : Word) (locked : Nat), f ∈ r.fields →
    let new := field (Reg.written r f.word old val locked) f.lo f.w
    let was := field old f.lo f.w
    let put := field val f.lo f.w
    match f.acc with
    | .rw => new = put
    | .rwl => (natField locked f.lo f.w = 0 → new = put) ∧ (natField locked f.lo f.w = 2 ^ f.w - 1 → new = was)
    | .w1c => new = was - (was &&& put)
    | .w1s => new = was ||| put
    | .ro | .wo | .rc => new = was

/-- A register write by one who may write changes the register as its access types say and nothing else of the register file; one by any other
identity changes no register but the error log's and leaves a record; a write of a read-only register and one where no register stands change
nothing (R5, R6, R492). -/
def Sys2Proof.Say.RegisterWriteReachesItsRegister : Prop :=
  ∀ (s : State) (who : Ident) (off : BitVec 32) (val : Word) (r : Reg) (i : Nat),
    (r ∈ [Reg.GAUGE_STAT, .COL_TMO, .ECC_THR, .BOOT_CTL, .BOOT_EXP, .RDR_TELE, .TOP_PINS] → Reg.find off.toNat = some (r, i) →
      (Who.isManager who.toNat → ∃ t, exec (.registerWrite who off val) s = .next t ∧
        t.reg r i = Reg.written r (i % r.place.words) (s.reg r i) val 0 ∧ (∀ q j, ¬(q = r ∧ j = i) → t.reg q j = s.reg q j) ∧
        ∀ x, t.byte x = s.byte x) ∧
      (Who.isManager who.toNat = false → exec (.registerWrite who off val) s = .next (s.record { status := Status.denied, source := Src.module }))) ∧
    (r ∈ [Reg.GAUGE_NOW, .CRS_NOW, .TOP_SITES_LO, .TSK_CFLT_A, .BTN_CNT, .SLU_STR_STAT, .ECC_LOG_STAT, .THM_MISC, .SEC_ID, .BOOT_STAT, .RST_JOB,
        .RST_PART, .UPD_STAT] → Reg.find off.toNat = some (r, i) → exec (.registerWrite who off val) s = .next s) ∧
    (Reg.find off.toNat = none → off.toNat < 0x6000000 → exec (.registerWrite who off val) s = .next s)

/-- A write of TOP_MSIZE while no partition is bound sets the machine's size where the value keeps the conditions of R10, and is refused with
BAD_ARG where it does not; while a partition is bound its fields keep their values (R10, R11). -/
def Sys2Proof.Say.TopMsizeIsSetBeforeBinding : Prop :=
  ∀ (s : State) (who : Ident) (val : Word), Who.isManager who.toNat →
    let racks := val.toNat % 256
    let planes := (val.toNat >>> 24) % 32
    let good := if racks = 0 then planes = 0 else 1 ≤ planes ∧ planes ≤ 16
    (s.anyBound = false → good → ∃ t, exec (.topMsizeWrite who val) s = .next t ∧ t.getF TOP_MSIZE.RACKS_M1 = racks ∧
      t.getF TOP_MSIZE.BOARDS_M1 = (val.toNat >>> 8) % 8 ∧ t.getF TOP_MSIZE.MODS_M1 = (val.toNat >>> 16) % 8 ∧ t.getF TOP_MSIZE.OPT_PLANES = planes ∧
      t.getF TOP_MSIZE.CORES = s.getF TOP_MSIZE.CORES ∧ t.getF TOP_MSIZE.COURSE_K = s.getF TOP_MSIZE.COURSE_K) ∧
    (s.anyBound = false → ¬good → exec (.topMsizeWrite who val) s = .next (s.record { status := Status.badArg, source := Src.module })) ∧
    (s.anyBound = true → ∃ t, exec (.topMsizeWrite who val) s = .next t ∧ t.reg .TOP_MSIZE = s.reg .TOP_MSIZE)

namespace Sys2Proof.Say

/-- No load of the gauge aside, a nanosecond brings nothing but itself: no command, error or request waits, no feed path closes, no operation under
physical presence runs, no power-off waits and no link waits to be judged. -/
def quiet (s : State) : Prop :=
  s.pending = [] ∧ s.store.faults = [] ∧ s.host.reqs = [] ∧ s.power.switching = none ∧ s.sec.presence = [] ∧ s.edge.offDue = false ∧ s.rst.rejudge = []

/-- By how much the gauge advances with the next nanosecond of the local reference: one, or none or two where the rate correction has made up a
nanosecond (R35). -/
def pace (s : State) : Nat :=
  let x := s.gauge.slew + s.gauge.rate
  if 10 ^ 9 ≤ x then 2 else if x ≤ -10 ^ 9 then 0 else 1

end Sys2Proof.Say

/-- A load of the gauge by a manager of a module with no partition bound, free running or root, stands at the next nanosecond with STEPPED set;
any other write is refused (R32). A load that meets a partition bound since is dropped and the gauge runs on, which is the model's choice of log
entry 14. -/
def Sys2Proof.Say.GaugeLoadStandsAtTheNextNanosecond : Prop :=
  ∀ (s : State) (who : Ident) (val : Word),
    let may := Who.isManager who.toNat = true ∧ s.anyBound = false ∧ (s.gstate = GS.free ∨ s.flag GAUGE_STAT.IS_ROOT = true)
    (may → exec (.gaugeSet who val) s = .next { s with gauge := { s.gauge with load := some val } }) ∧
    (¬may → exec (.gaugeSet who val) s = .next (s.record { status := Status.denied, source := Src.module })) ∧
    (s.gauge.load = some val → Say.quiet s → ∃ t, step s = .next t ∧ t.gauge.load = none ∧ t.clock = s.clock + 1 ∧
      (s.anyBound = false → t.gauge.now = val ∧ t.flag GAUGE_STAT.STEPPED) ∧
      (s.anyBound = true → t.gauge.now = s.gauge.now + BitVec.ofNat 64 (Say.pace s)))

/-- GAUGE_LOCK by a manager sets LOCK with the other fields it writes, by any other identity it is refused; from then on, and for SYNC_EN while a
partition is bound, the fields keep their values; a module that clears SYNC_EN runs free, and a root that clears ROOT_ELIG is root no longer
(R38, R494). A gauge that passes its largest value wraps and sets WRAPPED (R31). -/
def Sys2Proof.Say.GaugeLocksAndWraps : Prop :=
  (∀ (s : State) (who : Ident) (val : Word), bit val 8 →
    (Who.isManager who.toNat = false → exec (.gaugeLock who val) s = .next (s.record { status := Status.denied, source := Src.module })) ∧
    (Who.isManager who.toNat = true → s.flag GAUGE_CTL.LOCK = false → ∃ t, exec (.gaugeLock who val) s = .next t ∧ t.flag GAUGE_CTL.LOCK ∧
      t.flag GAUGE_CTL.SYNC_EN = (if s.anyBound then s.flag GAUGE_CTL.SYNC_EN else bit val 0) ∧ t.flag GAUGE_CTL.ROOT_ELIG = bit val 1 ∧
      (s.flag GAUGE_CTL.SYNC_EN = true → s.anyBound = false → bit val 0 = false → t.gstate = GS.free ∧ t.getF GAUGE_STAT.PARENT_LINK = 0xFF) ∧
      (s.flag GAUGE_CTL.SYNC_EN = true → bit val 0 = true → bit val 1 = false → s.flag GAUGE_STAT.IS_ROOT = true →
        t.flag GAUGE_STAT.IS_ROOT = false ∧ t.getF GAUGE_STAT.ROOT_EPN = 0xFFFF)) ∧
    (Who.isManager who.toNat = true → s.flag GAUGE_CTL.LOCK = true →
      ∃ t, exec (.gaugeLock who val) s = .next t ∧ t.reg .GAUGE_CTL = s.reg .GAUGE_CTL)) ∧
  (∀ s : State, s.gauge.load = none → 2 ^ 64 ≤ s.gauge.now.toNat + Say.pace s →
    ∃ t, exec .gaugeWrap s = .next t ∧ t.gauge.now.toNat + 2 ^ 64 = s.gauge.now.toNat + Say.pace s ∧ t.flag GAUGE_STAT.WRAPPED ∧ t.clock = s.clock + 1)

/-- Where the exchange runs and is due, TIME_EXCHANGE_TICK sends a request with a stamp of this nanosecond; a request is answered on the same
strand with its REQ_ID, its t1 and two stamps; the reply to the request that is out sets the link's FLIGHT to its delay (R34, R253). -/
def Sys2Proof.Say.TimeExchange : Prop :=
  ∀ (s : State) (link : Link) (m : TimeMsg) (t4 : Word) (d : Nat),
    let l := link.toNat
    s.timeStrand l = some d → s.flag GAUGE_CTL.SYNC_EN →
    ((∀ t, (s.linkTime l).asked = some t → t + 65536 ≤ s.clock) → ∃ (u : State) (t1 : Word), exec (.timeExchangeTick link) s = .next (u.linkSend d l
        (timeBody 0x04 (u.timeMsg d l (t1.toNat % 65536) t1 0 0))) ∧
      (u.linkTime l).asked = some s.clock ∧ (u.linkTime l).sent = some t1.toNat ∧ (s.time < 2 ^ 60 → t1.toNat / 16 = s.time) ∧ u.regs = s.regs) ∧
    (∃ (u : State) (t2 t3 : Word), exec (.timeReq link m) s = .next (u.linkSend d l (timeBody 0x05 (u.timeMsg d l m.reqId.toNat m.t1 t2 t3))) ∧
      (s.time < 2 ^ 60 → t2.toNat / 16 = s.time) ∧ u.regs = s.regs) ∧
    ((s.linkTime l).sent = some m.t1.toNat → m.reqId.toNat = m.t1.toNat % 65536 → ∃ t, exec (.timeRsp link m t4) s = .next t ∧
      t.getF SLU_STR_STAT.FLIGHT (strandIx d l) = s.timeDelay d l m t4)

/-- A reply that agrees in course length and epoch is followed by the choice of the smallest offer (R33). Where the module's own is the smallest it
becomes root. A free module with nothing bound that takes the link's offer steps to it and acquires. Of the parent it has, sixteen exchanges in a
row within 5 ns lock an acquiring or held-over gauge, the fourth in a row beyond 250 ns takes it out, and each sets a rate within 20 ppm; a peer
that is not the parent and is off by more than 40 ns stops SCHED traffic and launches (R35, R37, R38). That a root shows LOCKED at once, and how
HOLDOVER ends, are the model's choices of log entry 14. -/
def Sys2Proof.Say.RepliesSteerTheGauge : Prop :=
  ∀ (s : State) (link : Link) (m : TimeMsg) (t4 : Word) (d : Nat) (b : Offer),
    let l := link.toNat
    let x := s.linkTime l
    let offset := timeOffset m t4
    let told : LinkTime := { x with sent := none, view := some ⟨m.rootEpn.toNat, m.hops.toNat, s.peerOf l, m.k.toNat, m.epoch⟩, offset := offset,
                                    delay := s.timeDelay d l m t4 }
    let heard : State := { s with gauge := { s.gauge with links := SMap.put {} s.gauge.links l told } }
    let small := -80 ≤ offset ∧ offset ≤ 80
    let large := 4000 < offset ∨ offset < -4000
    let parent := s.getF GAUGE_STAT.PARENT_LINK = l ∧ b.link = l ∧ b.root = s.getF GAUGE_STAT.ROOT_EPN
    s.timeStrand l = some d → s.flag GAUGE_CTL.SYNC_EN → x.sent = some m.t1.toNat → m.reqId.toNat = m.t1.toNat % 65536 →
    m.k.toNat = s.k → m.epoch = s.epoch → bestOffer heard.offers = some b →
    ∃ t, exec (.timeRsp link m t4) s = .next t ∧
      (b.link = 0xFF → t.flag GAUGE_STAT.IS_ROOT = true ∧ t.getF GAUGE_STAT.ROOT_EPN = s.epn ∧ t.getF GAUGE_STAT.PARENT_LINK = 0xFF ∧
        (s.gstate ≠ GS.out → t.gstate = GS.locked)) ∧
      (b.link = l → s.gstate = GS.free → s.anyBound = false → t.gauge.now = BitVec.ofInt 64 ((s.time : Int) + (offset + 8) / 16) ∧
        t.gstate = GS.acquiring ∧ t.getF GAUGE_STAT.PARENT_LINK = l ∧ t.flag GAUGE_STAT.STEPPED) ∧
      (parent → small → 15 ≤ s.gauge.good → s.gstate = GS.acquiring ∨ s.gstate = GS.holdover → t.gstate = GS.locked) ∧
      (parent → large → 3 ≤ s.gauge.bad → s.gstate = GS.acquiring ∨ s.gstate = GS.locked ∨ s.gstate = GS.holdover →
        t.gstate = GS.out ∧ t.getF GAUGE_STAT.PARENT_LINK = 0xFF ∧ t.gauge.stopped = true) ∧
      (parent → s.gstate = GS.locked → ¬(large ∧ 3 ≤ s.gauge.bad) →
        t.gstate = GS.locked ∧ t.gauge.now = s.gauge.now ∧ -20000 ≤ t.gauge.rate ∧ t.gauge.rate ≤ 20000) ∧
      (b.link ≠ l → b.link ≠ 0xFF → s.getF GAUGE_STAT.PARENT_LINK ≠ l → offset < -640 ∨ 640 < offset → t.gauge.stopped = true)

/-- 250 ms of HOLDOVER take the gauge out; a module with nothing bound that is out acquires again, stepping where it must (R37, R38). -/
def Sys2Proof.Say.HoldoverEndsAndTimeIsReacquired : Prop :=
  ∀ (s : State) (step : Word),
    (∀ t, s.gauge.holdover = some t → s.gstate = GS.holdover → t + 250_000_000 ≤ s.clock →
      ∃ u, exec .holdoverExpiry s = .next u ∧ u.gstate = GS.out ∧ u.getF GAUGE_STAT.PARENT_LINK = 0xFF ∧ u.gauge.stopped = true) ∧
    (s.anyBound = false → s.gstate = GS.out ∨ s.gauge.stopped = true → ∃ u v, exec (.gaugeReacquire none) s = .next u ∧ u.gstate = GS.acquiring ∧
      u.gauge.stopped = false ∧ u.gauge.now = s.gauge.now ∧ exec (.gaugeReacquire (some step)) s = .next v ∧ v.gstate = GS.acquiring ∧
      v.gauge.stopped = false ∧ v.gauge.now = step ∧ v.flag GAUGE_STAT.STEPPED)

/-- A course boundary that has come is counted: the next course begins, every running task has stood at one more boundary, and the records
that a course allows once may be written again (R40, R362). -/
def Sys2Proof.Say.CourseBoundaryCounts : Prop :=
  ∀ s : State, s.course.last ≠ s.courseNo → ∃ t, exec .courseBoundary s = .next t ∧ t.course.last = (s.course.last + 1) % 2 ^ (64 - s.k) ∧
    t.store.once = [] ∧ t.course.lagEvents = [] ∧
    ∀ n task, (s.getCore n).task = some task → (t.getCore n).task = some { task with courses := task.courses + 1 }

/-- Arming a change of course length that passes the checks of R45 sets ARM; cancelling it in time clears ARM, and too late answers WINDOW (R46).
At its time K_PREV takes the length in force, COURSE_K the new one, EPOCH turns over and ARM clears; 256 old courses later, as the gauge counts
them modulo 2^64 (R50), the old epoch is stale. -/
def Sys2Proof.Say.CourseLengthChanges : Prop :=
  ∀ (s : State) (who : Ident) (val : Word), Who.isManager who.toNat →
    let kn := val.toNat % 32
    let at_ := s.getF CRS_CHG_AT.AT
    (bit val 8 → bit val 9 = false → s.flag CRS_CHG.ARM = false → 10 ≤ kn → kn ≤ 16 → kn ≠ s.k → at_ % 65536 = 0 → s.time + 262144 ≤ at_ →
      (∀ t, s.course.prevSwitch = some t → t + 33554432 ≤ at_) → s.gstate = GS.locked →
      ∃ t, exec (.courseChangeArm who val) s = .next t ∧ t.flag CRS_CHG.ARM ∧ t.getF CRS_CHG.K_NEXT = kn ∧ t.getF CRS_CHG.STATUS = Status.ok) ∧
    (bit val 9 → bit val 8 = false → s.flag CRS_CHG.ARM → kn = s.getF CRS_CHG.K_NEXT →
      ∃ t, exec (.courseChangeCancel who val) s = .next t ∧ t.flag CRS_CHG.ARM = decide (at_ < s.time + 65536) ∧
        t.getF CRS_CHG.STATUS = if s.time + 65536 ≤ at_ then Status.ok else Status.window) ∧
    (s.flag CRS_CHG.ARM → at_ ≤ s.time → ∃ t, exec .courseLengthSwitch s = .next t ∧ t.getF CRS_CHG.K_PREV = s.k ∧ t.k = s.getF CRS_CHG.K_NEXT ∧
      t.epoch = !s.epoch ∧ t.flag CRS_CHG.ARM = false ∧ t.course.prevSwitch = some at_ ∧ t.course.oldStale = false) ∧
    (∀ t, s.course.prevSwitch = some t → 0 ≤ serialDiff 64 s.time (t + 256 * 2 ^ s.getF CRS_CHG.K_PREV) →
      exec .oldEpochExpiry s = .next { s with course := { s.course with oldStale := true } }) ∧
    exec (.lagFifoPop who) s = .next { s with course := { s.course with lagFifo := s.course.lagFifo.drop 1 } }

/-! ## Battens, queues and tasks (08, 09) -/

/-- A host add or set of a batten by a PF or the owner of its partition changes that batten and no other; one that is outside its rule is
recorded and changes none (R207, R214). -/
def Sys2Proof.Say.HostBattenOperations : Prop :=
  ∀ (s : State) (who : Ident) (val : Word),
    let b := val.toNat % 65536
    let x := val.toNat >>> 32
    let op := (val.toNat >>> 16) % 4
    Who.isPF who.toNat →
    (op = 0 → 1 ≤ x → x ≤ 0x7FFF_FFFF → ∃ t, exec (.btnHostAdd who val) s = .next t ∧ t.batten b = (s.batten b + x) % 2 ^ 32 ∧
      ∀ k, k ≠ b → t.batten k = s.batten k) ∧
    (op = 0 → ¬(1 ≤ x ∧ x ≤ 0x7FFF_FFFF) →
      exec (.btnHostAdd who val) s = .next (s.record { status := Status.badArg, source := Src.slate (b / 4096) })) ∧
    (op = 1 → ∃ t, exec (.btnHostSet who val) s = .next t ∧ t.batten b = x ∧ ∀ k, k ≠ b → t.batten k = s.batten k)

/-- A change of a batten puts aside for its wake exactly each watch whose target its count has reached; the wake returns the count that met it to
a core that waits, or opens a queue's gate; a watch that found no entry is tried again (R207, R210, R211). -/
def Sys2Proof.Say.BattenWatchesWake : Prop :=
  ∀ (s : State) (idx : Nat) (m : Met) (w : Watch),
    (∀ x ∈ s.checkWatches.task.watches, x ∈ s.task.watches ∧ serialDiff 32 (s.batten x.batten) x.target < 0) ∧
    (∀ x ∈ s.task.watches, serialDiff 32 (s.batten x.batten) x.target ≥ 0 → ⟨x, s.batten x.batten, s.time⟩ ∈ s.checkWatches.task.met) ∧
    (s.power.stopped = false → s.task.met[idx]? = some m →
      (∀ n rd, m.watch.who = .core n → (s.getCore n).wait = .btnWait rd → ∃ t, exec (.battenWatchWake idx) s = .next t ∧
        t.task.met = removeAt s.task.met idx ∧ (t.getCore n).wait = .none ∧ (0 < rd → (t.getCore n).sreg rd = BitVec.ofNat 64 m.count) ∧
        (t.getCore n).pc = (s.getCore n).pc + 4 ∧ (t.getCore n).rcache = []) ∧
      (∀ q, m.watch.who = .gate q → ∃ t, exec (.battenWatchWake idx) s = .next t ∧ t.task.met = removeAt s.task.met idx ∧
        (t.queue q).gateMet = true)) ∧
    (s.power.stopped = false → s.task.retry[idx]? = some w → exec (.watchRetry idx) s =
      .next (({ s with task := { s.task with retry := removeAt s.task.retry idx } }).watch w))

/-- A manager that sets EN of a context which passes the checks makes an empty, active queue; one that clears EN disables it and drops what it
held (R216, R217). -/
def Sys2Proof.Say.QueuesAreEnabledAndDisabled : Prop :=
  ∀ (s : State) (who : Ident) (queue : BitVec 20) (val : Word), Who.isManager who.toNat →
    let q := queue.toNat
    let w := val.toNat &&& Reg.mask .QM_CTX 0 .rw
    (bit val 0 → s.flag QM_CTX.EN q = false → s.reg .QM_CTX (q * 4) = 0 →
      (s.setReg .QM_CTX (q * 4) (BitVec.ofNat 64 (w - 1))).enableCheck q = none →
      ∃ t, exec (.queueEnable who queue val) s = .next t ∧ t.flag QM_CTX.EN q ∧ t.getF QM_CTX.PROD q = 0 ∧ t.getF QM_CTX.CONS q = 0 ∧
        t.getF QM_CTX.STATE q = 1 ∧ t.getF QM_CTX.LOG2_E q = field val 12 5 ∧ t.getF QM_CTX.SLATE q = field val 4 4 ∧
        t.getF QM_CTX.PRIO q = field val 8 3 ∧ t.getF QM_CTX.OWNER q = field val 32 16) ∧
    (s.flag QM_CTX.EN q → val = s.reg .QM_CTX (q * 4) &&& ~~~1 → ∃ t, exec (.queueDisable who queue val) s = .next t ∧
      t.flag QM_CTX.EN q = false ∧ t.getF QM_CTX.STATE q = 0 ∧ t.getF QM_CTX.PROD q = t.getF QM_CTX.CONS q ∧ (t.queue q).marks = [] ∧
      (t.queue q).head = [])

/-- A doorbell that its sender may ring moves PROD of an active WORK queue, or CONS of a CPL queue, within the ring; a flush empties the queue; a
cancel marks an entry between CONS and PROD (R218, R222, R224). -/
def Sys2Proof.Say.DoorbellsFlushesAndCancels : Prop :=
  ∀ (s : State) (who : Ident) (val : Word),
    let q := val.toNat % 2 ^ 20
    let i := (val.toNat >>> 32) % 2 ^ 16
    let cons := s.getF QM_CTX.CONS q
    let prod := s.getF QM_CTX.PROD q
    let x := s.queue q
    s.mayRing who.toNat q = true → s.flag QM_CTX.EN q = true →
    (s.flag QM_CTX.TYPE q = false → s.getF QM_CTX.STATE q = 1 → dist16 i cons ≤ s.ringSize q - 1 → dist16 i prod ≤ s.ringSize q - 1 →
      exec (.qmDoorbell who val) s = .next (s.setF QM_CTX.PROD q i)) ∧
    (s.flag QM_CTX.TYPE q = true → s.getF QM_CTX.STATE q = 1 → dist16 i cons ≤ dist16 prod cons →
      exec (.qmDoorbell who val) s = .next (s.setF QM_CTX.CONS q i)) ∧
    (s.flag QM_CTX.TYPE q = false → s.getF QM_CTX.STATE q = 1 → ∃ t, exec (.qmFlush who val) s = .next t ∧ t.getF QM_CTX.PROD q = cons ∧
      t.getF QM_CTX.CONS q = cons ∧ t.getF QM_CTX.STATE q = 2 ∧ (t.queue q).marks = [] ∧ (t.queue q).head = []) ∧
    (s.flag QM_CTX.TYPE q = false → dist16 i cons < dist16 prod cons → x.marks.length < 16 → x.head = [] →
      ∃ t, exec (.qmCancel who val) s = .next t ∧ i ∈ (t.queue q).marks ∧ t.getF QM_CTX.LAST_CANCEL q = Status.ok)

/-- An owed completion goes to its CPL queue, whose PROD rises by one; a due shadow write leaves CONS and STATE at the shadow address, and no other
byte of memory changes by it (R220 to R222). -/
def Sys2Proof.Say.CompletionsAndShadows : Prop :=
  ∀ (s : State) (o : Owed) (rest : List Owed) (queue : BitVec 20),
    let q := queue.toNat
    let a := s.getF QM_CTX.SHADOW q
    (s.task.owed = o :: rest → s.flag QM_CTX.EN o.cplq = true → s.flag QM_CTX.TYPE o.cplq = true → s.cplSpace o.cplq = true →
      ∃ t, exec .owedCompletionWrite s = .next t ∧ t.task.owed = rest ∧
        t.getF QM_CTX.PROD o.cplq = (s.getF QM_CTX.PROD o.cplq + 1) % 65536) ∧
    ((s.queue q).shadowDue.isSome → (∀ t, (s.queue q).lastShadow = some t → t + 256 ≤ s.clock) → s.flag QM_CTX.SHADOW_EN q = true →
      s.flag QM_CTX.TYPE q = false → ∃ t, exec (.shadowWrite queue) s = .next t ∧ (t.queue q).shadowDue = none ∧
        t.bytes a 8 = leBytes 8 (s.getF QM_CTX.CONS q + s.getF QM_CTX.STATE q * 65536) ∧ ∀ y, y < a ∨ a + 8 ≤ y → t.byte y = s.byte y)

/-- A head item that PROD covers and that passes its checks is read whole, its gate met unless it has one; its grant starts its task on the core
that arbitration chose: PC, arguments, item bytes, job and start time as R88 and R231 give them, CONS past the item (R227 to R231). -/
def Sys2Proof.Say.WorkItemsBecomeTasks : Prop :=
  ∀ (s : State) (queue : BitVec 20) (slate : BitVec 4) (n q : Nat),
    let r := queue.toNat
    let cons := s.getF QM_CTX.CONS r
    let len := s.itemLen r cons
    let item := (s.queue q).head
    let word := fun (w : Nat) => leNat ((item.drop (8 * w)).take 8)
    (s.power.stopped = false → s.flag QM_CTX.EN r = true → s.flag QM_CTX.TYPE r = false → s.getF QM_CTX.STATE r = 1 → len ≤ dist16 (s.getF QM_CTX.PROD r) cons →
      (s.queue r).head = [] → (s.queue r).marks = [] → s.store.raw = [] → (∀ j < len, s.poisoned (s.entryAddr r (cons + j)) = false) →
      (∀ j < len, s.entryAddr r (cons + j) % 64 = 0) → s.itemGood r (s.itemBytes r cons len) = true →
      ∃ t, exec (.workItemRead queue) s = .next t ∧ (t.queue r).head = s.itemBytes r cons len ∧
        (t.queue r).gateMet = !(leNat (s.bytes (s.entryAddr r cons) 8)).testBit 28) ∧
    (s.arbitrate slate.toNat = some q → s.power.stopped = false → s.itemCore slate.toNat item = some n →
      ∃ t, exec (.taskGrant slate) s = .next t ∧ (t.getCore n).busy = true ∧ (t.getCore n).pc = word 0 % 2 ^ 21 ∧
        (t.getCore n).job = s.jobOf (s.getF QM_CTX.PART q) ∧ (∀ i, 1 ≤ i → i ≤ 4 → (t.getCore n).sreg i = BitVec.ofNat 64 (word (i + 3))) ∧
        (∀ i, i = 0 ∨ 5 ≤ i → (t.getCore n).sreg i = 0) ∧ (t.getCore n).v = [] ∧ (t.getCore n).m = [] ∧ (t.getCore n).e = 0 ∧
        (t.getCore n).task.map (fun k => (k.queue, k.index, k.taskId, k.start)) = some (q, s.getF QM_CTX.CONS q, word 1 % 2 ^ 32, s.time) ∧
        t.getF QM_CTX.CONS q = (s.getF QM_CTX.CONS q + item.length / 64) % 65536 ∧ t.getF TSK_CFLT_A.VALID n = 0 ∧
        t.bytes (scratchOf n + 0x1F_FF00) item.length = item)

/-- A task that ended by SYS.DONE and has drained is finished: its core is idle, its done batten rises by one, its completion stands in its CPL
queue where it asked for one and there is space; with no space it waits. A task past its limit faults with TIMEOUT (R232, R233). -/
def Sys2Proof.Say.TasksFinishOrTimeOut : Prop :=
  ∀ (s : State) (n : CoreId) (task : Task) (status : Nat),
    let c := s.getCore n.toNat
    s.power.stopped = false → c.task = some task →
    (c.wait = .done status → c.doneMet = true → task.cplEn = true → s.cplUsable task.cplq c.part = true → s.cplSpace task.cplq = true →
      ∃ t, exec (.taskFinish n) s = .next t ∧ t.getCore n.toNat = c.idle ∧ t.getF QM_CTX.PROD task.cplq = (s.getF QM_CTX.PROD task.cplq + 1) % 65536 ∧
        (task.doneEn = true → t.batten task.doneBtn = (s.batten task.doneBtn + 1) % 2 ^ 32)) ∧
    (c.wait = .done status → c.doneMet = true → task.cplEn = false → ∃ t, exec (.taskFinish n) s = .next t ∧ t.getCore n.toNat = c.idle ∧
      (∀ x, t.byte x = s.byte x) ∧ (task.doneEn = true → t.batten task.doneBtn = (s.batten task.doneBtn + 1) % 2 ^ 32)) ∧
    (c.wait = .done status → c.doneMet = true → task.cplEn = true → s.cplUsable task.cplq c.part = true → s.cplSpace task.cplq = false →
      exec (.taskFinish n) s = .next s) ∧
    (task.limit ≤ task.courses → exec (.taskTimeout n) s = .next (s.takeFault n.toNat (s.unraised n.toNat .timeout)))

/-- A write of an anchor window by one who may sets its fields and clears the sticky flags it writes as 1; a write of TOP_CIL moves the interleave,
and each byte of a cistern stays at its offset there (R155, R162). -/
def Sys2Proof.Say.WindowsAndInterleave : Prop :=
  ∀ (s : State) (who : Ident) (slate : BitVec 4) (win : BitVec 3) (val : Word),
    let i := slate.toNat * 8 + win.toNat
    (s.mayAwin who.toNat slate.toNat = true → ∃ t, exec (.awinWrite who slate win val) s = .next t ∧ t.flag TOP_AWIN.EN i = bit val 0 ∧
      t.getF TOP_AWIN.BASE_MIB i = field val 1 12 ∧ t.getF TOP_AWIN.LIMIT_MIB i = field val 13 12 ∧ t.getF TOP_AWIN.ANCHOR i = field val 25 16 ∧
      t.flag TOP_AWIN.UNDERRUN i = (s.flag TOP_AWIN.UNDERRUN i && !bit val 41) ∧
      t.flag TOP_AWIN.OVERFLOW i = (s.flag TOP_AWIN.OVERFLOW i && !bit val 42) ∧
      t.flag TOP_AWIN.NAN i = (s.flag TOP_AWIN.NAN i && !bit val 43) ∧ (∀ j, j ≠ i → t.reg .TOP_AWIN j = s.reg .TOP_AWIN j)) ∧
    (Who.isManager who.toNat = true → s.anyBound = false → val.toNat % 4 ≠ 3 → Safety.Sound s → ∃ t, exec (.topCilWrite who val) s = .next t ∧
      t.getF TOP_CIL.MODE = val.toNat % 4 ∧ t.getF TOP_CIL.GRAN = (val.toNat >>> 4) % 4 ∧
      (∀ c < 16, ∀ off < 0xC_0000_0000, t.byte (t.unlocate c off) = s.byte (s.unlocate c off)) ∧ ∀ a, cisternEnd ≤ a → t.byte a = s.byte a)


/-- Course c is the gauge interval from c times 2^k to (c + 1) times 2^k, of 64 slots of 2^(k-6) ns (R39); two course values are compared as serial numbers
of 16 bits (R42), and a batten's count with its target as serial numbers of 32 bits: a target is met when the count is not before it, and the
count may wrap (R207). -/
def Obligations.CoursesAndSerialNumbers : Prop :=
  (∀ (s : State) (c : Nat), s.courseNo = c ↔ c * 2 ^ s.k ≤ s.time ∧ s.time < (c + 1) * 2 ^ s.k) ∧
  (∀ s : State, 6 ≤ s.k →
    let n := s.time >>> (s.k - 6) - 64 * s.courseNo
    n < 64 ∧ s.courseNo * 2 ^ s.k + n * 2 ^ (s.k - 6) ≤ s.time ∧ s.time < s.courseNo * 2 ^ s.k + (n + 1) * 2 ^ (s.k - 6)) ∧
  (∀ a b : Nat,
    let d := ((a : Int) - b) % 65536
    diff16 a b = if 32768 ≤ d then d - 65536 else d) ∧
  (∀ count target : Nat,
    let d := ((count : Int) - target) % 2 ^ 32
    diff32 count target = (if 2 ^ 31 ≤ d then d - 2 ^ 32 else d) ∧ (batMet count target = true ↔ 0 ≤ diff32 count target)) ∧
  ∀ target v : Nat, v < 2 ^ 31 → diff32 ((target + v) % 2 ^ 32) target = v

/-- What the commands that set time, power, routes, updates and the edge's registers leave alone: every byte of memory, every granule's poison, every core and
accumulating write, every batten and every abort window. Where the spec is silent it rests on the model's choices of log entry 10. -/
def Obligations.RegisterCommandsLeaveMemoryAndCores : Prop :=
  ∀ (s t : State) (who : Ident) (val : Word) (rset : BitVec 4) (n : BitVec 12) (group : BitVec 10) (load : BitVec 8) (sector : BitVec 13) (addr : BitVec 7)
    (watts : BitVec 16) (straps : BitVec 6) (i : Instr),
    i ∈ [.gaugeSet who val, .gaugeLock who val, .courseChangeArm who val, .courseChangeCancel who val, .lagFifoPop who, .capWrite who val,
      .capArm who val, .capCancel who val, .snap who val, .energyViewUpdate, .demandSnapshot, .logSelect who val, .routeSetValidate who rset val,
      .schedEntryValidate who n val, .bankSwapArm who val, .bankSwapCancel who val, .groupValidate who group val, .watchdogKick who,
      .riderLoadWindow load, .flashEraseDone sector, .stagingProgram, .updVerifyDone, .trialConfirmTimer, .settingsSave, .i3cEntdaa addr, .i3cRstdaa,
      .i3cBoardW watts, .i3cSnapshot, .slotIdChange straps] →
    exec i s = .next t →
    (∀ x, t.byte x = s.byte x) ∧ (∀ x, t.poisoned x = s.poisoned x) ∧ t.core = s.core ∧ (∀ b, t.batten b = s.batten b) ∧ t.rst.aborts = s.rst.aborts

/-! ## Strands (10 and the link layer) -/

namespace Sys2Proof.Say

/-- The register field of a strand. -/
def str (s : State) (f : Fld) (d l : Nat) : Nat := s.getF f (strandIx d l)

end Sys2Proof.Say

/-- The next flit of a strand's stream, where it has come whole: with the next sequence number it is accepted and E advances; one that arrives
again is dropped; one after a gap, with a bad CRC, or with a byte in an uncorrectable codeword makes a NAK owed, the last two counted. Before the
far end is verified none is accepted, and in VERIFY_FAIL each counts as a CRC failure (R239 to R242, R252). -/
def Sys2Proof.Say.FlitsAreAcceptedInOrder : Prop :=
  ∀ (s : State) (die : Die) (link : Link) (flit : List (Option Byte)) (bs : List Byte) (p : Phy),
    let d := die.toNat
    let l := link.toNat
    let t := leNat (bs.drop 248)
    let kind := natField t 58 2
    let s1 := (s.mapStrand d l fun x => { x with phy := p }).applyAck d l (natField t 56 2) (natField t 44 12)
    let x := s1.strand d l
    isStrand d l = true → flitState (s.strandState d l) = true → (s.strand d l).phy.cutFlit = some (flit, p) →
    (flit = bs.map some → flitCrcGood bs = true → kind = 1 → s1.strandState d l = SS.cal ∨ s1.strandState d l = SS.active ∨ s1.strandState d l = SS.swap →
      (natField t 32 12 = x.e → x.e < 4096 → ∃ u, exec (.flitReceive die link []) s = .next u ∧ (u.strand d l).e = (x.e + 1) % 4096 ∧
        (∀ p, natBit t 63 = true → Pkt.ofBytes (bs.take 248) = some p → (u.strand d l).arrived = x.arrived ++ [(natField t 60 3, p)])) ∧
      (serialDiff 12 (natField t 32 12) x.e < 0 → exec (.flitReceive die link []) s = .next s1) ∧
      (serialDiff 12 (natField t 32 12) x.e > 0 → ∃ u, exec (.flitReceive die link []) s = .next u ∧ (u.strand d l).nakOwed = true ∧
        (u.strand d l).e = x.e ∧ (u.strand d l).arrived = x.arrived)) ∧
    ((flit = bs.map some ∧ flitCrcGood bs = false) ∨ none ∈ flit → ∃ u, exec (.flitReceive die link []) s = .next u ∧
      Say.str u SLU_STR_CNT0.CRC_BAD d l = min (Say.str s SLU_STR_CNT0.CRC_BAD d l + 1) 65535 ∧ (u.strand d l).nakOwed = true ∧
      (u.strand d l).e = (s.strand d l).e) ∧
    (flit = bs.map some → flitCrcGood bs = true → kind = 1 → s1.strandState d l < SS.cal → ∃ u, exec (.flitReceive die link []) s = .next u ∧
      (u.strand d l).verifyHeld = x.verifyHeld + 1 ∧ (u.strand d l).e = x.e) ∧
    (flit = bs.map some → flitCrcGood bs = true → kind = 1 → s1.strandState d l = SS.verifyFail → ∃ u, exec (.flitReceive die link []) s = .next u ∧
      Say.str u SLU_STR_CNT0.CRC_BAD d l = min (Say.str s1 SLU_STR_CNT0.CRC_BAD d l + 1) 65535 ∧ (u.strand d l).e = x.e)

/-- A codeword that arrives adds its corrected symbols to FEC_SYM and, where it is uncorrectable, one to FEC_UNC; the sixteenth uncorrectable one
of a lane within 1 ms, or one without its alignment marker, takes a strand out of service (R255, R258). -/
def Sys2Proof.Say.CodewordsAreCounted : Prop :=
  ∀ (s : State) (die : Die) (link : Link) (c : Codeword),
    let d := die.toNat
    let l := link.toNat
    let r := (SMap.get {} (s.strand d l).phy.lanes c.lane.toNat).take s.clock c.symbols
    isStrand d l = true → flitState (s.strandState d l) = true →
    ∃ u, exec (.flitReceive die link [c]) s = .next u ∧
      Say.str u SLU_STR_CNT0.FEC_SYM d l = min (Say.str s SLU_STR_CNT0.FEC_SYM d l + r.fixed) (2 ^ 32 - 1) ∧
      Say.str u SLU_STR_CNT0.FEC_UNC d l = min (Say.str s SLU_STR_CNT0.FEC_UNC d l + if r.unc then 1 else 0) 65535 ∧
      (s.strandState d l = SS.active → r.aligned = false ∨ 16 ≤ r.lane.bad.length → u.strandState d l ≠ SS.active)

/-- The lanes carry a strand's stream: byte n lies in lane n mod 4 at n div 4, a frame header tells the lane, die, link and CWC, a codeword has
560 symbols, and the descrambler undoes the scrambler (R237, R238). -/
def Sys2Proof.Say.LanesCarryTheStream : Prop :=
  (∀ xs : List Byte, xs.length % 4 = 0 → stripe (laneBytes 0 xs) (laneBytes 1 xs) (laneBytes 2 xs) (laneBytes 3 xs) = xs ∧
    ∀ n < xs.length, (laneBytes (n % 4) xs)[n / 4]? = xs[n]?) ∧
  (∀ lane d l cwc : Nat, lane < 4 → d < 4 → l < 32 →
    let h := laneHeader lane d l cwc
    natField h 0 48 = 0x9A6C53B1E07D ∧ natField h 48 2 = lane ∧ natField h 50 2 = d ∧ natField h 52 6 = l ∧ natField h 64 32 = cwc % 2 ^ 32 ∧ h < 2 ^ 200) ∧
  (∀ data : List Nat, data.length = 520 → (rsEncode data).length = 560 ∧ (rsEncode data).take 520 = data) ∧
  (∀ fuel n bits prev : Nat, n ≤ 39 * fuel → bits < 2 ^ n → prev < 2 ^ 58 →
    let r := scramble fuel n bits prev
    descramble n r.1 prev = (bits, r.2))

/-- The bytes of a sealed packet spell it again: the link layer drops no bit of its header, payload or tag (R261). -/
def Sys2Proof.Say.PacketBytesRoundTrip : Prop :=
  ∀ (p : Packet) (pad : List Byte), p.payload.length = Pkt.payloadLen p → Pkt.ofBytes (Pkt.toBytes p ++ pad) = some p

/-- A flit that waited 8 µs for its acknowledgement is sent again; frees that are unreported are reported; a peer's CREDIT and INIT are taken as
they say, and its IDENT shows in the strand's registers (R242, R246, R250, R251). -/
def Sys2Proof.Say.LinkMessagesAreTaken : Prop :=
  ∀ (s : State) (die : Die) (link : Link) (freed : List Nat) (expSeq : BitVec 12) (m : IdentMsg) (h : HeldFlit) (hs : List HeldFlit),
    let d := die.toNat
    let l := link.toNat
    let x := s.strand d l
    let st := s.strandState d l
    isStrand d l = true →
    (st = SS.active → x.replay = h :: hs → x.resend = none → h.sent + 8000 ≤ s.clock → x.fruitless < 4 →
      ∃ t, exec (.replayTimeout die link) s = .next t ∧ (t.strand d l).resend = some h.seq ∧ (t.strand d l).fruitless = x.fruitless + 1 ∧
        Say.str t SLU_STR_CNT1.REPLAY d l = min (Say.str s SLU_STR_CNT1.REPLAY d l + 1) 65535) ∧
    (st = SS.active → x.freed ≠ x.reported → ∃ t, exec (.creditSend die link) s = .next t ∧ (t.strand d l).reported = x.freed ∧
      (t.strand d l).linkTx = x.linkTx ++ [creditBody x]) ∧
    (∃ t, exec (.credit die link freed) s = .next t ∧ (t.strand d l).freedByPeer = freedMap freed) ∧
    (st = SS.init ∨ st = SS.swap → ∃ t, exec (.init die link expSeq freed) s = .next t ∧ (t.strand d l).initSeen = true ∧ (t.strand d l).anew = false ∧
      (t.strand d l).freedByPeer = freedMap freed ∧ (x.anew = true → (t.strand d l).seq = expSeq.toNat)) ∧
    (st = SS.ident ∨ st = SS.verify ∨ st = SS.verifyFail → ∃ t, exec (.ident die link m) s = .next t ∧ (t.strand d l).far = some m ∧
      Say.str t SLU_STR_STAT.PLINK d l = m.link.toNat ∧ Say.str t SLU_STR_STAT.PDIE d l = m.die.toNat ∧
      Say.str t SLU_STR_PEER.PID d l = m.pid.toNat ∧ Say.str t SLU_STR_PEER.EPN d l = m.epn.toNat)

/-- A strand in service sends one flit at a boundary, and one in INIT, IDENT or VERIFY its message: one flit of 256 bytes whose CRC is good leaves
on its strand, and with it the four codewords that it completes (R238, R239, R247, R250, R251). -/
def Sys2Proof.Say.FlitBoundarySendsOneFlit : Prop :=
  ∀ (s : State) (die : Die) (link : Link),
    let d := die.toNat
    let l := link.toNat
    let x := s.strand d l
    let st := s.strandState d l
    isStrand d l = true → (∀ b ∈ x.linkTx, b.length = 248) → (x.resend = none ∨ st ≠ SS.active) →
    (st = SS.init ∨ st = SS.ident ∨ st = SS.verify ∨ st = SS.cal ∨ (st = SS.active ∧ x.tx = [] ∧ x.cur = [] ∧ x.replay.length < 1536) →
      ∃ t bs, exec (.flitBoundary die link) s = .next t ∧ bs.length = 256 ∧ flitCrcGood bs = true ∧
        (t.out = s.out ++ [.flit d l bs] ∨ ∃ ws, ws.length = 4 ∧ t.out = s.out ++ [.flit d l bs, .codes d l ws]))

/-- Training goes stage by stage to ACTIVE (R248 to R252): each stage that is done leads to the next, a wrong far end to VERIFY_FAIL. CAL trims
the transmit delay until the two directions' sums of delays agree within four units, 0.25 ns (R253). -/
def Sys2Proof.Say.TrainingAdvances : Prop :=
  ∀ (s : State) (die : Die) (link : Link) (lanes : BitVec 4) (farTx farRx : BitVec 32) (m : IdentMsg),
    let d := die.toNat
    let l := link.toNat
    let x := s.strand d l
    let goes := fun (to_ : Nat) => ∃ t, exec (.strandTrainingStageDone die link ⟨lanes, farTx, farRx⟩) s = .next t ∧ t.strandState d l = to_
    isStrand d l = true → Say.str s SLU_STR_CTL.LOOP d l = 0 →
    (s.strandState d l = SS.detect → x.attempt = .full → goes SS.eq) ∧
    (s.strandState d l = SS.detect → x.attempt = .fast → goes SS.fecLock) ∧
    (s.strandState d l = SS.eq → goes SS.fecLock) ∧
    (s.strandState d l = SS.fecLock → ∃ t, exec (.strandTrainingStageDone die link ⟨lanes, farTx, farRx⟩) s = .next t ∧ t.strandState d l = SS.init ∧
      Say.str t SLU_STR_STAT.LANES_OK d l = lanes.toNat) ∧
    (s.strandState d l = SS.init → x.initSeen = true → goes SS.ident) ∧
    (s.strandState d l = SS.ident → x.far.isSome → goes SS.verify) ∧
    (s.strandState d l = SS.verify → x.far = some m → (l < 16 ∨ Say.str s SLU_OPT_EXP.EXP_VALID d l ≠ 0) →
      goes (if s.farGood d l m then (match x.attempt with | .full => SS.cal | .fast => SS.active) else SS.verifyFail)) ∧
    (s.strandState d l = SS.cal → ∃ t, ∃ δ : Int, exec (.strandTrainingStageDone die link ⟨lanes, farTx, farRx⟩) s = .next t ∧
      t.strandState d l = SS.active ∧ -4 ≤ δ ∧ δ ≤ 4 ∧
      (((t.strand d l).txDly : Int) + farRx.toNat - farTx.toNat - (t.strand d l).rxDly - δ) % 2 ^ 32 = 0)

/-- A stage past its budget fails the attempt: the third failure leads to DOWN, any other to a full training; a peer's training pattern takes a
strand out of DOWN (R249). That a lane swap past its 1 ms leads to one full training is the model's reading of log entry 35. -/
def Sys2Proof.Say.TrainingFailsAndRestarts : Prop :=
  ∀ (s : State) (die : Die) (link : Link),
    let d := die.toNat
    let l := link.toNat
    let x := s.strand d l
    isStrand d l = true →
    (s.stageOverrun d l = true → s.strandState d l ≠ SS.swap → x.fails < 2 → ∃ t, exec (.trainingStageTimeout die link) s = .next t ∧
      t.strandState d l = SS.detect ∧ (t.strand d l).attempt = .full ∧ (t.strand d l).fails = x.fails + 1 ∧
      Say.str t SLU_STR_STAT.ATTEMPTS d l = min (Say.str s SLU_STR_STAT.ATTEMPTS d l + 1) 15) ∧
    (s.stageOverrun d l = true → s.strandState d l ≠ SS.swap → 2 ≤ x.fails → ∃ t, exec (.trainingStageTimeout die link) s = .next t ∧
      t.strandState d l = SS.down) ∧
    (s.stageOverrun d l = true → s.strandState d l = SS.swap → ∃ t, exec (.trainingStageTimeout die link) s = .next t ∧
      t.strandState d l = SS.detect ∧ (t.strand d l).attempt = .full ∧ (t.strand d l).fails = 2) ∧
    (s.strandState d l = SS.down → ∃ t, exec (.trainingPatternDetect die link) s = .next t ∧ t.strandState d l = SS.detect ∧
      (t.strand d l).attempt = .full ∧ (t.strand d l).fails = 0)

/-- The budget of a stage (R248): DETECT 1 ms, EQ 14 ms, FEC_LOCK 0.5 ms, INIT, IDENT and VERIFY 0.1 ms, CAL 2 ms, a swap 1 ms; the fast path 1.5 ms
in all. A strand without a peer has none in DETECT, and one that waits for Ibtum has none in VERIFY (R235, R249, R256). -/
def Sys2Proof.Say.StageBudgets : Prop :=
  ∀ (s : State) (d l b : Nat),
    let x := s.strand d l
    let st := s.strandState d l
    (st, b) ∈ [(SS.detect, 1_000_000), (SS.eq, 14_000_000), (SS.fecLock, 500_000), (SS.init, 100_000), (SS.ident, 100_000), (SS.verify, 100_000),
      (SS.cal, 2_000_000), (SS.swap, 1_000_000)] →
    Say.str s SLU_STR_CTL.LOOP d l = 0 → (st = SS.detect → s.peerExists d l = true) →
    (st = SS.verify → l < 16 ∨ Say.str s SLU_OPT_EXP.EXP_VALID d l ≠ 0) →
    (s.stageOverrun d l = true ↔ x.stageStart + b ≤ s.clock ∨ (st ≠ SS.swap ∧ x.attempt = .fast ∧ x.attemptStart + 1_500_000 ≤ s.clock))

/-- A manager enables a strand into DETECT and disables it into DISABLED, retrains it, sets LOOP, which starts it anew unless it is DOWN, and names
an optical far end, which sends a strand in service back to VERIFY, to be told its identity anew (R244, R248, R249, R252, R259). -/
def Sys2Proof.Say.StrandControls : Prop :=
  ∀ (s : State) (who : Ident) (die : Die) (link : Link) (val : Word),
    let d := die.toNat
    let l := link.toNat
    let i := strandIx d l
    isStrand d l = true → Who.isManager who.toNat = true →
    (bit val 0 → bit val 1 = false → s.flag SLU_STR_CTL.EN i = false → ∃ t, exec (.strandEn who die link val) s = .next t ∧
      t.flag SLU_STR_CTL.EN i ∧ t.strandState d l = SS.detect) ∧
    (bit val 0 = false → s.flag SLU_STR_CTL.EN i = true → ∃ t, exec (.strandEn who die link val) s = .next t ∧ t.flag SLU_STR_CTL.EN i = false ∧
      t.strandState d l = SS.disabled) ∧
    (bit val 0 → bit val 1 → ∃ t, exec (.strandRetrain who die link val) s = .next t ∧ t.strandState d l = SS.detect ∧
      (t.strand d l).attempt = .full ∧ Say.str t SLU_STR_CNT1.RETRAINS d l = min (Say.str s SLU_STR_CNT1.RETRAINS d l + 1) 255) ∧
    (bit val 0 → bit val 1 = false → s.flag SLU_STR_CTL.EN i = true → s.flag SLU_STR_CTL.LOOP i ≠ bit val 2 →
      ∃ t, exec (.strandLoop who die link val) s = .next t ∧ t.flag SLU_STR_CTL.LOOP i = bit val 2 ∧
        t.strandState d l = if s.strandState d l = SS.down then SS.down else SS.detect) ∧
    (16 ≤ l → ∃ t, exec (.sluOptExpWrite who die link val) s = .next t ∧ t.getF SLU_OPT_EXP.EXP_PID i = field val 0 48 ∧
      t.getF SLU_OPT_EXP.EXP_LINK i = field val 48 6 ∧ t.getF SLU_OPT_EXP.EXP_VALID i = field val 56 1 ∧
      (s.strandState d l = SS.active ∨ s.strandState d l = SS.verifyFail → t.strandState d l = SS.verify ∧ (t.strand d l).far = none))

/-- A lane that fails in service, here or at the peer, puts the strand into SWAP; a lane that fails in training fails the attempt, one in
VERIFY_FAIL retrains the strand; a macro that fails its loopback test is replaced by its group's spare; one that passes it, where the peer does not
swap the lane either, or that finds no spare, leads to one full training; the swap done, the strand is ACTIVE with all lanes (R244, R255 to R257). -/
def Sys2Proof.Say.LaneSparing : Prop :=
  ∀ (s : State) (die : Die) (link : Link) (pos : BitVec 2) (passed : Bool),
    let d := die.toNat
    let l := link.toNat
    let x := s.strand d l
    let lane := laneOf l pos.toNat
    let spare := bit (s.reg .SLU_SPARE d) (8 * (lane / 18) + 7) = false
    isStrand d l = true →
    (s.strandState d l = SS.active → ∃ t u, exec (.laneFail die link pos) s = .next t ∧ t.strandState d l = SS.swap ∧
      (t.strand d l).testing = some pos.toNat ∧ (Say.str t SLU_STR_STAT.LANES_OK d l).testBit pos.toNat = false ∧
      exec (.swap die link pos) s = .next u ∧ u.strandState d l = SS.swap ∧ (u.strand d l).initSeen = false ∧
      (u.strand d l).peerSwap = some pos.toNat) ∧
    (s.strandState d l = SS.swap → ∃ u, exec (.swap die link pos) s = .next u ∧ u.strandState d l = SS.swap ∧
      (u.strand d l).peerSwap = some pos.toNat) ∧
    (1 ≤ s.strandState d l → s.strandState d l ≤ 7 → (s.strandState d l = SS.detect → s.peerExists d l = true) → x.fails < 2 →
      ∃ t, exec (.laneFail die link pos) s = .next t ∧ t.strandState d l = SS.detect ∧ (t.strand d l).fails = x.fails + 1) ∧
    (s.strandState d l = SS.verifyFail → ∃ t, exec (.laneFail die link pos) s = .next t ∧ t.strandState d l = SS.detect ∧
      (t.strand d l).attempt = .fast) ∧
    (x.testing = some pos.toNat → passed = false → spare →
      ∃ t, exec (.loopbackTestDone die link pos passed) s = .next t ∧ field (t.reg .SLU_SPARE d) (8 * (lane / 18)) 8 = lane + 128 ∧
        Say.str t SLU_STR_STAT.SPARED d l = 1 ∧ Say.str t SLU_STR_STAT.SPARED_POS d l = pos.toNat ∧ (t.strand d l).swapping = some pos.toNat ∧
        (t.strand d l).linkTx = x.linkTx ++ [swapBody pos.toNat]) ∧
    (x.testing = some pos.toNat → (passed = true → x.peerSwap ≠ some pos.toNat) → (passed = false → ¬spare) →
      ∃ t, exec (.loopbackTestDone die link pos passed) s = .next t ∧ t.strandState d l = SS.detect ∧ (t.strand d l).fails = 2) ∧
    (x.testing = some pos.toNat → passed = true → x.peerSwap = some pos.toNat →
      ∃ t, exec (.loopbackTestDone die link pos passed) s = .next t ∧ t.strandState d l = s.strandState d l ∧ (t.strand d l).testing = none) ∧
    (s.strandState d l = SS.swap → x.testing = none → x.initSeen = true → ∃ t, exec (.swapComplete die link) s = .next t ∧
      t.strandState d l = SS.active ∧ Say.str t SLU_STR_STAT.LANES_OK d l = 15)


/-! ## Route sets, schedules and remote operations (10) -/

/-- A manager's write of a route set of an unbound job that sets VALID takes effect where the set passes the checks and its key slot holds the
generations it names, and then the slot is in use; where a check fails VALID stays 0; one that lets ORDERED traffic detour has the waiting packets
tried again; a write without VALID invalidates (R265, R266, R272, R409). -/
def Sys2Proof.Say.RouteSetsAreValidated : Prop :=
  ∀ (s : State) (who : Ident) (rset : BitVec 4) (val : Word),
    let i := rset.toNat
    let s1 := s.setReg .RTE_RSET_A i (Reg.written .RTE_RSET_A 0 (s.reg .RTE_RSET_A i) val 0)
    let holds := fun (g : Bool) => s1.slotHolds (field val 32 12) (field val 16 16) g
    let keysGood := holds (bit val 3) = true ∧ (bit val 4 → holds false = true) ∧ (bit val 5 → holds true = true)
    Who.isManager who.toNat → s.rsetBound i = false →
    (bit val 0 → s.flag RTE_RSET_A.VALID i = false → keysGood → (s1.setF RTE_RSET_A.VALID i 0).rsetCheck i = none →
      ∃ t, exec (.routeSetValidate who rset val) s = .next t ∧ t.flag RTE_RSET_A.VALID i ∧
        (∀ f ∈ Reg.fields .RTE_RSET_A, t.getF f i = field val f.lo f.w) ∧ (SMap.get {} t.sec.slots (field val 32 12)).named = true) ∧
    (∀ st, bit val 0 → s.flag RTE_RSET_A.VALID i = false → keysGood → (bit val 2 = false ∨ bit (s.reg .RTE_RSET_A i) 2 = true) →
      (s1.setF RTE_RSET_A.VALID i 0).rsetCheck i = some st →
      exec (.routeSetValidate who rset val) s = .next ((s1.setF RTE_RSET_A.VALID i 0).record { status := st, source := Src.die 0 })) ∧
    (bit val 0 → s.flag RTE_RSET_A.VALID i = true → keysGood → bit val 2 = true → bit (s.reg .RTE_RSET_A i) 2 = false →
      exec (.routeSetValidate who rset val) s = .next s1.retryWaiting) ∧
    (bit val 0 = false → ∃ t, exec (.routeSetInvalidate who rset val) s = .next t ∧ t.flag RTE_RSET_A.VALID i = false)

/-- A schedule entry of the spare bank that names a valid route set, a link, strands and slots no other entry of its bank has comes into force
as it is written; one that R280 refuses stays invalid; an entry of the active bank of a bound job keeps its value (R276, R280). -/
def Sys2Proof.Say.ScheduleEntriesAreValidated : Prop :=
  ∀ (s : State) (who : Ident) (n : BitVec 12) (val : Word),
    let s1 := s.setReg .RTE_SCHED_A n.toNat (Reg.written .RTE_SCHED_A 0 (s.reg .RTE_SCHED_A n.toNat) val 0)
    Who.isManager who.toNat → bit val 0 →
    (s.schedHeld n.toNat = true → exec (.schedEntryValidate who n val) s = .next (s.record { status := Status.denied, source := Src.die 0 })) ∧
    (s.schedHeld n.toNat = false → s1.schedBad n.toNat = false → ∃ t, exec (.schedEntryValidate who n val) s = .next t ∧
      t.flag RTE_SCHED_A.VALID n.toNat ∧ ∀ f ∈ Reg.fields .RTE_SCHED_A, t.getF f n.toNat = field val f.lo f.w) ∧
    (s.schedHeld n.toNat = false → s1.schedBad n.toNat = true → ∃ t, exec (.schedEntryValidate who n val) s = .next t ∧
      t.flag RTE_SCHED_A.VALID n.toNat = false)

/-- A bank swap is armed for a gauge value on a boundary at least 262,144 ns ahead, is cancelled while 65,536 ns are left, and at its time the
other bank is active; a switch that fell on the same value has already changed the bank (R279). -/
def Sys2Proof.Say.BankSwapsHappenAtTheirTime : Prop :=
  ∀ (s : State) (who : Ident) (val : Word),
    let at_ := (s.reg .RTE_BANKSW_AT).toNat
    (Who.isManager who.toNat → bit val 0 → bit val 1 = false → s.flag RTE_BANKSW.ARM = false → at_ % 65536 = 0 → s.time + 262144 ≤ at_ →
      s.gstate = GS.locked → ∃ t, exec (.bankSwapArm who val) s = .next t ∧ t.flag RTE_BANKSW.ARM ∧ t.getF RTE_BANKSW.STATUS = Status.ok ∧
        t.getF RTE_BANKSW.ACTIVE = s.getF RTE_BANKSW.ACTIVE) ∧
    (Who.isManager who.toNat → bit val 0 = false → bit val 1 → s.flag RTE_BANKSW.ARM → s.time + 65536 ≤ at_ →
      ∃ t, exec (.bankSwapCancel who val) s = .next t ∧ t.flag RTE_BANKSW.ARM = false ∧ t.getF RTE_BANKSW.STATUS = Status.ok) ∧
    (s.flag RTE_BANKSW.ARM → at_ ≤ s.time → ∃ t, exec .bankSwap s = .next t ∧ t.flag RTE_BANKSW.ARM = false ∧
      t.getF RTE_BANKSW.ACTIVE = (if s.route.lastToggle = some at_ then s.getF RTE_BANKSW.ACTIVE else 1 - s.getF RTE_BANKSW.ACTIVE)) ∧
    ((s.flag RTE_BANKSW.ARM = false ∨ s.time < at_) → exec .bankSwap s = .next s)

namespace Sys2Proof.Say

/-- A packet that stands in a strand's receive buffer ends here, it is its turn, and it passes the receive checks up to its tag, with plaintext
`pt`; `s2` is the state with the packet taken out and its counter noted. -/
def opened (s : State) (d l type : Nat) (p : Packet) (vl : Option Nat) (pt : List Byte) (s2 : State) : Prop :=
  isStrand d l = true ∧ Pkt.type p = type ∧ (Pkt.dst p = s.epn ∨ isGroup (Pkt.dst p) = true) ∧ s.itsTurn d l p = true ∧ Pkt.sane p = true ∧
  ∃ s1, s.takeArrived d l p = (vl, s1) ∧ s1.outOfAge p = none ∧ s1.inJob l p = true ∧ s1.modeGood p = true ∧ s1.open? p = (some pt, s2)

/-- The same, and no abort window of its job drops it. -/
def accepted (s : State) (d l type : Nat) (p : Packet) (vl : Option Nat) (pt : List Byte) (s2 : State) : Prop :=
  opened s d l type p vl pt s2 ∧ s2.fenced p = false

/-- The commands for the packets of the types that a module takes at its own address. -/
def packetRows (d : Die) (l : Link) (p : Packet) : List (Nat × Instr) :=
  [(PT.put, .putPacket d l p), (PT.get, .getPacket d l p), (PT.getRsp, .getRsp d l p), (PT.signal, .signalPacket d l p), (PT.ack, .ack d l p),
   (PT.lstate, .lstate d l p)]

end Sys2Proof.Say

/-- AES-256-GCM opens what it sealed, under the same key, IV and header (R291, R292). -/
def Sys2Proof.Say.GcmOpensWhatItSealed : Prop :=
  ∀ (key : BitVec 256) (iv : Nat) (aad pt : List Byte), gcmOpen key iv aad (gcmSeal key iv aad pt).1 (gcmSeal key iv aad pt).2 = some pt

/-- The receive checks in order (R289): a malformed packet, one whose stamp is too old or too new, one of no job of its sender and one behind a
fence are counted, and change no byte of memory, no batten and no core; one whose tag does not verify aborts its job. -/
def Sys2Proof.Say.ReceiveChecksDropPackets : Prop :=
  ∀ (s : State) (die : Die) (link : Link) (p : Packet) (row : Instr) (vl : Option Nat) (s1 s2 : State),
    let d := die.toNat
    let l := link.toNat
    let drops := fun (f : Fld) (n : Nat) => ∃ t, exec row s = .next t ∧ t.getF f = satTo f.w (n + 1) ∧
      (∀ x, t.byte x = s.byte x) ∧ (∀ b, t.batten b = s.batten b) ∧ t.core.cores = s.core.cores
    (Pkt.type p, row) ∈ Say.packetRows die link p → isStrand d l = true → Pkt.dst p = s.epn → s.itsTurn d l p = true → s.takeArrived d l p = (vl, s1) →
    (Pkt.sane p = false → drops RTE_DROP0.BAD_HDR (s.getF RTE_DROP0.BAD_HDR)) ∧
    (∀ f, Pkt.sane p = true → s1.outOfAge p = some f → drops f (s.getF f)) ∧
    (Pkt.sane p = true → s1.outOfAge p = none → s1.inJob l p = false → drops RTE_DROP0.FOREIGN (s.getF RTE_DROP0.FOREIGN)) ∧
    (Pkt.sane p = true → s1.outOfAge p = none → s1.inJob l p = true → s1.modeGood p = false → drops RTE_DROP0.FOREIGN (s.getF RTE_DROP0.FOREIGN)) ∧
    (Pkt.sane p = true → s1.outOfAge p = none → s1.inJob l p = true → s1.modeGood p = true → s1.open? p = (none, s2) →
      exec row s = .next ((s2.authFail d p).consume vl d l p)) ∧
    (∀ pt, Pkt.sane p = true → s1.outOfAge p = none → s1.inJob l p = true → s1.modeGood p = true → s1.open? p = (some pt, s2) →
      s2.fenced p = true → drops RTE_DROP1.LATE (s.getF RTE_DROP1.LATE))

/-- Packets leave a receive buffer in the order of their VL, and those of an ORDERED flow land in the order of their counts: one whose turn it is not
stays where it is (R197, R203, R270). -/
def Sys2Proof.Say.PacketsTakeTheirTurn : Prop :=
  ∀ (s : State) (die : Die) (link : Link) (p q : Packet) (row : Instr) (vl i j : Nat),
    let d := die.toNat
    let l := link.toNat
    (Pkt.type p, row) ∈ Say.packetRows die link p → isStrand d l = true →
    ((s.strand d l).arrived.findIdx? (fun e => e.2 == p) = some i → (s.strand d l).arrived[i]? = some (vl, p) → j < i →
      (s.strand d l).arrived[j]? = some (vl, q) → vl < 6 → exec row s = .next s ∧
      (s.arriving d l p = none → exec (.packetForward die link p) s = .next s)) ∧
    (Pkt.type p = PT.put ∨ Pkt.type p = PT.signal → Pkt.mode p = false → Pkt.dst p = s.epn → Pkt.sane p = true → s.outOfAge p = none →
      s.inJob l p = true → s.modeGood p = true → s.fenced p = false → s.earlierLanded p = false → exec row s = .next s)

/-- An accepted PUT packet that nothing holds back lands: its plaintext stands at its address and no other byte of memory changes; one outside
the job's memory is counted and changes no byte (R282, R288). -/
def Sys2Proof.Say.PutPacketsLand : Prop :=
  ∀ (s : State) (die : Die) (link : Link) (p : Packet) (vl : Option Nat) (pt : List Byte) (s2 : State),
    Say.accepted s die.toNat link.toNat PT.put p vl pt s2 →
    let inJob := s2.jobRange (Pkt.job p) (Pkt.addr p) (Pkt.len p) = true
    (inJob → region (Pkt.addr p) ≠ .control → (Pkt.rsig p = true → s2.jobBatten (Pkt.job p) (Pkt.arg p % 65536) = true) → (Pkt.mode p = false ∨ Pkt.final p = false) →
      ∃ t, exec (.putPacket die link p) s = .next t ∧ t.bytes (Pkt.addr p) pt.length = pt ∧
        ∀ x, x < Pkt.addr p ∨ Pkt.addr p + pt.length ≤ x → t.byte x = s.byte x) ∧
    (¬inJob → ∃ t, exec (.putPacket die link p) s = .next t ∧ ∀ x, t.byte x = s.byte x)

/-- An accepted SIGNAL with no earlier write outstanding, or of an ORDERED job, adds its value to its batten, and nothing to any other (R212, R286). -/
def Sys2Proof.Say.SignalsAddToTheirBatten : Prop :=
  ∀ (s : State) (die : Die) (link : Link) (p : Packet) (vl : Option Nat) (pt : List Byte) (s2 : State),
    Say.accepted s die.toNat link.toNat PT.signal p vl pt s2 →
    let b := Pkt.addr p % 65536
    (s2.jobBatten (Pkt.job p) b = true → Pkt.mode p = false ∨ s2.earlierLanded p = true →
      ∃ t, exec (.signalPacket die link p) s = .next t ∧ t.batten b = (s.batten b + Pkt.arg p) % 2 ^ 32 ∧
        (∀ k, k ≠ b → t.batten k = s.batten k) ∧ ∀ x, t.byte x = s.byte x) ∧
    (s2.jobBatten (Pkt.job p) b = false → ∃ t, exec (.signalPacket die link p) s = .next t ∧ ∀ k, t.batten k = s.batten k)

/-- A FINAL PUT or a SIGNAL of an UNORDERED job that comes before an earlier write waits in the hold store, and lands once that has landed; one
whose stamp passes the stale limit is dropped and counted, with an abort of its job (R43, R198, R199, R284). -/
def Sys2Proof.Say.HeldWritesWaitAndLand : Prop :=
  ∀ (s : State) (die : Die) (link : Link) (p : Packet) (vl : Option Nat) (pt : List Byte) (s2 : State) (idx : Nat) (h : HeldPkt),
    (Say.accepted s die.toNat link.toNat PT.signal p vl pt s2 → s2.jobBatten (Pkt.job p) (Pkt.addr p % 65536) = true → Pkt.mode p = true →
      s2.earlierLanded p = false → ∃ t x, exec (.signalPacket die link p) s = .next t ∧ t.route.holds = s.route.holds ++ [x] ∧ x.pkt = p ∧
        x.parked = decide (8388608 < s.holdUsed die.toNat + 48) ∧ ∀ b, t.batten b = s.batten b) ∧
    (s.route.holds[idx]? = some h → s.earlierLanded h.pkt = true →
      (Pkt.type h.pkt = PT.signal → s.jobBatten (Pkt.job h.pkt) (Pkt.addr h.pkt % 65536) = true → ∃ t, exec (.heldWriteLand idx) s = .next t ∧
        t.route.holds = removeAt s.route.holds idx ∧
        t.batten (Pkt.addr h.pkt % 65536) = (s.batten (Pkt.addr h.pkt % 65536) + Pkt.arg h.pkt) % 2 ^ 32) ∧
      (Pkt.type h.pkt ≠ PT.signal → region (Pkt.addr h.pkt) ≠ .control → ∃ t, exec (.heldWriteLand idx) s = .next t ∧ t.route.holds = removeAt s.route.holds idx ∧
        t.bytes (Pkt.addr h.pkt) h.pkt.payload.length = h.pkt.payload)) ∧
    (s.route.holds[idx]? = some h → s.outOfAge h.pkt = some CRS_STALE.COUNT → exec (.finalHoldExpiry idx) s =
      .next ((((s.unhold idx h).bump CRS_STALE.COUNT).record
        { status := Status.timeout, source := Src.die h.die, sev := .partitionFatal, job := s.pktJob h.pkt }).raiseAbort
        (Pkt.job h.pkt) Status.jobAbort 5)) ∧
    (s.route.holds[idx]? = some h → s.outOfAge h.pkt ≠ some CRS_STALE.COUNT → exec (.finalHoldExpiry idx) s = .next s)

/-- An accepted GET is answered: inside the job's memory with the bytes at its address and their poison, for the address in its payload,
elsewhere with DENIED; no byte of memory changes (R285, R288). -/
def Sys2Proof.Say.GetsAreAnswered : Prop :=
  ∀ (s : State) (die : Die) (link : Link) (p : Packet) (vl : Option Nat) (pt : List Byte) (s2 : State),
    Say.accepted s die.toNat link.toNat PT.get p vl pt s2 →
    let s3 := s2.consume vl die.toNat link.toNat p
    let a := Pkt.addr p
    let q : PktReq := { type := PT.getRsp, job := Pkt.job p, dst := Pkt.src p, gen := Pkt.gen p, chan := Pkt.chan p, count := Pkt.count p,
                        addr := leNat pt % 2 ^ 42 }
    (s2.jobRange (Pkt.job p) a (Pkt.len p) = true → ∃ t, exec (.getPacket die link p) s = .next t ∧
      t = (s3.noteRead a (Pkt.len p)).send { q with poison := s3.anyPoison a (Pkt.len p), lenM1 := Pkt.lenM1 p, payload := s3.homeBytes a (Pkt.len p) } ∧
      (region a ≠ .control → s3.homeBytes a (Pkt.len p) = s.bytes a (Pkt.len p)) ∧
      ∀ x, t.byte x = s.byte x) ∧
    (s2.jobRange (Pkt.job p) a (Pkt.len p) = false → ∃ t, exec (.getPacket die link p) s = .next t ∧
      t = (s3.bump RTE_DROP1.DENIED).send { q with arg := Status.denied } ∧ t.getF RTE_DROP1.DENIED = satTo RTE_DROP1.DENIED.w (s.getF RTE_DROP1.DENIED + 1))

/-- An answer to an outstanding GET of the present generation lands at its address and is counted off its command; an ACK completes its command;
one that answers nothing outstanding is counted late and lands nothing (R282, R285, R444). -/
def Sys2Proof.Say.AnswersComplete : Prop :=
  ∀ (s : State) (die : Die) (link : Link) (p : Packet) (vl : Option Nat) (pt : List Byte) (s2 : State),
    (Say.accepted s die.toNat link.toNat PT.getRsp p vl pt s2 →
      (∀ g, s.route.gets.find? (fun g => g.tag == Pkt.count p && g.job == Pkt.job p && g.peer == Pkt.src p) = some g → Pkt.gen p = s.gen g.part →
        Pkt.arg p = Status.ok → s2.jobRange (Pkt.job p) (Pkt.addr p) (Pkt.len p) = true → region (Pkt.addr p) ≠ .control → ∃ t, exec (.getRsp die link p) s = .next t ∧
          t.bytes (Pkt.addr p) pt.length = pt ∧ (∀ x, x < Pkt.addr p ∨ Pkt.addr p + pt.length ≤ x → t.byte x = s.byte x) ∧
          ∀ r ∈ (s.getCore g.core).drun, r.id = g.dma →
            ∃ r' ∈ (t.getCore g.core).drun, r'.id = r.id ∧ r'.pendingParts = r.pendingParts - 1 ∧ r'.poisoned = (r.poisoned || Pkt.poison p)) ∧
      (s.route.gets.find? (fun g => g.tag == Pkt.count p && g.job == Pkt.job p && g.peer == Pkt.src p) = none →
        ∃ t, exec (.getRsp die link p) s = .next t ∧ t.getF RTE_DROP1.LATE = satTo RTE_DROP1.LATE.w (s.getF RTE_DROP1.LATE + 1) ∧
          ∀ x, t.byte x = s.byte x)) ∧
    (Say.accepted s die.toNat link.toNat PT.ack p vl pt s2 →
      (∀ u, (s.srcFlow (Pkt.flow p)).unacked.find? (fun u => u.count == Pkt.count p) = some u → Pkt.gen p = s.gen u.part → Pkt.arg p = Status.ok →
        ∃ t, exec (.ack die link p) s = .next t ∧ (∀ v ∈ (t.srcFlow (Pkt.flow p)).unacked, v.count ≠ Pkt.count p) ∧
          (∀ r ∈ (t.getCore u.core).drun, r.id = u.dma → r.pendingParts = 0) ∧ ∀ x, t.byte x = s.byte x) ∧
      ((s.srcFlow (Pkt.flow p)).unacked.find? (fun u => u.count == Pkt.count p) = none → ∃ t, exec (.ack die link p) s = .next t ∧
        t.getF RTE_DROP1.LATE = satTo RTE_DROP1.LATE.w (s.getF RTE_DROP1.LATE + 1)))

/-- A packet for another module goes to the strand of its out-link, on the die it came on where that is in service, whole or while it still arrives;
where no link leads on, it is dropped and counted (R267, R270, R273). -/
def Sys2Proof.Say.PacketsAreForwarded : Prop :=
  ∀ (s : State) (die : Die) (link : Link) (p : Packet) (vl : Option Nat) (s1 : State),
    let d := die.toNat
    let l := link.toNat
    isStrand d l = true → Pkt.dst p ≠ s.epn → isGroup (Pkt.dst p) = false → Pkt.sane p = true → s.takeArrived d l p = (vl, s1) →
    s1.outOfAge p = none → s1.inJob l p = true →
    (∀ v m i o, s.arriving d l p = some (v, m) → s.headFails d l p = none → s.wayOn p = some (i, o) → Pkt.cls p ≠ 1 → d ∈ s.activeDies o →
      ∃ t x, exec (.packetForward die link p) s = .next t ∧ x.pkt = p ∧ x.missing = m ∧
        SMap.get [] (t.strand d o).tx (vlOf (Pkt.cls p) true) = SMap.get [] (s.strand d o).tx (vlOf (Pkt.cls p) true) ++ [x]) ∧
    (s.arriving d l p = none → s.itsTurn d l p = true →
    (∀ i o, s.rsetOf (Pkt.job p) = some i → s.forwardLink i (Pkt.dst p) = some o → s.linkState o ≠ 2 → s.inSlice i (s.peerOf o) = true →
      Pkt.cls p ≠ 1 → d ∈ s.activeDies o → ∃ t x, exec (.packetForward die link p) s = .next t ∧ x.pkt = p ∧
        SMap.get [] (t.strand d o).tx (vlOf (Pkt.cls p) true) = SMap.get [] (s.strand d o).tx (vlOf (Pkt.cls p) true) ++ [x]) ∧
    (∀ i, s.rsetOf (Pkt.job p) = some i → s.forwardLink i (Pkt.dst p) = none → ∃ t, exec (.packetForward die link p) s = .next t ∧
      t.getF RTE_DROP0.NO_ROUTE = satTo RTE_DROP0.NO_ROUTE.w (s.getF RTE_DROP0.NO_ROUTE + 1)))

/-- A module tells every row and column peer that it reaches of a link whose state changed, once, and takes from a peer what it tells of its
links (R271). -/
def Sys2Proof.Say.LinkStatesAreTold : Prop :=
  (∀ (s : State) (link : Link) (m t0 : Nat),
    let l := link.toNat
    SMap.find? s.route.lstateDue l = some t0 → s.flag SEC_STATE.FABRIC_KEY = false → (∀ k, SMap.get 0 s.route.gcmTx k < 2 ^ 62) →
    isLink m = true → m < 15 → s.linkUp m = true →
    ∃ t d x, exec (.lstateSend link) s = .next t ∧ SMap.find? t.route.lstateDue l = none ∧ d ∈ s.activeDies m ∧
      x ∈ SMap.get [] (t.strand d m).tx 0 ∧ Pkt.type x.pkt = PT.lstate ∧ Pkt.dst x.pkt = s.peerOf m ∧ Pkt.arg x.pkt = l + 256 * s.linkState l) ∧
  (∀ (s : State) (die : Die) (link : Link) (p : Packet) (vl : Option Nat) (pt : List Byte) (s2 : State),
    Say.accepted s die.toNat link.toNat PT.lstate p vl pt s2 → ∃ t, exec (.lstate die link p) s = .next t ∧
      SMap.find? t.route.told (Pkt.src p * 32 + Pkt.arg p % 256) = some (Pkt.arg p / 256))

/-! ## Groups, trigger slots and the junction (11) -/

namespace Sys2Proof.Say

/-- A collective packet passes the receive checks and names a slot that takes it: the slot's job, role and state, its instance, another member. -/
def collTaken (s : State) (d l type : Nat) (p : Packet) (vl : Option Nat) (pt : List Byte) (u : State) : Prop :=
  ∃ s2, accepted s d l type p vl pt s2 ∧ u = s2.consume vl d l p ∧ u.slotJob (Pkt.slot p) = Pkt.job p ∧ u.roleTakes (Pkt.slot p) p = true ∧
    Pkt.inst p = u.getF COL_TRG_STAT.INST (Pkt.slot p) ∧ Pkt.src p ∈ u.peersIn (u.grpOf (Pkt.slot p)) ∧ Pkt.gen p = u.slotGen (Pkt.slot p)

end Sys2Proof.Say

/-- A group that no slot under way names is written by a manager, and is valid where it passes the checks of R297; one a slot under way names keeps
its value. -/
def Sys2Proof.Say.GroupsAreValidated : Prop :=
  ∀ (s : State) (who : Ident) (group : BitVec 10) (val : Word),
    let g := group.toNat
    let s1 := s.setReg .COL_GRP_A g (Reg.written .COL_GRP_A 0 (s.reg .COL_GRP_A g) val 0)
    Who.isManager who.toNat → bit val 0 → s.flag COL_GRP_A.VALID g = false →
    (s.groupBusy g = false → s1.groupGood g = true → ∃ t, exec (.groupValidate who group val) s = .next t ∧
      ∀ f ∈ Reg.fields .COL_GRP_A, t.getF f g = field val f.lo f.w) ∧
    (s.groupBusy g = false → s1.groupGood g = false → ∃ t, exec (.groupValidate who group val) s = .next t ∧ t.flag COL_GRP_A.VALID g = false) ∧
    (s.groupBusy g = true → exec (.groupValidate who group val) s = .next (s.record { status := Status.denied, source := Src.die 0 }))

/-- A slot that passes the arm checks is ARMED with a watch on its trigger batten, or in HANDSHAKE where it has no trigger; one that fails shows
the status of the first check that fails; a disarm before the launch returns it to IDLE with its watch gone, and one in the clock of the launch or
later is ignored with WINDOW (R299, R304; the record of a failing arm is log entry 11). -/
def Sys2Proof.Say.SlotsAreArmedAndDisarmed : Prop :=
  ∀ (s : State) (who : Ident) (slot : BitVec 12) (val : Word),
    let n := slot.toNat
    let w : Watch := ⟨.trigger n, s.getF COL_TRG.TRIG_BTN n, s.getF COL_TRG.TRIG_COUNT n, s.getF COL_TRG.DEADLINE n⟩
    Who.isManager who.toNat →
    (bit val 3 → bit val 4 = false → s.armCheck n = none →
      ∃ t, exec (.triggerArm who slot val) s = .next t ∧ t.getF COL_TRG_STAT.STATUS n = Status.ok ∧ t.getF COL_TRG_STAT.INST n = 0 ∧
        (s.flag COL_TRG.TRIG_EN n = false → t.trgState n = TS.handshake) ∧
        (s.flag COL_TRG.TRIG_EN n = true → t.trgState n = TS.armed ∧ (s.task.watches.length < 2048 →
          if batMet (s.batten w.batten) w.target then (∃ m ∈ t.task.met, m.watch = w ∧ m.count = s.batten w.batten) else w ∈ t.task.watches))) ∧
    (∀ st, bit val 3 → bit val 4 = false → s.armCheck n = some st → exec (.triggerArm who slot val) s =
      .next ((s.setF COL_TRG_STAT.STATUS n st).record { status := st, source := Src.die 0 })) ∧
    (bit val 4 → bit val 3 = false → s.trgState n = TS.launched ∨ (s.launchTime n = true ∧ s.gauge.stopped = false) →
      exec (.triggerDisarm who slot val) s = .next ((s.setF COL_TRG_STAT.STATUS n Status.window).record { status := Status.window, source := Src.die 0 })) ∧
    (bit val 4 → bit val 3 = false → s.trgState n = TS.armed ∨ s.trgState n = TS.handshake → (s.launchTime n = true → s.gauge.stopped = true) →
      ∃ t, exec (.triggerDisarm who slot val) s = .next t ∧ t.trgState n = TS.idle ∧ t.getF COL_TRG_STAT.STATUS n = Status.ok ∧ t.slot n = {} ∧
        (∀ x ∈ t.task.watches ++ t.task.retry, x.who ≠ .trigger n) ∧ ∀ m ∈ t.task.met, m.watch.who ≠ .trigger n)

/-- A collective packet that passes the receive checks and names no slot that takes it is counted as stray, and one of an earlier generation as late;
neither changes memory, a batten or a slot (R306, R320). -/
def Sys2Proof.Say.StrayPacketsAreCounted : Prop :=
  ∀ (s s2 : State) (die : Die) (link : Link) (p : Packet) (faults : List JunctionFault) (row : Instr) (type : Nat) (vl : Option Nat) (pt : List Byte),
    let u := s2.consume vl die.toNat link.toNat p
    let named := u.slotJob (Pkt.slot p) = Pkt.job p ∧ u.roleTakes (Pkt.slot p) p = true ∧ Pkt.inst p = u.getF COL_TRG_STAT.INST (Pkt.slot p) ∧
      Pkt.src p ∈ u.peersIn (u.grpOf (Pkt.slot p))
    (type, row) ∈ [(PT.cbcast, .cbcast die link p), (PT.creduce, .creduce die link p faults), (PT.cnak, .cnak die link p)] →
    Say.accepted s die.toNat link.toNat type p vl pt s2 →
    (¬named → exec row s = .next (u.bump COL_CNT.STRAY)) ∧
    (named → Pkt.gen p ≠ u.slotGen (Pkt.slot p) → exec row s = .next (u.bump RTE_DROP1.LATE)) ∧
    (∀ f, f = COL_CNT.STRAY ∨ f = RTE_DROP1.LATE → (∀ x, (u.bump f).byte x = s.byte x) ∧ (∀ b, (u.bump f).batten b = s.batten b) ∧
      (u.bump f).coll.slots = s.coll.slots)

/-- A batten watch that is met takes its armed slot into HANDSHAKE (R299). -/
def Sys2Proof.Say.TriggersAreMet : Prop :=
  ∀ (s : State) (idx n : Nat) (m : Met), s.task.met[idx]? = some m → m.watch.who = .trigger n → s.trgState n = TS.armed →
    ∃ t, exec (.battenWatchWake idx) s = .next t ∧ t.trgState n = TS.handshake ∧ t.task.met = removeAt s.task.met idx

/-- GRANT, READY, DONE and YACK of a member are noted in the slot; a slot in HANDSHAKE whose launch condition comes to hold is to launch at the next
course boundary; a root reserves its junction buffer where there is space (R300, R301, R316). -/
def Sys2Proof.Say.HandshakesComplete : Prop :=
  (∀ (s u : State) (die : Die) (link : Link) (p : Packet) (vl : Option Nat) (pt : List Byte),
    Say.collTaken s die.toNat link.toNat PT.cctl p vl pt u →
    let n := Pkt.slot p
    (Pkt.arg p / 256 = Ctl.grant → ∃ t, exec (.cctlGrant die link p) s = .next t ∧ (t.slot n).granted = true ∧
      (u.trgState n = TS.handshake → u.isBcast n = false → (t.slot n).holds = some ((s.slot n).holds.getD s.nextBoundary))) ∧
    (Pkt.arg p / 256 = Ctl.ready → ∃ t, exec (.cctlReady die link p) s = .next t ∧ SMap.get false (t.slot n).ready (Pkt.src p) = true ∧
      (u.trgState n = TS.handshake → u.isBcast n = true → u.isRoot n = true →
        (∀ e ∈ u.peersIn (u.grpOf n), e = Pkt.src p ∨ SMap.get false (s.slot n).ready e = true) →
        (t.slot n).holds = some ((s.slot n).holds.getD s.nextBoundary))) ∧
    (Pkt.arg p / 256 = Ctl.done → ∃ t, exec (.cctlDone die link p) s = .next t ∧ SMap.get false (t.slot n).done (Pkt.src p) = true) ∧
    (Pkt.arg p / 256 = Ctl.yack → ∃ t, exec (.cctlYack die link p) s = .next t ∧
      SMap.get false (t.slot n).acked (Pkt.off p / u.yelmSize n) = true)) ∧
  (∀ (s : State) (slot : BitVec 12),
    let n := slot.toNat
    let need := (s.members (s.grpOf n)).length * 8 * s.yelmSize n
    s.trgState n = TS.handshake → s.isReduce n = true → s.isRoot n = true → s.isBcast n = false → (s.slot n).reserved = 0 →
    (s.junctionUsed + need ≤ 16777216 → ∃ t, exec (.junctionReserve slot) s = .next t ∧ (t.slot n).reserved = need ∧ (t.slot n).granted = true ∧
      (t.slot n).holds = some ((s.slot n).holds.getD s.nextBoundary)) ∧
    (16777216 < s.junctionUsed + need → exec (.junctionReserve slot) s = .next s))

/-- A slot whose boundary has come launches, the lowest first and after a change of course length due there: it is LAUNCHED, and a member of a
reduction sends its first yelms, 8 on each die (R301, R304, R316); before its boundary nothing happens. -/
def Sys2Proof.Say.SlotsLaunchAtTheirBoundary : Prop :=
  ∀ (s : State) (slot : BitVec 12) (faults : List (Nat × JunctionFault)),
    let n := slot.toNat
    (s.launchDue n = true → (∀ e ∈ s.coll.slots, n ≤ e.1 ∨ s.launchDue e.1 = false) → ∃ t, exec (.triggerLaunch ⟨slot, faults⟩) s = .next t ∧
      (faults = [] → t.trgState n = TS.launched) ∧
      (s.isBcast n = false → s.isRoot n = false → (s.slot n).sent = [] → ∀ y, y < s.yelms n → y < 32 → SMap.get false (t.slot n).sent y = true)) ∧
    (s.launchDue n = false → exec (.triggerLaunch ⟨slot, faults⟩) s = .next s)

/-- A whole broadcast yelm whose check value is right lands at its place, and no other byte of memory changes; one whose check fails lands nowhere, is
counted and asked for again (R308, R309, R319). -/
def Sys2Proof.Say.BroadcastYelmsLand : Prop :=
  ∀ (s u : State) (die : Die) (link : Link) (p : Packet) (vl : Option Nat) (pt : List Byte) (v : YelmIn),
    Say.collTaken s die.toNat link.toNat PT.cbcast p vl pt u →
    let n := Pkt.slot p
    let y := Pkt.off p / u.yelmSize n
    let w := u.storeYelm n y p pt
    let a := u.getF COL_TRG.DST n + y * u.yelmSize n
    y < u.yelms n → SMap.get false (u.slot n).landed y = false →
    (w.slot n).inputs.find? (fun v => v.src == Pkt.src p && v.yelm == y) = some v →
    (v.bytes.length < u.yelmLen n y → ∃ t, exec (.cbcast die link p) s = .next t ∧ ∀ x, t.byte x = s.byte x) ∧
    (u.yelmLen n y ≤ v.bytes.length → w.yelmGood n v = true → ∃ t, exec (.cbcast die link p) s = .next t ∧
      t.bytes a (u.yelmLen n y) = v.bytes.take (u.yelmLen n y) ∧ (∀ x, x < a ∨ a + u.yelmLen n y ≤ x → t.byte x = s.byte x) ∧
      SMap.get false (t.slot n).landed y = true) ∧
    (u.yelmLen n y ≤ v.bytes.length → w.yelmGood n v = false → SMap.get 0 (u.slot n).fails (Pkt.src p * 65536 + y) < 2 →
      ∃ t, exec (.cbcast die link p) s = .next t ∧ (∀ x, t.byte x = s.byte x) ∧
        t.getF COL_CNT.CRC_BAD = satTo COL_CNT.CRC_BAD.w (s.getF COL_CNT.CRC_BAD + 1) ∧ SMap.get false (t.slot n).landed y = false)

/-- Once the last contribution of a yelm is in and good, the junction combines it and lands the result; after a residue mismatch, or a result that
fails its check at the landing, it combines once more, and the second ends the job (R309, R316, R317, R319). -/
def Sys2Proof.Say.ContributionsAreCombined : Prop :=
  ∀ (s u : State) (die : Die) (link : Link) (p : Packet) (vl : Option Nat) (pt : List Byte) (v : YelmIn) (faults : List JunctionFault),
    Say.collTaken s die.toNat link.toNat PT.creduce p vl pt u →
    let n := Pkt.slot p
    let y := Pkt.off p / u.yelmSize n
    let w := u.storeYelm n y p pt
    let g := w.setSlot n { w.slot n with inputs := (w.slot n).inputs.map fun x => if x.src == v.src && x.yelm == v.yelm then { x with good := true } else x }
    let r := g.noteYelm n y
    let land := fun (q : State) => (q.combined n y).2.landYelm n y (q.combined n y).1
    let spoiled := fun (q : State) (pos : Nat) (x : Byte) =>
      q.yelmCrc n (flipByte (r.combined n y).1.1 pos x, (r.combined n y).1.2) ≠ q.yelmCrc n (r.combined n y).1
    y < u.yelms n → SMap.get false (u.slot n).landed y = false →
    (w.slot n).inputs.find? (fun v => v.src == Pkt.src p && v.yelm == y) = some v → u.yelmLen n y ≤ v.bytes.length → w.yelmGood n v = true →
    (u.trgState n ≠ TS.launched ∨ g.yelmReady n y = false → exec (.creduce die link p faults) s = .next g) ∧
    (u.trgState n = TS.launched → g.yelmReady n y = true →
      exec (.creduce die link p []) s = .next (land r) ∧
      exec (.creduce die link p [.residue]) s = .next (land (r.bump COL_CNT.RESID)) ∧
      exec (.creduce die link p (.residue :: .residue :: faults)) s =
        .next (((r.bump COL_CNT.RESID).bump COL_CNT.RESID).endSlot n Status.integrity) ∧
      ∀ pos x, spoiled (r.combined n y).2 pos x →
        exec (.creduce die link p [.output pos x]) s = .next (land (((r.combined n y).2.bump COL_CNT.CRC_BAD).yelmRecord y n)))

/-- The junction's result: FP32 and BF16 contributions are added in rank order, rounding at each addition, WA128 ones exactly, with the result's tag;
the result stands at its place, no byte elsewhere changes, and the yelm counts as landed (R313 to R315). -/
def Sys2Proof.Say.TheJunctionAddsContributions : Prop :=
  ∀ (s : State) (n y : Nat),
    let len := s.yelmLen n y
    let src := s.getF COL_TRG.SRC n + y * s.yelmSize n
    let ta := s.getF COL_TRG.SRC_TAGS n + 4 * y
    let rt := s.getF COL_TRG.RES_TAGS n + 4 * y
    let dst := s.getF COL_TRG.DST n + y * s.yelmSize n
    let dt := s.getF COL_TRG.DTYPE n
    let t := s.junction n y false []
    let parts := fun (own : Nat) => (s.members (s.grpOf n)).map fun e =>
      if e = s.epn then (s.bytes src len, own)
      else match (s.slot n).inputs.find? fun v => v.src == e && v.yelm == y with | some v => (v.bytes.take len, v.tag) | none => ([], 0)
    SMap.get false (t.slot n).landed y = true ∧
    (dt = DT.fp32 ∨ dt = DT.bf16 →
      let r := combineOrdered (if dt = DT.fp32 then Fmt.fp32 else Fmt.bf16) (if dt = DT.fp32 then 4 else 2) ((parts 0).map (·.1))
      t.bytes dst r.length = r ∧ ∀ x, x < dst ∨ dst + r.length ≤ x → t.byte x = s.byte x) ∧
    (dt = DT.wa → ∃ ps, ps.Perm (parts (leNat (s.bytes ta 4))) ∧
      (let r := combineExact ps
       (rt + 4 ≤ dst ∨ dst + r.1.length ≤ rt → t.bytes dst r.1.length = r.1 ∧ t.bytes rt 4 = leBytes 4 r.2 ∧
         ∀ x, (x < dst ∨ dst + r.1.length ≤ x) → (x < rt ∨ rt + 4 ≤ x) → t.byte x = s.byte x)))

/-- A CNAK has its yelm sent again and counted in RESENDS (R319). -/
def Sys2Proof.Say.ResendsAreCounted : Prop :=
  ∀ (s u : State) (die : Die) (link : Link) (p : Packet) (vl : Option Nat) (pt : List Byte),
    Say.collTaken s die.toNat link.toNat PT.cnak p vl pt u → ∃ t, exec (.cnak die link p) s = .next t ∧
      t.getF COL_TRG_STAT.RESENDS (Pkt.slot p) = satTo COL_TRG_STAT.RESENDS.w (s.getF COL_TRG_STAT.RESENDS (Pkt.slot p) + 1) ∧
      ∀ x, t.byte x = s.byte x

/-- A slot that has done all its role asks for is DONE, with its done batten one higher; with REARM it is armed for its next instance and count instead;
one past its boundaries ends in FAULT with TIMEOUT (R302, R303, R320). -/
def Sys2Proof.Say.SlotsCompleteOrTimeOut : Prop :=
  ∀ (s : State) (slot : BitVec 12),
    let n := slot.toNat
    let under := s.trgState n = TS.handshake ∨ s.trgState n = TS.launched
    (s.slotComplete n = true → s.flag COL_TRG.CHAIN n = false → ∃ t, exec (.triggerComplete slot) s = .next t ∧
      t.getF COL_TRG_STAT.STATUS n = (if (s.slot n).poison then Status.poison else Status.ok) ∧
      (s.flag COL_TRG.DONE_EN n = true → t.batten (s.getF COL_TRG.DONE_BTN n) = (s.batten (s.getF COL_TRG.DONE_BTN n) + 1) % 2 ^ 32) ∧
      (∀ b, ¬(s.flag COL_TRG.DONE_EN n = true ∧ b = s.getF COL_TRG.DONE_BTN n) → t.batten b = s.batten b) ∧
      (s.flag COL_TRG.REARM n = false → t.trgState n = TS.done) ∧
      (s.flag COL_TRG.REARM n = true → t.trgState n = (if s.flag COL_TRG.TRIG_EN n then TS.armed else TS.handshake) ∧
        t.getF COL_TRG_STAT.INST n = (s.getF COL_TRG_STAT.INST n + 1) % 16 ∧
        t.getF COL_TRG.TRIG_COUNT n = (s.getF COL_TRG.TRIG_COUNT n + s.getF COL_TRG.COUNT_STEP n) % 2 ^ 32)) ∧
    (s.slotComplete n = false → exec (.triggerComplete slot) s = .next s) ∧
    (under → s.collLimit n ≤ (s.slot n).courses → s.slotComplete n = false →
      exec (.collectiveTimeout slot) s = .next (s.endSlot n Status.timeout)) ∧
    (∀ st, st < 256 → (s.slotFault n st).trgState n = TS.fault ∧ (s.slotFault n st).getF COL_TRG_STAT.STATUS n = st ∧ (s.slotFault n st).slot n = {}) ∧
    (¬under ∨ (s.slot n).courses < s.collLimit n → exec (.collectiveTimeout slot) s = .next s)

/-! ## Host ports and mailbox channels (12) -/

namespace Sys2Proof.Say

/-- A well-formed request with an opcode stands first in a channel: the rider has not taken it, it has not expired, and the rider serves it, as it does
outside recovery and outside a pause of an activation (R402, R468). -/
def asks (s : State) (chan : BitVec 6) (op : Nat) (h : MbxReq) (rest : List MbxReq) : Prop :=
  (s.chan chan.toNat).requests = h :: rest ∧ h.taken = false ∧ h.expired = false ∧ h.busy = false ∧ h.headerGood = true ∧ h.opcode = op ∧
    s.stage ≠ Stage.recovery ∧ s.rider.pause = none

/-- The channel's first request has been answered: it has left, and the response with the status and words stands last. -/
def answers (s t : State) (chan : BitVec 6) (h : MbxReq) (rest : List MbxReq) (status : Nat) (ws : List Nat) : Prop :=
  (t.chan chan.toNat).requests = rest ∧ (t.chan chan.toNat).responses = (s.chan chan.toNat).responses ++ [h.response status ws]

end Sys2Proof.Say

/-- An aperture read in a function's reach completes with the bytes at its address and EP where a granule is poisoned, and a write lands there alone;
out of its reach a read completes with Completer Abort, a write lands nowhere, and each is counted (R330, R331, R359). -/
def Sys2Proof.Say.AperturesReachMemory : Prop :=
  ∀ (s : State) (fn : Ident) (off : BitVec 42) (len : BitVec 13) (data : List Byte) (ep : Bool),
    let f := fn.toNat
    let a := s.apAddr f off.toNat
    let n := len.toNat
    Who.isFn f = true → s.fnAccepts f = true →
    (off.toNat + n ≤ s.apertureSize f →
      (s.fnRange f a n = true → ∃ t, exec (.apertureRead fn off len) s = .next t ∧
        t.out.getLast? = some (.completion f (some (s.bytes a n)) (s.anyPoison a n)) ∧ ∀ x, t.byte x = s.byte x) ∧
      (s.fnRange f a n = false → ∃ t, exec (.apertureRead fn off len) s = .next t ∧ t.out.getLast? = some (.completion f none false) ∧
        t.getF HIF_FN_C.BAD_ACCESS f = satTo HIF_FN_C.BAD_ACCESS.w (s.getF HIF_FN_C.BAD_ACCESS f + 1))) ∧
    (off.toNat + data.length ≤ s.apertureSize f →
      (s.fnRange f a data.length = true → ∃ t, exec (.apertureWrite fn off data ep) s = .next t ∧ t.bytes a data.length = data ∧
        ∀ x, x < a ∨ a + data.length ≤ x → t.byte x = s.byte x) ∧
      (s.fnRange f a data.length = false → ∃ t, exec (.apertureWrite fn off data ep) s = .next t ∧ (∀ x, t.byte x = s.byte x) ∧
        t.getF HIF_FN_C.BAD_ACCESS f = satTo HIF_FN_C.BAD_ACCESS.w (s.getF HIF_FN_C.BAD_ACCESS f + 1)))

/-- A VF in TDISP ERROR gets Unsupported Request to a read, and its writes land nowhere (R417). -/
def Sys2Proof.Say.AFunctionInErrorReachesNothing : Prop :=
  ∀ (s : State) (fn : Ident) (off : BitVec 42) (len : BitVec 13) (data : List Byte) (ep : Bool),
    Who.isVF fn.toNat = true → s.fnExists fn.toNat = true → s.tdi fn.toNat = 3 →
    (off.toNat + len.toNat ≤ s.apertureSize fn.toNat → exec (.apertureRead fn off len) s = .next (s.emit (.unsupported fn.toNat))) ∧
    exec (.apertureWrite fn off data ep) s = .next s

/-- The function or its PF sets the aperture base to a multiple of the aperture's size; any other value is refused (R329). A PF gives a partition that
its family or nobody holds, unbound and of slates no other partition has, to a function of its family; a bound one is refused; where both PFs write
one register in one clock, PF0's write goes first (R325, R326; that commands which wait together fall in one clock is log entry 98). -/
def Sys2Proof.Say.OwnersAndApertures : Prop :=
  (∀ (s : State) (who fn : Ident) (val : Word),
    let base := field val 0 12
    mayFn who.toNat fn.toNat = true → s.tdiHeld fn.toNat = false →
    (base * 2 ^ 30 % s.apertureSize fn.toNat = 0 → ∃ t, exec (.apertureBaseWrite who fn val) s = .next t ∧ t.getF HIF_FN_A.APBASE_GIB fn.toNat = base ∧
      (∀ off, t.apAddr fn.toNat off = base * 2 ^ 30 + off) ∧ ∀ x, t.byte x = s.byte x) ∧
    (base * 2 ^ 30 % s.apertureSize fn.toNat ≠ 0 → exec (.apertureBaseWrite who fn val) s =
      .next (s.record { status := Status.badArg, source := Src.port (Who.port fn.toNat) }))) ∧
  (∀ (s : State) (who : Ident) (part : BitVec 4) (val : Word),
    let p := part.toNat
    let new := field val 0 16
    let slates := field val 16 16
    let waits := s.pending.any (pf0Pown p)
    (who.toNat = Who.pf1 → waits = true → exec (.partitionOwnerWrite who part val) s =
      .next { s with host := { s.host with pown := s.host.pown ++ [(p, val)] } }) ∧
    (Who.isPF who.toNat = true → (who.toNat = Who.pf1 → waits = false) →
    (who.toNat = Who.pf0 → new ≠ 0 ∨ ∀ e ∈ s.host.pown, e.1 ≠ p) →
    (heldBy who.toNat (s.owner p) = true → heldBy who.toNat new = true → s.tdiHeld (s.owner p) = false → s.bound p = false →
      (∀ q < 16, q ≠ p → s.slatesOf q &&& slates = 0) → (new = 0 ∨ slates ≠ 0) →
      ∃ t, exec (.partitionOwnerWrite who part val) s = .next t ∧ t.owner p = new ∧ t.slatesOf p = slates ∧
        ∀ q < 16, q ≠ p → t.owner q = s.owner q ∧ t.slatesOf q = s.slatesOf q) ∧
    (s.bound p = true → s.host.pown = [] → exec (.partitionOwnerWrite who part val) s =
      .next (s.record { status := Status.denied, source := Src.port (Who.port who.toNat) }))))

/-- A copy descriptor takes a credit and waits, or is dropped with a count where none is left; a descriptor starts with its data read, or with the
status of the check it fails; as it completes a copy to the module lands, its batten rises by one where it is in the function's bounds, and its
credit returns (R333 to R335). -/
def Sys2Proof.Say.CopiesRun : Prop :=
  ∀ (s : State) (fn : Ident) (data : List Byte) (tlps : List (List Byte × Bool)) (ws : List Word) (rest : List (List Word)) (r : CopyRun),
    let f := fn.toNat
    let x := s.copies f
    let dir := dword ws 0 0 1
    let a := dword ws 2 0 42
    let n := dword ws 3 0 32
    (Who.isFn f = true → s.fnAccepts f = true → data.length = 64 → s.getF HIF_FN_B.CFREE f ≠ 0 →
      ∃ t q, exec (.copySubmit fn data) s = .next t ∧ (t.copies f).queue = x.queue ++ [q] ∧ q.flatMap (fun w => leBytes 8 w.toNat) = data ∧
        t.getF HIF_FN_B.CFREE f = s.getF HIF_FN_B.CFREE f - 1) ∧
    (Who.isFn f = true → s.fnAccepts f = true → s.getF HIF_FN_B.CFREE f = 0 → ∃ t, exec (.copySubmit fn data) s = .next t ∧
      t.getF HIF_FN_C.CPY_DROP f = satTo HIF_FN_C.CPY_DROP.w (s.getF HIF_FN_C.CPY_DROP f + 1) ∧ t.copies f = x) ∧
    (x.queue = ws :: rest → x.running = none →
      (∀ st, s.copyCheck f ws = some st → exec (.copyStart fn tlps false) s = .next (s.setCopies f { queue := rest, running := some ⟨ws, st, []⟩ })) ∧
      (s.copyCheck f ws = none → dir = 0 → (tlps.map fun t => t.1.length).sum = n →
        ∃ t, exec (.copyStart fn tlps false) s = .next t ∧ t.copies f = { queue := rest, running := some ⟨ws, Status.ok, copyIn a n tlps⟩ } ∧
          ((copyIn a n tlps).flatMap (fun w => w.data) = tlps.flatMap fun t => t.1) ∧ ∀ y, t.byte y = s.byte y) ∧
      (s.copyCheck f ws = none → dir = 1 → ∃ t st, exec (.copyStart fn tlps false) s = .next t ∧ (st = Status.ok ∨ st = Status.poison) ∧
        t.copies f = { queue := rest, running := some ⟨ws, st, s.copyOut (dword ws 1 0 64) a n⟩ } ∧
        (s.copyOut (dword ws 1 0 64) a n).flatMap (fun w => w.data) = s.bytes a n ∧ ∀ y, t.byte y = s.byte y)) ∧
    (x.running = some r → ∃ t, exec (.copyComplete fn) s = .next t ∧ t.copies f = { x with running := none } ∧
      t.getF HIF_FN_B.CFREE f = (s.getF HIF_FN_B.CFREE f + 1) % 512 ∧
      (∀ y, t.byte y = if dword r.words 0 0 1 = 0 then (r.writes.foldl (fun (s : State) w => s.setBytes w.addr w.data) s).byte y else s.byte y) ∧
      let bat := dword r.words 0 4 1 = 1 ∧ s.fnBatten f (dword r.words 0 16 16) = true
      ∀ b, t.batten b = if bat ∧ b = dword r.words 0 16 16 then (s.batten b + 1) % 2 ^ 32 else s.batten b)

/-- A reset of a function empties its copy queue, its channels, its MSI-X table and its aperture; one of a PF or a port does so for the PF and all
its VFs; a VF that is removed leaves its partitions to its PF and its channels unbound; no partition is reset (R323, R327, R345). -/
def Sys2Proof.Say.FunctionsAreReset : Prop :=
  (∀ (s : State) (fn g : Ident) (row : Instr) (port : Bool) (c : Nat),
    let gone := fun (t : State) => t.copies g.toNat = {} ∧ (∀ v < 2048, t.vector g.toNat v = {}) ∧ SMap.get false t.host.maskAll g.toNat = false ∧
      t.getF HIF_FN_A.APBASE_GIB g.toNat = 0 ∧
      (c < 64 → s.chanIdent c = g.toNat → (t.chan c).responses = [] ∧ t.flag MBX_LOCK.HELD c = false ∧ ∀ r ∈ (t.chan c).requests, r.expired = true) ∧
      ∀ p, t.gen p = s.gen p ∧ t.owner p = s.owner p
    (row = .functionLevelReset fn ∧ s.fnExists fn.toNat = true ∧ (g = fn ∨ (Who.isPF fn.toNat = true ∧ g.toNat ∈ family (Who.port fn.toNat))) ∨
      row = .portReset port ∧ g.toNat ∈ family (b2n port)) →
    Who.isFn g.toNat = true → ∃ t, exec row s = .next t ∧ gone t) ∧
  (∀ (s : State) (fn : Ident) (p c : Nat), Who.isVF fn.toNat = true → s.fnExists fn.toNat = true → ∃ t, exec (.vfRemove fn) s = .next t ∧
    t.fnExists fn.toNat = false ∧ t.copies fn.toNat = {} ∧ (p < 16 → s.owner p = fn.toNat → t.owner p = Who.pfOf fn.toNat) ∧
    (c < 64 → s.chanIdent c = fn.toNat → t.chanIdent c = 0))

/-- Raises of a vector that merged within its interval go out as one message at the interval's end; a message of a masked vector is left pending, and
goes out as the mask is lifted (R337). -/
def Sys2Proof.Say.MergedInterruptsGoOut : Prop :=
  ∀ (s : State) (fn : Ident) (vec : BitVec 11) (t0 : Nat),
    let v := s.vector fn.toNat vec.toNat
    (v.pending = true → s.masked fn.toNat vec.toNat = false → v.last = none →
      (s.unmasked fn.toNat vec.toNat).out = s.out ++ [.msix fn.toNat vec.toNat] ∧ ((s.unmasked fn.toNat vec.toNat).vector fn.toNat vec.toNat).pending = false) ∧
    (v.last = some t0 → v.merged = true → t0 + 1000 * s.getF HIF_FN_B.IMOD_US fn.toNat ≤ s.clock →
    ∃ t, exec (.msixIntervalEnd fn vec) s = .next t ∧ (t.vector fn.toNat vec.toNat).merged = false ∧
      (s.masked fn.toNat vec.toNat = false → t.out = s.out ++ [.msix fn.toNat vec.toNat] ∧ (t.vector fn.toNat vec.toNat).last = some s.clock) ∧
      (s.masked fn.toNat vec.toNat = true → t.out = s.out ∧ (t.vector fn.toNat vec.toNat).pending = true))

/-- What a host reads and writes without a command of the table (log entry 9): a register reads as it shows and its read-to-clear fields become zero;
a function's doorbell page rings its queues, and a write there of another width or place is counted; a channel's page shows the staging words and
the oldest response to its identity, and zero with a DENIED record to others; MSI-X entries and the Function Mask bit mask vectors; a PF BAR2 of
another size moves the bound of its aperture (R5, R322, R328, R332, R337, R338). -/
def Sys2Proof.Say.HostPagesAreServed : Prop :=
  ∀ (s : State) (fn off len bar c v : Nat) (r : Reg) (i : Nat) (data : List Byte) (rest : List HostReq),
    let u : State := { s with host := { s.host with reqs := rest } }
    let served := fun (q : HostReq) (t : State) => s.host.reqs = q :: rest → step s = .next t
    let shown := fun (w : Word) => some (((leBytes 8 w.toNat).drop (off % 8)).take len)
    s.pending = [] → s.store.faults = [] → Who.isFn fn = true → s.fnAccepts fn = true → (bar = if Who.isPF fn then 4 else 0) →
    (Who.isPF fn = true → (off < 0x6000000 ∨ 0x6040000 ≤ off) → Reg.find (off - off % 8) = some (r, i) →
      served (.read fn 0 off len) ((u.readClears r i).emit (.completion fn (shown (s.regRead r i)) false)) ∧
      (∀ f ∈ r.fields, f.word = i % r.place.words → field ((u.readClears r i).reg r i) f.lo f.w = if f.acc = .rc then 0 else field (s.reg r i) f.lo f.w)) ∧
    (off - off % 8 = 0x810 → served (.read fn bar off len) ((u.readClears .HIF_FN_C fn).emit (.completion fn (shown (s.regRead .HIF_FN_C fn)) false)) ∧
      (u.readClears .HIF_FN_C fn).getF HIF_FN_C.BAD_ACCESS fn = 0) ∧
    (data.length = 8 → let val := BitVec.ofNat 64 (leNat data)
      served (.write fn bar 0 data) (u.doorbell fn (field val 0 20) (field val 32 16)) ∧ served (.write fn bar 8 data) (u.flush fn (field val 0 20)) ∧
      served (.write fn bar 0x10 data) (u.cancel fn (field val 0 20) (field val 32 16))) ∧
    (off < 0x800 → off ≠ 0x40 → (data.length ≠ 8 ∨ (off ≠ 0 ∧ off ≠ 8 ∧ off ≠ 0x10)) →
      served (.write fn bar off data) (u.badAccess fn) ∧
      (u.badAccess fn).getF HIF_FN_C.BAD_ACCESS fn = satTo HIF_FN_C.BAD_ACCESS.w (s.getF HIF_FN_C.BAD_ACCESS fn + 1)) ∧
    (Who.isPF fn = true → c < 64 → off = 0x6000040 + 0x1000 * c →
      (s.mayChan fn c = true → served (.read fn 0 off 8) (u.emit (.completion fn
        (some (leBytes 4 (s.mbxRsp c 0).toNat ++ leBytes 4 (s.mbxRsp c 1).toNat)) false))) ∧
      (s.mayChan fn c = false → served (.read fn 0 off 8)
        ((u.record { status := Status.denied, source := s.chanSrc c }).emit (.completion fn (some (leBytes 8 0)) false)))) ∧
    (v < vectorsOf fn → off = (if Who.isPF fn then 0x10000 else 0x1000) + 16 * v + 12 → data.length = 4 →
      s.host.reqs = .write fn bar off data :: rest → ∃ t, step s = .next t ∧ (t.vector fn v).masked = (leNat data % 2 == 1) ∧
        (leNat data % 2 = 1 → t.out = s.out)) ∧
    (fn = Who.pf0 → c ≤ 4 → s.host.reqs = .barSize 0 c :: rest → ∃ t, step s = .next t ∧ t.apertureSize fn = 16 * 4 ^ c * 2 ^ 30 ∧
      ∀ x, t.byte x = s.byte x)

/-- A PF binds an idle channel to an identity of its family; SEND puts the staged words behind the waiting requests, or is refused with BUSY where the
channel is full; POP takes the oldest response; RESET leaves no response and no waiting request (R338 to R340). -/
def Sys2Proof.Say.ChannelsCarryMessages : Prop :=
  ∀ (s : State) (who : Ident) (chan : BitVec 6) (val : Word),
    let c := chan.toNat
    let x := s.chan c
    (Who.isPF who.toNat = true → 2 ≤ c → heldBy who.toNat (s.chanIdent c) = true → heldBy who.toNat (field val 0 16) = true →
      s.tdiHeld (s.chanIdent c) = false → s.tdiHeld (field val 0 16) = false → x.reqFill = 0 → x.responses = [] → s.flag MBX_LOCK.HELD c = false →
      ((upFrom 0 64).filter fun d => d != c && s.chanIdent d == field val 0 16).length < 4 → ∃ t, exec (.mailboxBind who chan val) s = .next t ∧
        t.chanIdent c = field val 0 16 ∧ t.getF MBX_BIND.VEC c = field val 16 11 ∧ t.getF MBX_BIND.VEC_EN c = field val 27 1) ∧
    (s.mayChan who.toNat c = true →
      (x.full = false → ∃ t r, exec (.mbxSend who chan) s = .next t ∧ (t.chan c).requests = x.requests ++ [r] ∧
        r.words = (upFrom 0 16).map (fun i => SMap.get 0 x.staging i) ∧ r.expired = false ∧ r.taken = false ∧ r.sent = s.clock ∧
        t.getF MBX_STAT.LAST c = Status.ok) ∧
      (x.full = true → ∃ t, exec (.mbxSend who chan) s = .next t ∧ t.chan c = x ∧ t.getF MBX_STAT.LAST c = Status.busy) ∧
      (∀ p ps, x.responses = p :: ps → ∃ t, exec (.mbxPop who chan) s = .next t ∧ (t.chan c).responses = ps ∧ (t.chan c).requests = x.requests ∧
        t.getF MBX_STAT.LAST c = Status.ok) ∧
      ∃ t, exec (.mbxReset who chan) s = .next t ∧ (t.chan c).responses = [] ∧ t.flag MBX_LOCK.HELD c = false ∧
        ∀ r ∈ (t.chan c).requests, r.expired = true) ∧
    (s.mayChan who.toNat c = false → ∀ row ∈ [Instr.mbxSend who chan, .mbxPop who chan, .mbxReset who chan],
      exec row s = .next (s.record { status := Status.denied, source := s.chanSrc c }))

/-- TAKE with a token not 0 takes a free channel's lock and leaves a held one; GIVE frees the lock with the token it was taken with, and no other (R341). -/
def Sys2Proof.Say.ChannelLocks : Prop :=
  ∀ (s : State) (who : Ident) (chan : BitVec 6) (token : BitVec 16),
    let c := chan.toNat
    s.mayChan who.toNat c = true →
    (token ≠ 0 → s.flag MBX_LOCK.HELD c = false → ∃ t, exec (.mbxTake who chan token) s = .next t ∧ t.flag MBX_LOCK.HELD c = true ∧
      t.getF MBX_LOCK.HOLDER c = who.toNat ∧ t.getF MBX_LOCK.TOKEN c = token.toNat) ∧
    (token = 0 ∨ s.flag MBX_LOCK.HELD c = true → exec (.mbxTake who chan token) s = .next s) ∧
    (s.flag MBX_LOCK.HELD c = true → s.getF MBX_LOCK.TOKEN c = token.toNat → ∃ t, exec (.mbxGive who chan token) s = .next t ∧
      t.flag MBX_LOCK.HELD c = false) ∧
    (s.flag MBX_LOCK.HELD c = false ∨ s.getF MBX_LOCK.TOKEN c ≠ token.toNat → exec (.mbxGive who chan token) s = .next s)

/-- A request whose timer has run out is answered TIMEOUT, and its late answer will be discarded, but an answer of the same clock wins (which commands
fall in one clock is log entry 98); a malformed header is answered BAD_HEADER, an unknown
opcode BAD_ARG; ECHO returns its words, INFO the module's identity (R342, R343). -/
def Sys2Proof.Say.RequestsAreAnswered : Prop :=
  ∀ (s : State) (chan : BitVec 6) (h : MbxReq) (rest : List MbxReq),
    let c := chan.toNat
    let x := s.chan c
    let ms := if s.getF MBX_TMO.MS c = 0 then 10 else s.getF MBX_TMO.MS c
    (x.requests = h :: rest → h.expired = false → h.sent + ms * 1000000 = s.clock → s.answerWaits chan h = true → exec (.mailboxTimeout chan) s = .next s) ∧
    (x.requests = h :: rest → h.expired = false → h.sent + ms * 1000000 ≤ s.clock →
      (h.sent + ms * 1000000 = s.clock → s.answerWaits chan h = false) → ∃ t, exec (.mailboxTimeout chan) s = .next t ∧
      (t.chan c).requests = { h with expired := true } :: rest ∧ (t.chan c).responses = x.responses ++ [h.response Status.timeout []] ∧
      t.flag MBX_STAT.TMO c = true) ∧
    (x.requests = h :: rest → h.taken = false → h.expired = false → s.stage ≠ Stage.recovery →
      (h.headerGood = false → ∃ t, exec (.mailboxBadOpcode chan) s = .next t ∧ Say.answers s t chan h rest Status.badHeader []) ∧
      (h.headerGood = true → knownOpcode h.opcode = false → ∃ t, exec (.mailboxBadOpcode chan) s = .next t ∧
        Say.answers s t chan h rest Status.badArg [])) ∧
    (Say.asks s chan 0x01 h rest → ∃ t, exec (.echo chan) s = .next t ∧ Say.answers s t chan h rest Status.ok ((upFrom 1 15).map fun i => (h.words.getD i 0).toNat)) ∧
    (Say.asks s chan 0x02 h rest → ∃ t, exec (.info chan) s = .next t ∧ Say.answers s t chan h rest Status.ok
      [Config.pid % 2 ^ 32, natField Config.pid 32 16 + Config.variant * 2 ^ 16, s.getF UPD_BUILD.RUN])

/-- PLACE of well-formed objects of a partition the sender reaches writes the result records to its buffer, and answers with the placement's status;
every object placed lies, whole, in its slates' tiers and the granted cistern (R172 to R174). -/
def Sys2Proof.Say.PlaceLaysObjectsOut : Prop :=
  (∀ (s : State) (chan : BitVec 6) (h : MbxReq) (rest : List MbxReq) (os : List PlaceObj),
    let who := s.chanIdent chan.toNat
    let p := natField (h.word 1) 0 4
    let n := natField (h.word 1) 8 8 + 1
    let list := addr2 h.word 2
    let res := addr2 h.word 4
    let r := s.placeRun p os
    Say.asks s chan 0x10 h rest → natField (h.word 1) 4 4 = 0 → natField (h.word 1) 16 16 = 0 → zeroFrom h.word 6 = true →
    s.reaches who p = true → s.bufStatus who list (32 * n) true = none → (s.noteRead list (32 * n)).anyPoison list (32 * n) = false →
    s.bufStatus who res (32 * n) false = none → os = (chunksOf 32 n (s.bytes list (32 * n))).map placeObj →
    (∀ o ∈ os, o.good (s.slatesOf p) = true) → ∃ t, exec (.place chan) s = .next t ∧ Say.answers s t chan h rest r.1 [] ∧
      t.bytes res r.2.1.flatten.length = r.2.1.flatten ∧ (∀ x, x < res ∨ res + r.2.1.flatten.length ≤ x → t.byte x = s.byte x) ∧
      ∀ q, r.2.2 = some q → SMap.find? t.task.plans p = some q) ∧
  (∀ (s : State) (p : Nat) (os : List PlaceObj) (code : Nat) (recs : List (List Byte)) (plan : Plan),
    s.placeRun p os = (code, recs, some plan) → code = Status.ok ∧ recs.length = os.length ∧
      ∀ e ∈ plan.results, ∃ o, os[e.1]? = some o ∧ e.2.1 + e.2.2.2.2 = o.size ∧ e.2.2.1 + e.2.2.2.1 ≤ 3072)

/-! ## Stored data (13) -/

/-- What the die-kill code stores decodes clean, and a granule poisoned as it is stored decodes as poison (R347, R349, R358). -/
def Sys2Proof.Say.EncodedGranulesDecode : Prop :=
  ∀ (bs : List Byte) (sus : List Nat), bs.length = 64 →
    cisDecode none sus (cisEncode bs) = .clean ∧ cisDecode none sus (cisPoison (cisEncode bs)) = .poison ∧
    cisOfWords (cisWords (cisEncode bs)) = cisEncode bs ∧ tierDecode (tierWords bs false) = .clean ∧ tierDecode (tierWords bs true) = .poison ∧
    (wordsToBytes (cisWords (cisEncode bs))).take 64 = bs ∧ (wordsToBytes (tierWords bs false)).take 64 = bs

/-- Any damage to the symbols of one die is corrected, whole, with no die erased: the decode names the die, and what it XORs in restores the
granule (R349). -/
def Sys2Proof.Say.OneDieIsCorrected : Prop :=
  ∀ (bs : List Byte) (die x y : Nat), bs.length = 64 → die < 18 → x < 65536 → y < 65536 → (x ≠ 0 ∨ y ≠ 0) →
    let bad := cisFlip (cisEncode bs) [(0, die, x), (1, die, y)]
    ∃ fs, cisDecode none [] bad = .corrected fs [die] ∧ cisFlip bad fs = cisEncode bs

/-- The SEC-DED code of a tier word corrects any one flipped bit, of data or check, and finds any two uncorrectable (R354; which columns the code takes
is open, log entry 51). -/
def Sys2Proof.Say.OneBitIsCorrectedAndTwoAreFound : Prop :=
  ∀ (bs : List Byte) (w b c : Nat), bs.length = 64 → w < 4 → b < 137 → c < 137 → b ≠ c →
    tierDecode (tierFlip (tierWords bs false) [(w, b)]) = .corrected [(w, b, 1)] [] ∧
    tierDecode (tierFlip (tierWords bs false) [(w, b), (w, c)]) = .uncorrectable

/-- A manager erases one die of a cistern, which another cannot replace, and lifts the erasure while nothing is bound; a die whose corrections
have met the mark's condition is erased by the rider and entered in the fuse map, of two the one that met it first (R350, R351, R367). -/
def Sys2Proof.Say.DiesAreErasedAndMarked : Prop :=
  ∀ (s : State) (who : Ident) (cis : BitVec 4) (val : Word) (die : BitVec 5),
    let c := cis.toNat
    let d := field val 0 5
    let refused := fun (st : Nat) => exec (.dieEraseWrite who cis val) s = .next (s.record { status := st, source := Src.cistern c, detail := s.cisDetail c 31 31 0 0 })
    (Who.isManager who.toNat = true → d ≤ 17 →
      (s.erasedDie c = none → bit val 5 → ∃ t, exec (.dieEraseWrite who cis val) s = .next t ∧ t.erasedDie c = some d) ∧
      (∀ e, s.erasedDie c = some e → bit val 5 → e ≠ d → refused Status.busy) ∧
      (∀ e, s.erasedDie c = some e → bit val 5 = false → s.anyBound = true → refused Status.denied) ∧
      (∀ e, s.erasedDie c = some e → bit val 5 = false → s.anyBound = false → ∃ t, exec (.dieEraseWrite who cis val) s = .next t ∧
        t.erasedDie c = none)) ∧
    (Who.isManager who.toNat = true → 17 < d → refused Status.badArg) ∧
    (∀ x, s.markDue c die.toNat = true → s.erasedDie c = none → s.dueBefore c die.toNat = some x → ∃ t, exec (.dieMark cis die) s = .next t ∧
      t.erasedDie c = some x) ∧
    (s.markDue c die.toNat = true → s.erasedDie c = none → s.dueBefore c die.toNat = none → (s.rst.fuseMap.filter fun x => x.isField).length < 1024 →
      ∃ t, exec (.dieMark cis die) s = .next t ∧ t.erasedDie c = some die.toNat ∧ ⟨5, true, c + 16 * die.toNat⟩ ∈ t.rst.fuseMap) ∧
    (s.markDue c die.toNat = false → exec (.dieMark cis die) s = .next s)

/-- A merge entry that nothing has merged into for 32 ns writes back: it leaves its buffer, and reads go on to deliver the same bytes and poison
(R352). A tier row whose corrections reach the threshold moves to a spare row of its bank, while one is left (R355). -/
def Sys2Proof.Say.WriteBacksAndRowRepairs : Prop :=
  (∀ (s : State) (cis : BitVec 4) (chan : BitVec 5) (idx : Nat) (e : MergeEntry),
    let key := cis.toNat * 32 + chan.toNat
    let l := SMap.get [] s.store.merge key
    l[idx]? = some e →
    (s.power.stopped = false → e.last + 32 ≤ s.clock → ∃ t, exec (.mergeWriteback cis chan idx) s = .next t ∧ SMap.get [] t.store.merge key = removeAt l idx ∧
      ∀ x, t.byte x = s.byte x ∧ t.poisoned x = s.poisoned x) ∧
    (s.clock < e.last + 32 → l.length < 64 → exec (.mergeWriteback cis chan idx) s = .next s)) ∧
  (∀ (s : State) (tier : BitVec 5) (bank : BitVec 8) (row : BitVec 13),
    let b := tier.toNat * 192 + bank.toNat
    let key := b * 8192 + row.toNat
    bank.toNat < 192 → SMap.get 0 s.store.spares b < 32 → 0 < s.getF ECC_THR.ROW → s.getF ECC_THR.ROW ≤ SMap.get 0 s.store.rowCorr key →
    (s.rst.fuseMap.filter fun x => x.isField).length < 1024 → ∃ t, exec (.rowRepair tier bank row) s = .next t ∧
      SMap.get 0 t.store.spares b = SMap.get 0 s.store.spares b + 1 ∧ (∀ x, t.byte x = s.byte x) ∧
      ⟨2, true, tier.toNat + bank.toNat * 2 ^ 5 + row.toNat * 2 ^ 13⟩ ∈ t.rst.fuseMap)

/-- A scrub read goes by its decode: a clean or poisoned granule stays; one that is corrected holds the corrected data, one that cannot be is poisoned;
no byte outside the granule changes, and the scrubber moves on; a granule with a live merge entry is passed over (R356 to R358). -/
def Sys2Proof.Say.ScrubbingMendsOrPoisons : Prop :=
  ∀ (s : State) (unit : ScrubUnit) (obs : Observed),
    let u := s.scrubberOf unit
    let g := u.2.2.2 (SMap.get 0 s.store.scrubPos u.2.1)
    let cis := region g == .cistern
    let ws := if cis then cisWords (cisFlip (cisOfWords (s.rawWords g)) obs.flips) else tierFlip (s.rawWords g) (obs.flips.map fun f => (f.1, f.2.1))
    let k := s.decodeRaw g ws (obs.suspects ++ s.suspects g).eraseDups
    u.1 = true → s.flag ECC_RAW_CTL.HOLD = false → s.powered unit = true →
    (cis = true → s.merging g = true → exec (.scrubRead unit obs) s = .next (s.scrubOn u.2.1 u.2.2.1)) ∧
    ((cis = true → s.merging g = false) → ∃ t, exec (.scrubRead unit obs) s = .next t ∧ (∀ x, x < g ∨ g + 64 ≤ x → t.byte x = s.byte x) ∧
      (SMap.get 0 s.store.scrubPos u.2.1 + 1 < u.2.2.1 →
        SMap.get 0 t.store.scrubPos u.2.1 = SMap.get 0 s.store.scrubPos u.2.1 + 1) ∧
      (k = .clean ∨ k = .poison → ∀ x, t.byte x = s.byte x ∧ t.poisoned x = s.poisoned x) ∧
      (∀ fs ds, k = .corrected fs ds → ¬(cis = true ∧ some ds = (s.erasedDie (s.locate g).1).map fun e => [e]) →
        t.bytes g (decodedBytes cis ws k).length = decodedBytes cis ws k) ∧
      (k = .uncorrectable → t.poisoned g = true))

/-- A scrubber whose memory has no power, or that is disabled or held, reads nothing (R356, R357). -/
def Sys2Proof.Say.ScrubbersRest : Prop :=
  ∀ (s : State) (unit : ScrubUnit) (obs : Observed),
    (s.scrubberOf unit).1 = false ∨ s.flag ECC_RAW_CTL.HOLD = true ∨ s.rst.busUp = none ∨ s.power.stopped = true ∨ s.stage = Stage.offline ∨
      s.stage = Stage.tripped → exec (.scrubRead unit obs) s = .next s

/-- A cistern whose created poison reaches the threshold in one pass fails: the module goes OFFLINE (R360). -/
def Sys2Proof.Say.FailedCisternsTakeTheModuleOffline : Prop :=
  ∀ (s : State) (cis : BitVec 4),
    let c := cis.toNat
    let n := SMap.get 0 s.store.created c
    (SMap.get false s.store.failed c = false → 0 < n → s.getF ECC_THR.CIS_FAIL ≤ n → ∃ t, exec (.cisternFail cis) s = .next t ∧
      t = s.failCistern c ∧ t.stage = Stage.offline ∧ t.flag RST_STAT.OFFLINE = true) ∧
    (SMap.get false s.store.failed c = true ∨ n < s.getF ECC_THR.CIS_FAIL → exec (.cisternFail cis) s = .next s)

/-- An error that an SRAM store's code does not correct: a merge entry's granule is poisoned, a contribution in a junction too; a line of a core's
instruction or read cache is dropped, to be fetched again; a batten's, a queue's, a route set's or a slot's job aborts (R354; that such errors wait in a
queue of the model's own is log entry 99). -/
def Sys2Proof.Say.SramErrorsAreMet : Prop :=
  ∀ (s : State) (f : SramFault) (rest : List SramFault), s.pending = [] → s.store.faults = f :: rest → ∃ t, step s = .next t ∧ t.store.faults = rest ∧
    (∀ c ch i e, f = .merge c ch i → (SMap.get [] s.store.merge (c * 32 + ch))[i]? = some e → t.poisoned e.granule = true) ∧
    (∀ n y m, f = .junction n y m → ∀ v ∈ (t.slot n).inputs, v.yelm = y → v.src = m → v.poison = true) ∧
    (∀ n k, f = .icache n k → SMap.find? (t.getCore n).icache k = none) ∧ (∀ n g, f = .rcache n g → SMap.find? (t.getCore n).rcache g = none) ∧
    (∀ job, job ≠ 0 → job ∈ s.boundJobs → (∃ b, f = .batten b ∧ s.slateJob (b / 4096) = job) ∨
      (∃ q, f = .context q ∧ s.jobOf (s.getF QM_CTX.PART q) = job) ∨ (∃ i, f = .routeSet i ∧ s.getF RTE_RSET_A.JOB i = job) ∨
      (∃ n, f = .slot n ∧ s.slotJob n = job) → (t.abortWin job).isSome = true)

/-- A manager selects a record by its sequence number, and ECC_LOG_REC then reads its eight words, or 0 where the ring no longer holds it; the rider
copies a record above CORRECTED to flash once, and before it answers a mailbox (R362, R364, R456; what else of the rider's order the model keeps is
log entry 103). -/
def Sys2Proof.Say.TheErrorLogIsRead : Prop :=
  (∀ (s : State) (who : Ident) (val : Word), Who.isManager who.toNat = true → ∃ t, exec (.logSelect who val) s = .next t ∧
    (∀ r, s.store.log.find? (fun r => r.seq == field val 0 32) = some r → bit t.logSel 32 = true ∧ ∀ w < 8, some (t.logRec w) = r.words[w]?) ∧
    ((∀ r ∈ s.store.log, r.seq ≠ field val 0 32) → bit t.logSel 32 = false ∧ ∀ w, t.logRec w = 0)) ∧
  (∀ (s : State) (seq : BitVec 32),
    (s.rider.pause = none → seq.toNat ∈ s.store.logToFlash → ∃ t, exec (.recordFlashCopy seq) s = .next t ∧ seq.toNat ∉ t.store.logToFlash ∧
      t.store.flashLog = s.store.flashLog ++ s.store.log.filter fun r => r.seq == seq.toNat) ∧
    (seq.toNat ∉ s.store.logToFlash → exec (.recordFlashCopy seq) s = .next s)) ∧
  (∀ (s : State) (chan : BitVec 6) (h : MbxReq) (rest : List MbxReq), Say.asks s chan 0x01 h rest → ∃ t, exec (.echo chan) s = .next t ∧
    t.store.logToFlash = [] ∧ ∀ q ∈ s.store.logToFlash, ∀ r ∈ s.store.log, r.seq = q → r ∈ t.store.flashLog)

/-- With nothing bound, a raw read brings a granule's stored words into ECC_RAW_DATA, and a raw write stores them, so that a raw read finds them again;
while a partition is bound both are refused (R365). -/
def Sys2Proof.Say.RawAccess : Prop :=
  ∀ (s : State) (who : Ident) (val : Word),
    let g := field val 0 42
    let ws := (upFrom 0 9).map fun i => s.reg .ECC_RAW_DATA i
    Who.isManager who.toNat = true → bit val 49 →
    (s.anyBound = false → g % 64 = 0 → region g = .cistern ∨ region g = .tier →
      (bit val 48 = false → ∃ t, exec (.rawRead who val) s = .next t ∧ t.getF ECC_RAW_CTL.STATUS = Status.ok ∧
        (∀ i w, i < 9 → (s.rawWords g)[i]? = some w → t.reg .ECC_RAW_DATA i = w) ∧ ∀ x, t.byte x = s.byte x) ∧
      (bit val 48 = true → ∃ t, exec (.rawWrite who val) s = .next t ∧ t.getF ECC_RAW_CTL.STATUS = Status.ok ∧
        t.rawWords g = (if region g = .cistern then ws else modifyAt (fun w => BitVec.ofNat 64 (w.toNat % 2 ^ 39)) ws 8) ∧
        ∀ x, x < g ∨ g + 64 ≤ x → t.byte x = s.byte x)) ∧
    (s.anyBound = true → ∀ row ∈ [Instr.rawRead who val, .rawWrite who val], (row = .rawWrite who val ↔ bit val 48) →
      ∃ t, exec row s = .next t ∧ t.getF ECC_RAW_CTL.STATUS = Status.denied ∧ ∀ x, t.byte x = s.byte x)

/-- The pattern test of a start leaves every byte of memory zero and nothing poisoned, and is done; where no finding takes a cistern out the start
goes on (R366). -/
def Sys2Proof.Say.ThePatternTestZeroesMemory : Prop :=
  ∀ (s : State) (findings : List Finding),
    s.rst.riderUp = true → s.flag BOOT_STAT.CIS_DONE = false → Stage.links ≤ s.stage → s.stage ≤ Stage.slates →
    lostCisterns s.erasedDie findings = [] → s.cisternLost = false → ∃ t, exec (.patternTest findings) s = .next t ∧
      (∀ x, t.byte x = 0 ∧ t.poisoned x = false) ∧ t.flag BOOT_STAT.CIS_DONE = true ∧ t.stage = s.stage

/-! ## Power and heat (14) -/

namespace Sys2Proof.Say

/-- The energy of one counter in units of 100 pJ: whole mJ in its register, the rest kept (R391). -/
def counter (s : State) (key : Nat) : Nat :=
  (if key < 3 then (s.reg .PWC_EN key).toNat else (s.reg .PWC_EN_P (key - 3)).toNat) * 10_000_000 + SMap.get 0 s.power.fracs key

/-- The energy of every counter that a sample is divided among, and what is carried. -/
def divided (s : State) : Nat := ((upFrom 1 18).map (counter s)).sum + s.power.carry

end Sys2Proof.Say

/-- A valid pilot frame counts while it repeats, and the third in a row puts its claim and RAMP into effect outside a hold; any other frame changes nothing;
a pilot silent for 10 ms counts as claim 0 (R369). -/
def Sys2Proof.Say.PilotsCarryClaims : Prop :=
  ∀ (s : State) (feedB : Bool) (b0 b1 b2 b3 : Byte),
    let f := b2n feedB
    let x := s.feed f
    let good := b0 = 0x7E ∧ b3 = b1 ^^^ b2 ^^^ 0xFF ∧ b2 >>> 1 = 0
    let same := x.claim = b1.toNat ∧ x.ramp = bit b2 0
    let lost := if f = 0 then FEED_STAT.A_PILOT_LOST else FEED_STAT.B_PILOT_LOST
    (s.rst.riderUp = true → good → ∃ t, exec (.pilotFrame feedB b0 b1 b2 b3) s = .next t ∧ (t.feed f).claim = b1.toNat ∧
      (t.feed f).count = (if same then x.count + 1 else 1) ∧ t.flag lost = false ∧
      (same → 2 ≤ x.count → s.held = false → t.claim f = b1.toNat ∧ (t.feed f).rampNow = bit b2 0)) ∧
    (s.rst.riderUp = false ∨ ¬good → exec (.pilotFrame feedB b0 b1 b2 b3) s = .next s) ∧
    (s.flag lost = false → s.held = false → x.last + 10_000_000 ≤ s.clock → ∃ t, exec (.pilotLost feedB) s = .next t ∧ t.claim f = 0 ∧ t.flag lost = true)

/-- As the conducting feed leaves spec the module holds its outputs, and the other feed conducts within 13 µs of its detection where it is in spec;
with neither in spec the machine stops its slate clocks and cistern traffic 18 µs later, so that no work of the cores and their engines goes on, goes on
as a feed returns, and loses power once the bus is exhausted (R371, R373). -/
def Sys2Proof.Say.FeedsSwitchOver : Prop :=
  (∀ (s : State) (n : CoreId) (idx : Nat) (engine : Engine) (line : BitVec 15) (queue : BitVec 20) (slate cis : BitVec 4) (chan : BitVec 5) (i : Instr),
    s.power.stopped = true → i ∈ [.loadReturn n idx, .storeReachHome n, .heldSetApply n, .enginePost n engine, .icacheFill n line, .dmaComplete n idx,
      .tierAccumApply idx, .taskFinish n, .workItemRead queue, .taskGrant slate, .watchRetry idx, .battenWatchWake idx, .mergeWriteback cis chan idx] →
    exec i s = .next s) ∧
  ∀ (s : State) (feedB : Bool),
    let f := b2n feedB
    (s.feedOk f = true → s.rst.busUp.isSome = true → s.power.switching = none → s.power.lost = none → s.conducting = f →
      ∃ t, exec (.feedOutOfSpec feedB) s = .next t ∧ t.held = true ∧ t.feedOk f = false ∧
        (s.feedOk (1 - f) = true → ∃ x, t.power.switching = some (1 - f, x) ∧ s.clock ≤ x ∧ x ≤ s.clock + 13_000) ∧
        (s.feedOk (1 - f) = false → t.power.lost = some s.clock ∧ t.power.switching = none)) ∧
    (∀ x, s.power.switching = some (1 - f, x) → x ≤ s.clock → s.closePath.conducting = 1 - f ∧ s.closePath.power.switching = none ∧
      s.closePath.getF FEED_STAT.SWITCHES = satTo FEED_STAT.SWITCHES.w (s.getF FEED_STAT.SWITCHES + 1)) ∧
    (∀ x, s.power.lost = some x →
      (s.power.stopped = false → x + 18_000 ≤ s.clock → ∃ t, exec .powerLossStop s = .next t ∧ t.power.stopped = true ∧
        t.power.lossRecords = s.power.lossRecords ++ [s.time]) ∧
      (s.clock < x + 18_000 → exec .powerLossStop s = .next s) ∧
      (∃ t, exec (.feedInSpec feedB) s = .next t ∧ t.feedOk f = true ∧ t.power.lost = none ∧ t.power.stopped = s.flag TOP_PINS.THERMTRIP ∧ t.conducting = f) ∧
      ∃ t, exec .busHoldupExhausted s = .next t ∧ t.rst.busUp = none ∧ t.rst.riderUp = false ∧ t.core = {} ∧ t.store.log = [] ∧
        t.rst.fuseMap = s.rst.fuseMap ∧ t.power.lossRecords = s.power.lossRecords) ∧
    (s.power.lost = none → exec .busHoldupExhausted s = .next s ∧ ∃ t, exec (.feedInSpec feedB) s = .next t ∧ t.feedOk f = true)

/-- The load goes back to the preferred feed once it has been preferred for RETURN_MS; a hold ends 10 µs after a feed has begun to conduct, and what landed
during it is taken then (R371, R372). -/
def Sys2Proof.Say.LoadsReturnAndHoldsEnd : Prop :=
  ∀ (s : State) (f t0 : Nat) (who : Ident) (val : Word),
    let ms := if s.getF FEED_CTL.RETURN_MS = 0 then 500 else s.getF FEED_CTL.RETURN_MS
    (s.power.preferred = some (f, t0) → f < 2 → s.held = false → t0 + ms * 1_000_000 ≤ s.clock → ∃ t, exec .feedReturn s = .next t ∧ t.conducting = f ∧
      t.getF FEED_STAT.SWITCHES = satTo FEED_STAT.SWITCHES.w (s.getF FEED_STAT.SWITCHES + 1)) ∧
    (s.held = true → s.power.switching = none → s.power.lost = none → s.power.conducts + 10_000 ≤ s.clock → ∃ t, exec .holdEnd s = .next t ∧
      t.power.heldWrites = [] ∧ (s.rider.pause = none → t.power.heldSince = none) ∧ (s.power.heldWrites = [] → t.held = false)) ∧
    (s.held = true → exec (.capWrite who val) s =
      .next { s with power := { s.power with heldWrites := s.power.heldWrites ++ [(who.toNat, Reg.offset .PWC_CAP, val)] } })

/-- A cap is 0 or 1,500 W up to the fused limit: written, it waits for a course boundary; armed, it waits for its time; a cancel takes an armed one back; as
one takes effect the effective cap is the smallest limit that stands (R377, R378). -/
def Sys2Proof.Say.CapsAreWrittenAndApplied : Prop :=
  ∀ (s : State) (who : Ident) (val : Word),
    let g := field val 0 16
    let j := field val 16 16
    s.held = false → Who.isManager who.toNat = true →
    (capValid g = true → capValid j = true → (j = s.getF PWC_CAP.JOB_W ∨ Who.isPF who.toNat = true) → ∃ t, exec (.capWrite who val) s = .next t ∧
      t.getF PWC_CAP.GRID_W = g ∧ t.getF PWC_CAP.JOB_W = j ∧ (g ≠ s.getF PWC_CAP.GRID_W → t.power.gridWait = some (g, s.time)) ∧
      t.getF PWC_EFF.EFF_W = s.getF PWC_EFF.EFF_W) ∧
    (bit val 16 → bit val 17 = false → s.flag PWC_CAP_NEXT.ARM = false → capValid g = false → exec (.capArm who val) s =
      .next ((s.setF PWC_CAP_NEXT.STATUS 0 Status.badArg).record { status := Status.badArg, source := Src.pwc })) ∧
    (capValid g = false → j = s.getF PWC_CAP.JOB_W → exec (.capWrite who val) s = .next (s.record { status := Status.badArg, source := Src.pwc })) ∧
    (bit val 16 → bit val 17 = false → s.flag PWC_CAP_NEXT.ARM = false → capValid g = true → ∃ t, exec (.capArm who val) s = .next t ∧
      t.flag PWC_CAP_NEXT.ARM = true ∧ t.getF PWC_CAP_NEXT.GRID_W = g ∧ t.getF PWC_CAP_NEXT.STATUS = Status.ok) ∧
    (bit val 17 → bit val 16 = false → s.flag PWC_CAP_NEXT.ARM = true → g = s.getF PWC_CAP_NEXT.GRID_W → capValid g = true →
      ∃ t, exec (.capCancel who val) s = .next t ∧ t.flag PWC_CAP_NEXT.ARM = false ∧ t.getF PWC_CAP_NEXT.STATUS = Status.ok) ∧
    (s.rider.pause = none → s.flag PWC_CAP_NEXT.ARM = true → s.capDue (s.reg .PWC_CAP_AT).toNat = true → ∃ t, exec .capApply s = .next t ∧
      t.flag PWC_CAP_NEXT.ARM = false ∧ t.power.grid = s.getF PWC_CAP_NEXT.GRID_W ∧ t.getF PWC_CAP.GRID_W = s.getF PWC_CAP_NEXT.GRID_W ∧
      t.getF PWC_EFF.EFF_W = t.effective.1 ∧ t.effective.1 ≤ Config.fusedLimit ∧
      ∀ w ∈ [t.power.grid, t.power.job, t.power.board], w ≠ 0 → t.effective.1 ≤ w)

/-- A sample shows its readings, and its input energy is divided exactly: what the counters gain together with what is carried is what the sample brought
and what was carried before (R374, R391). -/
def Sys2Proof.Say.EnergyIsDividedExactly : Prop :=
  (∀ (s : State) (m : PowerReading), ∃ t, exec (.powerSample m) s = .next t ∧ t.getF FEED_MEAS.MV 0 = m.mvA % 65536 ∧
    t.getF FEED_MEAS.DECIAMP 0 = m.daA % 65536 ∧ t.getF FEED_MEAS.MV 1 = m.mvB % 65536 ∧ t.getF FEED_MEAS.DECIAMP 1 = m.daB % 65536 ∧
    (let x := SMap.get 0 s.power.fracs 0 + (m.mvA * m.daA + m.mvB * m.daB)
     (t.reg .PWC_EN 0).toNat = ((s.reg .PWC_EN 0).toNat + x / 10_000_000) % 2 ^ 64 ∧ SMap.get 0 t.power.fracs 0 = x % 10_000_000)) ∧
  (∀ (s : State) (m : PowerReading) (input : Nat), Say.divided s + input < 2 ^ 64 * 10_000_000 →
    Say.divided (s.divideEnergy m input) = Say.divided s + input)

/-- A sample above 1.20 of the effective cap, or a feed above 190 A, sets the fast limiter and counts it; ten samples in a row below 1.10 release it (R376). -/
def Sys2Proof.Say.TheFastLimiter : Prop :=
  ∀ (s : State) (m : PowerReading),
    let input := m.mvA * m.daA + m.mvB * m.daB
    (s.power.limiter = false → 12_000 * s.getF PWC_EFF.EFF_W < input ∨ 1900 < m.daA ∨ 1900 < m.daB → ∃ t, exec (.powerSample m) s = .next t ∧
      t.power.limiter = true ∧ t.power.calm = 0) ∧
    (s.power.limiter = true → ∃ t, exec (.powerSample m) s = .next t ∧ t.power.limiter = true ∧
      t.power.calm = if input < 11_000 * s.getF PWC_EFF.EFF_W then s.power.calm + 1 else 0) ∧
    (s.power.limiter = true → 10 ≤ s.power.calm → exec .fastLimiterRelease s = .next { s with power := { s.power with limiter := false } }) ∧
    (s.power.calm < 10 → exec .fastLimiterRelease s = .next s)

/-- At the end of a control interval every slate takes a point at most its ceiling and the variant's top, and the ceiling of a slate at its threshold is one
lower; before its courses have passed, and during a hold or a pause of an activation, no point changes (R381, R385, R395, R468). -/
def Sys2Proof.Say.ControlIntervalsSetPoints : Prop :=
  ∀ (s : State) (m : IntervalReading),
    let courses := if s.getF PWC_CTL.INTERVAL = 0 then 32 else s.getF PWC_CTL.INTERVAL
    (courses ≤ s.power.courses → s.outputsHeld = false → ∃ t, exec (.controlInterval m) s = .next t ∧ t.power.courses = 0 ∧
      ∀ sl < 16, t.getF PWC_SLATE.POINT sl ≤ t.getF PWC_SLATE.CEIL sl ∧ t.getF PWC_SLATE.POINT sl ≤ Config.vfTop ∧
        (s.getF THM_SLATE.THR_C sl ≤ s.slateTemp sl → t.getF PWC_SLATE.CEIL sl = s.getF PWC_SLATE.CEIL sl - 1)) ∧
    (s.power.courses < courses → exec (.controlInterval m) s = .next s) ∧
    (courses ≤ s.power.courses → s.held = true ∨ s.rider.pause.isSome = true → exec (.controlInterval m) s =
      .next { s with power := { s.power with courses := 0, sums := {}, moved := [], busy := s.runningSlates } })

/-- The coarse view of each partition follows its counter at every 100 ms; a demand boundary and SNAP write a snapshot of all counters into the bank that is
not the newest, and make it the newest with the next number; a sample that ends after the boundary is not in it (R393, R394). -/
def Sys2Proof.Say.EnergyIsShown : Prop :=
  ∀ (s : State) (who : Ident) (val : Word),
    let b := s.time / 100_000_000 * 100_000_000
    let p := s.getF PWC_DINT.PERIOD_S * 1_000_000_000
    let snapped := fun (t : State) (stamp : Nat) (cs : List Word) => t.getF PWC_DINT.LATEST = 1 - s.getF PWC_DINT.LATEST ∧
      t.getF PWC_DINT.SEQ = (s.getF PWC_DINT.SEQ + 1) % 65536 ∧ (t.reg .PWC_SNAP (32 * t.getF PWC_DINT.LATEST)).toNat = stamp % 2 ^ 64 ∧
      ∀ i < 19, t.reg .PWC_SNAP (32 * t.getF PWC_DINT.LATEST + 2 + i) = cs.getD i 0
    (s.power.viewAt ≠ b → ∃ t, exec .energyViewUpdate s = .next t ∧ t.power.viewAt = b ∧
      ∀ i < 16, SMap.get 0 t.power.view i = (s.reg .PWC_EN_P i).toNat / 1000) ∧
    (0 < p → s.power.demand ≠ s.time / p * p → s.power.lost = none →
      (s.power.latched = none → ∃ t, exec .demandSnapshot s = .next t ∧ snapped t (s.time / p * p) s.counters) ∧
      (∀ cs, s.power.latched = some (s.time / p * p, cs) → cs.length = 19 → ∃ t, exec .demandSnapshot s = .next t ∧ snapped t (s.time / p * p) cs)) ∧
    (bit val 12 → s.held = false → Who.isManager who.toNat = true → field val 0 12 ≤ 3600 → ∃ t, exec (.snap who val) s = .next t ∧ snapped t s.time s.counters)

/-- A reading of the sensors shows the hottest of each slate and cistern, and a cistern throttles at its threshold; a sensor at its limit in two readings
in a row trips the module: THERMTRIP_N is driven, STAGE is TRIPPED and slate clocks and cistern traffic stop (R395, R396). -/
def Sys2Proof.Say.HeatThrottlesAndTrips : Prop :=
  ∀ (s : State) (m : ThermalReading),
    let top := fun (l : List Nat) => min 255 (l.foldl max 0)
    let trips := (thermalOver m).filter fun x => s.power.hot.contains x
    (trips = [] → ∃ t, exec (.thermalSample m) s = .next t ∧ t.power.hot = thermalOver m ∧ t.stage = s.stage ∧
      ∀ i < 16, t.getF THM_SLATE.MAX_C i = top (m.slates.getD i []) ∧ t.getF THM_CIS.MAX_C i = top (m.cisterns.getD i []) ∧
        (s.getF THM_CIS.THR_C i ≤ top (m.cisterns.getD i []) → t.flag THM_CIS.THROTTLE i = true)) ∧
    (trips ≠ [] → s.flag TOP_PINS.THERMTRIP = false → ∃ t, exec (.thermalSample m) s = .next t ∧ t.stage = Stage.tripped ∧
      t.flag TOP_PINS.THERMTRIP = true ∧ t.power.stopped = true)

/-- ENERGY, SNAPSHOT, POWER and CAPS of a partition the sender reaches answer with its coarse view, the newest snapshot, its slates' mean power and its
caps; of any other partition they answer DENIED (R393, R394, R398). -/
def Sys2Proof.Say.PowerCommandsAnswer : Prop :=
  ∀ (s : State) (chan : BitVec 6) (h : MbxReq) (rest : List MbxReq) (op : Nat) (row : Instr),
    let p := natField (h.word 1) 0 4
    let who := s.chanIdent chan.toNat
    let b := 32 * s.getF PWC_DINT.LATEST
    let ms := if Who.isVF who then s.time / 100_000_000 * 100 else s.time / 1_000_000
    let bins := s.window ms 100
    let n := (bins.map fun b => b.n).sum
    let mean := if n = 0 then 0 else (bins.map fun b => ((s.slateList p).map fun sl => b.slates.getD sl 0).sum).sum / (1000 * n)
    (row, op) ∈ [(Instr.energy chan, 0x50), (.snapshot chan, 0x51), (.power chan, 0x52), (.caps chan, 0x53)] → Say.asks s chan op h rest →
    let answered := fun (st : Nat) (ws : List Nat) => ∃ t, exec row s = .next t ∧ Say.answers s t chan h rest st ws
    (h.word 1 / 16 ≠ 0 ∨ zeroFrom h.word 2 = false → answered Status.badArg []) ∧
    (h.word 1 / 16 = 0 → zeroFrom h.word 2 = true → s.reaches who p = false → answered Status.denied []) ∧
    (h.word 1 / 16 = 0 → zeroFrom h.word 2 = true → s.reaches who p = true →
      (op = 0x50 → answered Status.ok (words2 (SMap.get 0 s.power.view p) ++ words2 s.power.viewAt)) ∧
      (op = 0x51 → answered Status.ok (words2 ((s.reg .PWC_SNAP (b + 5 + p)).toNat / 1000) ++ words2 (s.reg .PWC_SNAP b).toNat ++
        [field (s.reg .PWC_SNAP (b + 1)) 0 16])) ∧
      (op = 0x52 → answered Status.ok [if Who.isVF who then mean / 25 * 25 else mean]) ∧
      (op = 0x53 → answered Status.ok [s.getF PWC_EFF.EFF_W + s.getF PWC_EFF.LIMIT * 65536, s.getF PWC_SHARE.SHARE_W p]))

/-! ## Keys, tenants and the security processor (15) -/

namespace Sys2Proof.Say

/-- The SP has answered a transport with a response, signed with the alias key: it is the last thing sent. -/
def replied (s t : State) (tr : Transport) (code : Nat) (body : List Byte) : Prop :=
  t.out = s.out ++ [.spdm tr code (body ++ Config.aliasSign (s.measurement 0x02) (leBytes 1 code ++ body))]

/-- A transport whose connection has agreed on its algorithms, and which the SP serves. -/
def ready (s : State) (tr : Transport) : Prop := s.spdmServes tr = true ∧ (s.conn tr).negotiated = true

/-- The same within an established session. -/
def secure (s : State) (tr : Transport) (id : Option (BitVec 8)) : Prop := ready s tr ∧ s.secured tr id = true

end Sys2Proof.Say

/-- VERSION, CAPABILITIES and ALGORITHMS follow each other, a request out of order is answered with an error; then the chain's digest, the certificate and
measurements can be had, with a nonce of the SP's that is kept for 60 s (R404, R405, R421). -/
def Sys2Proof.Say.SpdmAnswers : Prop :=
  ∀ (s : State) (t : Transport) (supported : Bool) (slot : BitVec 8) (offset length : BitVec 16) (nonce : BitVec 256) (index : BitVec 8),
    let c := s.conn t
    (s.spdmServes t = true →
      (∃ u, exec (.getVersion t) s = .next u ∧ Say.replied s u t Spdm.version [0x13] ∧ u.conn t = { version := true }) ∧
      (c.version = true → ∃ u, exec (.getCapabilities t) s = .next u ∧ Say.replied s u t Spdm.capabilities [] ∧
        u.conn t = { version := true, capabilities := true }) ∧
      (c.capabilities = true → ∃ u, exec (.negotiateAlgorithms t true) s = .next u ∧ Say.replied s u t Spdm.algorithms [] ∧
        (u.conn t).negotiated = true) ∧
      (c.negotiated = false → ∃ u, exec (.getDigests t) s = .next u ∧ Say.replied s u t Spdm.error (leBytes 1 Spdm.unexpected ++ [0]))) ∧
    (s.spdmServes t = false → ∀ i ∈ [Instr.getVersion t, .getCapabilities t, .negotiateAlgorithms t supported, .getDigests t], exec i s = .next s) ∧
    (Say.ready s t →
      (∃ u, exec (.getDigests t) s = .next u ∧ Say.replied s u t Spdm.digests (sha384Bytes s.chain0)) ∧
      (slot = 0 → offset.toNat < s.chain0.length → ∃ u, exec (.getCertificate t slot offset length) s = .next u ∧
        Say.replied s u t Spdm.certificate ((s.chain0.drop offset.toNat).take length.toNat)) ∧
      (slot = 0 → ∃ u n, exec (.challenge t slot nonce) s = .next u ∧ (n, s.clock) ∈ u.sec.nonces ∧
        Say.replied s u t Spdm.challengeAuth (sha384Bytes s.chain0 ++ leBytes 8 n ++ beBytes 32 nonce.toNat)) ∧
      (∀ b, s.blocks index.toNat = some b → ∃ u n, exec (.getMeasurements t index nonce) s = .next u ∧ (n, s.clock) ∈ u.sec.nonces ∧
        Say.replied s u t Spdm.measurements (b ++ leBytes 8 n ++ beBytes 32 nonce.toNat)))

/-- KEY_EXCHANGE opens one of eight sessions, FINISH establishes it, and with REQ_MUTUAL only for a requester with an anchor; HEARTBEAT and KEY_UPDATE are
answered inside a session, and END_SESSION ends it (R405). -/
def Sys2Proof.Say.SessionsAreOpenedAndEnded : Prop :=
  ∀ (s : State) (t : Transport) (random : BitVec 256) (exchange : List Byte) (id : BitVec 8) (chain : Option Nat) (verified : Bool) (x : SpdmSession),
    let anchored := match chain with | some a => (SMap.find? s.sec.tenantAnchors a).isSome | none => false
    Say.ready s t →
    (s.sessions.length < 8 → ∃ u, exec (.keyExchange t random exchange) s = .next u ∧
      u.sessions = s.sessions ++ [⟨s.freeSession, t, false, false, 0⟩]) ∧
    (8 ≤ s.sessions.length → ∃ u, exec (.keyExchange t random exchange) s = .next u ∧ u.sessions = s.sessions ∧
      Say.replied s u t Spdm.error (leBytes 1 Spdm.busy ++ [0])) ∧
    (s.session t id.toNat = some x → x.established = false →
      (s.flag SEC_STATE.REQ_MUTUAL = false ∨ anchored = true → ∃ u y, exec (.finish t id chain true) s = .next u ∧
        Say.replied s u t Spdm.finishRsp [] ∧ y ∈ u.sessions ∧ y.id = x.id ∧ y.transport = t ∧ y.established = true ∧ y.mutualAuth = anchored) ∧
      (verified = false ∨ (s.flag SEC_STATE.REQ_MUTUAL = true ∧ anchored = false) → ∃ u, exec (.finish t id chain verified) s = .next u ∧
        x ∉ u.sessions)) ∧
    (s.secured t (some id) = true →
      (∃ u, exec (.heartbeat t id) s = .next u ∧ Say.replied s u t Spdm.heartbeatAck [] ∧ u.sessions = s.sessions) ∧
      (∃ u, exec (.keyUpdate t id) s = .next u ∧ Say.replied s u t Spdm.keyUpdateAck [] ∧ u.secured t (some id) = true) ∧
      ∃ u, exec (.endSession t id) s = .next u ∧ Say.replied s u t Spdm.endSessionAck [] ∧ u.secured t (some id) = false) ∧
    (s.secured t (some id) = false → ∀ i ∈ [Instr.heartbeat t id, .keyUpdate t id, .endSession t id], ∃ u, exec i s = .next u ∧
      u.sessions = s.sessions ∧ Say.replied s u t Spdm.error (leBytes 1 Spdm.invalidSession ++ [0]))

/-- KEY_DELIVER in a secured session puts a job's ROOT and data keys into the first free slot, with generation 0, and answers its number and check value; a
debugged module answers DENIED (R406). -/
def Sys2Proof.Say.KeysAreDelivered : Prop :=
  ∀ (s : State) (t : Transport) (id : Option (BitVec 8)) (body : List Byte) (n : Nat),
    let job := leNat (body.take 2)
    let nd := leNat ((body.drop 2).take 1)
    let root := BitVec.ofNat 256 (beNat ((body.drop 4).take 32))
    Say.secure s t id →
    (s.flag SEC_STATE.DEBUG = false → job ≠ 0 → nd ≤ 4 → body.getD 3 0 = 0 → body.length = 36 + 32 * nd → (∀ m, s.slotJobKey m ≠ job) →
      n < 4096 → s.slotJobKey n = 0 → (∀ m < n, s.slotJobKey m ≠ 0) → ∃ u, exec (.keyDeliver t id body) s = .next u ∧
        u.slotJobKey n = job ∧ u.slotHolds n job false = true ∧ u.slotHolds n job true = false ∧ (u.keyMat n).root = root ∧
        (u.keyMat n).dkeys.length = nd ∧ u.getF SEC_KSLOT.KCV n = kcv root ∧ (∀ m, m ≠ n → u.keyMat m = s.keyMat m) ∧
        Say.replied s u t Spdm.vendor (leBytes 1 Status.ok ++ leBytes 2 n ++ leBytes 4 (kcv root))) ∧
    (s.flag SEC_STATE.DEBUG = true → ∃ u, exec (.keyDeliver t id body) s = .next u ∧ u.keyMat n = s.keyMat n ∧
      Say.replied s u t Spdm.vendor (leBytes 1 Status.denied ++ leBytes 2 0 ++ leBytes 4 0))

/-- KEY_STATUS answers a slot's register; KEY_ADVANCE with a counter above the highest, of its generation's parity, installs the generation where no valid
route set uses it; KEY_DROP destroys an unnamed slot, and so does the SP once it has been in use and no longer is (R407 to R409). -/
def Sys2Proof.Say.KeySlotsAdvanceAndGo : Prop :=
  ∀ (s : State) (chan : BitVec 6) (h : MbxReq) (rest : List MbxReq) (slot : BitVec 12),
    let n := natField (h.word 1) 8 12
    let g := natField (h.word 1) 20 2
    let c := h.word 2
    let may := s.mayKey (s.chanIdent chan.toNat) n = true
    let unused := ∀ i < 16, s.flag RTE_RSET_A.VALID i = true → s.getF RTE_RSET_A.KEY i = n →
      s.getF RTE_RSET_A.KGEN_TX i ≠ g ∧ (s.getF RTE_RSET_A.KGEN_RX i).testBit g = false
    (Say.asks s chan 0x23 h rest → unusedZero h.word 0xFFF00 2 = true → may → ∃ t, exec (.keyStatus chan) s = .next t ∧
      Say.answers s t chan h rest Status.ok (words2 (s.reg .SEC_KSLOT n).toNat)) ∧
    (Say.asks s chan 0x24 h rest → unusedZero h.word 0x3FFF00 3 = true → may → s.slotJobKey n ≠ 0 → g ≤ 1 → c % 2 = g → (s.keyMat n).highest < c → unused →
      ∃ t, exec (.keyAdvance chan) s = .next t ∧ Say.answers s t chan h rest Status.ok [] ∧ (t.keyMat n).highest = c ∧
        t.slotHolds n (s.slotJobKey n) (g == 1) = true ∧ (t.keyMat n).root = (s.keyMat n).root) ∧
    (Say.asks s chan 0x25 h rest → unusedZero h.word 0xFFF00 2 = true → may → s.slotJobKey n ≠ 0 → s.slotNamed n = false →
      ∃ t, exec (.keyDrop chan) s = .next t ∧ Say.answers s t chan h rest Status.ok [] ∧ t.slotJobKey n = 0 ∧ t.keyMat n = {}) ∧
    (s.slotJobKey slot.toNat ≠ 0 → (s.keyMat slot.toNat).named = true → s.slotNamed slot.toNat = false → s.partsOf (s.slotJobKey slot.toNat) = [] →
      ∃ t, exec (.keySlotAutoDestroy slot) s = .next t ∧ t.slotJobKey slot.toNat = 0 ∧ t.keyMat slot.toNat = {}) ∧
    (s.slotNamed slot.toNat = true → exec (.keySlotAutoDestroy slot) s = .next s)

/-- BIND of a partition that passes its checks binds it to the route set's job: its generation tag is one higher, its slates' battens are 0; a failed check
is answered with its status; UNBIND starts the clearing, and BIND_STATUS tells (R411 to R413). -/
def Sys2Proof.Say.PartitionsAreBound : Prop :=
  ∀ (s : State) (chan : BitVec 6) (h : MbxReq) (rest : List MbxReq),
    let who := s.chanIdent chan.toNat
    let p := natField (h.word 1) 0 4
    let i := natField (h.word 1) 4 4
    (Say.asks s chan 0x20 h rest → unusedZero h.word 0xFF 2 = true →
      (s.bindCheck who p i = none → ∃ t, exec (.bind chan) s = .next t ∧ Say.answers s t chan h rest Status.ok [(s.gen p + 1) % 256] ∧
        t.bound p = true ∧ t.jobOf p = s.getF RTE_RSET_A.JOB i ∧ t.gen p = (s.gen p + 1) % 256 ∧
        (∀ b < 65536, t.batten b = if (s.slatesOf p).testBit (b / 4096) then 0 else s.batten b) ∧ ∀ x, t.byte x = s.byte x) ∧
      (∀ st, s.bindCheck who p i = some st → ∃ t, exec (.bind chan) s = .next t ∧ Say.answers s t chan h rest st [] ∧ t.bound p = s.bound p)) ∧
    (Say.asks s chan 0x21 h rest → unusedZero h.word 0xF 2 = true → s.reaches who p = true → s.bound p = true →
      SMap.get false s.sec.clearing p = false → s.partWorks p = false → ∃ t, exec (.unbind chan) s = .next t ∧
        Say.answers s t chan h rest Status.ok [] ∧ SMap.get false t.sec.clearing p = true ∧ t.bound p = true) ∧
    (Say.asks s chan 0x22 h rest → unusedZero h.word 0xF 2 = true → s.reaches who p = true → ∃ t st, exec (.bindStatus chan) s = .next t ∧
      st = (if SMap.get false s.sec.clearing p then 2 else if s.bound p then 1 else 0) ∧
      Say.answers s t chan h rest Status.ok [st + s.jobOf p * 65536, match SMap.find? s.sec.bindings p with | some b => b.rset | none => 0])

/-- Clearing a partition leaves every byte of its slates' scratch and tiers zero, and of its cisterns what no other bound partition covers, with no poison; no
byte outside its grant changes; then it is not bound (R413). -/
def Sys2Proof.Say.ClearingLeavesNothing : Prop :=
  ∀ (s : State) (part : BitVec 4),
    let p := part.toNat
    (SMap.get false s.sec.clearing p = true → s.getF RST_PART.STATE p ≠ 1 → ∃ t, exec (.unbindClearDone part) s = .next t ∧ t.bound p = false ∧
      SMap.find? t.sec.bindings p = none ∧ SMap.get false t.sec.clearing p = false ∧
      (∀ a, s.granted p a = true → (∀ q < 16, q ≠ p → s.bound q = true → s.granted q a = false) → t.byte a = 0 ∧ t.poisoned a = false) ∧
      ∀ a, s.granted p a = false → t.byte a = s.byte a) ∧
    (SMap.get false s.sec.clearing p = false → exec (.unbindClearDone part) s = .next s)

/-- An UNSEAL of a well-formed blob of the partition's job, with a data key the slot holds and its ranges in the grant, is answered OK and runs; as it
completes, its destination holds the plaintext of all its chunks, or zeros where a chunk failed or the partition was aborted, and its batten is one
higher; after a clearing it lands nothing (R413 to R415). -/
def Sys2Proof.Say.BlobsAreUnsealed : Prop :=
  (∀ (s : State) (chan : BitVec 6) (h : MbxReq) (rest : List MbxReq) (x : Binding),
    let w := h.word
    let p := natField (w 1) 0 4
    let src := addr2 w 2
    let dst := addr2 w 4
    let head := s.bytes src 64
    let b := blobOf head
    let m := s.keyMat (s.getF RTE_RSET_A.KEY x.rset)
    Say.asks s chan 0x26 h rest → s.sec.debugWait = none → w 1 &&& 0x30000F = w 1 → w 6 < 65536 → zeroFrom w 9 = true →
    s.reaches (s.chanIdent chan.toNat) p = true → s.bound p = true → SMap.get false s.sec.clearing p = false →
    SMap.find? s.sec.bindings p = some x → s.partRange p src 64 = true →
    (s.noteRead src 64).anyPoison src 64 = false → blobGood head = true → s.partRange p src b.bytes = true → s.partRange p dst b.len = true →
    (src + b.bytes ≤ dst ∨ dst + b.len ≤ src) → (s.slatesOf p).testBit (w 6 / 4096) = true → s.partRange p (addr2 w 7) 16 = true →
    b.job = x.job → b.key < s.getF SEC_KSLOT.NDATA (s.getF RTE_RSET_A.KEY x.rset) → ∃ t, exec (.unsealBlob chan) s = .next t ∧
      Say.answers s t chan h rest Status.ok [] ∧
      t.sec.unsealing = s.sec.unsealing ++ [⟨p, s.gen p, src, dst, w 6, addr2 w 7, m.dkeys.getD b.key 0, head, false⟩]) ∧
  (∀ (s : State) (part : BitVec 4) (i : Nat) (u : Unsealing),
    let b := blobOf u.head
    let cs := (upFrom 0 b.chunks).map fun j => s.openChunk u u.head j
    let data := if s.gen u.part ≠ u.gen ∨ none ∈ cs then List.replicate b.len 0 else cs.flatMap fun c => c.getD []
    s.sec.unsealing.findIdx? (fun u => u.part == part.toNat) = some i → s.sec.unsealing[i]? = some u → s.sec.debugWait = none →
    (u.cleared = true → exec (.unsealComplete part) s = .next { s with sec := { s.sec with unsealing := removeAt s.sec.unsealing i } }) ∧
    (u.cleared = false → (u.dst + data.length ≤ u.record ∨ u.record + 16 ≤ u.dst) → ∃ t, exec (.unsealComplete part) s = .next t ∧
      t.bytes u.dst data.length = data ∧ t.sec.unsealing = removeAt s.sec.unsealing i ∧ t.batten u.batten = (s.batten u.batten + 1) % 2 ^ 32 ∧
      leNat (t.bytes u.record 4) = (if s.gen u.part ≠ u.gen then Status.jobAbort else if none ∈ cs then Status.integrity else Status.ok) ∧
      ∀ y, (y < u.dst ∨ u.dst + data.length ≤ y) → (y < u.record ∨ u.record + 16 ≤ y) → t.byte y = s.byte y))

/-- TDISP requests of a VF in a secured session: LOCK takes an unlocked VF whose partitions are all bound, on a free stream, to CONFIG_LOCKED; RUN takes a locked
one with a stream to RUN; STOP takes it back; a TLP outside the stream of a running VF takes it to ERROR (R416 to R418). -/
def Sys2Proof.Say.TdispStates : Prop :=
  ∀ (s : State) (vf : BitVec 10) (session stream : Option (BitVec 8)),
    let v := vf.toNat
    (Say.secure s (vfDoe v) session → s.fnExists (v + 1) = true →
      (s.getF SEC_TDI.STATE v = 0 → (∀ p ∈ s.vfParts v, s.bound p = true) → (∀ x, stream = some x → s.streamTaken v x.toNat = false) →
        ∃ t, exec (.lockInterfaceRequest vf session stream) s = .next t ∧ t.getF SEC_TDI.STATE v = 1 ∧
          t.flag SEC_TDI.STREAM_VALID v = stream.isSome ∧ ∀ x, stream = some x → t.getF SEC_TDI.STREAM v = x.toNat) ∧
      (s.getF SEC_TDI.STATE v ≠ 0 → ∃ t, exec (.lockInterfaceRequest vf session stream) s = .next t ∧ t.reg .SEC_TDI v = s.reg .SEC_TDI v) ∧
      (∃ t, exec (.getDeviceInterfaceReport vf session) s = .next t ∧ t.reg .SEC_TDI v = s.reg .SEC_TDI v ∧ t.out.length = s.out.length + 1) ∧
      (s.getF SEC_TDI.STATE v = 1 → s.flag SEC_TDI.STREAM_VALID v = true → ∃ t, exec (.tdiRunRequest vf session) s = .next t ∧
        t.getF SEC_TDI.STATE v = 2) ∧
      (s.getF SEC_TDI.STATE v ≠ 1 ∨ s.flag SEC_TDI.STREAM_VALID v = false → ∃ t, exec (.tdiRunRequest vf session) s = .next t ∧
        t.reg .SEC_TDI v = s.reg .SEC_TDI v) ∧
      ((∀ p ∈ s.vfParts v, SMap.get false s.sec.clearing p = false) → ∃ t, exec (.stopInterfaceRequest vf session) s = .next t ∧
        t.getF SEC_TDI.STATE v = 0)) ∧
    (s.getF SEC_TDI.STATE v = 2 → exec (.tdiTlpViolation vf) s = .next ((s.emit (.unsupported (v + 1))).tdiError v)) ∧
    (s.vfParts v = [] → (s.tdiError v).getF SEC_TDI.STATE v = 3) ∧ (s.getF SEC_TDI.STATE v ≠ 2 → exec (.tdiTlpViolation vf) s = .next s)

/-- IDE_KM installs a stream's key in a secured session while the port has one of its nine left; an OPERATOR session installs the fabric key of a generation,
which is sent under from then on, and an AUDITOR's changes nothing; a client opens a session with its anchor's role, the first anchor only under
physical presence (R410, R418, R419). -/
def Sys2Proof.Say.KeysAndSessionsOfTheModule : Prop :=
  ∀ (s : State) (port : Bool) (id : Option (BitVec 8)) (stream : BitVec 8) (key : BitVec 256) (session : BitVec 2) (gen : Bool) (anchor : BitVec 2) (r : AnchorReq),
    let k := b2n port * 256 + stream.toNat
    let free := (upFrom 0 4).find? fun i => (SMap.find? s.sec.mgmt i).isNone
    (Say.secure s (.doe port) id → (s.sec.ide.filter fun e => e.1 / 256 == b2n port).length < 9 → ∃ t, exec (.ideKm port id stream key) s = .next t ∧
      SMap.find? t.sec.ide k = some key ∧ Say.replied s t (.doe port) Spdm.vendor []) ∧
    (s.operatorOn session.toNat = true → ∃ t, exec (.fabricKeyInstall session gen key) s = .next t ∧ SMap.find? t.sec.fabric (b2n gen) = some key ∧
      t.sec.fabricTx = gen ∧ t.packetKey 0 gen = some key) ∧
    (s.operatorOn session.toNat = false → exec (.fabricKeyInstall session gen key) s = .next s) ∧
    (∀ i role, free = some i → s.sec.anchors ≠ [] → SMap.find? s.sec.anchors anchor.toNat = some role →
      ∃ t, exec (.mgmtSessionOpen (some anchor) none) s = .next t ∧ (SMap.find? t.sec.mgmt i).map (fun m => m.operator) = some role ∧
        t.sec.anchors = s.sec.anchors) ∧
    (∀ i, free = some i → s.sec.anchors = [] → s.present = true → ∃ t, exec (.mgmtSessionOpen none (some r)) s = .next t ∧
      t.sec.anchors = [(r.slot.toNat, r.operator)] ∧ (SMap.find? t.sec.mgmt i).map (fun m => m.operator) = some r.operator) ∧
    (s.sec.anchors = [] → s.present = false → exec (.mgmtSessionOpen none (some r)) s = .next s) ∧
    (free = none → exec (.mgmtSessionOpen (some anchor) none) s = .next s)

/-- A management message has PF0's reach: an OPERATOR's command is carried out and answered as a mailbox command is, and an AUDITOR's where it changes
nothing; any other of an AUDITOR's is answered DENIED and changes nothing; one that comes in a pause of an activation waits for its end (R419, R468,
R474). -/
def Sys2Proof.Say.ManagementMessages : Prop :=
  ∀ (s : State) (session : BitVec 2) (frame : List Byte),
    let n := session.toNat
    let m := frame.drop 4
    let w := frameWord m
    let op := w 0 % 256
    let dest := (1 + n, w 0 % 65536)
    8 ≤ frame.length → frame.getD 0 0 = 0x7E → frame.getD 1 0 = 0 → leNat ((frame.drop 2).take 2) = frame.length - 4 → frame.length ≤ 68 →
    (SMap.find? s.sec.mgmt n).isSome = true → w 0 / 2 ^ 20 = 0 →
    (s.rider.pause.isSome = true ∨ s.rider.frames ≠ [] → exec (.mgmtFrame session frame) s =
      .next { s with rider := { s.rider with frames := s.rider.frames ++ [(n, m)] } }) ∧
    (∀ f fs, s.rider.pause = none → s.rider.frames = f :: fs →
      s.takeFrame = ({ s with rider := { s.rider with frames := fs } } : State).riderFirst.mgmtMessage f.1 f.2) ∧
    (s.rider.pause = none → s.rider.frames = [] → knownOpcode op = false → exec (.mgmtFrame session frame) s = .next (s.riderFirst.answer dest Status.badArg [])) ∧
    (s.rider.pause = none → s.rider.frames = [] → knownOpcode op = true → s.operatorOn n = false → auditorOpcode op = false →
      exec (.mgmtFrame session frame) s = .next (s.riderFirst.answer dest Status.denied [])) ∧
    (s.rider.pause = none → s.rider.frames = [] → knownOpcode op = true → s.operatorOn n = true ∨ auditorOpcode op = true → op ≠ 0x26 → op ≠ 0x30 → op ≠ 0x43 →
      ∃ t, exec (.mgmtFrame session frame) s = .next t ∧
        t = (mgmtCmd op Who.pf0 w s.riderFirst).2.answer dest (mgmtCmd op Who.pf0 w s.riderFirst).1.1 (mgmtCmd op Who.pf0 w s.riderFirst).1.2 ∧
        t.out.getLast? = some (.mgmt n (mgmtMessage (w 0 % 65536) (mgmtCmd op Who.pf0 w s.riderFirst).1.1 (mgmtCmd op Who.pf0 w s.riderFirst).1.2)))

/-- What needs physical presence is begun with it and refused with DENIED without it: a debug unlock destroys every key first, fuse programming sets root
revoke bits first, a forced recovery boots recovery, a credential reset erases the operator's anchors first; a deassertion stops what has not been
done (R421, R422). -/
def Sys2Proof.Say.PresenceOperations : Prop :=
  ∀ (s : State) (token : UnlockToken) (image : FuseImage) (session : BitVec 2),
    let refused := fun (i : Instr) => exec i s = .next (s.record { status := Status.denied, source := Src.sp })
    (s.present = false → s.sec.unsealing = [] → ∀ i ∈ [Instr.debugUnlock token, .fuseProgramming image, .forcedRecoveryBoot session, .credentialReset],
      refused i) ∧
    (s.present = true → s.sec.presence = [] →
      (s.mayUnlock token = true → s.sec.unsealing = [] → ∃ t, exec (.debugUnlock token) s = .next t ∧ t.sec.presence = [.abortJobs, .setDebug] ∧
        (∀ n, t.keyMat n = {} ∧ t.slotJobKey n = 0) ∧ t.flag SEC_STATE.FABRIC_KEY = false) ∧
      (image.pid.toNat = Config.pid → s.rootSigned image.sig = true → ∃ t, exec (.fuseProgramming image) s = .next t ∧
        t.sec.revoked = s.sec.revoked ||| image.revoke ∧
        t.sec.presence = .versions image.spSvn image.riderSvn :: image.entries.map .fuse) ∧
      (s.operatorOn session.toNat = true → ∃ t, exec (.forcedRecoveryBoot session) s = .next t ∧ t.rider.recoveryNext = true ∧ t.rst.riderUp = false ∧
        t.stage = Stage.riderBoot) ∧
      ∃ t, exec .credentialReset s = .next t ∧ t.sec.anchors = [] ∧ t.sec.presence = [.eraseTenants, .clearMutual]) ∧
    (∀ p rest, s.sec.presence = p :: rest → s.nextStep = ({ s with sec := { s.sec with presence := rest } } : State).presenceStep p) ∧
    (s.present = true → ∃ t, exec .presenceDeassert s = .next t ∧ t.present = false ∧ t.flag TOP_PINS.PRESENCE = false ∧ t.sec.presence = []) ∧
    (s.present = false → exec .presenceDeassert s = .next s)

/-! ## The start, resets and aborts (16) -/

/-- Power comes up in RIDER_BOOT; once its stagger is over the rider starts from the first of its slots that passes, with the gauge at 0 and the straps
latched, into LINKS, or into recovery where none passes (R32, R402, R428, R470, R482). -/
def Sys2Proof.Say.TheModuleStarts : Prop :=
  ∀ (s : State) (feedB presence : Bool) (straps : BitVec 6),
    (s.rst.busUp = none → s.edge.off = false → ∃ t, exec (.busPowerUp feedB straps presence) s = .next t ∧ t.rst.busUp = some s.clock ∧
      t.stage = Stage.riderBoot ∧ t.conducting = b2n feedB ∧ t.feedOk (b2n feedB) = true ∧ t.getF TOP_PINS.SLOT_NOW = straps.toNat ∧
      t.present = presence) ∧
    (s.rst.riderUp = false → s.staggerOver = true →
      (∀ i, s.bootSlot = some i → ∃ t, exec .riderRelease s = .next t ∧ t.rst.riderUp = true ∧ t.stage = Stage.links ∧ t.gauge.now = 0 ∧
        t.getF TOP_PINS.SLOT_BOOT = s.getF TOP_PINS.SLOT_NOW) ∧
      (s.bootSlot = none → ∃ t, exec .riderRelease s = .next t ∧ t.rst.riderUp = true ∧ t.stage = Stage.recovery)) ∧
    (s.rst.riderUp = true ∨ s.staggerOver = false → exec .riderRelease s = .next s)

/-- LINKS leads to the row's consistency check, that to the column's, that to SLATES; a check that has not passed after 1 s is recorded and the start goes
on (R429, R434). -/
def Sys2Proof.Say.ConsistencyIsChecked : Prop :=
  ∀ s : State,
    (s.stage = Stage.links → s.linksOver = true → ∃ t, exec .consistencyCheck s = .next t ∧ t.stage = Stage.rowCons) ∧
    (s.stage = Stage.rowCons → s.consistent true = true → ∃ t, exec .consistencyCheck s = .next t ∧ t.stage = Stage.colCons ∧
      t.flag BOOT_TOPO.ROW_CONS = true) ∧
    (s.stage = Stage.colCons → s.flag BOOT_TOPO.ROW_CONS = true → s.consistent false = true → ∃ t, exec .consistencyCheck s = .next t ∧
      t.stage = Stage.slates ∧ t.flag BOOT_TOPO.COL_CONS = true) ∧
    (s.stage = Stage.rowCons ∨ s.stage = Stage.colCons → s.rst.stageStart + 1_000_000_000 ≤ s.clock → ∃ t, exec .consistencyTimeout s = .next t ∧
      t.stage = s.stage + 1 ∧ t.flag BOOT_TOPO.ROW_CONS = s.flag BOOT_TOPO.ROW_CONS ∧ t.flag BOOT_TOPO.COL_CONS = s.flag BOOT_TOPO.COL_CONS) ∧
    (s.clock < s.rst.stageStart + 1_000_000_000 → exec .consistencyTimeout s = .next s)

/-- A wave starts its four slates, each out of service with its tiers and scratch zero; the last report of a slate names its in-service sites, the 128 lowest
that passed, or none where fewer did (R85, R430, R431, R433). -/
def Sys2Proof.Say.SlatesStartInWaves : Prop :=
  (∀ (s : State) (failing : List (Nat × Nat)) (findings : List Finding),
    let w := s.getF BOOT_STAT.WAVES
    (s.stage = Stage.slates ∧ s.flag BOOT_STAT.CIS_DONE = true ∨ s.stage = Stage.resetting) → w < 4 → s.rst.starting = [] → s.held = false →
    ∃ t, exec (.slateWave ⟨failing, findings⟩) s = .next t ∧ ∀ sl ∈ waveSlates w, (SMap.find? t.rst.starting sl).isSome = true ∧ t.flag TOP_SITES_HI.OK sl = false ∧
      ∀ a, ((tierBase + sl * tierSize ≤ a ∧ a < tierBase + (sl + 1) * tierSize) ∨
        (scratchBase + sl * 128 * scratchSize ≤ a ∧ a < scratchBase + (sl + 1) * 128 * scratchSize)) → t.byte a = 0 ∧ t.poisoned a = false) ∧
  (∀ (s : State) (slate : BitVec 4) (site : BitVec 8) (pass : Bool) (x : SlateStart),
    let sl := slate.toNat
    let y : SlateStart := { x with reports := SMap.insert x.reports site.toNat pass }
    let good := (s.candidates sl).filter fun i => !(x.scanFailed.any (· == i)) && SMap.get false y.reports i
    SMap.find? s.rst.starting sl = some x → site.toNat ∈ s.candidates sl →
    (s.allReported sl y = false → ∃ t, exec (.coreBootReport slate site pass) s = .next t ∧ SMap.find? t.rst.starting sl = some y) ∧
    (s.allReported sl y = true → ∃ t, exec (.coreBootReport slate site pass) s = .next t ∧ SMap.find? t.rst.starting sl = none ∧
      t.sites sl = if 128 ≤ good.length then good.take 128 else []))

/-- The topology check leads to READY where every entry passes or none is expected, and to TOPO_FAIL with the failing entries otherwise; TOPO_RECHECK runs it
again for a PF and answers what it finds (R435, R436). -/
def Sys2Proof.Say.TheTopologyIsChecked : Prop :=
  ∀ (s : State) (chan : BitVec 6) (h : MbxReq) (rest : List MbxReq),
    (s.stage = Stage.topo →
      (s.flag BOOT_CTL.EXP_VALID = false → ∃ t, exec .topologyCheck s = .next t ∧ t.stage = Stage.ready ∧ t.flag BOOT_TOPO.UNCHECKED = true) ∧
      (s.flag BOOT_CTL.EXP_VALID = true → s.mismatches = 0 → ∃ t, exec .topologyCheck s = .next t ∧ t.stage = Stage.ready ∧
        t.getF BOOT_TOPO.MISMATCH = 0 ∧ ∀ sl < 16, t.flag TOP_SITES_HI.OK sl = true → t.slateWhole sl = true) ∧
      (s.flag BOOT_CTL.EXP_VALID = true → s.mismatches ≠ 0 → ∃ t, exec .topologyCheck s = .next t ∧ t.stage = Stage.topoFail ∧
        t.getF BOOT_TOPO.MISMATCH = s.mismatches % 65536)) ∧
    (Say.asks s chan 0x35 h rest → zeroFrom h.word 1 = true → Who.isPF (s.chanIdent chan.toNat) = true → s.stage = Stage.ready ∨ s.stage = Stage.topoFail →
      ∃ t ws, exec (.topoRecheck chan) s = .next t ∧ Say.answers s t chan h rest Status.ok [ws] ∧ ws = (t.reg .BOOT_TOPO).toNat % 2 ^ 32 ∧
        (t.stage = Stage.ready ∨ t.stage = Stage.topoFail))

/-- A partition reset that nothing refuses, and that does not take the partition OFFLINE by its count, is in progress from its request on: the slates start, and an unbound partition's tag is one higher and its battens
are 0; with all its slates whole it ends ACTIVE and the request is answered, else OFFLINE (R436, R440, R452). -/
def Sys2Proof.Say.PartitionsAreReset : Prop :=
  (∀ (s : State) (chan : BitVec 6) (h : MbxReq) (rest : List MbxReq),
    let p := natField (h.word 1) 0 4
    Say.asks s chan 0x30 h rest →
    (∀ st, s.partRefusal (s.chanIdent chan.toNat) p h.word = some st → ∃ t, exec (.partReset chan) s = .next t ∧ Say.answers s t chan h rest st []) ∧
    (s.partRefusal (s.chanIdent chan.toNat) p h.word = none →
      (s.getF RST_ESC.PART_N = 0 ∨ (s.partWindow p).length + 1 < s.getF RST_ESC.PART_N) → ∃ t, exec (.partReset chan) s = .next t ∧
      t.getF RST_PART.STATE p = 1 ∧ (SMap.find? t.rst.parts p).isSome = true ∧ (t.chan chan.toNat).requests = { h with taken := true } :: rest ∧
      (∀ sl ∈ s.slateList p, (SMap.find? t.rst.starting sl).isSome = true) ∧
      (s.bound p = false → t.gen p = (s.gen p + 1) % 256 ∧ ∀ b < 65536, b / 4096 ∈ s.slateList p → t.batten b = 0))) ∧
  (∀ (s : State) (part : BitVec 4) (x : PartReset),
    let p := part.toNat
    SMap.find? s.rst.parts p = some x → s.rst.compute = none → (∀ sl ∈ s.slateList p, SMap.find? s.rst.starting sl = none) →
    ((∀ sl ∈ s.slateList p, s.slateWhole sl = true) → ∃ t, exec (.partResetComplete part) s = .next t ∧ t.getF RST_PART.STATE p = 0 ∧
      SMap.find? t.rst.parts p = none ∧ ∀ sl ∈ s.slateList p, t.flag TOP_SITES_HI.OK sl = true) ∧
    ((∃ sl ∈ s.slateList p, s.slateWhole sl = false) → ∃ t, exec (.partResetComplete part) s = .next t ∧ t.getF RST_PART.STATE p = 2 ∧
      SMap.find? t.rst.parts p = none))

/-- A compute reset that a PF asks for in READY, short of the count that takes the module OFFLINE, is answered OK and in progress: no core runs, every batten is 0, STAGE is RESETTING; the four waves done, the
module is READY with every tag one higher (R441). -/
def Sys2Proof.Say.TheModuleIsReset : Prop :=
  (∀ (s : State) (chan : BitVec 6) (h : MbxReq) (rest : List MbxReq), Say.asks s chan 0x31 h rest → zeroFrom h.word 1 = true →
    Who.isPF (s.chanIdent chan.toNat) = true →
    (s.computeRefusal = none → (s.getF RST_ESC.MOD_N = 0 ∨ s.compWindow.length + 1 < s.getF RST_ESC.MOD_N) →
      ∃ t, exec (.computeReset chan) s = .next t ∧ Say.answers s t chan h rest Status.ok [] ∧
      t.stage = Stage.resetting ∧ t.flag RST_STAT.COMP_BUSY = true ∧ t.getF BOOT_STAT.WAVES = 0 ∧ t.core = {} ∧ ∀ b < 65536, t.batten b = 0) ∧
    (∀ st, s.computeRefusal = some st → ∃ t, exec (.computeReset chan) s = .next t ∧ Say.answers s t chan h rest st [] ∧ t.stage = s.stage)) ∧
  (∀ s : State, s.rst.compute.isSome = true → s.getF BOOT_STAT.WAVES = 4 → s.rst.starting = [] → ∃ t, exec .computeResetComplete s = .next t ∧
    t.stage = Stage.ready ∧ t.flag RST_STAT.COMP_BUSY = false ∧ t.rst.compute = none ∧ ∀ p < 16, t.gen p = (s.gen p + 1) % 256)

/-- What is supervised escalates: a partition still busy 1 ms after its abort is reset, a partition reset of 5 ms starts a compute reset, a compute reset of
40 ms takes the module OFFLINE (R450, R452). -/
def Sys2Proof.Say.SupervisionEscalates : Prop :=
  ∀ (s : State) (part : BitVec 4) (w : AbortWin) (x : PartReset) (t0 : Nat),
    let p := part.toNat
    (s.abortWin (s.jobOf p) = some w → s.bound p = true → w.checked = false → w.held + 1_000_000 ≤ s.clock →
      let s1 : State := { s with rst := { s.rst with aborts := SMap.insert s.rst.aborts (s.jobOf p) { w with checked := true } } }
      (s.partBusy p = true → s.getF RST_PART.STATE p = 0 → exec (.abortQuiesceTimeout part) s = .next (s1.startPartReset p Status.timeout none true)) ∧
      (s.partBusy p = false → exec (.abortQuiesceTimeout part) s = .next s1)) ∧
    (s.abortWin (s.jobOf p) = none → exec (.abortQuiesceTimeout part) s = .next s) ∧
    (SMap.find? s.rst.parts p = some x → s.rst.compute = none →
      (x.start + 5_000_000 ≤ s.activeTime → ∃ t, exec (.partResetTimeout part) s = .next t ∧ t = s.startCompute Status.timeout true) ∧
      (s.activeTime < x.start + 5_000_000 → exec (.partResetTimeout part) s = .next s)) ∧
    (s.rst.compute = some t0 →
      (t0 + 40_000_000 ≤ s.activeTime → ∃ t, exec .computeResetTimeout s = .next t ∧ t.stage = Stage.offline ∧ t.flag RST_STAT.OFFLINE = true) ∧
      (s.activeTime < t0 + 40_000_000 → exec .computeResetTimeout s = .next s))

/-- A job abort opens its window at course F, 64 courses on, and holds the job's injection; its partition's tag is one higher and its battens are 0 (R443, R445,
R447, R448). -/
def Sys2Proof.Say.AnAbortStopsItsJob : Prop :=
  ∀ (s : State) (job status cls p : Nat), job ≠ 0 → s.abortWin job = none → s.partsOf job = [p] →
    let t := s.raiseAbort job status cls
    (∃ w, t.abortWin job = some w ∧ w.fence = (s.courseNo + 64) % 65536 ∧ w.epoch = s.epoch ∧ w.status = status ∧ w.origin = s.epn ∧ w.held = s.clock ∧
      w.ended = false) ∧
    t.injectionHeld job = true ∧ t.gen p = (s.gen p + 1) % 256 ∧ ∀ b < 65536, b / 4096 ∈ s.slateList p → t.batten b = 0

/-- ABORT of a bound partition raises its job's abort and is answered OK; an ABORT packet opens the window it carries; the window stops holding injection as
course F ends, and closes as course F + 256 does (R445 to R447). -/
def Sys2Proof.Say.AbortsSpreadAndEnd : Prop :=
  ∀ (s : State) (chan : BitVec 6) (h : MbxReq) (rest : List MbxReq) (die : Die) (link : Link) (pkt : Packet) (vl : Option Nat) (pt : List Byte) (s2 : State)
    (job : BitVec 16) (w : AbortWin),
    let p := natField (h.word 1) 0 4
    (Say.asks s chan 0x32 h rest → unusedZero h.word 0xF 2 = true → s.reaches (s.chanIdent chan.toNat) p = true → s.bound p = true → s.jobOf p ≠ 0 →
      ∃ t, exec (.abort chan) s = .next t ∧ Say.answers s t chan h rest Status.ok [] ∧ (t.abortWin (s.jobOf p)).isSome = true) ∧
    (Say.opened s die.toNat link.toNat PT.abort pkt vl pt s2 → s.abortWin (Pkt.job pkt) = none → ∃ t w, exec (.abortPacket die link pkt) s = .next t ∧
      t.abortWin (Pkt.job pkt) = some w ∧ w.fence = Pkt.arg pkt % 65536 ∧ w.epoch = natBit (Pkt.arg pkt) 28 ∧ w.status = natField (Pkt.arg pkt) 16 8 ∧
      w.origin = Pkt.count pkt % 65536) ∧
    (s.abortWin job.toNat = some w →
      (w.ended = false → s.reached w.fenceEnd = true → ∃ t, exec (.abortFenceEnd job) s = .next t ∧ t.injectionHeld job.toNat = false ∧
        t.abortWin job.toNat = some { w with ended := true }) ∧
      (s.reached w.fenceEnd = false → exec (.abortFenceEnd job) s = .next s) ∧
      (s.reached w.winEnd = true → ∃ t, exec (.abortWindowEnd job) s = .next t ∧ t.abortWin job.toNat = none) ∧
      (s.reached w.winEnd = false → exec (.abortWindowEnd job) s = .next s))

/-- RESET_STATUS answers the reset registers of a partition the sender reaches; RESTORE brings an OFFLINE module back to SLATES, or resets a partition without
a count; FMAP_READ writes the fuse map to a PF's buffer (R432, R453, R454). -/
def Sys2Proof.Say.ResetCommandsAnswer : Prop :=
  ∀ (s : State) (chan : BitVec 6) (h : MbxReq) (rest : List MbxReq),
    let who := s.chanIdent chan.toNat
    let p := natField (h.word 1) 0 4
    let n := min (natField (h.word 1) 0 16) s.rst.fuseMap.length
    let buf := addr2 h.word 2
    let map := (s.rst.fuseMap.take n).flatMap fun e => leBytes 8 e.word.toNat
    (Say.asks s chan 0x33 h rest → unusedZero h.word 0xF 2 = true → s.reaches who p = true → ∃ t, exec (.resetStatus chan) s = .next t ∧
      Say.answers s t chan h rest Status.ok (words2 (s.rstPart p).toNat ++ words2 s.rstStat.toNat ++
        words2 (match SMap.find? s.sec.bindings p with | some b => (s.reg .RST_JOB b.rset).toNat | none => 0))) ∧
    (Say.asks s chan 0x34 h rest → unusedZero h.word 0x10F 2 = true → Who.isPF who = true → s.flag RST_ESC.HOST_RESTORE = true →
      (natBit (h.word 1) 8 = true → s.cisternLost = false → s.rst.compute = none → s.stage = Stage.offline → ∃ t, exec (.restore chan) s = .next t ∧
        Say.answers s t chan h rest Status.ok [] ∧ t.stage = Stage.slates ∧ t.flag RST_STAT.OFFLINE = false ∧ t.rst.compTimes = []) ∧
      (natBit (h.word 1) 8 = false → s.stage = Stage.ready → s.getF RST_PART.STATE p ≠ 1 → ∃ t, exec (.restore chan) s = .next t ∧
        Say.answers s t chan h rest Status.ok [] ∧ t.getF RST_PART.STATE p = 1)) ∧
    (Say.asks s chan 0x34 h rest → unusedZero h.word 0x10F 2 = true → Who.isPF who = false ∨ s.flag RST_ESC.HOST_RESTORE = false →
      ∃ t, exec (.restore chan) s = .next t ∧ Say.answers s t chan h rest Status.denied []) ∧
    (Say.asks s chan 0x36 h rest → unusedZero h.word 0xFFFF 4 = true → Who.isPF who = true → (n = 0 ∨ s.fnRange who buf (8 * n) = true) →
      ∃ t, exec (.fmapRead chan) s = .next t ∧ Say.answers s t chan h rest Status.ok [n] ∧ (0 < n → t.bytes buf (8 * n) = map) ∧
        ∀ x, x < buf ∨ buf + 8 * n ≤ x → t.byte x = s.byte x)

/-! ## The rider and field updates (17) -/

/-- A 10 ms window's load sets LOAD and doubles or halves the telemetry period, up to 64 times; the rider alone kicks its watchdog, whose expiry after
100 ms restarts the rider: it pauses for 800 ms at most, then runs from its slot and dumps, and on the third expiry within 10 min gives up a slot on
trial for the other one (R457, R458, R469, R470). What an expiry in a pause does is the model's choice (log entry 74). -/
def Sys2Proof.Say.RiderLoadAndWatchdog : Prop :=
  ∀ (s : State) (load : BitVec 8) (who : Ident),
    let v := min 100 load.toNat
    let d := s.getF RDR_STAT.DECIM
    let expired := s.rst.riderUp = true ∧ s.rider.kicked + 100_000_000 ≤ s.clock
    let restarts := fun (t : State) (slot : Nat) (watchdog : Bool) (reply : Option (Nat × Nat)) => t.flag RDR_STAT.PAUSED = true ∧
      ∃ ends, t.rider.pause = some ⟨ends, true, watchdog, slot, reply⟩ ∧ s.clock ≤ ends ∧ ends ≤ s.clock + 800_000_000
    (s.rider.pause = none → s.rider.loadAt + 10_000_000 ≤ s.clock → ∃ t, exec (.riderLoadWindow load) s = .next t ∧ t.getF RDR_STAT.LOAD = v ∧
      t.rider.loadAt = s.clock ∧ t.rider.saturated = (decide (d = 6) && decide (90 ≤ v)) ∧
      t.getF RDR_STAT.DECIM = if 90 ≤ v then min 6 (d + 1) else if v < 70 then d - 1 else d) ∧
    (s.clock < s.rider.loadAt + 10_000_000 → exec (.riderLoadWindow load) s = .next s) ∧
    (∃ t, exec (.watchdogKick who) s = .next t ∧ t.rider.kicked = if Who.isRider who.toNat then s.clock else s.rider.kicked) ∧
    (s.rst.riderUp = false ∨ s.clock < s.rider.kicked + 100_000_000 → exec .riderWatchdogExpiry s = .next s) ∧
    (expired → s.rider.pause = none → ∃ t, exec .riderWatchdogExpiry s = .next t ∧ t.rider.kicked = s.clock ∧
      t.rider.expiries = s.expiriesNow ++ [s.clock] ∧ t.running = s.running ∧ restarts t s.running true none) ∧
    (∀ x, expired → s.rider.pause = some x → ∃ t, exec .riderWatchdogExpiry s = .next t ∧ t.rider.kicked = s.clock ∧
      t.rider.expiries = s.expiriesNow ++ [s.clock] ∧
      if x.fallback then t.rider.pause = some { x with watchdog := true } else restarts t x.slot true x.reply) ∧
    (∀ x, s.rider.pause = some x → x.ends ≤ s.clock → s.held = false → x.slot < 2 → x.watchdog = true →
      s.endPause.running = x.slot ∧ (∃ d ∈ s.endPause.rst.dumps, d.watchdog = true ∧ d.gauge = s.time) ∧
      (s.expiriesNow.length < 3 → s.endPause.rider.pause = none ∧ s.endPause.flag RDR_STAT.PAUSED = false ∧
        s.endPause.flag UPD_STAT.TRIAL = s.flag UPD_STAT.TRIAL) ∧
      (3 ≤ s.expiriesNow.length → s.flag UPD_STAT.TRIAL = true → s.getF UPD_STAT.PREFERRED = x.slot → restarts s.endPause (1 - x.slot) false none ∧
        s.endPause.getF UPD_STAT.PREFERRED = 1 - x.slot ∧ s.endPause.flag UPD_STAT.TRIAL = false))

/-- A sector whose erase is in progress has its DONE entry when it ends, and at most eight sectors are erased at once: the last one's end makes the slot
RECEIVING; a staged unit is programmed into the slot and PROGRESS counts it and the header's (R460, R464, R465). -/
def Sys2Proof.Say.SlotsAreErasedAndProgrammed : Prop :=
  ∀ (s : State) (sector : BitVec 13) (u : Update) (e : Nat × List Byte) (rest : List (Nat × List Byte)),
    let x := sector.toNat
    let left := u.erasing.filter fun y => y != x
    let leftSet := s.rider.setErase.filter fun y => y != x
    let n := 8 - (leftSet.length + left.length)
    (s.erasingNow.any (· == x) = false → exec (.flashEraseDone sector) s = .next s) ∧
    (s.erasingNow.any (· == x) = true → s.rider.update = none → ∃ t, exec (.flashEraseDone sector) s = .next t ∧ t.rider.setErase = leftSet ∧
      ∃ j ∈ t.rider.journal, j.start = false ∧ j.sector = x ∧ j.seq = s.rider.journalSeq) ∧
    (s.erasingNow.any (· == x) = true → s.rider.update = some u → ∃ t, exec (.flashEraseDone sector) s = .next t ∧ t.rider.setErase = leftSet ∧
      t.rider.update = some { u with erase := u.erase.drop n, erasing := left ++ u.erase.take n } ∧
      t.slotState u.slot = if left = [] ∧ u.erase = [] ∧ s.slotState u.slot = US.erasing then US.receiving else s.slotState u.slot) ∧
    (s.rider.pause = none → s.rider.update = some u → u.staged = e :: rest → ∃ t, exec .stagingProgram s = .next t ∧ SMap.find? (t.flashSlot u.slot).units e.1 = some e.2 ∧
      t.rider.update = some { u with staged := rest } ∧ t.getF UPD_STAT.PROGRESS = ((t.flashSlot u.slot).units.length + 1) % 65536) ∧
    (s.rider.pause.isSome = true ∨ s.rider.update = none → exec .stagingProgram s = .next s)

/-- UPD_BEGIN on a header that passes R462 starts to erase the inactive slot, and is answered with that slot; a header's failing check is answered with its
status, and a second update with BUSY (R462, R464). -/
def Sys2Proof.Say.UpdatesBegin : Prop :=
  ∀ (s : State) (chan : BitVec 6) (h : MbxReq) (rest : List MbxReq),
    let who := s.chanIdent chan.toNat
    let a := addr2 h.word 2
    let head := s.bytes a 4096
    let sound := headerSound head && headerPlaced head
    let off := hdr head 36 4
    let len := hdr head 40 4
    let chain := if sound then s.bytes (a + off) len else []
    Say.asks s chan 0x40 h rest → h.word 1 = 0 → zeroFrom h.word 4 = true → Who.isPF who = true → s.bufStatus who a 4096 true = none →
    (sound = true → s.bufStatus who (a + off) len true = none) →
    (s.flag UPD_STAT.TRIAL = true ∨ s.rider.update.isSome = true → ∃ t, exec (.updBegin chan) s = .next t ∧ Say.answers s t chan h rest Status.busy []) ∧
    (s.flag UPD_STAT.TRIAL = false → s.rider.update = none →
      (s.headerCheck head chain = none → ∃ t, exec (.updBegin chan) s = .next t ∧ Say.answers s t chan h rest Status.ok [s.inactive] ∧
        t.slotState s.inactive = US.erasing ∧ t.getF UPD_STAT.PROGRESS = 0 ∧ t.running = s.running ∧
        t.rider.update.map (fun u => (u.slot, u.head, u.chain)) = some (s.inactive, head, chain)) ∧
      (∀ st, s.headerCheck head chain = some st → ∃ t, exec (.updBegin chan) s = .next t ∧ Say.answers s t chan h rest st [] ∧
        t.rider.update = none ∧ t.slotState s.inactive = s.slotState s.inactive))

/-- A block that R465 admits is held in its units, staged or programmed, when UPD_BLOCK is answered OK; while the slot is being erased, or the staging is full,
UPD_BLOCK is answered BUSY; a block that R465 does not admit, or one that disagrees with what is held, BAD_ARG (R465). -/
def Sys2Proof.Say.BlocksAreStaged : Prop :=
  ∀ (s : State) (chan : BitVec 6) (h : MbxReq) (rest : List MbxReq) (u : Update),
    let who := s.chanIdent chan.toNat
    let off := h.word 1
    let len := h.word 2
    let a := addr2 h.word 3
    let st := (s.stageBlock u off (s.bytes a len)).1
    Say.asks s chan 0x41 h rest → zeroFrom h.word 5 = true → Who.isPF who = true →
    (s.rider.update = none → ∃ t, exec (.updBlock chan) s = .next t ∧ Say.answers s t chan h rest Status.badArg []) ∧
    (s.rider.update = some u →
      (s.slotState u.slot = US.erasing → ∃ t us, exec (.updBlock chan) s = .next t ∧ Say.answers s t chan h rest Status.busy [us] ∧ 100 ≤ us ∧
        us ≤ 1_000_000) ∧
      (s.slotState u.slot ≠ US.erasing → blockGood u off len = false → ∃ t, exec (.updBlock chan) s = .next t ∧
        Say.answers s t chan h rest Status.badArg []) ∧
      (s.slotState u.slot ≠ US.erasing → blockGood u off len = true → s.bufStatus who a len true = none →
        (st = Status.ok → ∃ t v, exec (.updBlock chan) s = .next t ∧ Say.answers s t chan h rest Status.ok [] ∧ t.rider.update = some v ∧
          ∀ i < ceilDiv len 4096, t.unitHeld v (off / 4096 + i) = some ((s.bytes a len).drop (4096 * i) |>.take 4096)) ∧
        (st = Status.busy → ∃ t us, exec (.updBlock chan) s = .next t ∧ Say.answers s t chan h rest Status.busy [us] ∧ t.rider.update = some u) ∧
        (st = Status.badArg → ∃ t, exec (.updBlock chan) s = .next t ∧ Say.answers s t chan h rest Status.badArg [] ∧ t.rider.update = some u)))

/-- UPD_VERIFY of a slot with every byte programmed starts its read-back, which ends VERIFIED with the header programmed where the images match their digests, and
FAILED where they do not; UPD_CANCEL fails the slot and drops what is staged (R466, R477). -/
def Sys2Proof.Say.SlotsAreVerified : Prop :=
  ∀ (s : State) (chan : BitVec 6) (h : MbxReq) (rest : List MbxReq) (u : Update),
    let who := s.chanIdent chan.toNat
    (Say.asks s chan 0x42 h rest → zeroFrom h.word 1 = true → Who.isPF who = true → s.rider.update = some u →
      (s.slotState u.slot = US.receiving → s.allProgrammed u = true → ∃ t, exec (.updVerify chan) s = .next t ∧ Say.answers s t chan h rest Status.ok [] ∧
        t.slotState u.slot = US.verifying ∧ t.rider.update = some { u with verifying := true }) ∧
      (s.slotState u.slot ≠ US.receiving ∨ s.allProgrammed u = false → ∃ t, exec (.updVerify chan) s = .next t ∧
        Say.answers s t chan h rest Status.badArg [] ∧ t.rider.update = some u)) ∧
    (s.rider.pause = none → s.rider.update = some u → u.verifying = true →
      ((s.flashSlot u.slot).matches u.head u.chain = true → ∃ t, exec .updVerifyDone s = .next t ∧ t.slotState u.slot = US.verified ∧
        t.rider.update = none ∧ (t.flashSlot u.slot).header = u.head.take 2048) ∧
      ((s.flashSlot u.slot).matches u.head u.chain = false → ∃ t, exec .updVerifyDone s = .next t ∧ t.slotState u.slot = US.failed ∧
        t.rider.update = none ∧ t.flashSlot u.slot = s.flashSlot u.slot)) ∧
    (s.rider.update = some u → u.verifying = false → exec .updVerifyDone s = .next s) ∧
    (Say.asks s chan 0x45 h rest → zeroFrom h.word 1 = true → Who.isPF who = true → s.rider.update = some u →
      ∃ t, exec (.updCancel chan) s = .next t ∧ Say.answers s t chan h rest Status.ok [] ∧ t.slotState u.slot = US.failed ∧ t.rider.update = none)

/-- UPD_ACTIVATE that nothing refuses makes the inactive slot preferred and on trial, and but for NEXT_START begins a pause, of 5 ms at most (HITLESS,
answered when it ends) or 800 ms (FALLBACK, answered before), after which the rider runs from that slot; CONFIRM and 10 min of READY end the trial; 18 s
without READY give the slot up for the other (R467 to R470, R477). -/
def Sys2Proof.Say.SlotsAreActivatedOnTrial : Prop :=
  ∀ (s : State) (chan : BitVec 6) (h : MbxReq) (rest : List MbxReq),
    let who := s.chanIdent chan.toNat
    (Say.asks s chan 0x43 h rest → unusedZero h.word 3 2 = true → Who.isPF who = true →
      (∀ st, s.activateRefusal (h.word 1) = some st → ∃ t, exec (.updActivate chan) s = .next t ∧ Say.answers s t chan h rest st [] ∧
        t.running = s.running ∧ t.getF UPD_STAT.PREFERRED = s.getF UPD_STAT.PREFERRED) ∧
      (s.activateRefusal (h.word 1) = none → h.word 1 ≠ 2 ∨ rest = [] → ∃ t, exec (.updActivate chan) s = .next t ∧
        t.getF UPD_STAT.PREFERRED = s.inactive ∧ t.flag UPD_STAT.TRIAL = true ∧ t.running = s.running ∧
        (h.word 1 ≠ 1 → Say.answers s t chan h rest Status.ok []) ∧ (h.word 1 = 0 → t.rider.pause = none) ∧
        (h.word 1 = 1 → (t.chan chan.toNat).requests = { h with taken := true } :: rest ∧ t.flag RDR_STAT.PAUSED = true ∧
          ∃ ends, t.rider.pause = some ⟨ends, false, false, s.inactive, some (0, chan.toNat)⟩ ∧ s.clock ≤ ends ∧ ends ≤ s.clock + 5_000_000) ∧
        (h.word 1 = 2 → t.flag RDR_STAT.PAUSED = true ∧
          ∃ ends, t.rider.pause = some ⟨ends, true, false, s.inactive, none⟩ ∧ s.clock ≤ ends ∧ ends ≤ s.clock + 800_000_000))) ∧
    (∀ x, s.rider.pause = some x →
      (s.clock < x.ends ∨ s.held = true → s.endPause = s) ∧
      (x.ends ≤ s.clock → s.held = false → x.watchdog = false → x.slot < 2 →
        s.endPause.running = x.slot ∧ s.endPause.rider.pause = none ∧ s.endPause.flag RDR_STAT.PAUSED = false ∧
        (x.reply = some (0, chan.toNat) → (s.chan chan.toNat).requests = h :: rest → h.expired = false →
          Say.answers s s.endPause chan h rest Status.ok []))) ∧
    (Say.asks s chan 0x48 h rest → zeroFrom h.word 1 = true → Who.isPF who = true → ∃ t, exec (.confirm chan) s = .next t ∧
      Say.answers s t chan h rest Status.ok [] ∧ t.flag UPD_STAT.TRIAL = false ∧ t.getF UPD_STAT.PREFERRED = s.getF UPD_STAT.PREFERRED) ∧
    (s.rider.pause = none → s.onTrial = true → s.stage = Stage.ready → s.rider.trialSince + 600_000_000_000 ≤ s.clock → ∃ t, exec .trialConfirmTimer s = .next t ∧
      t.flag UPD_STAT.TRIAL = false ∧ t.running = s.running) ∧
    (s.onTrial = false ∨ s.clock < s.rider.trialSince + 600_000_000_000 → exec .trialConfirmTimer s = .next s) ∧
    (∀ t0, s.rider.pause = none → s.rst.busUp = some t0 → s.onTrial = true → s.power.readyAt = none → t0 + 18_000_000_000 ≤ s.clock →
      ∃ t, exec .trialReadyTimeout s = .next t ∧ t.flag UPD_STAT.TRIAL = false ∧ t.getF UPD_STAT.PREFERRED = 1 - s.running ∧
        ∃ ends, t.rider.pause = some ⟨ends, true, false, 1 - s.running, none⟩ ∧ s.clock ≤ ends ∧ ends ≤ s.clock + 800_000_000) ∧
    (s.onTrial = false → exec .trialReadyTimeout s = .next s)

/-- A changed setting is saved: the copy to be programmed is erased first, its sectors in the journal, and the other copy stands meanwhile; programmed, it is
the newest and holds the settings; UPD_STATUS, SET_READ, SET_RESET, DUMP_LIST and DUMP_READ answer a PF with what
the rider holds (R472, R477). -/
def Sys2Proof.Say.TheRiderAnswers : Prop :=
  ∀ (s : State) (chan : BitVec 6) (h : MbxReq) (rest : List MbxReq),
    let who := s.chanIdent chan.toNat
    let buf := addr2 h.word 2
    let buf4 := addr2 h.word 4
    let ns := min (h.word 1) (Config.imageSize 1)
    let nd := min (h.word 1) s.rst.dumps.length
    let nr := min (h.word 3) (dumpSize - h.word 2)
    let elsewhere := fun (t : State) (b n : Nat) => ∀ x, x < b ∨ b + n ≤ x → t.byte x = s.byte x
    ((match s.newestCopy with | some c => c.2.values | none => resetSettings) ≠ s.settings → s.settingsDue = true) ∧
    (s.rst.riderUp = true → s.rider.pause = none → s.settingsDue = true → s.rider.setErase = [] →
      (s.copyErased s.saveTo = true → ∃ t, exec .settingsSave s = .next t ∧ t.newestCopy.map (fun c => c.2.values) = some s.settings) ∧
      (s.copyErased s.saveTo = false → s.erasingNow.length ≤ 4 → ∃ t, exec .settingsSave s = .next t ∧ t.rider.setErase = copySectors s.saveTo ∧
        (∀ i ≠ s.saveTo, SMap.find? t.rider.copies i = SMap.find? s.rider.copies i) ∧
        ∀ x ∈ copySectors s.saveTo, ∃ j ∈ t.rider.journal, j.start = true ∧ j.sector = x ∧ s.rider.journalSeq ≤ j.seq)) ∧
    (s.rst.riderUp = false ∨ s.settingsDue = false → exec .settingsSave s = .next s) ∧
    (Who.isPF who = true →
      (Say.asks s chan 0x44 h rest → zeroFrom h.word 1 = true → ∃ t, exec (.updStatus chan) s = .next t ∧
        Say.answers s t chan h rest Status.ok (words2 (s.reg .UPD_STAT).toNat ++ words2 (s.reg .UPD_BUILD).toNat ++ [s.firstMissing])) ∧
      (Say.asks s chan 0x46 h rest → zeroFrom h.word 4 = true → ns = 0 ∨ s.bufStatus who buf ns false = none → ∃ t fmt,
        exec (.setRead chan) s = .next t ∧ Say.answers s t chan h rest Status.ok [Config.imageSize 1, fmt] ∧ elsewhere t buf ns) ∧
      (Say.asks s chan 0x47 h rest → zeroFrom h.word 1 = true → ∃ t, exec (.setReset chan) s = .next t ∧ Say.answers s t chan h rest Status.ok [] ∧
        t.rider.resetNext = true) ∧
      (Say.asks s chan 0x49 h rest → zeroFrom h.word 4 = true → nd = 0 ∨ s.bufStatus who buf (16 * nd) false = none → ∃ t,
        exec (.dumpList chan) s = .next t ∧ Say.answers s t chan h rest Status.ok [] ∧ elsewhere t buf (16 * nd) ∧
        (0 < nd → t.bytes buf (16 * nd) = ((upFrom 0 nd).zip s.rst.dumps).flatMap dumpEntry)) ∧
      (Say.asks s chan 0x4A h rest → zeroFrom h.word 6 = true → h.word 1 < s.rst.dumps.length → nr = 0 ∨ s.bufStatus who buf4 nr false = none → ∃ t,
        exec (.dumpRead chan) s = .next t ∧ Say.answers s t chan h rest Status.ok [nr] ∧ elsewhere t buf4 nr) ∧
      (Say.asks s chan 0x4A h rest → zeroFrom h.word 6 = true → s.rst.dumps.length ≤ h.word 1 → ∃ t, exec (.dumpRead chan) s = .next t ∧
        Say.answers s t chan h rest Status.badArg []))

/-- Over PLDM an OPERATOR session runs the same update: UpdateComponent begins it, the data pulled are blocks, TransferComplete starts the read-back and
ActivateFirmware activates; any other session's requests, and those in a pause of an activation (the model's choice, log entry 74), are answered with an
error (R475). -/
def Sys2Proof.Say.UpdatesRunFromTheManagementPort : Prop :=
  ∀ (s : State) (session : BitVec 2) (header data : List Byte) (offset : BitVec 32) (self_ : Bool) (u : Update),
    let n := session.toNat
    let done := fun (t : State) (code : Byte) => t.out.getLast? = some (.mgmt n [0x01, 0x00, 0x01, 0x00, code])
    let head := header.take 4096
    let chain := (header.drop (hdr header 36 4)).take (hdr header 40 4)
    (s.operatorOn n = false ∨ s.rider.pause.isSome = true → (∀ i ∈ [Instr.updateComponent session header, .transferComplete session, .activateFirmware session self_],
        ∃ t, exec i s = .next t ∧ done t 1 ∧ t.rider = s.rider ∧ t.reg .UPD_STAT = s.reg .UPD_STAT) ∧
      exec (.requestFirmwareData session offset data) s = .next s) ∧
    (s.operatorOn n = true → s.rider.pause = none →
      (s.flag UPD_STAT.TRIAL = false → s.rider.update = none → s.headerCheck head chain = none → ∃ t, exec (.updateComponent session header) s = .next t ∧
        done t 0 ∧ t.slotState s.inactive = US.erasing ∧ t.rider.update.map (fun u => (u.slot, u.head, u.chain)) = some (s.inactive, head, chain)) ∧
      (s.rider.update = some u → s.slotState u.slot ≠ US.erasing → blockGood u offset.toNat data.length = true →
        ∃ t, exec (.requestFirmwareData session offset data) s = .next t ∧ t.rider = (s.stageBlock u offset.toNat data).2.rider ∧
          t.getF UPD_STAT.LAST = (s.stageBlock u offset.toNat data).1) ∧
      (s.rider.update = some u → s.slotState u.slot = US.receiving → s.allProgrammed u = true → ∃ t, exec (.transferComplete session) s = .next t ∧
        done t 0 ∧ t.slotState u.slot = US.verifying) ∧
      (s.activateRefusal (b2n self_) = none → ∃ t, exec (.activateFirmware session self_) s = .next t ∧ done t 0 ∧
        t.getF UPD_STAT.PREFERRED = s.inactive ∧ t.flag UPD_STAT.TRIAL = true ∧ t.running = s.running ∧
        if self_ then ∃ ends, t.rider.pause = some ⟨ends, false, false, s.inactive, none⟩ ∧ s.clock ≤ ends ∧ ends ≤ s.clock + 5_000_000
        else t.rider.pause = none))

/-- While telemetry is enabled, each management session that has asked for it receives a frame once the period times the decimation has passed (R476). -/
def Sys2Proof.Say.TelemetryIsSent : Prop :=
  ∀ (s : State) (n : Nat) (m : MgmtSession),
    let ms := if s.getF RDR_TELE.PERIOD_MS = 0 then 100 else min 10_000 (s.getF RDR_TELE.PERIOD_MS)
    let next := s.rider.teleAt + ms * 2 ^ s.getF RDR_STAT.DECIM * 1_000_000
    let body := s.telemetry.flatMap fun w => leBytes 8 w.toNat
    (s.rider.pause = none → s.flag RDR_TELE.EN = true → next ≤ s.clock → ∃ t, exec .telemetryFrame s = .next t ∧ t.rider.teleAt = s.clock ∧
      (SMap.find? s.sec.mgmt n = some m → m.telemetry = true → (.mgmt n ([0x7E, 0x00] ++ leBytes 2 body.length ++ body) : Out) ∈ t.out)) ∧
    (s.rider.pause.isSome = true ∨ s.flag RDR_TELE.EN = false ∨ s.clock < next → exec .telemetryFrame s = .next s)


/-! ## The edge (14, 16, 18) -/

/-- ENTDAA gives the I3C target its dynamic address and RSTDAA takes it; with one, a valid BOARD_W is written and any other recorded, and a snapshot of energy is
taken; without one the target answers no write (R377, R394, R473). -/
def Sys2Proof.Say.TheI3cTargetAnswers : Prop :=
  ∀ (s : State) (addr : BitVec 7) (watts : BitVec 16),
    (∃ t, exec (.i3cEntdaa addr) s = .next t ∧ t = { s with edge := { s.edge with i3c := some addr.toNat } }) ∧
    (∃ t, exec .i3cRstdaa s = .next t ∧ t = { s with edge := { s.edge with i3c := none } }) ∧
    (s.edge.i3c = none → exec (.i3cBoardW watts) s = .next s ∧ exec .i3cSnapshot s = .next s) ∧
    (s.edge.i3c.isSome = true →
      (capValid watts.toNat = true → ∃ t, exec (.i3cBoardW watts) s = .next t ∧ t.getF PWC_CAP.BOARD_W = watts.toNat) ∧
      (capValid watts.toNat = false → ∃ t, exec (.i3cBoardW watts) s = .next t ∧ t.reg .PWC_CAP = s.reg .PWC_CAP) ∧
      ∃ t, exec .i3cSnapshot s = .next t ∧ t.getF PWC_DINT.SEQ = (s.getF PWC_DINT.SEQ + 1) % 65536 ∧
        t.getF PWC_DINT.LATEST = 1 - s.getF PWC_DINT.LATEST ∧ t.reg .PWC_SNAP (32 * (1 - s.getF PWC_DINT.LATEST)) = BitVec.ofNat 64 s.time)

/-- MOD_RST_N low for 1 ms asks for a power-off, at once or after a feed hold: every memory byte then reads zero and no core runs; high, it starts a module
that is off from a feed in spec; a shorter low does nothing (R483, R491). -/
def Sys2Proof.Say.ThePowerOffLine : Prop :=
  ∀ (s : State) (low : BitVec 64),
    (low.toNat < 1_000_000 → exec (.modRstAssert low) s = .next s) ∧
    (1_000_000 ≤ low.toNat →
      (s.rst.busUp = none → ∃ t, exec (.modRstAssert low) s = .next t ∧ t = { s with edge := { s.edge with off := true } }) ∧
      (s.rst.busUp.isSome = true → s.held = true → ∃ t, exec (.modRstAssert low) s = .next t ∧
        t = { s with edge := { s.edge with off := true, offDue := true } }) ∧
      (s.rst.busUp.isSome = true → s.held = false → ∃ t, exec (.modRstAssert low) s = .next t ∧ t.rst.busUp = none ∧ t.edge.off = true ∧
        t.edge.offDue = false ∧ t.core = {} ∧ ∀ a, t.byte a = 0)) ∧
    (s.edge.off = false → exec .modRstRelease s = .next s) ∧
    (s.edge.off = true →
      (s.rst.busUp = none → s.feedOk 0 = true ∨ s.feedOk 1 = true → ∃ t, exec .modRstRelease s = .next t ∧ t.edge.off = false ∧
        t.rst.busUp = some s.clock ∧ t.stage = Stage.riderBoot ∧ t.feedOk t.conducting = true) ∧
      (s.rst.busUp.isSome = true → ∃ t, exec .modRstRelease s = .next t ∧ t = { s with edge := { s.edge with off := false } }))

/-- A change of the slot straps after the rider has latched them sets SLOT_MOVED and leaves SLOT_BOOT; BYPASS shifts a 0 and IDCODE the module's; a boundary
scan runs with PRESENCE_N asserted and no partition bound alone (R482, R485). -/
def Sys2Proof.Say.StrapsAndTheTestPort : Prop :=
  ∀ (s : State) (straps : BitVec 6),
    (straps.toNat = s.getF TOP_PINS.SLOT_NOW → exec (.slotIdChange straps) s = .next s) ∧
    (straps.toNat ≠ s.getF TOP_PINS.SLOT_NOW → ∃ t, exec (.slotIdChange straps) s = .next t ∧ t.getF TOP_PINS.SLOT_NOW = straps.toNat ∧
      t.getF TOP_PINS.SLOT_BOOT = s.getF TOP_PINS.SLOT_BOOT ∧ (s.rst.riderUp = true → t.flag TOP_PINS.SLOT_MOVED = true)) ∧
    (∃ t, exec (.jtagInstruction .bypass) s = .next t ∧ t.out = s.out ++ [.jtag 0]) ∧
    (∃ t, exec (.jtagInstruction .idcode) s = .next t ∧ t.out = s.out ++ [.jtag (s.getF SEC_ID.STEP % 16 * 2 ^ 28 + 0x7141 * 2 ^ 12 + 0x2A9 * 2 + 1)]) ∧
    (s.present = true → s.anyBound = false → ∀ op ∈ [JtagOp.samplePreload, .extest], ∃ t, exec (.jtagInstruction op) s = .next t ∧
      t.out.length = s.out.length + 1 ∧ t.regs = s.regs) ∧
    (s.present = false ∨ s.anyBound = true → ∀ op ∈ [JtagOp.samplePreload, .extest], exec (.jtagInstruction op) s = .next s)

/-! ## The statements that are made of several -/

/-- The state after reset is sound and holds the reset values that the register tables give. -/
def Obligations.ResetIsSoundAsStated : Prop :=
  Say.ResetIsSound ∧
  Say.ResetLeavesTheStatedValues

/-- Fields of a register lie apart; a written field and written bytes read back and nothing else changes. -/
def Obligations.RegistersAndMemoryReadBack : Prop :=
  Say.RegisterFieldsDoNotOverlap ∧
  Say.FieldWriteReadsBack ∧
  Say.MemoryReadsBackWhatWasPut

/-- Scalar arithmetic, multiplication, predicates, event flags and control words have their results. Where the spec is silent it rests on the model's choices of log entries 17 and 19. -/
def Obligations.ScalarResults : Prop :=
  Say.ScalarArithmeticWritesRd ∧
  Say.ProductIsExact ∧
  Say.PredicateAndControlEffects

/-- Jumps and branches move the PC; what scalar instructions leave alone. Where the spec is silent it rests on the model's choices of log entry 17. -/
def Obligations.JumpsAndTheScalarFrame : Prop :=
  Say.JumpsAndBranchesMoveThePc ∧
  Say.ScalarInstructionFrame

/-- Loads check their address, take a place and return the bytes at it. Where the spec is silent it rests on the model's choices of log entries 4, 18 and 21. -/
def Obligations.LoadsCheckAndReturn : Prop :=
  Say.LoadsTakeAPlace ∧
  Say.AccessChecks ∧
  Say.LoadReturnsTheBytes

/-- Atomics read and write together; stores reach home; no other byte changes. Where the spec is silent it rests on the model's choices of log entries 20 and 21. -/
def Obligations.AtomicsAndStoresReachMemory : Prop :=
  Say.AtomicsReadAndWriteTogether ∧
  Say.AtomicFunctions ∧
  Say.StoresReachHome

/-- Batten instructions of cores read, change, test and wait; held changes apply in order. Where the spec is silent it rests on the model's choices of log entry 21. -/
def Obligations.BattensFromCores : Prop :=
  Say.HeldChangesApplyInOrder ∧
  Say.BattenInstructions ∧
  Say.BattenResultsReturn ∧
  Say.BattenWaitRegistersItsWatch

/-- Waits and fences end as their conditions come; caches fill; long forms are queued for the engines. Where the spec is silent it rests on the model's choices of log entries 20, 22 and 101. -/
def Obligations.WaitsFetchesAndLongForms : Prop :=
  Say.WaitsAndTraps ∧
  Say.InstructionCacheFills ∧
  Say.LongFormsAreQueued

/-- A core fault stops its core, idle, with the fault state recorded, by the causes' priority; reserved words fault. Where the spec is silent it rests on the model's choices of log entries 18, 24 and 101. -/
def Obligations.CoreFaultsStopTheCore : Prop :=
  Say.CoreFaultIsTaken ∧
  Say.ReservedWords ∧
  Say.FaultsOfOneClockAreRanked ∧
  Say.StoppedCoreIsIdleAndRecorded ∧
  Say.CausePriority

/-- A command at the head of an engine's queue runs, waits or is refused, and posts its flag. Where the spec is silent it rests on the model's choices of log entries 23 and 101. -/
def Obligations.EngineHeadsRunAndPost : Prop :=
  Say.EngineHeadRunsWaitsOrIsRefused ∧
  Say.RefusedCommandsFault ∧
  Say.EnginePostSetsItsFlag

/-- Matrix commands change every element as their rules say and write their bytes to scratch alone. Where the spec is silent it rests on the model's choices of log entries 23, 25 and 102. -/
def Obligations.MatrixCommands : Prop :=
  Say.MatrixCommandsChangeEveryElement ∧
  Say.MatrixCommandsWriteScratch

/-- Vector lanes, masks and reductions are computed; lanes off and other registers keep their values. Where the spec is silent it rests on the model's choices of log entries 27 and 28. -/
def Obligations.VectorLanesAndMasks : Prop :=
  Say.VectorLanesAreComputed ∧
  Say.VectorMasksAndReductions

/-- Vector loads, stores and conversions move and convert the lanes left on, and no other byte. Where the spec is silent it rests on the model's choices of log entries 26 and 27. -/
def Obligations.VectorMovesAndConversions : Prop :=
  Say.VectorLoadsAndStores ∧
  Say.VectorConversions

/-- DMA copies, fills, accumulations, puts, gets and signals start with what they are to write or send. Where the spec is silent it rests on the model's choices of log entries 30, 31 and 33. -/
def Obligations.DmaCommandsStart : Prop :=
  Say.LocalDmaStarts ∧
  Say.RemoteDmaStarts

/-- Accumulating writes are applied, and DMA commands complete with their writes or time out. Where the spec is silent it rests on the model's choices of log entries 24 and 30. -/
def Obligations.DmaCommandsEnd : Prop :=
  Say.AccumulatingWritesApply ∧
  Say.AccumulationAddsEachElement ∧
  Say.DmaCompletes ∧
  Say.DmaTimesOut

/-- A register write changes its register by its fields' access types; TOP_MSIZE has its own conditions. Where the spec is silent it rests on the model's choices of log entries 10 and 11. -/
def Obligations.RegisterWritesTakeEffect : Prop :=
  Say.WritesFollowTheAccessTypes ∧
  Say.RegisterWriteReachesItsRegister ∧
  Say.TopMsizeIsSetBeforeBinding

/-- The gauge is loaded, locked, wraps, is exchanged, and passes through its states. Where the spec is silent it rests on the model's choices of log entries 13 and 14. -/
def Obligations.TheGaugeFollowsItsParent : Prop :=
  Say.GaugeLoadStandsAtTheNextNanosecond ∧
  Say.GaugeLocksAndWraps ∧
  Say.TimeExchange ∧
  Say.RepliesSteerTheGauge ∧
  Say.HoldoverEndsAndTimeIsReacquired

/-- Course boundaries are counted; a change of course length is armed, cancelled and made. Where the spec is silent it rests on the model's choices of log entries 15 and 16. -/
def Obligations.CoursesAreCountedAndChanged : Prop :=
  Say.CourseBoundaryCounts ∧
  Say.CourseLengthChanges

/-- Host operations change one batten; a met watch wakes its waiter. Where the spec is silent it rests on the model's choices of log entry 4. -/
def Obligations.BattensFromTheHost : Prop :=
  Say.HostBattenOperations ∧
  Say.BattenWatchesWake

/-- Queues are enabled and disabled; doorbells, flushes and cancels take effect. Where the spec is silent it rests on the model's choices of log entries 11 and 32. -/
def Obligations.QueuesTakeTheirWrites : Prop :=
  Say.QueuesAreEnabledAndDisabled ∧
  Say.DoorbellsFlushesAndCancels

/-- Work items become tasks on cores, tasks finish with their completions, shadows are written. Where the spec is silent it rests on the model's choices of log entry 33. -/
def Obligations.WorkRunsAndCompletes : Prop :=
  Say.WorkItemsBecomeTasks ∧
  Say.TasksFinishOrTimeOut ∧
  Say.CompletionsAndShadows

/-- Anchor windows and the interleave are set; PLACE lays objects out. Where the spec is silent it rests on the model's choices of log entries 10 and 47. -/
def Obligations.MemoryIsLaidOut : Prop :=
  Say.WindowsAndInterleave ∧
  Say.PlaceLaysObjectsOut

/-- Lanes carry the stream in codewords; flits are accepted in order, sent one at a boundary, and carry every bit of a packet. Where the spec is silent it rests on the model's choices of log entries 34 and 96. -/
def Obligations.FlitsCarryPackets : Prop :=
  Say.LanesCarryTheStream ∧
  Say.CodewordsAreCounted ∧
  Say.FlitsAreAcceptedInOrder ∧
  Say.PacketBytesRoundTrip ∧
  Say.FlitBoundarySendsOneFlit

/-- Link messages are taken; peers are told of link states once. Where the spec is silent it rests on the model's choices of log entries 34 and 38. -/
def Obligations.LinkMessagesAndStates : Prop :=
  Say.LinkMessagesAreTaken ∧
  Say.LinkStatesAreTold

/-- Strands train stage by stage, fail and restart, follow their controls, and spare failed lanes. Where the spec is silent it rests on the model's choices of log entries 35, 36 and 37. -/
def Obligations.StrandsTrainAndAreSpared : Prop :=
  Say.TrainingAdvances ∧
  Say.TrainingFailsAndRestarts ∧
  Say.StageBudgets ∧
  Say.StrandControls ∧
  Say.LaneSparing

/-- Route sets and schedule entries are checked; bank swaps happen at their time. Where the spec is silent it rests on the model's choices of log entries 10 and 11. -/
def Obligations.RoutesAndSchedules : Prop :=
  Say.RouteSetsAreValidated ∧
  Say.ScheduleEntriesAreValidated ∧
  Say.BankSwapsHappenAtTheirTime

/-- A sealed packet opens; the receive checks drop what fails them; packets take their turn. Where the spec is silent it rests on the model's choices of log entries 39, 40 and 94. -/
def Obligations.PacketsAreSealedAndChecked : Prop :=
  Say.GcmOpensWhatItSealed ∧
  Say.ReceiveChecksDropPackets ∧
  Say.PacketsTakeTheirTurn

/-- PUT packets land, signals add, held writes wait and land. Where the spec is silent it rests on the model's choices of log entries 39 and 41. -/
def Obligations.RemoteWritesLand : Prop :=
  Say.PutPacketsLand ∧
  Say.SignalsAddToTheirBatten ∧
  Say.HeldWritesWaitAndLand

/-- GETs are answered, answers complete their commands, packets for others are forwarded. Where the spec is silent it rests on the model's choices of log entries 31 and 41. -/
def Obligations.RemoteReadsAndForwarding : Prop :=
  Say.GetsAreAnswered ∧
  Say.AnswersComplete ∧
  Say.PacketsAreForwarded

/-- Groups are checked; trigger slots are armed, triggered and shake hands; stray packets are counted. Where the spec is silent it rests on the model's choices of log entries 11, 39 and 42. -/
def Obligations.CollectiveSlotsAreMadeReady : Prop :=
  Say.GroupsAreValidated ∧
  Say.SlotsAreArmedAndDisarmed ∧
  Say.TriggersAreMet ∧
  Say.StrayPacketsAreCounted ∧
  Say.HandshakesComplete

/-- Slots launch at their boundary, resend, complete, rearm or time out. Where the spec is silent it rests on the model's choices of log entry 44. -/
def Obligations.CollectiveSlotsRun : Prop :=
  Say.SlotsLaunchAtTheirBoundary ∧
  Say.ResendsAreCounted ∧
  Say.SlotsCompleteOrTimeOut

/-- Broadcast yelms land; the junction combines contributions in rank order. Where the spec is silent it rests on the model's choices of log entries 42, 43 and 44. -/
def Obligations.CollectiveDataLands : Prop :=
  Say.BroadcastYelmsLand ∧
  Say.ContributionsAreCombined ∧
  Say.TheJunctionAddsContributions

/-- Functions reach memory through their apertures within their grants; owners are set. Where the spec is silent it rests on the model's choices of log entries 12 and 98. -/
def Obligations.AperturesAndOwners : Prop :=
  Say.AperturesReachMemory ∧
  Say.AFunctionInErrorReachesNothing ∧
  Say.OwnersAndApertures

/-- Copy descriptors run, functions are reset, interrupts merge and are masked, host pages are served. Where the spec is silent it rests on the model's choices of log entries 9, 12, 45, 97 and 98. -/
def Obligations.FunctionsCopyInterruptAndReset : Prop :=
  Say.CopiesRun ∧
  Say.FunctionsAreReset ∧
  Say.MergedInterruptsGoOut ∧
  Say.HostPagesAreServed

/-- Mailbox channels carry messages, are locked, time out and are answered. Where the spec is silent it rests on the model's choices of log entries 46 and 98. -/
def Obligations.ChannelsAndTheirAnswers : Prop :=
  Say.ChannelsCarryMessages ∧
  Say.ChannelLocks ∧
  Say.RequestsAreAnswered

/-- Encoded granules decode, one failing die or bit is corrected, dies are erased and marked, SRAM errors are met. Where the spec is silent it rests on the model's choices of log entries 51 and 99. -/
def Obligations.StoredDataIsCorrected : Prop :=
  Say.EncodedGranulesDecode ∧
  Say.OneDieIsCorrected ∧
  Say.OneBitIsCorrectedAndTwoAreFound ∧
  Say.SramErrorsAreMet ∧
  Say.DiesAreErasedAndMarked

/-- Merge entries are written back, rows repaired, granules scrubbed; the pattern test zeroes memory. Where the spec is silent it rests on the model's choices of log entries 48, 49, 50 and 100. -/
def Obligations.StoredDataIsScrubbed : Prop :=
  Say.WriteBacksAndRowRepairs ∧
  Say.ScrubbingMendsOrPoisons ∧
  Say.ScrubbersRest ∧
  Say.ThePatternTestZeroesMemory

/-- A failed cistern takes the module OFFLINE; the error log and raw granules are read. Where the spec is silent it rests on the model's choices of log entries 48, 52 and 103. -/
def Obligations.ErrorsAreKeptAndRead : Prop :=
  Say.FailedCisternsTakeTheModuleOffline ∧
  Say.TheErrorLogIsRead ∧
  Say.RawAccess

/-- Pilots carry claims; feeds switch over, return, and a lost supply stops the module. Where the spec is silent it rests on the model's choices of log entry 54. -/
def Obligations.FeedsSwitchAndReturn : Prop :=
  Say.PilotsCarryClaims ∧
  Say.FeedsSwitchOver ∧
  Say.LoadsReturnAndHoldsEnd

/-- Caps are applied, the limiter and control intervals hold power, heat throttles and trips. Where the spec is silent it rests on the model's choices of log entries 11, 55, 56, 57 and 58. -/
def Obligations.PowerIsLimited : Prop :=
  Say.CapsAreWrittenAndApplied ∧
  Say.TheFastLimiter ∧
  Say.ControlIntervalsSetPoints ∧
  Say.HeatThrottlesAndTrips

/-- Energy is divided exactly over partitions, shown and answered. Where the spec is silent it rests on the model's choices of log entries 53 and 56. -/
def Obligations.EnergyIsCounted : Prop :=
  Say.EnergyIsDividedExactly ∧
  Say.EnergyIsShown ∧
  Say.PowerCommandsAnswer

/-- SPDM requests are answered; sessions are opened and ended; keys are delivered in them. Where the spec is silent it rests on the model's choices of log entries 62, 63 and 64. -/
def Obligations.SpdmAndItsSessions : Prop :=
  Say.SpdmAnswers ∧
  Say.SessionsAreOpenedAndEnded ∧
  Say.KeysAreDelivered

/-- Key slots advance and are dropped; sealed weights open onto their partition. Where the spec is silent it rests on the model's choices of log entries 60 and 61. -/
def Obligations.KeysAndSealedWeights : Prop :=
  Say.KeySlotsAdvanceAndGo ∧
  Say.BlobsAreUnsealed

/-- Partitions are bound by the checks, leave nothing behind, and VFs pass the TDISP states. Where the spec is silent it rests on the model's choices of log entries 59 and 65. -/
def Obligations.TenantsAreKeptApart : Prop :=
  Say.PartitionsAreBound ∧
  Say.ClearingLeavesNothing ∧
  Say.TdispStates

/-- The module's own keys, management sessions and operations under physical presence. Where the spec is silent it rests on the model's choices of log entries 66, 67, 68, 69, 70 and 103. -/
def Obligations.TheModulesOwnSecurity : Prop :=
  Say.KeysAndSessionsOfTheModule ∧
  Say.ManagementMessages ∧
  Say.PresenceOperations

/-- The module starts, checks consistency, starts its slates in waves and checks its topology. Where the spec is silent it rests on the model's choices of log entries 82, 83, 84, 85 and 100. -/
def Obligations.TheModuleComesUp : Prop :=
  Say.TheModuleStarts ∧
  Say.ConsistencyIsChecked ∧
  Say.SlatesStartInWaves ∧
  Say.TheTopologyIsChecked

/-- Partition and compute resets run to their end; reset commands are answered. Where the spec is silent it rests on the model's choices of log entry 86. -/
def Obligations.ResetsRunAndAnswer : Prop :=
  Say.PartitionsAreReset ∧
  Say.TheModuleIsReset ∧
  Say.ResetCommandsAnswer

/-- Aborts stop a job, spread and end; what does not quiesce escalates. Where the spec is silent it rests on the model's choices of log entries 87 and 88. -/
def Obligations.AbortsAndEscalation : Prop :=
  Say.AnAbortStopsItsJob ∧
  Say.AbortsSpreadAndEnd ∧
  Say.SupervisionEscalates

/-- The rider sheds load, is watched, sends telemetry, saves settings and answers. Where the spec is silent it rests on the model's choices of log entries 76 and 77. -/
def Obligations.TheRiderServes : Prop :=
  Say.RiderLoadAndWatchdog ∧
  Say.TelemetryIsSent ∧
  Say.TheRiderAnswers

/-- Updates begin, erase, stage, program and verify the inactive slot. Where the spec is silent it rests on the model's choices of log entries 71, 72, 73 and 74. -/
def Obligations.UpdatesAreReceivedAndVerified : Prop :=
  Say.SlotsAreErasedAndProgrammed ∧
  Say.UpdatesBegin ∧
  Say.BlocksAreStaged ∧
  Say.SlotsAreVerified

/-- A verified slot is activated on trial; the management port runs the same update. Where the spec is silent it rests on the model's choices of log entries 74, 75 and 77. -/
def Obligations.UpdatesAreActivatedOnTrial : Prop :=
  Say.SlotsAreActivatedOnTrial ∧
  Say.UpdatesRunFromTheManagementPort

/-- The I3C target, the power-off line, the slot straps and the test port. Where the spec is silent it rests on the model's choices of log entries 78, 79, 80 and 81. -/
def Obligations.TheEdge : Prop :=
  Say.TheI3cTargetAnswers ∧
  Say.ThePowerOffLine ∧
  Say.StrapsAndTheTestPort

end Statements
end

