-- ==== Sys2Proof/Laws/Map.lean ====
section
/-!
SUPPORT. Laws/Map.lean: the laws of the sparse maps: a read after a write, and the canonical form that every write keeps.
-/
namespace Sys2Proof.SMap

variable {α : Type}

@[simp] theorem find?_nil (x : Nat) : SMap.find? ([] : SMap α) x = none := rfl

@[simp] theorem find?_insert_same (m : SMap α) (x : Nat) (v : α) : SMap.find? (SMap.insert m x v) x = some v := by
  induction m with
  | nil => simp [SMap.insert, SMap.find?]
  | cons e m ih => obtain ⟨k, w⟩ := e; simp only [SMap.insert]; split_ifs <;> simp_all [SMap.find?]

theorem find?_insert_ne (m : SMap α) {x y : Nat} (v : α) (h : y ≠ x) : SMap.find? (SMap.insert m x v) y = SMap.find? m y := by
  induction m with
  | nil => simp [SMap.insert, SMap.find?, h]
  | cons e m ih => obtain ⟨k, w⟩ := e; simp only [SMap.insert]; split_ifs <;> simp_all [SMap.find?]

@[simp] theorem find?_erase_same (m : SMap α) (x : Nat) : SMap.find? (SMap.erase m x) x = none := by
  induction m with
  | nil => rfl
  | cons e m ih =>
    obtain ⟨k, w⟩ := e
    simp only [SMap.erase, List.filter_cons] at ih ⊢
    by_cases hk : k = x
    · simpa [hk] using ih
    · simpa [hk, SMap.find?, Ne.symm hk] using ih

theorem find?_erase_ne (m : SMap α) {x y : Nat} (h : y ≠ x) : SMap.find? (SMap.erase m x) y = SMap.find? m y := by
  induction m with
  | nil => rfl
  | cons e m ih =>
    obtain ⟨k, w⟩ := e
    simp only [SMap.erase, List.filter_cons] at ih ⊢
    by_cases hk : k = x
    · simpa [hk, SMap.find?, h] using ih
    · by_cases hy : y = k <;> simp [hk, SMap.find?, hy, ih]

@[simp] theorem get_insert_same (d : α) (m : SMap α) (x : Nat) (v : α) : SMap.get d (SMap.insert m x v) x = v := by simp [SMap.get]

theorem get_insert_ne (d : α) (m : SMap α) {x y : Nat} (v : α) (h : y ≠ x) : SMap.get d (SMap.insert m x v) y = SMap.get d m y := by
  simp [SMap.get, find?_insert_ne m v h]

@[simp] theorem get_put_same [DecidableEq α] (d : α) (m : SMap α) (x : Nat) (v : α) : SMap.get d (SMap.put d m x v) x = v := by
  unfold SMap.put; split <;> simp_all [SMap.get]

theorem find?_put_ne [DecidableEq α] (d : α) (m : SMap α) {x y : Nat} (v : α) (h : y ≠ x) :
    SMap.find? (SMap.put d m x v) y = SMap.find? m y := by
  unfold SMap.put; split
  · exact find?_erase_ne m h
  · exact find?_insert_ne m v h

theorem get_put_ne [DecidableEq α] (d e : α) (m : SMap α) {x y : Nat} (v : α) (h : y ≠ x) :
    SMap.get e (SMap.put d m x v) y = SMap.get e m y := by
  simp [SMap.get, find?_put_ne d m v h]

/-! ### The canonical form -/

/-- The keys rise strictly: the form that `risingFrom` computes, as a relation between all pairs. -/
theorem risingFrom_some (b : Nat) (m : SMap α) :
    SMap.risingFrom (some b) m = true ↔ (∀ e ∈ m, b < e.1) ∧ m.Pairwise fun e f => e.1 < f.1 := by
  induction m generalizing b with
  | nil => simp [SMap.risingFrom]
  | cons e m ih =>
    obtain ⟨k, w⟩ := e
    simp only [SMap.risingFrom, Bool.and_eq_true, decide_eq_true_eq, ih, List.mem_cons, List.pairwise_cons, forall_eq_or_imp]
    constructor
    · rintro ⟨h1, h2, h3⟩; exact ⟨⟨h1, fun e he => lt_trans h1 (h2 e he)⟩, h2, h3⟩
    · rintro ⟨⟨h1, -⟩, h2, h3⟩; exact ⟨h1, h2, h3⟩

theorem risingFrom_none (m : SMap α) : SMap.risingFrom none m = true ↔ m.Pairwise fun e f => e.1 < f.1 := by
  cases m with
  | nil => simp [SMap.risingFrom]
  | cons e m => obtain ⟨k, w⟩ := e; simp [SMap.risingFrom, risingFrom_some]

theorem mem_insert {m : SMap α} {x : Nat} {v : α} {e : Nat × α} (h : e ∈ SMap.insert m x v) : e = (x, v) ∨ e ∈ m := by
  induction m with
  | nil => simpa [SMap.insert] using h
  | cons f m ih =>
    obtain ⟨k, w⟩ := f; simp only [SMap.insert] at h; split_ifs at h <;> simp at h ⊢ <;> tauto

/-- An insertion keeps the keys rising. -/
theorem rising_insert {m : SMap α} (x : Nat) (v : α) (h : m.Pairwise fun e f => e.1 < f.1) :
    (SMap.insert m x v).Pairwise fun e f => e.1 < f.1 := by
  induction m with
  | nil => simp [SMap.insert]
  | cons f m ih =>
    obtain ⟨k, w⟩ := f
    obtain ⟨h1, h2⟩ := List.pairwise_cons.1 h
    simp only [SMap.insert]
    split_ifs with hk hlt
    · subst hk; exact List.pairwise_cons.2 ⟨h1, h2⟩
    · refine List.pairwise_cons.2 ⟨fun e he => ?_, h⟩
      rcases List.mem_cons.1 he with rfl | he
      · exact hlt
      · exact lt_trans hlt (h1 e he)
    · refine List.pairwise_cons.2 ⟨fun e he => ?_, ih h2⟩
      rcases mem_insert he with rfl | he
      · simp; omega
      · exact h1 e he

/-- The canonical form for a default that depends on the key: the keys rise strictly, and no listed value is its key's default. -/
def Canon (d : Nat → α) (m : SMap α) : Prop := (m.Pairwise fun e f => e.1 < f.1) ∧ ∀ e ∈ m, e.2 ≠ d e.1

theorem wf_iff [DecidableEq α] (d : α) (m : SMap α) : SMap.wf d m = true ↔ Canon (fun _ => d) m := by
  simp [SMap.wf, Canon, risingFrom_none]

theorem Canon.nil (d : Nat → α) : Canon d [] := ⟨List.Pairwise.nil, by simp⟩

theorem Canon.filter {d : Nat → α} {m : SMap α} (p : Nat × α → Bool) (h : Canon d m) : Canon d (m.filter p) :=
  ⟨h.1.sublist List.filter_sublist, fun e he => h.2 e (List.mem_filter.1 he).1⟩

theorem Canon.insert {d : Nat → α} {m : SMap α} {x : Nat} {v : α} (h : Canon d m) (hv : v ≠ d x) : Canon d (SMap.insert m x v) :=
  ⟨rising_insert x v h.1, fun e he => by rcases mem_insert he with rfl | he; exacts [hv, h.2 e he]⟩

theorem Canon.put [DecidableEq α] {d : Nat → α} {m : SMap α} {x : Nat} (v : α) (h : Canon d m) : Canon d (SMap.put (d x) m x v) := by
  unfold SMap.put; split
  · exact h.filter _
  · exact h.insert ‹_›

/-- Entries listed again under other keys. -/
theorem Canon.relist {d : α} (g : Nat × α → Nat) {l : SMap α} (hl : ∀ e ∈ l, e.2 ≠ d) {m : SMap α} (hm : Canon (fun _ => d) m) :
    Canon (fun _ => d) (l.foldl (fun (m : SMap α) (e : Nat × α) => SMap.insert m (g e) e.2) m) := by
  induction l generalizing m with
  | nil => exact hm
  | cons e l ih => exact ih (fun f hf => hl f (List.mem_cons_of_mem _ hf)) (hm.insert (hl e List.mem_cons_self))

end Sys2Proof.SMap
end

