-- ==== Sys2Proof/Laws/Registers.lean ====
section
/-!
SUPPORT. Laws/Registers.lean: the laws of the register file: keys are injective, a field reads what was last written to it, and no
write of one register, index or field shows in another.
-/
namespace Sys2Proof
open Sys2Proof.Machine

theorem Reg.num_lt (r : Reg) : r.num < 256 := by cases r <;> decide

theorem Reg.all_num (r : Reg) : Reg.all.getD r.num .TOP_MSIZE = r := by cases r <;> rfl

theorem Reg.num_inj {r q : Reg} (h : r.num = q.num) : r = q := by rw [← Reg.all_num r, h, Reg.all_num q]

theorem Reg.key_inj {r q : Reg} {i j : Nat} : r.key i = q.key j ↔ r = q ∧ i = j := by
  constructor
  · intro h
    have hr := Reg.num_lt r
    have hq := Reg.num_lt q
    simp only [Reg.key] at h
    have hn : r.num = q.num := by omega
    exact ⟨Reg.num_inj hn, by omega⟩
  · rintro ⟨rfl, rfl⟩; rfl

theorem Reg.resetAt_key (r : Reg) (i : Nat) : Reg.resetAt (r.key i) = r.reset i := by
  have hr := Reg.num_lt r
  have h1 : (i * 256 + r.num) % 256 = r.num := by omega
  have h2 : (i * 256 + r.num) / 256 = i := by omega
  simp only [Reg.resetAt, Reg.ofKey, Reg.key, h1, h2, Reg.all_num]

namespace Machine

@[simp] theorem State.reg_setReg_same (s : State) (r : Reg) (i : Nat) (v : Word) : (s.setReg r i v).reg r i = v := by
  have := SMap.get_put_same (r.reset i) s.regs (r.key i) v
  simpa [State.reg, State.setReg, SMap.get] using this

theorem State.reg_setReg_ne (s : State) {r q : Reg} {i j : Nat} (v : Word) (h : ¬(q = r ∧ j = i)) :
    (s.setReg r i v).reg q j = s.reg q j := by
  have := SMap.find?_put_ne (r.reset i) s.regs v (fun e : q.key j = r.key i => h (Reg.key_inj.1 e))
  simp [State.reg, State.setReg, this]

end Machine

/-! ### Fields of a word -/

theorem testBit_setField (v lo w x i : Nat) :
    (natSetField v lo w x).testBit i = if lo ≤ i ∧ i < lo + w then x.testBit (i - lo) else v.testBit i := by
  have e1 : v = 2 ^ lo * (v / 2 ^ lo) + v % 2 ^ lo := (Nat.div_add_mod v (2 ^ lo)).symm
  set a := v / 2 ^ lo with ha
  set b := v % 2 ^ lo with hb
  have hblt : b < 2 ^ lo := Nat.mod_lt _ (by positivity)
  have e2 : a = 2 ^ w * (a / 2 ^ w) + a % 2 ^ w := (Nat.div_add_mod a (2 ^ w)).symm
  set c := a / 2 ^ w with hc
  set d := a % 2 ^ w with hd
  have hd' : d < 2 ^ w := Nat.mod_lt _ (by positivity)
  have hf : natField v lo w = d := by simp [natField, Nat.shiftRight_eq_div_pow, ← ha, hd]
  have hx : x % 2 ^ w < 2 ^ w := Nat.mod_lt _ (by positivity)
  have key : natSetField v lo w x = 2 ^ lo * (2 ^ w * c + x % 2 ^ w) + b := by
    unfold natSetField; rw [hf]
    have : v = 2 ^ lo * (2 ^ w * c) + d * 2 ^ lo + b := by rw [e1, e2]; ring
    rw [this]
    have : 2 ^ lo * (2 ^ w * c) + d * 2 ^ lo + b - d * 2 ^ lo = 2 ^ lo * (2 ^ w * c) + b := by omega
    rw [this]; ring
  have hv : v = 2 ^ lo * (2 ^ w * c + d) + b := by rw [e1, e2]
  rw [key, Nat.testBit_two_pow_mul_add _ hblt]
  conv_rhs => rw [hv, Nat.testBit_two_pow_mul_add _ hblt]
  rw [Nat.testBit_two_pow_mul_add _ hx, Nat.testBit_two_pow_mul_add _ hd']
  by_cases h1 : i < lo
  · simp [h1, Nat.not_le.2 h1]
  · by_cases h2 : i - lo < w
    · have : lo ≤ i ∧ i < lo + w := by omega
      simp [h1, h2, this, Nat.testBit_mod_two_pow]
    · have : ¬(lo ≤ i ∧ i < lo + w) := by omega
      simp [h1, h2, this]

theorem testBit_field (v lo w i : Nat) : (natField v lo w).testBit i = (decide (i < w) && v.testBit (lo + i)) := by
  simp [natField, Nat.testBit_mod_two_pow, Nat.testBit_shiftRight]

theorem field_setField_same (v lo w x : Nat) : natField (natSetField v lo w x) lo w = x % 2 ^ w := by
  apply Nat.eq_of_testBit_eq; intro i
  rw [testBit_field, testBit_setField, Nat.testBit_mod_two_pow]
  by_cases h : i < w <;> simp [h]

theorem field_setField_disjoint {v lo w x lo' w' : Nat} (h : lo' + w' ≤ lo ∨ lo + w ≤ lo') :
    natField (natSetField v lo w x) lo' w' = natField v lo' w' := by
  apply Nat.eq_of_testBit_eq; intro i
  rw [testBit_field, testBit_field, testBit_setField]
  by_cases hi : i < w'
  · have : ¬(lo ≤ lo' + i ∧ lo' + i < lo + w) := by omega
    simp [hi, this]
  · simp [hi]

theorem setField_lt {v lo w x n : Nat} (hv : v < 2 ^ n) (h : lo + w ≤ n) : natSetField v lo w x < 2 ^ n := by
  apply Nat.lt_pow_two_of_testBit
  intro i hi
  rw [testBit_setField]
  have : ¬(lo ≤ i ∧ i < lo + w) := by omega
  simp [this, Nat.testBit_lt_two_pow (lt_of_lt_of_le hv (Nat.pow_le_pow_right (by decide) hi))]

/-- A field lies within its word. -/
def Fld.fits (f : Fld) : Prop := f.lo + f.w ≤ 64

namespace Machine

theorem State.getF_lt (s : State) (f : Fld) (i : Nat) : s.getF f i < 2 ^ f.w := by
  simpa [State.getF, field, natField] using Nat.mod_lt _ (by positivity)

theorem State.toNat_setWord (s : State) {f : Fld} (hf : f.fits) (i v : Nat) :
    (BitVec.ofNat 64 (natSetField (s.reg f.reg (Fld.at f i)).toNat f.lo f.w v)).toNat =
      natSetField (s.reg f.reg (Fld.at f i)).toNat f.lo f.w v :=
  Nat.mod_eq_of_lt (setField_lt (BitVec.isLt _) hf)

/-- A field reads what was written to it, cut to its width. -/
theorem State.getF_setF_same (s : State) {f : Fld} (hf : f.fits) (i v : Nat) : (s.setF f i v).getF f i = v % 2 ^ f.w := by
  simp only [State.getF, State.setF, State.reg_setReg_same, field, s.toNat_setWord hf, field_setField_same]

/-- A write of a field does not show in another word. -/
theorem State.getF_setF_word (s : State) {f g : Fld} {i j : Nat} (v : Nat) (h : ¬(g.reg = f.reg ∧ Fld.at g j = Fld.at f i)) :
    (s.setF f i v).getF g j = s.getF g j := by
  simp only [State.getF, State.setF, State.reg_setReg_ne s _ h]

/-- A write of a field does not show in another field of its word. -/
theorem State.getF_setF_field (s : State) {f g : Fld} (hf : f.fits) {i j : Nat} (v : Nat)
    (h : g.lo + g.w ≤ f.lo ∨ f.lo + f.w ≤ g.lo) : (s.setF f i v).getF g j = s.getF g j := by
  by_cases hw : g.reg = f.reg ∧ Fld.at g j = Fld.at f i
  · simp only [State.getF, State.setF, hw.1, hw.2, State.reg_setReg_same, field, s.toNat_setWord hf, field_setField_disjoint h]
  · exact s.getF_setF_word v hw

theorem State.reg_setF_ne (s : State) {f : Fld} {q : Reg} {i j : Nat} (v : Nat) (h : ¬(q = f.reg ∧ j = Fld.at f i)) :
    (s.setF f i v).reg q j = s.reg q j := s.reg_setReg_ne _ h

end Machine
end Sys2Proof
end

