-- ==== Sys2Proof/Laws/Keeps.lean ====
section
/-!
SUPPORT. Laws/Keeps.lean: the relation `Keeps` between a state and a later one: the queue is the same, and every part of
`Safety.Sound` is handed on. It is what every operation of the model does; its lemmas follow file by file.
-/
namespace Sys2Proof.Laws
open Sys2Proof.Machine

/-- The register file in canonical form. -/
def RegsCanon (m : SMap Word) : Prop := SMap.Canon Reg.resetAt m

/-- From `s0` to `s` the queue stays, and each part of `Safety.Sound` is handed on. -/
structure Keeps (s0 s : State) : Prop where
  pending : s.pending = s0.pending
  mem : SMap.Canon (fun _ => (0 : Byte)) s0.mem → SMap.Canon (fun _ => 0) s.mem
  poison : SMap.Canon (fun _ => false) s0.poison → SMap.Canon (fun _ => false) s.poison
  regs : RegsCanon s0.regs → RegsCanon s.regs
  log : s0.store.log.length ≤ 4096 → s.store.log.length ≤ 4096
  dumps : s0.rst.dumps.length ≤ 16 → s.rst.dumps.length ≤ 16

/-- The same of an outcome: of the next state, where there is one. -/
structure KeepsO (s0 : State) (o : Host.Outcome State Fault Refusal) : Prop where
  next : ∀ t, o = .next t → Keeps s0 t

theorem sound_iff (s : State) : Safety.Sound s ↔
    SMap.Canon (fun _ => (0 : Byte)) s.mem ∧ SMap.Canon (fun _ => false) s.poison ∧ RegsCanon s.regs ∧
      s.store.log.length ≤ 4096 ∧ s.rst.dumps.length ≤ 16 := by
  simp [Safety.Sound, Safety.memoryWf, Safety.poisonWf, Safety.regsWf, Safety.logFits, Safety.dumpsFit, SMap.wf_iff, RegsCanon,
    SMap.Canon, SMap.risingFrom_none]

variable {s0 s : State}

theorem Keeps.refl (s : State) : Keeps s s := ⟨rfl, id, id, id, id, id⟩

theorem Keeps.trans {t : State} (h : Keeps s0 s) (k : Keeps s t) : Keeps s0 t :=
  ⟨k.pending.trans h.pending, k.mem ∘ h.mem, k.poison ∘ h.poison, k.regs ∘ h.regs, k.log ∘ h.log, k.dumps ∘ h.dumps⟩

/-- What `Keeps` hands on. -/
theorem Keeps.sound (k : Keeps s0 s) (h : Safety.Sound s0) : Safety.Sound s := by
  rw [sound_iff] at h ⊢
  exact ⟨k.mem h.1, k.poison h.2.1, k.regs h.2.2.1, k.log h.2.2.2.1, k.dumps h.2.2.2.2⟩

/-! ### How a state is made -/

theorem keepsO_next (h : Keeps s0 s) : KeepsO s0 (.next s) := ⟨fun _ e => by cases e; exact h⟩

/-- A value that is kept may be taken for any kept state. -/
theorem keeps_cut (s0 x : State) {P : Prop} (h1 : Keeps s0 x) (h2 : Keeps s0 x → P) : P := h2 h1

theorem keeps_ite {c : Prop} [Decidable c] {a b : State} (ha : Keeps s0 a) (hb : Keeps s0 b) : Keeps s0 (if c then a else b) := by
  split <;> assumption

theorem keeps_foldl {β : Type*} {f : State → β → State} {l : List β} {s : State} (hf : ∀ s x, Keeps s0 s → Keeps s0 (f s x))
    (h : Keeps s0 s) : Keeps s0 (l.foldl f s) := by
  induction l generalizing s with
  | nil => exact h
  | cons x l ih => exact ih (hf s x h)

theorem keeps_foldl_fst {β γ : Type*} {f : State × γ → β → State × γ} {l : List β} {p : State × γ}
    (hf : ∀ p x, Keeps s0 p.1 → Keeps s0 (f p x).1) (h : Keeps s0 p.1) : Keeps s0 (l.foldl f p).1 := by
  induction l generalizing p with
  | nil => exact h
  | cons x l ih => exact ih (hf p x h)

theorem keeps_foldl_snd {β γ : Type*} {f : γ × State → β → γ × State} {l : List β} {p : γ × State}
    (hf : ∀ p x, Keeps s0 p.2 → Keeps s0 (f p x).2) (h : Keeps s0 p.2) : Keeps s0 (l.foldl f p).2 := by
  induction l generalizing p with
  | nil => exact h
  | cons x l ih => exact ih (hf p x h)

theorem keeps_of_snd {β : Type*} {p : β × State} {a : β} {t : State} (e : p = (a, t)) (h : Keeps s0 p.2) : Keeps s0 t := by
  subst e; exact h

theorem keeps_of_fst {β : Type*} {p : State × β} {a : β} {t : State} (e : p = (t, a)) (h : Keeps s0 p.1) : Keeps s0 t := by
  subst e; exact h

/-- `Keeps`, of the parts of the later state that it speaks of. -/
def KeepsP (s0 : State) (pending : List Instr) (regs : SMap Word) (mem : SMap Byte) (poison : SMap Bool) (log : List ErrRec)
    (dumps : List CrashDump) : Prop :=
  pending = s0.pending ∧ (SMap.Canon (fun _ => (0 : Byte)) s0.mem → SMap.Canon (fun _ => 0) mem) ∧
    (SMap.Canon (fun _ => false) s0.poison → SMap.Canon (fun _ => false) poison) ∧ (RegsCanon s0.regs → RegsCanon regs) ∧
    (s0.store.log.length ≤ 4096 → log.length ≤ 4096) ∧ (s0.rst.dumps.length ≤ 16 → dumps.length ≤ 16)

/-- A state given field by field. -/
theorem keeps_mk_iff {pending regs mem poison clock gauge course host store rst core task link route coll power rider edge sec free out} :
    Keeps s0 ⟨pending, regs, mem, poison, clock, gauge, course, host, store, rst, core, task, link, route, coll, power, rider, edge, sec, free,
      out⟩ ↔ KeepsP s0 pending regs mem poison store.log rst.dumps :=
  ⟨fun h => ⟨h.1, h.2, h.3, h.4, h.5, h.6⟩, fun h => ⟨h.1, h.2.1, h.2.2.1, h.2.2.2.1, h.2.2.2.2.1, h.2.2.2.2.2⟩⟩

/-- A record update that leaves the queue, the registers, memory, poison, the log and the dumps. -/
theorem keepsP_of {log : List ErrRec} {dumps : List CrashDump} (h : Keeps s0 s) (hl : log = s.store.log) (hd : dumps = s.rst.dumps) :
    KeepsP s0 s.pending s.regs s.mem s.poison log dumps := by
  subst hl hd; exact ⟨h.1, h.2, h.3, h.4, h.5, h.6⟩

/-- A record update that leaves the queue, the registers, memory and poison, and within store and rst the log and the dumps. -/
theorem keeps_mk {clock gauge course host store rst core task link route coll power rider edge sec free out}
    (h : Keeps s0 s) (hl : store.log = s.store.log) (hd : rst.dumps = s.rst.dumps) :
    Keeps s0 ⟨s.pending, s.regs, s.mem, s.poison, clock, gauge, course, host, store, rst, core, task, link, route, coll, power, rider, edge,
      sec, free, out⟩ := keeps_mk_iff.2 (keepsP_of h hl hd)

/-! ### The operations that change what `Sound` speaks of -/

theorem keeps_setReg (r : Reg) (i : Nat) (v : Word) (h : Keeps s0 s) : Keeps s0 (s.setReg r i v) :=
  ⟨h.pending, h.mem, h.poison, fun x => by
    have e := (h.regs x).put (x := r.key i) v
    rw [Reg.resetAt_key] at e
    exact e, h.log, h.dumps⟩

theorem keeps_clearRegs (r : Reg) (sel : Nat → Bool) (h : Keeps s0 s) : Keeps s0 (s.clearRegs r sel) :=
  ⟨h.pending, h.mem, h.poison, fun x => (h.regs x).filter _, h.log, h.dumps⟩

theorem keeps_setByte (a : Nat) (b : Byte) (h : Keeps s0 s) : Keeps s0 (s.setByte a b) :=
  ⟨h.pending, fun x => (h.mem x).put b, h.poison, h.regs, h.log, h.dumps⟩

theorem keeps_setPoison (a : Nat) (v : Bool) (h : Keeps s0 s) : Keeps s0 (s.setPoison a v) :=
  ⟨h.pending, h.mem, fun x => (h.poison x).put v, h.regs, h.log, h.dumps⟩

theorem keeps_zeroRange (a n : Nat) (h : Keeps s0 s) : Keeps s0 (s.zeroRange a n) :=
  ⟨h.pending, fun x => (h.mem x).filter _, fun x => (h.poison x).filter _, h.regs, h.log, h.dumps⟩

theorem keeps_setF (f : Fld) (i v : Nat) (h : Keeps s0 s) : Keeps s0 (s.setF f i v) := keeps_setReg _ _ _ h

theorem keeps_bump (f : Fld) (i n : Nat) (h : Keeps s0 s) : Keeps s0 (s.bump f i n) := keeps_setF _ _ _ h

theorem dropOldest_length (l : List ErrRec) : (dropOldest l).length = l.length - 1 := by
  have aux : ∀ (l : List ErrRec) (i : Nat), i < l.length → (removeAt l i).length = l.length - 1 := by
    intro l
    induction l with
    | nil => intro i hi; simp at hi
    | cons x l ih =>
      intro i hi
      cases i with
      | zero => simp [removeAt]
      | succ i =>
        have hi' : i < l.length := by simpa using hi
        have := ih i hi'
        simp only [removeAt, List.length_cons, this]; omega
  cases l with
  | nil => rfl
  | cons r rs =>
    simp only [dropOldest]
    split
    · rename_i i hi
      rw [List.findIdx?_eq_some_iff_findIdx_eq] at hi
      exact aux _ _ hi.1
    · simp

/-- Room for one more record. -/
theorem keeps_room (h : Keeps s0 s) :
    let s1 := if s.store.log.length ≥ 4096 then
      ({ s with store := { s.store with log := dropOldest s.store.log } } : State).bump ECC_LOG_STAT.LOST else s
    Keeps s0 s1 ∧ (s0.store.log.length ≤ 4096 → s1.store.log.length ≤ 4095) := by
  intro s1
  by_cases hc : s.store.log.length ≥ 4096
  · have e : s1 = ({ s with store := { s.store with log := dropOldest s.store.log } } : State).bump ECC_LOG_STAT.LOST := if_pos hc
    have k : Keeps s0 ({ s with store := { s.store with log := dropOldest s.store.log } } : State) :=
      ⟨h.pending, h.mem, h.poison, h.regs, fun x => by
        have := h.log x
        simp only [dropOldest_length]; omega, h.dumps⟩
    rw [e]
    refine ⟨keeps_bump _ _ _ k, fun x => ?_⟩
    have := h.log x
    show (dropOldest s.store.log).length ≤ 4095
    rw [dropOldest_length]; omega
  · have e : s1 = s := if_neg hc
    rw [e]
    exact ⟨h, fun x => by omega⟩

theorem keeps_appendRec (r : Rec) (h : Keeps s0 s) : Keeps s0 (s.appendRec r) := by
  obtain ⟨k, hl⟩ := keeps_room h
  unfold State.appendRec
  refine keeps_setF _ _ _ ⟨k.pending, k.mem, k.poison, k.regs, fun x => ?_, k.dumps⟩
  exact Nat.le_trans (Nat.le_of_eq List.length_append) (Nat.add_le_add_right (hl x) 1)

theorem keeps_mergeRec (q : Nat) (h : Keeps s0 s) : Keeps s0 (s.mergeRec q) :=
  ⟨h.pending, h.mem, h.poison, h.regs, fun x => by simpa [State.mergeRec] using h.log x, h.dumps⟩

theorem keeps_crashDump (b : Bool) (h : Keeps s0 s) : Keeps s0 (s.crashDump b) :=
  ⟨h.pending, h.mem, h.poison, h.regs, h.log, fun _ => by simp [State.crashDump]; omega⟩

end Sys2Proof.Laws
end

