-- ==== Sys2Proof/Laws/KeepsCore.lean ====
section
/-!
SUPPORT. Laws/KeepsCore.lean: every operation and meaning of the core and its memory keeps the queue and hands on `Safety.Sound`.
-/
namespace Sys2Proof.Laws
open Sys2Proof.Machine

set_option linter.unusedTactic false
set_option linter.unreachableTactic false
set_option linter.unusedVariables false
set_option linter.unusedSimpArgs false

variable {s0 : State}

/-! ### Machine/Ops.lean -/

theorem keeps_fresh {s : State} (h0 : Keeps s0 s) : Keeps s0 (@State.fresh s).2 := by
  unfold State.fresh
  repeat' (first | with_reducible assumption | (intro v; refine keeps_cut s0 v ?_ (fun hv => ?_); (on_goal 2 => try clear_value v); dsimp only [v]) | intro v | lift_lets | (simp only [keeps_mk_iff]; apply keepsP_of) | with_reducible rfl | split | (clear_value *; split) | dsimp only)

theorem keeps_freshWord {s : State} (h0 : Keeps s0 s) : Keeps s0 (@State.freshWord s).2 := by
  unfold State.freshWord
  repeat' (first | with_reducible assumption | (intro v; refine keeps_cut s0 v ?_ (fun hv => ?_); (on_goal 2 => try clear_value v); dsimp only [v]) | intro v | lift_lets | (simp only [keeps_mk_iff]; apply keepsP_of) | with_reducible rfl | split | (clear_value *; split) | dsimp only)

theorem keeps_emit {s : State} (o) (h0 : Keeps s0 s) : Keeps s0 (@State.emit s o) := by
  unfold State.emit
  repeat' (first | with_reducible assumption | (intro v; refine keeps_cut s0 v ?_ (fun hv => ?_); (on_goal 2 => try clear_value v); dsimp only [v]) | intro v | lift_lets | (simp only [keeps_mk_iff]; apply keepsP_of) | with_reducible rfl | split | (clear_value *; split) | dsimp only)

theorem keeps_addLag {s : State} (unit) (job) (kind) (link) (slate) (amount) (h0 : Keeps s0 s) : Keeps s0 (@State.addLag s unit job kind link slate amount) := by
  unfold State.addLag
  repeat' (first | with_reducible assumption | (intro v; refine keeps_cut s0 v ?_ (fun hv => ?_); (on_goal 2 => try clear_value v); dsimp only [v]) | intro v | lift_lets | with_reducible apply keeps_ite | (simp only [keeps_mk_iff]; apply keepsP_of) | with_reducible rfl | split | (clear_value *; split) | dsimp only)

theorem keeps_setVector {s : State} (fn) (vec) (v_) (h0 : Keeps s0 s) : Keeps s0 (@State.setVector s fn vec v_) := by
  unfold State.setVector
  repeat' (first | with_reducible assumption | (intro v; refine keeps_cut s0 v ?_ (fun hv => ?_); (on_goal 2 => try clear_value v); dsimp only [v]) | intro v | lift_lets | (simp only [keeps_mk_iff]; apply keepsP_of) | with_reducible rfl | split | (clear_value *; split) | dsimp only)

theorem keeps_sendMsix {s : State} (fn) (vec) (h0 : Keeps s0 s) : Keeps s0 (@State.sendMsix s fn vec) := by
  unfold State.sendMsix
  repeat' (first | with_reducible assumption | with_reducible apply keeps_setVector | with_reducible apply keeps_emit | (intro v; refine keeps_cut s0 v ?_ (fun hv => ?_); (on_goal 2 => try clear_value v); dsimp only [v]) | intro v | lift_lets | with_reducible apply keeps_ite | (simp only [keeps_mk_iff]; apply keepsP_of) | with_reducible rfl | split | (clear_value *; split) | dsimp only)

theorem keeps_raiseIn {s : State} (fn) (vec) (h0 : Keeps s0 s) : Keeps s0 (@State.raiseIn s fn vec) := by
  unfold State.raiseIn
  repeat' (first | with_reducible assumption | with_reducible apply keeps_setVector | with_reducible apply keeps_sendMsix | (intro v; refine keeps_cut s0 v ?_ (fun hv => ?_); (on_goal 2 => try clear_value v); dsimp only [v]) | intro v | lift_lets | with_reducible apply keeps_ite | (simp only [keeps_mk_iff]; apply keepsP_of) | with_reducible rfl | split | (clear_value *; split) | dsimp only)

theorem keeps_unmasked {s : State} (fn) (vec) (h0 : Keeps s0 s) : Keeps s0 (@State.unmasked s fn vec) := by
  unfold State.unmasked
  repeat' (first | with_reducible assumption | with_reducible apply keeps_setVector | with_reducible apply keeps_raiseIn | (intro v; refine keeps_cut s0 v ?_ (fun hv => ?_); (on_goal 2 => try clear_value v); dsimp only [v]) | intro v | lift_lets | with_reducible apply keeps_ite | (simp only [keeps_mk_iff]; apply keepsP_of) | with_reducible rfl | split | (clear_value *; split) | dsimp only)

theorem keeps_raiseVec {s : State} (fn) (vec) (h0 : Keeps s0 s) : Keeps s0 (@State.raiseVec s fn vec) := by
  unfold State.raiseVec
  repeat' (first | with_reducible assumption | with_reducible apply keeps_raiseIn | with_reducible apply keeps_bump | with_reducible apply keeps_mergeRec | with_reducible apply keeps_appendRec | (intro v; refine keeps_cut s0 v ?_ (fun hv => ?_); (on_goal 2 => try clear_value v); dsimp only [v]) | intro v | lift_lets | with_reducible apply keeps_ite | (simp only [keeps_mk_iff]; apply keepsP_of) | with_reducible rfl | split | (clear_value *; split) | dsimp only)

theorem keeps_record {s : State} (r) (h0 : Keeps s0 s) : Keeps s0 (@State.record s r) := by
  unfold State.record
  repeat' (first | with_reducible assumption | with_reducible apply keeps_appendRec | with_reducible apply keeps_raiseVec | with_reducible apply keeps_crashDump | (intro v; refine keeps_cut s0 v ?_ (fun hv => ?_); (on_goal 2 => try clear_value v); dsimp only [v]) | intro v | lift_lets | with_reducible apply keeps_ite | (simp only [keeps_mk_iff]; apply keepsP_of) | with_reducible rfl | split | (clear_value *; split) | dsimp only)

theorem keeps_addFieldEntry {s : State} (kind) (loc) (h0 : Keeps s0 s) : Keeps s0 (@State.addFieldEntry s kind loc) := by
  unfold State.addFieldEntry
  repeat' (first | with_reducible assumption | with_reducible apply keeps_record | (intro v; refine keeps_cut s0 v ?_ (fun hv => ?_); (on_goal 2 => try clear_value v); dsimp only [v]) | intro v | lift_lets | with_reducible apply keeps_ite | (simp only [keeps_mk_iff]; apply keepsP_of) | with_reducible rfl | split | (clear_value *; split) | dsimp only)

theorem keeps_hwFault {s : State} (n) (h0 : Keeps s0 s) : Keeps s0 (@State.hwFault s n) := by
  unfold State.hwFault
  repeat' (first | with_reducible assumption | with_reducible apply keeps_addFieldEntry | (intro v; refine keeps_cut s0 v ?_ (fun hv => ?_); (on_goal 2 => try clear_value v); dsimp only [v]) | intro v | lift_lets | with_reducible apply keeps_ite | (simp only [keeps_mk_iff]; apply keepsP_of) | with_reducible rfl | split | (clear_value *; split) | dsimp only)

theorem keeps_recordOnce {s : State} (key) (r) (h0 : Keeps s0 s) : Keeps s0 (@State.recordOnce s key r) := by
  unfold State.recordOnce
  repeat' (first | with_reducible assumption | with_reducible apply keeps_mergeRec | with_reducible apply keeps_record | (intro v; refine keeps_cut s0 v ?_ (fun hv => ?_); (on_goal 2 => try clear_value v); dsimp only [v]) | intro v | lift_lets | (simp only [keeps_mk_iff]; apply keepsP_of) | with_reducible rfl | split | (clear_value *; split) | dsimp only)

theorem keeps_setBytes {s : State} (a : Nat) (bs : List Byte) (h : Keeps s0 s) : Keeps s0 (s.setBytes a bs) := by
  induction bs generalizing s a with
  | nil => exact h
  | cons b bs ih => exact ih (a + 1) (keeps_setByte a b h)

theorem keeps_eraseRaw {s : State} (g) (h0 : Keeps s0 s) : Keeps s0 (@State.eraseRaw s g) := by
  unfold State.eraseRaw
  repeat' (first | with_reducible assumption | (intro v; refine keeps_cut s0 v ?_ (fun hv => ?_); (on_goal 2 => try clear_value v); dsimp only [v]) | intro v | lift_lets | (simp only [keeps_mk_iff]; apply keepsP_of) | with_reducible rfl | split | (clear_value *; split) | dsimp only)

theorem keeps_viewRaw {s : State} (g) (ws) (h0 : Keeps s0 s) : Keeps s0 (@State.viewRaw s g ws) := by
  unfold State.viewRaw
  repeat' (first | with_reducible assumption | with_reducible apply keeps_setBytes | with_reducible apply keeps_setPoison | (intro v; refine keeps_cut s0 v ?_ (fun hv => ?_); (on_goal 2 => try clear_value v); dsimp only [v]) | intro v | lift_lets | (simp only [keeps_mk_iff]; apply keepsP_of) | with_reducible rfl | split | (clear_value *; split) | dsimp only)

theorem keeps_storeRaw {s : State} (g) (ws) (h0 : Keeps s0 s) : Keeps s0 (@State.storeRaw s g ws) := by
  unfold State.storeRaw
  repeat' (first | with_reducible assumption | with_reducible apply keeps_eraseRaw | with_reducible apply keeps_viewRaw | (intro v; refine keeps_cut s0 v ?_ (fun hv => ?_); (on_goal 2 => try clear_value v); dsimp only [v]) | intro v | lift_lets | with_reducible apply keeps_ite | (simp only [keeps_mk_iff]; apply keepsP_of) | with_reducible rfl | split | (clear_value *; split) | dsimp only)

theorem keeps_dieCorrected {s : State} (c) (ch) (d) (n) (h0 : Keeps s0 s) : Keeps s0 (@State.dieCorrected s c ch d n) := by
  unfold State.dieCorrected
  repeat' (first | with_reducible assumption | with_reducible apply keeps_bump | (intro v; refine keeps_cut s0 v ?_ (fun hv => ?_); (on_goal 2 => try clear_value v); dsimp only [v]) | intro v | lift_lets | with_reducible apply keeps_ite | (simp only [keeps_mk_iff]; apply keepsP_of) | with_reducible rfl | split | (clear_value *; split) | dsimp only)

theorem keeps_countCorrected {s : State} (g) (syms) (dies) (h0 : Keeps s0 s) : Keeps s0 (@State.countCorrected s g syms dies) := by
  unfold State.countCorrected
  repeat' (first | with_reducible assumption | with_reducible apply keeps_dieCorrected | with_reducible apply keeps_bump | (intro v; refine keeps_cut s0 v ?_ (fun hv => ?_); (on_goal 2 => try clear_value v); dsimp only [v]) | intro v | lift_lets | with_reducible apply keeps_foldl | with_reducible apply keeps_foldl_fst | with_reducible apply keeps_foldl_snd | with_reducible apply keeps_ite | (simp only [keeps_mk_iff]; apply keepsP_of) | with_reducible rfl | split | (clear_value *; split) | dsimp only)

theorem keeps_createPoison {s : State} (g) (kind) (suspects) (word) (h0 : Keeps s0 s) : Keeps s0 (@State.createPoison s g kind suspects word) := by
  unfold State.createPoison
  repeat' (first | with_reducible assumption | with_reducible apply keeps_eraseRaw | with_reducible apply keeps_setPoison | with_reducible apply keeps_bump | with_reducible apply keeps_record | (intro v; refine keeps_cut s0 v ?_ (fun hv => ?_); (on_goal 2 => try clear_value v); dsimp only [v]) | intro v | lift_lets | with_reducible apply keeps_ite | (simp only [keeps_mk_iff]; apply keepsP_of) | with_reducible rfl | split | (clear_value *; split) | dsimp only)

theorem keeps_countEdc {s : State} (g) (dies) (h0 : Keeps s0 s) : Keeps s0 (@State.countEdc s g dies) := by
  unfold State.countEdc
  repeat' (first | with_reducible assumption | with_reducible apply keeps_bump | (intro v; refine keeps_cut s0 v ?_ (fun hv => ?_); (on_goal 2 => try clear_value v); dsimp only [v]) | intro v | lift_lets | with_reducible apply keeps_foldl | with_reducible apply keeps_foldl_fst | with_reducible apply keeps_foldl_snd | with_reducible apply keeps_ite | (simp only [keeps_mk_iff]; apply keepsP_of) | with_reducible rfl | split | (clear_value *; split) | dsimp only)

theorem keeps_foundAgain {s : State} (g) (h0 : Keeps s0 s) : Keeps s0 (@State.foundAgain s g) := by
  unfold State.foundAgain
  repeat' (first | with_reducible assumption | with_reducible apply keeps_bump | with_reducible apply keeps_mergeRec | (intro v; refine keeps_cut s0 v ?_ (fun hv => ?_); (on_goal 2 => try clear_value v); dsimp only [v]) | intro v | lift_lets | with_reducible apply keeps_ite | (simp only [keeps_mk_iff]; apply keepsP_of) | with_reducible rfl | split | (clear_value *; split) | dsimp only)

theorem keeps_noteDecode {s : State} (g) (kind) (h0 : Keeps s0 s) : Keeps s0 (@State.noteDecode s g kind) := by
  unfold State.noteDecode
  repeat' (first | with_reducible assumption | with_reducible apply keeps_foundAgain | with_reducible apply keeps_countEdc | with_reducible apply keeps_countCorrected | with_reducible apply keeps_createPoison | (intro v; refine keeps_cut s0 v ?_ (fun hv => ?_); (on_goal 2 => try clear_value v); dsimp only [v]) | intro v | lift_lets | (simp only [keeps_mk_iff]; apply keepsP_of) | with_reducible rfl | split | (clear_value *; split) | dsimp only)

theorem keeps_noteRead {s : State} (a) (n) (h0 : Keeps s0 s) : Keeps s0 (@State.noteRead s a n) := by
  unfold State.noteRead
  repeat' (first | with_reducible assumption | with_reducible apply keeps_noteDecode | with_reducible apply keeps_bump | (intro v; refine keeps_cut s0 v ?_ (fun hv => ?_); (on_goal 2 => try clear_value v); dsimp only [v]) | intro v | lift_lets | with_reducible apply keeps_foldl | with_reducible apply keeps_foldl_fst | with_reducible apply keeps_foldl_snd | with_reducible apply keeps_ite | (simp only [keeps_mk_iff]; apply keepsP_of) | with_reducible rfl | split | (clear_value *; split) | dsimp only)

theorem keeps_noteReads {s : State} (rs) (h0 : Keeps s0 s) : Keeps s0 (@State.noteReads s rs) := by
  unfold State.noteReads
  repeat' (first | with_reducible assumption | with_reducible apply keeps_noteRead | (intro v; refine keeps_cut s0 v ?_ (fun hv => ?_); (on_goal 2 => try clear_value v); dsimp only [v]) | intro v | lift_lets | with_reducible apply keeps_foldl | with_reducible apply keeps_foldl_fst | with_reducible apply keeps_foldl_snd | (simp only [keeps_mk_iff]; apply keepsP_of) | with_reducible rfl | split | (clear_value *; split) | dsimp only)

theorem keeps_writeBack {s : State} (key) (i) (h0 : Keeps s0 s) : Keeps s0 (@State.writeBack s key i) := by
  unfold State.writeBack
  repeat' (first | with_reducible assumption | (intro v; refine keeps_cut s0 v ?_ (fun hv => ?_); (on_goal 2 => try clear_value v); dsimp only [v]) | intro v | lift_lets | (simp only [keeps_mk_iff]; apply keepsP_of) | with_reducible rfl | split | (clear_value *; split) | dsimp only)

theorem keeps_mergeWrite {s : State} (g) (lo) (hi) (poisoned) (h0 : Keeps s0 s) : Keeps s0 (@State.mergeWrite s g lo hi poisoned) := by
  unfold State.mergeWrite
  repeat' (first | with_reducible assumption | with_reducible apply keeps_setPoison | with_reducible apply keeps_writeBack | (intro v; refine keeps_cut s0 v ?_ (fun hv => ?_); (on_goal 2 => try clear_value v); dsimp only [v]) | intro v | lift_lets | with_reducible apply keeps_ite | (simp only [keeps_mk_iff]; apply keepsP_of) | with_reducible rfl | split | (clear_value *; split) | dsimp only)

theorem keeps_landGranule {s : State} (g) (lo) (hi) (poisoned) (h0 : Keeps s0 s) : Keeps s0 (@State.landGranule s g lo hi poisoned) := by
  unfold State.landGranule
  repeat' (first | with_reducible assumption | with_reducible apply keeps_noteDecode | with_reducible apply keeps_eraseRaw | with_reducible apply keeps_mergeWrite | with_reducible apply keeps_setPoison | (intro v; refine keeps_cut s0 v ?_ (fun hv => ?_); (on_goal 2 => try clear_value v); dsimp only [v]) | intro v | lift_lets | with_reducible apply keeps_ite | (simp only [keeps_mk_iff]; apply keepsP_of) | with_reducible rfl | split | (clear_value *; split) | dsimp only)

theorem keeps_land {s : State} (a) (data) (poisoned) (h0 : Keeps s0 s) : Keeps s0 (@State.land s a data poisoned) := by
  unfold State.land
  repeat' (first | with_reducible assumption | with_reducible apply keeps_landGranule | with_reducible apply keeps_setBytes | (intro v; refine keeps_cut s0 v ?_ (fun hv => ?_); (on_goal 2 => try clear_value v); dsimp only [v]) | intro v | lift_lets | with_reducible apply keeps_foldl | with_reducible apply keeps_foldl_fst | with_reducible apply keeps_foldl_snd | with_reducible apply keeps_ite | (simp only [keeps_mk_iff]; apply keepsP_of) | with_reducible rfl | split | (clear_value *; split) | dsimp only)

theorem keeps_copyGranule {s : State} (from_ : State) (g) (h0 : Keeps s0 s) : Keeps s0 (@State.copyGranule s from_ g) := by
  unfold State.copyGranule
  repeat' (first | with_reducible assumption | with_reducible apply keeps_setBytes | with_reducible apply keeps_setPoison | with_reducible apply keeps_eraseRaw | (intro v; refine keeps_cut s0 v ?_ (fun hv => ?_); (on_goal 2 => try clear_value v); dsimp only [v]) | intro v | lift_lets | (simp only [keeps_mk_iff]; apply keepsP_of) | with_reducible rfl | split | (clear_value *; split) | dsimp only)

theorem keeps_partly {old : State} (new : State) (gs) (h0 : Keeps s0 old) : Keeps s0 (@State.partly old new gs) := by
  unfold State.partly
  repeat' (first | with_reducible assumption | with_reducible apply keeps_copyGranule | (intro v; refine keeps_cut s0 v ?_ (fun hv => ?_); (on_goal 2 => try clear_value v); dsimp only [v]) | intro v | lift_lets | with_reducible apply keeps_foldl | with_reducible apply keeps_foldl_fst | with_reducible apply keeps_foldl_snd | with_reducible apply keeps_ite | (simp only [keeps_mk_iff]; apply keepsP_of) | with_reducible rfl | (refine keeps_of_snd (by with_reducible assumption) ?_) | (refine keeps_of_fst (by with_reducible assumption) ?_) | split | (clear_value *; split) | with_reducible apply keeps_fresh | dsimp only)

theorem keeps_checkWatches {s : State} (h0 : Keeps s0 s) : Keeps s0 (@State.checkWatches s) := by
  unfold State.checkWatches
  repeat' (first | with_reducible assumption | (intro v; refine keeps_cut s0 v ?_ (fun hv => ?_); (on_goal 2 => try clear_value v); dsimp only [v]) | intro v | lift_lets | (simp only [keeps_mk_iff]; apply keepsP_of) | with_reducible rfl | split | (clear_value *; split) | dsimp only)

theorem keeps_batAdd {s : State} (n) (v_) (h0 : Keeps s0 s) : Keeps s0 (@State.batAdd s n v_) := by
  unfold State.batAdd
  repeat' (first | with_reducible assumption | with_reducible apply keeps_setF | with_reducible apply keeps_checkWatches | (intro v; refine keeps_cut s0 v ?_ (fun hv => ?_); (on_goal 2 => try clear_value v); dsimp only [v]) | intro v | lift_lets | (simp only [keeps_mk_iff]; apply keepsP_of) | with_reducible rfl | split | (clear_value *; split) | dsimp only)

theorem keeps_batSet {s : State} (n) (v_) (h0 : Keeps s0 s) : Keeps s0 (@State.batSet s n v_) := by
  unfold State.batSet
  repeat' (first | with_reducible assumption | with_reducible apply keeps_setF | with_reducible apply keeps_checkWatches | (intro v; refine keeps_cut s0 v ?_ (fun hv => ?_); (on_goal 2 => try clear_value v); dsimp only [v]) | intro v | lift_lets | (simp only [keeps_mk_iff]; apply keepsP_of) | with_reducible rfl | split | (clear_value *; split) | dsimp only)

theorem keeps_batZero {s : State} (sl) (h0 : Keeps s0 s) : Keeps s0 (@State.batZero s sl) := by
  unfold State.batZero
  repeat' (first | with_reducible assumption | with_reducible apply keeps_clearRegs | with_reducible apply keeps_checkWatches | (intro v; refine keeps_cut s0 v ?_ (fun hv => ?_); (on_goal 2 => try clear_value v); dsimp only [v]) | intro v | lift_lets | (simp only [keeps_mk_iff]; apply keepsP_of) | with_reducible rfl | split | (clear_value *; split) | dsimp only)

theorem keeps_watch {s : State} (w) (h0 : Keeps s0 s) : Keeps s0 (@State.watch s w) := by
  unfold State.watch
  repeat' (first | with_reducible assumption | with_reducible apply keeps_checkWatches | (intro v; refine keeps_cut s0 v ?_ (fun hv => ?_); (on_goal 2 => try clear_value v); dsimp only [v]) | intro v | lift_lets | with_reducible apply keeps_ite | (simp only [keeps_mk_iff]; apply keepsP_of) | with_reducible rfl | split | (clear_value *; split) | dsimp only)

theorem keeps_unwatch {s : State} (who) (h0 : Keeps s0 s) : Keeps s0 (@State.unwatch s who) := by
  unfold State.unwatch
  repeat' (first | with_reducible assumption | (intro v; refine keeps_cut s0 v ?_ (fun hv => ?_); (on_goal 2 => try clear_value v); dsimp only [v]) | intro v | lift_lets | (simp only [keeps_mk_iff]; apply keepsP_of) | with_reducible rfl | split | (clear_value *; split) | dsimp only)

/-! ### Machine/Queues.lean -/

theorem keeps_setQueue {s : State} (q) (x) (h0 : Keeps s0 s) : Keeps s0 (@State.setQueue s q x) := by
  unfold State.setQueue
  repeat' (first | with_reducible assumption | (intro v; refine keeps_cut s0 v ?_ (fun hv => ?_); (on_goal 2 => try clear_value v); dsimp only [v]) | intro v | lift_lets | (simp only [keeps_mk_iff]; apply keepsP_of) | with_reducible rfl | split | (clear_value *; split) | dsimp only)

theorem keeps_writeShadow {s : State} (q) (h0 : Keeps s0 s) : Keeps s0 (@State.writeShadow s q) := by
  unfold State.writeShadow
  repeat' (first | with_reducible assumption | with_reducible apply keeps_land | with_reducible apply keeps_setQueue | (intro v; refine keeps_cut s0 v ?_ (fun hv => ?_); (on_goal 2 => try clear_value v); dsimp only [v]) | intro v | lift_lets | with_reducible apply keeps_ite | (simp only [keeps_mk_iff]; apply keepsP_of) | with_reducible rfl | split | (clear_value *; split) | dsimp only)

theorem keeps_setQState {s : State} (q) (v_) (h0 : Keeps s0 s) : Keeps s0 (@State.setQState s q v_) := by
  unfold State.setQState
  repeat' (first | with_reducible assumption | with_reducible apply keeps_setF | with_reducible apply keeps_writeShadow | (intro v; refine keeps_cut s0 v ?_ (fun hv => ?_); (on_goal 2 => try clear_value v); dsimp only [v]) | intro v | lift_lets | with_reducible apply keeps_ite | (simp only [keeps_mk_iff]; apply keepsP_of) | with_reducible rfl | split | (clear_value *; split) | dsimp only)

theorem keeps_advanceCons {s : State} (q) (n) (h0 : Keeps s0 s) : Keeps s0 (@State.advanceCons s q n) := by
  unfold State.advanceCons
  repeat' (first | with_reducible assumption | with_reducible apply keeps_setF | with_reducible apply keeps_setQueue | with_reducible apply keeps_record | with_reducible apply keeps_unwatch | (intro v; refine keeps_cut s0 v ?_ (fun hv => ?_); (on_goal 2 => try clear_value v); dsimp only [v]) | intro v | lift_lets | with_reducible apply keeps_foldl | with_reducible apply keeps_foldl_fst | with_reducible apply keeps_foldl_snd | with_reducible apply keeps_ite | (simp only [keeps_mk_iff]; apply keepsP_of) | with_reducible rfl | split | (clear_value *; split) | dsimp only)

theorem keeps_badDoorbell {s : State} (q) (status) (h0 : Keeps s0 s) : Keeps s0 (@State.badDoorbell s q status) := by
  unfold State.badDoorbell
  repeat' (first | with_reducible assumption | with_reducible apply keeps_bump | with_reducible apply keeps_recordOnce | (intro v; refine keeps_cut s0 v ?_ (fun hv => ?_); (on_goal 2 => try clear_value v); dsimp only [v]) | intro v | lift_lets | (simp only [keeps_mk_iff]; apply keepsP_of) | with_reducible rfl | split | (clear_value *; split) | dsimp only)

theorem keeps_doorbell {s : State} (who) (q) (index) (h0 : Keeps s0 s) : Keeps s0 (@State.doorbell s who q index) := by
  unfold State.doorbell
  repeat' (first | with_reducible assumption | with_reducible apply keeps_badDoorbell | with_reducible apply keeps_setQState | with_reducible apply keeps_setF | (intro v; refine keeps_cut s0 v ?_ (fun hv => ?_); (on_goal 2 => try clear_value v); dsimp only [v]) | intro v | lift_lets | with_reducible apply keeps_ite | (simp only [keeps_mk_iff]; apply keepsP_of) | with_reducible rfl | split | (clear_value *; split) | dsimp only)

theorem keeps_dropItems {s : State} (q) (h0 : Keeps s0 s) : Keeps s0 (@State.dropItems s q) := by
  unfold State.dropItems
  repeat' (first | with_reducible assumption | with_reducible apply keeps_setQueue | with_reducible apply keeps_unwatch | with_reducible apply keeps_setF | (intro v; refine keeps_cut s0 v ?_ (fun hv => ?_); (on_goal 2 => try clear_value v); dsimp only [v]) | intro v | lift_lets | (simp only [keeps_mk_iff]; apply keepsP_of) | with_reducible rfl | split | (clear_value *; split) | dsimp only)

theorem keeps_flushQueue {s : State} (q) (withCompletions) (h0 : Keeps s0 s) : Keeps s0 (@State.flushQueue s q withCompletions) := by
  unfold State.flushQueue
  repeat' (first | with_reducible assumption | with_reducible apply keeps_dropItems | with_reducible apply keeps_setQState | (intro v; refine keeps_cut s0 v ?_ (fun hv => ?_); (on_goal 2 => try clear_value v); dsimp only [v]) | intro v | lift_lets | with_reducible apply keeps_ite | (simp only [keeps_mk_iff]; apply keepsP_of) | with_reducible rfl | split | (clear_value *; split) | dsimp only)

theorem keeps_flush {s : State} (who) (q) (h0 : Keeps s0 s) : Keeps s0 (@State.flush s who q) := by
  unfold State.flush
  repeat' (first | with_reducible assumption | with_reducible apply keeps_badDoorbell | with_reducible apply keeps_record | with_reducible apply keeps_flushQueue | (intro v; refine keeps_cut s0 v ?_ (fun hv => ?_); (on_goal 2 => try clear_value v); dsimp only [v]) | intro v | lift_lets | with_reducible apply keeps_ite | (simp only [keeps_mk_iff]; apply keepsP_of) | with_reducible rfl | split | (clear_value *; split) | dsimp only)

theorem keeps_retireCancelled {s : State} (q) (h0 : Keeps s0 s) : Keeps s0 (@State.retireCancelled s q) := by
  unfold State.retireCancelled
  repeat' (first | with_reducible assumption | with_reducible apply keeps_advanceCons | (intro v; refine keeps_cut s0 v ?_ (fun hv => ?_); (on_goal 2 => try clear_value v); dsimp only [v]) | intro v | lift_lets | with_reducible apply keeps_ite | (simp only [keeps_mk_iff]; apply keepsP_of) | with_reducible rfl | split | (clear_value *; split) | dsimp only)

theorem keeps_cancel {s : State} (who) (q) (index) (h0 : Keeps s0 s) : Keeps s0 (@State.cancel s who q index) := by
  unfold State.cancel
  repeat' (first | with_reducible assumption | with_reducible apply keeps_badDoorbell | with_reducible apply keeps_setF | with_reducible apply keeps_record | with_reducible apply keeps_setQueue | with_reducible apply keeps_retireCancelled | (intro v; refine keeps_cut s0 v ?_ (fun hv => ?_); (on_goal 2 => try clear_value v); dsimp only [v]) | intro v | lift_lets | with_reducible apply keeps_ite | (simp only [keeps_mk_iff]; apply keepsP_of) | with_reducible rfl | split | (clear_value *; split) | dsimp only)

theorem keeps_enableQueue {s : State} (q) (h0 : Keeps s0 s) : Keeps s0 (@State.enableQueue s q) := by
  unfold State.enableQueue
  repeat' (first | with_reducible assumption | with_reducible apply keeps_record | with_reducible apply keeps_setF | with_reducible apply keeps_setQueue | with_reducible apply keeps_setQState | (intro v; refine keeps_cut s0 v ?_ (fun hv => ?_); (on_goal 2 => try clear_value v); dsimp only [v]) | intro v | lift_lets | (simp only [keeps_mk_iff]; apply keepsP_of) | with_reducible rfl | split | (clear_value *; split) | dsimp only)

theorem keeps_disableQueue {s : State} (q) (h0 : Keeps s0 s) : Keeps s0 (@State.disableQueue s q) := by
  unfold State.disableQueue
  repeat' (first | with_reducible assumption | with_reducible apply keeps_dropItems | with_reducible apply keeps_setF | with_reducible apply keeps_setQState | (intro v; refine keeps_cut s0 v ?_ (fun hv => ?_); (on_goal 2 => try clear_value v); dsimp only [v]) | intro v | lift_lets | (simp only [keeps_mk_iff]; apply keepsP_of) | with_reducible rfl | split | (clear_value *; split) | dsimp only)

theorem keeps_writeCtx {s : State} (who) (q) (word) (val) (h0 : Keeps s0 s) : Keeps s0 (@State.writeCtx s who q word val) := by
  unfold State.writeCtx
  repeat' (first | with_reducible assumption | with_reducible apply keeps_record | with_reducible apply keeps_setReg | with_reducible apply keeps_enableQueue | with_reducible apply keeps_disableQueue | (intro v; refine keeps_cut s0 v ?_ (fun hv => ?_); (on_goal 2 => try clear_value v); dsimp only [v]) | intro v | lift_lets | with_reducible apply keeps_ite | (simp only [keeps_mk_iff]; apply keepsP_of) | with_reducible rfl | split | (clear_value *; split) | dsimp only)

theorem keeps_writeCpl {s : State} (cq) (c) (h0 : Keeps s0 s) : Keeps s0 (@State.writeCpl s cq c) := by
  unfold State.writeCpl
  repeat' (first | with_reducible assumption | with_reducible apply keeps_land | with_reducible apply keeps_setF | with_reducible apply keeps_setQueue | with_reducible apply keeps_raiseVec | (intro v; refine keeps_cut s0 v ?_ (fun hv => ?_); (on_goal 2 => try clear_value v); dsimp only [v]) | intro v | lift_lets | with_reducible apply keeps_ite | (simp only [keeps_mk_iff]; apply keepsP_of) | with_reducible rfl | split | (clear_value *; split) | dsimp only)

theorem keeps_payOwed {s : State} (h0 : Keeps s0 s) : Keeps s0 (@State.payOwed s) := by
  unfold State.payOwed
  repeat' (first | with_reducible assumption | with_reducible apply keeps_writeCpl | with_reducible apply keeps_recordOnce | (intro v; refine keeps_cut s0 v ?_ (fun hv => ?_); (on_goal 2 => try clear_value v); dsimp only [v]) | intro v | lift_lets | with_reducible apply keeps_ite | (simp only [keeps_mk_iff]; apply keepsP_of) | with_reducible rfl | split | (clear_value *; split) | dsimp only)

theorem keeps_writeAwin {s : State} (who) (sl) (w) (val) (h0 : Keeps s0 s) : Keeps s0 (@State.writeAwin s who sl w val) := by
  unfold State.writeAwin
  repeat' (first | with_reducible assumption | with_reducible apply keeps_record | with_reducible apply keeps_setReg | (intro v; refine keeps_cut s0 v ?_ (fun hv => ?_); (on_goal 2 => try clear_value v); dsimp only [v]) | intro v | lift_lets | with_reducible apply keeps_ite | (simp only [keeps_mk_iff]; apply keepsP_of) | with_reducible rfl | split | (clear_value *; split) | dsimp only)

theorem keeps_controlStore {s : State} (core) (a) (size) (data) (h0 : Keeps s0 s) : Keeps s0 (@State.controlStore s core a size data) := by
  unfold State.controlStore
  repeat' (first | with_reducible assumption | with_reducible apply keeps_writeAwin | with_reducible apply keeps_doorbell | with_reducible apply keeps_flush | with_reducible apply keeps_cancel | (intro v; refine keeps_cut s0 v ?_ (fun hv => ?_); (on_goal 2 => try clear_value v); dsimp only [v]) | intro v | lift_lets | (simp only [keeps_mk_iff]; apply keepsP_of) | with_reducible rfl | split | (clear_value *; split) | dsimp only)

theorem keeps_landControl {s : State} (core k a : Nat) (bs : List Byte) (h : Keeps s0 s) : Keeps s0 (s.landControl core k a bs) := by
  induction k generalizing s a bs with
  | zero => exact h
  | succ k ih =>
    unfold State.landControl
    exact keeps_ite h (ih _ _ (keeps_controlStore _ _ _ _ h))

theorem keeps_landHome {s : State} (core) (a) (data) (poisoned) (h0 : Keeps s0 s) : Keeps s0 (@State.landHome s core a data poisoned) := by
  unfold State.landHome
  repeat' (first | with_reducible assumption | with_reducible apply keeps_landControl | with_reducible apply keeps_land | (intro v; refine keeps_cut s0 v ?_ (fun hv => ?_); (on_goal 2 => try clear_value v); dsimp only [v]) | intro v | lift_lets | with_reducible apply keeps_ite | (simp only [keeps_mk_iff]; apply keepsP_of) | with_reducible rfl | split | (clear_value *; split) | dsimp only)

/-! ### Machine/Accum.lean -/

theorem keeps_accAdd {s : State} (a) (anchor) (h0 : Keeps s0 s) : Keeps s0 (@State.accAdd s a anchor).1 := by
  unfold State.accAdd
  repeat' (first | with_reducible assumption | with_reducible apply keeps_setBytes | with_reducible apply keeps_noteDecode | with_reducible apply keeps_eraseRaw | with_reducible apply keeps_setPoison | (intro v; refine keeps_cut s0 v ?_ (fun hv => ?_); (on_goal 2 => try clear_value v); dsimp only [v]) | intro v | lift_lets | with_reducible apply keeps_foldl | with_reducible apply keeps_foldl_fst | with_reducible apply keeps_foldl_snd | with_reducible apply keeps_ite | (simp only [keeps_mk_iff]; apply keepsP_of) | with_reducible rfl | split | (clear_value *; split) | dsimp only)

theorem keeps_accumulate {s t : State} {a : AccWrite} {f : WaFlags} (e : s.accumulate a = some (t, f)) (h : Keeps s0 s) : Keeps s0 t := by
  unfold State.accumulate at e
  split at e
  · split at e
    · cases e
    · cases e
      exact keeps_setReg _ _ _ (keeps_accAdd a _ h)
  · have k := keeps_accAdd a 0 h
    rw [Option.some.inj e] at k
    exact k

/-! ### Machine/Cores.lean -/

theorem keeps_setCore {s : State} (n) (c) (h0 : Keeps s0 s) : Keeps s0 (@State.setCore s n c) := by
  unfold State.setCore
  repeat' (first | with_reducible assumption | (intro v; refine keeps_cut s0 v ?_ (fun hv => ?_); (on_goal 2 => try clear_value v); dsimp only [v]) | intro v | lift_lets | (simp only [keeps_mk_iff]; apply keepsP_of) | with_reducible rfl | split | (clear_value *; split) | dsimp only)

theorem keeps_fillRead {s : State} (n) (line) (v_) (h0 : Keeps s0 s) : Keeps s0 (@State.fillRead s n line v_) := by
  unfold State.fillRead
  repeat' (first | with_reducible assumption | with_reducible apply keeps_setCore | (intro v; refine keeps_cut s0 v ?_ (fun hv => ?_); (on_goal 2 => try clear_value v); dsimp only [v]) | intro v | lift_lets | with_reducible apply keeps_ite | (simp only [keeps_mk_iff]; apply keepsP_of) | with_reducible rfl | (refine keeps_of_snd (by with_reducible assumption) ?_) | (refine keeps_of_fst (by with_reducible assumption) ?_) | split | (clear_value *; split) | with_reducible apply keeps_fresh | dsimp only)

theorem keeps_fillInstr {s : State} (n) (line) (h0 : Keeps s0 s) : Keeps s0 (@State.fillInstr s n line) := by
  unfold State.fillInstr
  repeat' (first | with_reducible assumption | with_reducible apply keeps_setCore | (intro v; refine keeps_cut s0 v ?_ (fun hv => ?_); (on_goal 2 => try clear_value v); dsimp only [v]) | intro v | lift_lets | with_reducible apply keeps_ite | (simp only [keeps_mk_iff]; apply keepsP_of) | with_reducible rfl | (refine keeps_of_snd (by with_reducible assumption) ?_) | (refine keeps_of_fst (by with_reducible assumption) ?_) | split | (clear_value *; split) | with_reducible apply keeps_fresh | dsimp only)

theorem keeps_storeHome {s : State} (n) (a) (size) (data) (h0 : Keeps s0 s) : Keeps s0 (@State.storeHome s n a size data) := by
  unfold State.storeHome
  repeat' (first | with_reducible assumption | with_reducible apply keeps_controlStore | with_reducible apply keeps_land | (intro v; refine keeps_cut s0 v ?_ (fun hv => ?_); (on_goal 2 => try clear_value v); dsimp only [v]) | intro v | lift_lets | (simp only [keeps_mk_iff]; apply keepsP_of) | with_reducible rfl | split | (clear_value *; split) | dsimp only)

theorem keeps_applyBtn {s : State} (n) (ord) (h0 : Keeps s0 s) : Keeps s0 (@State.applyBtn s n ord) := by
  unfold State.applyBtn
  repeat' (first | with_reducible assumption | with_reducible apply keeps_setCore | with_reducible apply keeps_batAdd | with_reducible apply keeps_batSet | (intro v; refine keeps_cut s0 v ?_ (fun hv => ?_); (on_goal 2 => try clear_value v); dsimp only [v]) | intro v | lift_lets | with_reducible apply keeps_ite | (simp only [keeps_mk_iff]; apply keepsP_of) | with_reducible rfl | split | (clear_value *; split) | dsimp only)

theorem keeps_drainOne {s : State} (n) (h0 : Keeps s0 s) : Keeps s0 (@State.drainOne s n) := by
  unfold State.drainOne
  repeat' (first | with_reducible assumption | with_reducible apply keeps_setCore | with_reducible apply keeps_storeHome | with_reducible apply keeps_applyBtn | (intro v; refine keeps_cut s0 v ?_ (fun hv => ?_); (on_goal 2 => try clear_value v); dsimp only [v]) | intro v | lift_lets | (simp only [keeps_mk_iff]; apply keepsP_of) | with_reducible rfl | split | (clear_value *; split) | dsimp only)

theorem keeps_drain {s : State} (n k : Nat) (h : Keeps s0 s) : Keeps s0 (s.drain n k) := by
  induction k generalizing s with
  | zero => exact h
  | succ k ih => exact ih (keeps_drainOne n h)

theorem keeps_settle {s : State} (n) (h0 : Keeps s0 s) : Keeps s0 (@State.settle s n) := by
  unfold State.settle
  repeat' (first | with_reducible assumption | with_reducible apply keeps_setCore | (intro v; refine keeps_cut s0 v ?_ (fun hv => ?_); (on_goal 2 => try clear_value v); dsimp only [v]) | intro v | lift_lets | (simp only [keeps_mk_iff]; apply keepsP_of) | with_reducible rfl | split | (clear_value *; split) | dsimp only)

/-! ### Machine/Net.lean -/

theorem keeps_setStrand {s : State} (d) (l) (x) (h0 : Keeps s0 s) : Keeps s0 (@State.setStrand s d l x) := by
  unfold State.setStrand
  repeat' (first | with_reducible assumption | (intro v; refine keeps_cut s0 v ?_ (fun hv => ?_); (on_goal 2 => try clear_value v); dsimp only [v]) | intro v | lift_lets | (simp only [keeps_mk_iff]; apply keepsP_of) | with_reducible rfl | split | (clear_value *; split) | dsimp only)

theorem keeps_seal {s : State} (p) (h0 : Keeps s0 s) : Keeps s0 (@State.seal s p).2 := by
  unfold State.seal
  repeat' (first | with_reducible assumption | with_reducible apply keeps_record | (intro v; refine keeps_cut s0 v ?_ (fun hv => ?_); (on_goal 2 => try clear_value v); dsimp only [v]) | intro v | lift_lets | with_reducible apply keeps_ite | (simp only [keeps_mk_iff]; apply keepsP_of) | with_reducible rfl | split | (clear_value *; split) | dsimp only)

theorem keeps_openQ {s : State} (p) (h0 : Keeps s0 s) : Keeps s0 (@State.open? s p).2 := by
  unfold State.open?
  repeat' (first | with_reducible assumption | (intro v; refine keeps_cut s0 v ?_ (fun hv => ?_); (on_goal 2 => try clear_value v); dsimp only [v]) | intro v | lift_lets | (simp only [keeps_mk_iff]; apply keepsP_of) | with_reducible rfl | split | (clear_value *; split) | dsimp only)

theorem keeps_queueOn {s : State} (d) (l) (t_) (h0 : Keeps s0 s) : Keeps s0 (@State.queueOn s d l t_) := by
  unfold State.queueOn
  repeat' (first | with_reducible assumption | with_reducible apply keeps_setStrand | (intro v; refine keeps_cut s0 v ?_ (fun hv => ?_); (on_goal 2 => try clear_value v); dsimp only [v]) | intro v | lift_lets | (simp only [keeps_mk_iff]; apply keepsP_of) | with_reducible rfl | split | (clear_value *; split) | dsimp only)

theorem keeps_chooseStrand {s : State} (l) (t_) (ordered) (h0 : Keeps s0 s) : Keeps s0 (@State.chooseStrand s l t_ ordered).2 := by
  unfold State.chooseStrand
  repeat' (first | with_reducible assumption | (intro v; refine keeps_cut s0 v ?_ (fun hv => ?_); (on_goal 2 => try clear_value v); dsimp only [v]) | intro v | lift_lets | with_reducible apply keeps_ite | (simp only [keeps_mk_iff]; apply keepsP_of) | with_reducible rfl | split | (clear_value *; split) | dsimp only)

theorem keeps_overrunOn {s : State} (d) (l) (t_) (h0 : Keeps s0 s) : Keeps s0 (@State.overrunOn s d l t_) := by
  unfold State.overrunOn
  repeat' (first | with_reducible assumption | with_reducible apply keeps_addLag | (intro v; refine keeps_cut s0 v ?_ (fun hv => ?_); (on_goal 2 => try clear_value v); dsimp only [v]) | intro v | lift_lets | (simp only [keeps_mk_iff]; apply keepsP_of) | with_reducible rfl | split | (clear_value *; split) | dsimp only)

theorem keeps_freeFlits {s : State} (d) (l) (vl) (n) (h0 : Keeps s0 s) : Keeps s0 (@State.freeFlits s d l vl n) := by
  unfold State.freeFlits
  repeat' (first | with_reducible assumption | with_reducible apply keeps_setStrand | (intro v; refine keeps_cut s0 v ?_ (fun hv => ?_); (on_goal 2 => try clear_value v); dsimp only [v]) | intro v | lift_lets | (simp only [keeps_mk_iff]; apply keepsP_of) | with_reducible rfl | split | (clear_value *; split) | dsimp only)

theorem keeps_consume {s : State} (vl) (d) (l) (p) (h0 : Keeps s0 s) : Keeps s0 (@State.consume s vl d l p) := by
  unfold State.consume
  repeat' (first | with_reducible assumption | with_reducible apply keeps_freeFlits | (intro v; refine keeps_cut s0 v ?_ (fun hv => ?_); (on_goal 2 => try clear_value v); dsimp only [v]) | intro v | lift_lets | (simp only [keeps_mk_iff]; apply keepsP_of) | with_reducible rfl | split | (clear_value *; split) | dsimp only)

theorem keeps_freeForward {s : State} (t_) (h0 : Keeps s0 s) : Keeps s0 (@State.freeForward s t_) := by
  unfold State.freeForward
  repeat' (first | with_reducible assumption | with_reducible apply keeps_freeFlits | (intro v; refine keeps_cut s0 v ?_ (fun hv => ?_); (on_goal 2 => try clear_value v); dsimp only [v]) | intro v | lift_lets | (simp only [keeps_mk_iff]; apply keepsP_of) | with_reducible rfl | split | (clear_value *; split) | dsimp only)

theorem keeps_dropTx {s : State} (t_) (h0 : Keeps s0 s) : Keeps s0 (@State.dropTx s t_) := by
  unfold State.dropTx
  repeat' (first | with_reducible assumption | with_reducible apply keeps_bump | with_reducible apply keeps_freeForward | (intro v; refine keeps_cut s0 v ?_ (fun hv => ?_); (on_goal 2 => try clear_value v); dsimp only [v]) | intro v | lift_lets | (simp only [keeps_mk_iff]; apply keepsP_of) | with_reducible rfl | split | (clear_value *; split) | dsimp only)

theorem keeps_waitTx {s : State} (t_) (h0 : Keeps s0 s) : Keeps s0 (@State.waitTx s t_) := by
  unfold State.waitTx
  repeat' (first | with_reducible assumption | (intro v; refine keeps_cut s0 v ?_ (fun hv => ?_); (on_goal 2 => try clear_value v); dsimp only [v]) | intro v | lift_lets | (simp only [keeps_mk_iff]; apply keepsP_of) | with_reducible rfl | split | (clear_value *; split) | dsimp only)

theorem keeps_placeOn {s t : State} {l : Nat} {x : TxPkt} (e : s.placeOn l x = some t) (h : Keeps s0 s) : Keeps s0 t := by
  unfold State.placeOn at e
  split at e
  split at e
  · rename_i e1
    cases e
    refine keeps_queueOn _ _ _ (keeps_ite (keeps_overrunOn _ _ _ ?_) ?_) <;> exact keeps_of_snd e1 (keeps_chooseStrand _ _ _ h)
  · cases e

theorem keeps_sendOn {s : State} (l) (t_) (h0 : Keeps s0 s) : Keeps s0 (@State.sendOn s l t_) := by
  unfold State.sendOn
  repeat' (first | with_reducible assumption | (refine keeps_placeOn (by assumption) ?_) | with_reducible apply keeps_dropTx | with_reducible apply keeps_waitTx | (intro v; refine keeps_cut s0 v ?_ (fun hv => ?_); (on_goal 2 => try clear_value v); dsimp only [v]) | intro v | lift_lets | with_reducible apply keeps_ite | (simp only [keeps_mk_iff]; apply keepsP_of) | with_reducible rfl | split | (clear_value *; split) | dsimp only)

theorem keeps_inject {s : State} (t_) (h0 : Keeps s0 s) : Keeps s0 (@State.inject s t_) := by
  unfold State.inject
  repeat' (first | with_reducible assumption | (refine keeps_placeOn (by assumption) ?_) | with_reducible apply keeps_dropTx | with_reducible apply keeps_waitTx | (intro v; refine keeps_cut s0 v ?_ (fun hv => ?_); (on_goal 2 => try clear_value v); dsimp only [v]) | intro v | lift_lets | with_reducible apply keeps_ite | (simp only [keeps_mk_iff]; apply keepsP_of) | with_reducible rfl | split | (clear_value *; split) | dsimp only)

theorem keeps_readdress {s : State} (p) (dst) (h0 : Keeps s0 s) : Keeps s0 (@State.readdress s p dst).2 := by
  unfold State.readdress
  repeat' (first | with_reducible assumption | (intro v; refine keeps_cut s0 v ?_ (fun hv => ?_); (on_goal 2 => try clear_value v); dsimp only [v]) | intro v | lift_lets | (simp only [keeps_mk_iff]; apply keepsP_of) | with_reducible rfl | (refine keeps_of_snd (by with_reducible assumption) ?_) | (refine keeps_of_fst (by with_reducible assumption) ?_) | split | (clear_value *; split) | with_reducible apply keeps_seal | dsimp only)

theorem keeps_offLink {s : State} (t_) (h0 : Keeps s0 s) : Keeps s0 (@State.offLink s t_) := by
  unfold State.offLink
  repeat' (first | with_reducible assumption | with_reducible apply keeps_inject | with_reducible apply keeps_dropTx | (intro v; refine keeps_cut s0 v ?_ (fun hv => ?_); (on_goal 2 => try clear_value v); dsimp only [v]) | intro v | lift_lets | with_reducible apply keeps_ite | (simp only [keeps_mk_iff]; apply keepsP_of) | with_reducible rfl | (refine keeps_of_snd (by with_reducible assumption) ?_) | (refine keeps_of_fst (by with_reducible assumption) ?_) | split | (clear_value *; split) | with_reducible apply keeps_readdress | dsimp only)

theorem keeps_requeue {s : State} (l) (t_) (h0 : Keeps s0 s) : Keeps s0 (@State.requeue s l t_) := by
  unfold State.requeue
  repeat' (first | with_reducible assumption | with_reducible apply keeps_offLink | with_reducible apply keeps_sendOn | (intro v; refine keeps_cut s0 v ?_ (fun hv => ?_); (on_goal 2 => try clear_value v); dsimp only [v]) | intro v | lift_lets | with_reducible apply keeps_ite | (simp only [keeps_mk_iff]; apply keepsP_of) | with_reducible rfl | split | (clear_value *; split) | dsimp only)

theorem keeps_retry {s : State} (t_) (h0 : Keeps s0 s) : Keeps s0 (@State.retry s t_) := by
  unfold State.retry
  repeat' (first | with_reducible assumption | with_reducible apply keeps_requeue | with_reducible apply keeps_inject | (intro v; refine keeps_cut s0 v ?_ (fun hv => ?_); (on_goal 2 => try clear_value v); dsimp only [v]) | intro v | lift_lets | (simp only [keeps_mk_iff]; apply keepsP_of) | with_reducible rfl | split | (clear_value *; split) | dsimp only)

theorem keeps_retryWaiting {s : State} (h0 : Keeps s0 s) : Keeps s0 (@State.retryWaiting s) := by
  unfold State.retryWaiting
  repeat' (first | with_reducible assumption | with_reducible apply keeps_retry | (intro v; refine keeps_cut s0 v ?_ (fun hv => ?_); (on_goal 2 => try clear_value v); dsimp only [v]) | intro v | lift_lets | with_reducible apply keeps_foldl | with_reducible apply keeps_foldl_fst | with_reducible apply keeps_foldl_snd | (simp only [keeps_mk_iff]; apply keepsP_of) | with_reducible rfl | split | (clear_value *; split) | dsimp only)

theorem keeps_injectSealed {r : Option Packet × State} (sched : Option Nat) (course : Nat) (pin : Option (Nat × Nat)) (die : Option Nat)
    (h : Keeps s0 r.2) : Keeps s0 (injectSealed r sched course pin die) := by
  unfold injectSealed
  split
  · exact keeps_inject _ h
  · exact keeps_bump _ _ _ h

theorem keeps_send {s : State} (q) (sched) (course) (pin) (die?) (h0 : Keeps s0 s) : Keeps s0 (@State.send s q sched course pin die?) := by
  unfold State.send
  repeat' (first | with_reducible assumption | with_reducible apply keeps_injectSealed | (intro v; refine keeps_cut s0 v ?_ (fun hv => ?_); (on_goal 2 => try clear_value v); dsimp only [v]) | intro v | lift_lets | (simp only [keeps_mk_iff]; apply keepsP_of) | with_reducible rfl | (refine keeps_of_snd (by with_reducible assumption) ?_) | (refine keeps_of_fst (by with_reducible assumption) ?_) | split | (clear_value *; split) | with_reducible apply keeps_seal | dsimp only)

theorem keeps_sendSealedOn {r : Option Packet × State} (l : Nat) (h : Keeps s0 r.2) : Keeps s0 (sendSealedOn r l) := by
  unfold sendSealedOn
  split
  · exact keeps_sendOn _ _ h
  · exact keeps_bump _ _ _ h

theorem keeps_sendLink {s : State} (l) (q) (h0 : Keeps s0 s) : Keeps s0 (@State.sendLink s l q) := by
  unfold State.sendLink
  repeat' (first | with_reducible assumption | with_reducible apply keeps_sendSealedOn | (intro v; refine keeps_cut s0 v ?_ (fun hv => ?_); (on_goal 2 => try clear_value v); dsimp only [v]) | intro v | lift_lets | (simp only [keeps_mk_iff]; apply keepsP_of) | with_reducible rfl | (refine keeps_of_snd (by with_reducible assumption) ?_) | (refine keeps_of_fst (by with_reducible assumption) ?_) | split | (clear_value *; split) | with_reducible apply keeps_seal | dsimp only)

theorem keeps_setSrcFlow {s : State} (k) (f) (h0 : Keeps s0 s) : Keeps s0 (@State.setSrcFlow s k f) := by
  unfold State.setSrcFlow
  repeat' (first | with_reducible assumption | (intro v; refine keeps_cut s0 v ?_ (fun hv => ?_); (on_goal 2 => try clear_value v); dsimp only [v]) | intro v | lift_lets | (simp only [keeps_mk_iff]; apply keepsP_of) | with_reducible rfl | split | (clear_value *; split) | dsimp only)

theorem keeps_setDstFlow {s : State} (k) (f) (h0 : Keeps s0 s) : Keeps s0 (@State.setDstFlow s k f) := by
  unfold State.setDstFlow
  repeat' (first | with_reducible assumption | (intro v; refine keeps_cut s0 v ?_ (fun hv => ?_); (on_goal 2 => try clear_value v); dsimp only [v]) | intro v | lift_lets | (simp only [keeps_mk_iff]; apply keepsP_of) | with_reducible rfl | split | (clear_value *; split) | dsimp only)

/-! ### Machine/Commands.lean -/

theorem keeps_scrWrite {s : State} (n) (ws) (h0 : Keeps s0 s) : Keeps s0 (@State.scrWrite s n ws) := by
  unfold State.scrWrite
  repeat' (first | with_reducible assumption | with_reducible apply keeps_land | (intro v; refine keeps_cut s0 v ?_ (fun hv => ?_); (on_goal 2 => try clear_value v); dsimp only [v]) | intro v | lift_lets | with_reducible apply keeps_foldl | with_reducible apply keeps_foldl_fst | with_reducible apply keeps_foldl_snd | (simp only [keeps_mk_iff]; apply keepsP_of) | with_reducible rfl | split | (clear_value *; split) | dsimp only)

theorem keeps_setNstat {s : State} (n) (b) (h0 : Keeps s0 s) : Keeps s0 (@State.setNstat s n b) := by
  unfold State.setNstat
  repeat' (first | with_reducible assumption | with_reducible apply keeps_setCore | (intro v; refine keeps_cut s0 v ?_ (fun hv => ?_); (on_goal 2 => try clear_value v); dsimp only [v]) | intro v | lift_lets | (simp only [keeps_mk_iff]; apply keepsP_of) | with_reducible rfl | split | (clear_value *; split) | dsimp only)

/-! ### Machine/MatrixOps.lean -/

theorem keeps_unlessPoison {s run : State} (gs : List Nat) (h : Keeps s0 s) (hr : Keeps s0 run) : Keeps s0 (s.unlessPoison gs run).1 := by
  cases gs with
  | nil => exact hr
  | cons g rest => exact h

theorem keeps_mxZeroRun (n) (q) {s : State} (h0 : Keeps s0 s) : Keeps s0 (@mxZeroRun n q s).1 := by
  unfold mxZeroRun
  repeat' (first | with_reducible assumption | with_reducible apply keeps_setCore | (intro v; refine keeps_cut s0 v ?_ (fun hv => ?_); (on_goal 2 => try clear_value v); dsimp only [v]) | intro v | lift_lets | with_reducible apply keeps_ite | (simp only [keeps_mk_iff]; apply keepsP_of) | with_reducible rfl | split | (clear_value *; split) | dsimp only)

theorem keeps_mxMacEffect (n) (q) {s : State} (h0 : Keeps s0 s) : Keeps s0 (@mxMacEffect n q s) := by
  unfold mxMacEffect
  repeat' (first | with_reducible assumption | with_reducible apply keeps_setCore | (intro v; refine keeps_cut s0 v ?_ (fun hv => ?_); (on_goal 2 => try clear_value v); dsimp only [v]) | intro v | lift_lets | (simp only [keeps_mk_iff]; apply keepsP_of) | with_reducible rfl | split | (clear_value *; split) | dsimp only)

theorem keeps_mxMacRun (n) (q) {s : State} (h0 : Keeps s0 s) : Keeps s0 (@mxMacRun n q s).1 := by
  unfold mxMacRun
  repeat' (first | with_reducible assumption | with_reducible apply keeps_mxMacEffect | (intro v; refine keeps_cut s0 v ?_ (fun hv => ?_); (on_goal 2 => try clear_value v); dsimp only [v]) | intro v | lift_lets | (simp only [keeps_mk_iff]; apply keepsP_of) | with_reducible rfl | (refine keeps_of_snd (by with_reducible assumption) ?_) | (refine keeps_of_fst (by with_reducible assumption) ?_) | split | (clear_value *; split) | with_reducible apply keeps_unlessPoison | dsimp only)

theorem keeps_mxOutRun (n) (q) {s : State} (h0 : Keeps s0 s) : Keeps s0 (@mxOutRun n q s).1 := by
  unfold mxOutRun
  repeat' (first | with_reducible assumption | with_reducible apply keeps_scrWrite | with_reducible apply keeps_setNstat | (intro v; refine keeps_cut s0 v ?_ (fun hv => ?_); (on_goal 2 => try clear_value v); dsimp only [v]) | intro v | lift_lets | with_reducible apply keeps_foldl | with_reducible apply keeps_foldl_fst | with_reducible apply keeps_foldl_snd | (simp only [keeps_mk_iff]; apply keepsP_of) | with_reducible rfl | split | (clear_value *; split) | dsimp only)

theorem keeps_mxStoreRun (n) (q) {s : State} (h0 : Keeps s0 s) : Keeps s0 (@mxStoreRun n q s).1 := by
  unfold mxStoreRun
  repeat' (first | with_reducible assumption | with_reducible apply keeps_scrWrite | (intro v; refine keeps_cut s0 v ?_ (fun hv => ?_); (on_goal 2 => try clear_value v); dsimp only [v]) | intro v | lift_lets | with_reducible apply keeps_foldl | with_reducible apply keeps_foldl_fst | with_reducible apply keeps_foldl_snd | (simp only [keeps_mk_iff]; apply keepsP_of) | with_reducible rfl | split | (clear_value *; split) | dsimp only)

theorem keeps_mxAddwEffect (n) (q) {s : State} (h0 : Keeps s0 s) : Keeps s0 (@mxAddwEffect n q s) := by
  unfold mxAddwEffect
  repeat' (first | with_reducible assumption | with_reducible apply keeps_setCore | (intro v; refine keeps_cut s0 v ?_ (fun hv => ?_); (on_goal 2 => try clear_value v); dsimp only [v]) | intro v | lift_lets | (simp only [keeps_mk_iff]; apply keepsP_of) | with_reducible rfl | split | (clear_value *; split) | dsimp only)

theorem keeps_mxAddwRun (n) (q) {s : State} (h0 : Keeps s0 s) : Keeps s0 (@mxAddwRun n q s).1 := by
  unfold mxAddwRun
  repeat' (first | with_reducible assumption | with_reducible apply keeps_mxAddwEffect | (intro v; refine keeps_cut s0 v ?_ (fun hv => ?_); (on_goal 2 => try clear_value v); dsimp only [v]) | intro v | lift_lets | (simp only [keeps_mk_iff]; apply keepsP_of) | with_reducible rfl | (refine keeps_of_snd (by with_reducible assumption) ?_) | (refine keeps_of_fst (by with_reducible assumption) ?_) | split | (clear_value *; split) | with_reducible apply keeps_unlessPoison | dsimp only)

theorem keeps_mxBiasRun (n) (q) {s : State} (h0 : Keeps s0 s) : Keeps s0 (@mxBiasRun n q s).1 := by
  unfold mxBiasRun
  repeat' (first | with_reducible assumption | with_reducible apply keeps_setCore | (intro v; refine keeps_cut s0 v ?_ (fun hv => ?_); (on_goal 2 => try clear_value v); dsimp only [v]) | intro v | lift_lets | (simp only [keeps_mk_iff]; apply keepsP_of) | with_reducible rfl | (refine keeps_of_snd (by with_reducible assumption) ?_) | (refine keeps_of_fst (by with_reducible assumption) ?_) | split | (clear_value *; split) | with_reducible apply keeps_unlessPoison | dsimp only)

theorem keeps_mxFlagsRun (n) (q) {s : State} (h0 : Keeps s0 s) : Keeps s0 (@mxFlagsRun n q s).1 := by
  unfold mxFlagsRun
  repeat' (first | with_reducible assumption | with_reducible apply keeps_scrWrite | (intro v; refine keeps_cut s0 v ?_ (fun hv => ?_); (on_goal 2 => try clear_value v); dsimp only [v]) | intro v | lift_lets | (simp only [keeps_mk_iff]; apply keepsP_of) | with_reducible rfl | split | (clear_value *; split) | dsimp only)

theorem keeps_mxRun (n) (q) {s : State} (h0 : Keeps s0 s) : Keeps s0 (@mxRun n q s).1 := by
  unfold mxRun
  repeat' (first | with_reducible assumption | (intro v; refine keeps_cut s0 v ?_ (fun hv => ?_); (on_goal 2 => try clear_value v); dsimp only [v]) | intro v | lift_lets | (simp only [keeps_mk_iff]; apply keepsP_of) | with_reducible rfl | (refine keeps_of_snd (by with_reducible assumption) ?_) | (refine keeps_of_fst (by with_reducible assumption) ?_) | split | (clear_value *; split) | with_reducible apply keeps_mxZeroRun | with_reducible apply keeps_mxMacRun | with_reducible apply keeps_mxOutRun | with_reducible apply keeps_mxStoreRun | with_reducible apply keeps_mxAddwRun | with_reducible apply keeps_mxBiasRun | with_reducible apply keeps_mxFlagsRun | dsimp only)

/-! ### Machine/VectorOps.lean -/

theorem keeps_vRow {s : State} (n) (q) (i) (h0 : Keeps s0 s) : Keeps s0 (@State.vRow s n q i).1 := by
  unfold State.vRow
  repeat' (first | with_reducible assumption | with_reducible apply keeps_setNstat | with_reducible apply keeps_scrWrite | with_reducible apply keeps_setCore | (intro v; refine keeps_cut s0 v ?_ (fun hv => ?_); (on_goal 2 => try clear_value v); dsimp only [v]) | intro v | lift_lets | with_reducible apply keeps_ite | (simp only [keeps_mk_iff]; apply keepsP_of) | with_reducible rfl | split | (clear_value *; split) | dsimp only)

theorem keeps_vRows {s start : State} (n : Nat) (q : QEntry) (k i : Nat) (h : Keeps s0 s) (hs : Keeps s0 start) :
    Keeps s0 (s.vRows start n q k i).1 := by
  induction k generalizing s i with
  | zero => exact h
  | succ k ih =>
    unfold State.vRows
    have hv := keeps_vRow n q i h
    generalize s.vRow n q i = r at hv ⊢
    obtain ⟨s1, gs⟩ := r
    cases gs with
    | nil => exact ih _ hv
    | cons g rest => exact keeps_partly _ _ hs

theorem keeps_vMaskRun (n) (q) {s : State} (h0 : Keeps s0 s) : Keeps s0 (@vMaskRun n q s) := by
  unfold vMaskRun
  repeat' (first | with_reducible assumption | with_reducible apply keeps_setCore | (intro v; refine keeps_cut s0 v ?_ (fun hv => ?_); (on_goal 2 => try clear_value v); dsimp only [v]) | intro v | lift_lets | with_reducible apply keeps_foldl | with_reducible apply keeps_foldl_fst | with_reducible apply keeps_foldl_snd | with_reducible apply keeps_ite | (simp only [keeps_mk_iff]; apply keepsP_of) | with_reducible rfl | split | (clear_value *; split) | dsimp only)

theorem keeps_vReduceRun (n) (q) {s : State} (h0 : Keeps s0 s) : Keeps s0 (@vReduceRun n q s) := by
  unfold vReduceRun
  repeat' (first | with_reducible assumption | with_reducible apply keeps_setCore | (intro v; refine keeps_cut s0 v ?_ (fun hv => ?_); (on_goal 2 => try clear_value v); dsimp only [v]) | intro v | lift_lets | with_reducible apply keeps_ite | (simp only [keeps_mk_iff]; apply keepsP_of) | with_reducible rfl | split | (clear_value *; split) | dsimp only)

theorem keeps_vLoadRun (n) (q) {s : State} (os) (h0 : Keeps s0 s) : Keeps s0 (@vLoadRun n q s os).1 := by
  unfold vLoadRun
  repeat' (first | with_reducible assumption | with_reducible apply keeps_setCore | (intro v; refine keeps_cut s0 v ?_ (fun hv => ?_); (on_goal 2 => try clear_value v); dsimp only [v]) | intro v | lift_lets | (simp only [keeps_mk_iff]; apply keepsP_of) | with_reducible rfl | (refine keeps_of_snd (by with_reducible assumption) ?_) | (refine keeps_of_fst (by with_reducible assumption) ?_) | split | (clear_value *; split) | with_reducible apply keeps_unlessPoison | dsimp only)

theorem keeps_vMemRun (n) (q) {s : State} (h0 : Keeps s0 s) : Keeps s0 (@vMemRun n q s).1 := by
  unfold vMemRun
  repeat' (first | with_reducible assumption | with_reducible apply keeps_scrWrite | with_reducible apply keeps_setCore | (intro v; refine keeps_cut s0 v ?_ (fun hv => ?_); (on_goal 2 => try clear_value v); dsimp only [v]) | intro v | lift_lets | with_reducible apply keeps_ite | (simp only [keeps_mk_iff]; apply keepsP_of) | with_reducible rfl | (refine keeps_of_snd (by with_reducible assumption) ?_) | (refine keeps_of_fst (by with_reducible assumption) ?_) | split | (clear_value *; split) | with_reducible apply keeps_vLoadRun | with_reducible apply keeps_unlessPoison | dsimp only)

theorem keeps_vRun (n) (q) {s : State} (h0 : Keeps s0 s) : Keeps s0 (@vRun n q s).1 := by
  unfold vRun
  repeat' (first | with_reducible assumption | with_reducible apply keeps_vMaskRun | with_reducible apply keeps_vReduceRun | (intro v; refine keeps_cut s0 v ?_ (fun hv => ?_); (on_goal 2 => try clear_value v); dsimp only [v]) | intro v | lift_lets | with_reducible apply keeps_ite | (simp only [keeps_mk_iff]; apply keepsP_of) | with_reducible rfl | (refine keeps_of_snd (by with_reducible assumption) ?_) | (refine keeps_of_fst (by with_reducible assumption) ?_) | split | (clear_value *; split) | with_reducible apply keeps_vMemRun | with_reducible apply keeps_vRows | dsimp only)

/-! ### Machine/Faults.lean -/

theorem keeps_writeFaultState {s : State} (n) (f) (h0 : Keeps s0 s) : Keeps s0 (@State.writeFaultState s n f) := by
  unfold State.writeFaultState
  repeat' (first | with_reducible assumption | with_reducible apply keeps_setReg | (intro v; refine keeps_cut s0 v ?_ (fun hv => ?_); (on_goal 2 => try clear_value v); dsimp only [v]) | intro v | lift_lets | (simp only [keeps_mk_iff]; apply keepsP_of) | with_reducible rfl | split | (clear_value *; split) | dsimp only)

theorem keeps_faultCompletion {s : State} (n) (status) (h0 : Keeps s0 s) : Keeps s0 (@State.faultCompletion s n status) := by
  unfold State.faultCompletion
  repeat' (first | with_reducible assumption | with_reducible apply keeps_writeCpl | (intro v; refine keeps_cut s0 v ?_ (fun hv => ?_); (on_goal 2 => try clear_value v); dsimp only [v]) | intro v | lift_lets | with_reducible apply keeps_ite | (simp only [keeps_mk_iff]; apply keepsP_of) | with_reducible rfl | split | (clear_value *; split) | dsimp only)

theorem keeps_strayWrites {s : State} (n) (h0 : Keeps s0 s) : Keeps s0 (@State.strayWrites s n) := by
  unfold State.strayWrites
  repeat' (first | with_reducible assumption | (refine keeps_accumulate (by assumption) ?_) | with_reducible apply keeps_land | (intro v; refine keeps_cut s0 v ?_ (fun hv => ?_); (on_goal 2 => try clear_value v); dsimp only [v]) | intro v | lift_lets | with_reducible apply keeps_foldl | with_reducible apply keeps_foldl_fst | with_reducible apply keeps_foldl_snd | with_reducible apply keeps_ite | (simp only [keeps_mk_iff]; apply keepsP_of) | with_reducible rfl | (refine keeps_of_snd (by with_reducible assumption) ?_) | (refine keeps_of_fst (by with_reducible assumption) ?_) | split | (clear_value *; split) | with_reducible apply keeps_fresh | dsimp only)

theorem keeps_strayGranules {s : State} (n) (e) (h0 : Keeps s0 s) : Keeps s0 (@State.strayGranules s n e) := by
  unfold State.strayGranules
  repeat' (first | with_reducible assumption | with_reducible apply keeps_setCore | with_reducible apply keeps_partly | (intro v; refine keeps_cut s0 v ?_ (fun hv => ?_); (on_goal 2 => try clear_value v); dsimp only [v]) | intro v | lift_lets | with_reducible apply keeps_ite | (simp only [keeps_mk_iff]; apply keepsP_of) | with_reducible rfl | (refine keeps_of_snd (by with_reducible assumption) ?_) | (refine keeps_of_fst (by with_reducible assumption) ?_) | split | (clear_value *; split) | with_reducible apply keeps_mxRun | with_reducible apply keeps_vRun | dsimp only)

theorem keeps_stopCore {s : State} (n) (f) (h0 : Keeps s0 s) : Keeps s0 (@State.stopCore s n f) := by
  unfold State.stopCore
  repeat' (first | with_reducible assumption | with_reducible apply keeps_drain | with_reducible apply keeps_strayGranules | with_reducible apply keeps_writeFaultState | with_reducible apply keeps_faultCompletion | with_reducible apply keeps_strayWrites | with_reducible apply keeps_setCore | with_reducible apply keeps_unwatch | (intro v; refine keeps_cut s0 v ?_ (fun hv => ?_); (on_goal 2 => try clear_value v); dsimp only [v]) | intro v | lift_lets | (simp only [keeps_mk_iff]; apply keepsP_of) | with_reducible rfl | split | (clear_value *; split) | dsimp only)

/-! ### Machine/Abort.lean -/

theorem keeps_dropRecords {s : State} (p) (h0 : Keeps s0 s) : Keeps s0 (@State.dropRecords s p) := by
  unfold State.dropRecords
  repeat' (first | with_reducible assumption | (intro v; refine keeps_cut s0 v ?_ (fun hv => ?_); (on_goal 2 => try clear_value v); dsimp only [v]) | intro v | lift_lets | (simp only [keeps_mk_iff]; apply keepsP_of) | with_reducible rfl | split | (clear_value *; split) | dsimp only)

theorem keeps_advanceGen {s : State} (p) (h0 : Keeps s0 s) : Keeps s0 (@State.advanceGen s p) := by
  unfold State.advanceGen
  repeat' (first | with_reducible assumption | with_reducible apply keeps_setF | with_reducible apply keeps_dropRecords | (intro v; refine keeps_cut s0 v ?_ (fun hv => ?_); (on_goal 2 => try clear_value v); dsimp only [v]) | intro v | lift_lets | (simp only [keeps_mk_iff]; apply keepsP_of) | with_reducible rfl | split | (clear_value *; split) | dsimp only)

theorem keeps_setSlot {s : State} (n) (x) (h0 : Keeps s0 s) : Keeps s0 (@State.setSlot s n x) := by
  unfold State.setSlot
  repeat' (first | with_reducible assumption | (intro v; refine keeps_cut s0 v ?_ (fun hv => ?_); (on_goal 2 => try clear_value v); dsimp only [v]) | intro v | lift_lets | (simp only [keeps_mk_iff]; apply keepsP_of) | with_reducible rfl | split | (clear_value *; split) | dsimp only)

theorem keeps_dropFan {s : State} (n) (h0 : Keeps s0 s) : Keeps s0 (@State.dropFan s n) := by
  unfold State.dropFan
  repeat' (first | with_reducible assumption | (intro v; refine keeps_cut s0 v ?_ (fun hv => ?_); (on_goal 2 => try clear_value v); dsimp only [v]) | intro v | lift_lets | (simp only [keeps_mk_iff]; apply keepsP_of) | with_reducible rfl | split | (clear_value *; split) | dsimp only)

theorem keeps_slotFault {s : State} (n) (status) (h0 : Keeps s0 s) : Keeps s0 (@State.slotFault s n status) := by
  unfold State.slotFault
  repeat' (first | with_reducible assumption | with_reducible apply keeps_setF | with_reducible apply keeps_setSlot | with_reducible apply keeps_unwatch | with_reducible apply keeps_dropFan | (intro v; refine keeps_cut s0 v ?_ (fun hv => ?_); (on_goal 2 => try clear_value v); dsimp only [v]) | intro v | lift_lets | (simp only [keeps_mk_iff]; apply keepsP_of) | with_reducible rfl | split | (clear_value *; split) | dsimp only)

theorem keeps_discardJob {s : State} (job) (h0 : Keeps s0 s) : Keeps s0 (@State.discardJob s job) := by
  unfold State.discardJob
  repeat' (first | with_reducible assumption | with_reducible apply keeps_freeForward | with_reducible apply keeps_slotFault | with_reducible apply keeps_consume | (intro v; refine keeps_cut s0 v ?_ (fun hv => ?_); (on_goal 2 => try clear_value v); dsimp only [v]) | intro v | lift_lets | with_reducible apply keeps_foldl | with_reducible apply keeps_foldl_fst | with_reducible apply keeps_foldl_snd | (simp only [keeps_mk_iff]; apply keepsP_of) | with_reducible rfl | split | (clear_value *; split) | dsimp only)

theorem keeps_faultStop {s : State} (n) (f) (h0 : Keeps s0 s) : Keeps s0 (@State.faultStop s n f) := by
  unfold State.faultStop
  repeat' (first | with_reducible assumption | with_reducible apply keeps_stopCore | with_reducible apply keeps_record | with_reducible apply keeps_hwFault | (intro v; refine keeps_cut s0 v ?_ (fun hv => ?_); (on_goal 2 => try clear_value v); dsimp only [v]) | intro v | lift_lets | (simp only [keeps_mk_iff]; apply keepsP_of) | with_reducible rfl | split | (clear_value *; split) | dsimp only)

theorem keeps_stopCores {s : State} (p) (h0 : Keeps s0 s) : Keeps s0 (@State.stopCores s p) := by
  unfold State.stopCores
  repeat' (first | with_reducible assumption | with_reducible apply keeps_faultStop | (intro v; refine keeps_cut s0 v ?_ (fun hv => ?_); (on_goal 2 => try clear_value v); dsimp only [v]) | intro v | lift_lets | with_reducible apply keeps_foldl | with_reducible apply keeps_foldl_fst | with_reducible apply keeps_foldl_snd | (simp only [keeps_mk_iff]; apply keepsP_of) | with_reducible rfl | split | (clear_value *; split) | dsimp only)

theorem keeps_flushPart {s : State} (p) (h0 : Keeps s0 s) : Keeps s0 (@State.flushPart s p) := by
  unfold State.flushPart
  repeat' (first | with_reducible assumption | with_reducible apply keeps_flushQueue | (intro v; refine keeps_cut s0 v ?_ (fun hv => ?_); (on_goal 2 => try clear_value v); dsimp only [v]) | intro v | lift_lets | with_reducible apply keeps_foldl | with_reducible apply keeps_foldl_fst | with_reducible apply keeps_foldl_snd | with_reducible apply keeps_ite | (simp only [keeps_mk_iff]; apply keepsP_of) | with_reducible rfl | split | (clear_value *; split) | dsimp only)

theorem keeps_abortPart {s : State} (p) (h0 : Keeps s0 s) : Keeps s0 (@State.abortPart s p) := by
  unfold State.abortPart
  repeat' (first | with_reducible assumption | with_reducible apply keeps_advanceGen | with_reducible apply keeps_stopCores | with_reducible apply keeps_flushPart | with_reducible apply keeps_batZero | (intro v; refine keeps_cut s0 v ?_ (fun hv => ?_); (on_goal 2 => try clear_value v); dsimp only [v]) | intro v | lift_lets | with_reducible apply keeps_foldl | with_reducible apply keeps_foldl_fst | with_reducible apply keeps_foldl_snd | (simp only [keeps_mk_iff]; apply keepsP_of) | with_reducible rfl | split | (clear_value *; split) | dsimp only)

theorem keeps_abortLocal {s : State} (job) (status) (fence) (fepoch) (origin) (h0 : Keeps s0 s) : Keeps s0 (@State.abortLocal s job status fence fepoch origin) := by
  unfold State.abortLocal
  repeat' (first | with_reducible assumption | with_reducible apply keeps_abortPart | with_reducible apply keeps_discardJob | with_reducible apply keeps_record | (intro v; refine keeps_cut s0 v ?_ (fun hv => ?_); (on_goal 2 => try clear_value v); dsimp only [v]) | intro v | lift_lets | with_reducible apply keeps_foldl | with_reducible apply keeps_foldl_fst | with_reducible apply keeps_foldl_snd | (simp only [keeps_mk_iff]; apply keepsP_of) | with_reducible rfl | split | (clear_value *; split) | dsimp only)

theorem keeps_showAbort {s : State} (job) (h0 : Keeps s0 s) : Keeps s0 (@State.showAbort s job) := by
  unfold State.showAbort
  repeat' (first | with_reducible assumption | with_reducible apply keeps_setReg | (intro v; refine keeps_cut s0 v ?_ (fun hv => ?_); (on_goal 2 => try clear_value v); dsimp only [v]) | intro v | lift_lets | (simp only [keeps_mk_iff]; apply keepsP_of) | with_reducible rfl | split | (clear_value *; split) | dsimp only)

theorem keeps_enterWindow {s : State} (job) (status) (fence) (fepoch) (origin) (cls) (h0 : Keeps s0 s) : Keeps s0 (@State.enterWindow s job status fence fepoch origin cls) := by
  unfold State.enterWindow
  repeat' (first | with_reducible assumption | with_reducible apply keeps_showAbort | (intro v; refine keeps_cut s0 v ?_ (fun hv => ?_); (on_goal 2 => try clear_value v); dsimp only [v]) | intro v | lift_lets | (simp only [keeps_mk_iff]; apply keepsP_of) | with_reducible rfl | split | (clear_value *; split) | dsimp only)

theorem keeps_sendAborts {s : State} (job) (status) (fence) (fepoch) (origin) (cls) (skip) (h0 : Keeps s0 s) : Keeps s0 (@State.sendAborts s job status fence fepoch origin cls skip) := by
  unfold State.sendAborts
  repeat' (first | with_reducible assumption | with_reducible apply keeps_sendLink | (intro v; refine keeps_cut s0 v ?_ (fun hv => ?_); (on_goal 2 => try clear_value v); dsimp only [v]) | intro v | lift_lets | with_reducible apply keeps_foldl | with_reducible apply keeps_foldl_fst | with_reducible apply keeps_foldl_snd | (simp only [keeps_mk_iff]; apply keepsP_of) | with_reducible rfl | split | (clear_value *; split) | dsimp only)

theorem keeps_raiseAbort {s : State} (job) (status) (cls) (h0 : Keeps s0 s) : Keeps s0 (@State.raiseAbort s job status cls) := by
  unfold State.raiseAbort
  repeat' (first | with_reducible assumption | with_reducible apply keeps_enterWindow | with_reducible apply keeps_abortLocal | with_reducible apply keeps_sendAborts | (intro v; refine keeps_cut s0 v ?_ (fun hv => ?_); (on_goal 2 => try clear_value v); dsimp only [v]) | intro v | lift_lets | with_reducible apply keeps_ite | (simp only [keeps_mk_iff]; apply keepsP_of) | with_reducible rfl | split | (clear_value *; split) | dsimp only)

theorem keeps_takeFault {s : State} (n) (f) (h0 : Keeps s0 s) : Keeps s0 (@State.takeFault s n f) := by
  unfold State.takeFault
  repeat' (first | with_reducible assumption | with_reducible apply keeps_faultStop | with_reducible apply keeps_raiseAbort | (intro v; refine keeps_cut s0 v ?_ (fun hv => ?_); (on_goal 2 => try clear_value v); dsimp only [v]) | intro v | lift_lets | with_reducible apply keeps_ite | (simp only [keeps_mk_iff]; apply keepsP_of) | with_reducible rfl | split | (clear_value *; split) | dsimp only)

theorem keeps_scalarFault {s : State} (n) (causes) (addr) (trap) (h0 : Keeps s0 s) : Keeps s0 (@State.scalarFault s n causes addr trap) := by
  unfold State.scalarFault
  repeat' (first | with_reducible assumption | with_reducible apply keeps_takeFault | (intro v; refine keeps_cut s0 v ?_ (fun hv => ?_); (on_goal 2 => try clear_value v); dsimp only [v]) | intro v | lift_lets | (simp only [keeps_mk_iff]; apply keepsP_of) | with_reducible rfl | split | (clear_value *; split) | dsimp only)

theorem keeps_engineFault {s : State} (n) (e) (pc) (instr) (causes) (addr) (h0 : Keeps s0 s) : Keeps s0 (@State.engineFault s n e pc instr causes addr) := by
  unfold State.engineFault
  repeat' (first | with_reducible assumption | with_reducible apply keeps_takeFault | (intro v; refine keeps_cut s0 v ?_ (fun hv => ?_); (on_goal 2 => try clear_value v); dsimp only [v]) | intro v | lift_lets | (simp only [keeps_mk_iff]; apply keepsP_of) | with_reducible rfl | split | (clear_value *; split) | dsimp only)

/-! ### Machine/Operands.lean -/

theorem keeps_fillAmo {s : State} (a) (h0 : Keeps s0 s) : Keeps s0 (@State.fillAmo s a) := by
  unfold State.fillAmo
  repeat' (first | with_reducible assumption | with_reducible apply keeps_noteDecode | with_reducible apply keeps_bump | with_reducible apply keeps_eraseRaw | with_reducible apply keeps_mergeWrite | (intro v; refine keeps_cut s0 v ?_ (fun hv => ?_); (on_goal 2 => try clear_value v); dsimp only [v]) | intro v | lift_lets | with_reducible apply keeps_ite | (simp only [keeps_mk_iff]; apply keepsP_of) | with_reducible rfl | split | (clear_value *; split) | dsimp only)

theorem keeps_takeFetchFault {s : State} (n) (h0 : Keeps s0 s) : Keeps s0 (@State.takeFetchFault s n) := by
  unfold State.takeFetchFault
  repeat' (first | with_reducible assumption | with_reducible apply keeps_takeFault | (intro v; refine keeps_cut s0 v ?_ (fun hv => ?_); (on_goal 2 => try clear_value v); dsimp only [v]) | intro v | lift_lets | (simp only [keeps_mk_iff]; apply keepsP_of) | with_reducible rfl | split | (clear_value *; split) | dsimp only)

theorem keeps_issue {s : State} (n) (f) (regs) (legal) (run) (h0 : Keeps s0 s) (h1 : ∀ y0, Keeps s0 (run y0)) : Keeps s0 (@State.issue s n f regs legal run) := by
  unfold State.issue
  repeat' (first | with_reducible assumption | with_reducible apply h1 | with_reducible apply keeps_scalarFault | with_reducible apply keeps_takeFetchFault | (intro v; refine keeps_cut s0 v ?_ (fun hv => ?_); (on_goal 2 => try clear_value v); dsimp only [v]) | intro v | lift_lets | with_reducible apply keeps_ite | (simp only [keeps_mk_iff]; apply keepsP_of) | with_reducible rfl | split | (clear_value *; split) | dsimp only)

theorem keeps_issueCore {s : State} (n) (f) (regs) (legal) (cost) (run) (h0 : Keeps s0 s) : Keeps s0 (@State.issueCore s n f regs legal cost run) := by
  unfold State.issueCore
  repeat' (first | with_reducible assumption | with_reducible apply keeps_issue | with_reducible apply keeps_setCore | (intro v; refine keeps_cut s0 v ?_ (fun hv => ?_); (on_goal 2 => try clear_value v); dsimp only [v]) | intro v | lift_lets | (simp only [keeps_mk_iff]; apply keepsP_of) | with_reducible rfl | split | (clear_value *; split) | dsimp only)

/-! ### Machine/Scalar.lean -/

theorem keeps_execAlu (core) (rd) (rs1) (rs2) (func) {s : State} (h0 : Keeps s0 s) : KeepsO s0 (@execAlu core rd rs1 rs2 func s) := by
  unfold execAlu
  repeat' (first | with_reducible assumption | with_reducible apply keeps_issueCore | with_reducible apply keepsO_next | (intro v; refine keeps_cut s0 v ?_ (fun hv => ?_); (on_goal 2 => try clear_value v); dsimp only [v]) | intro v | lift_lets | (simp only [keeps_mk_iff]; apply keepsP_of) | with_reducible rfl | split | (clear_value *; split) | dsimp only)

theorem keeps_issueRI {s : State} (n) (major) (rd) (rs1) (imm) (f) (h0 : Keeps s0 s) : Keeps s0 (@State.issueRI s n major rd rs1 imm f) := by
  unfold State.issueRI
  repeat' (first | with_reducible assumption | with_reducible apply keeps_issueCore | (intro v; refine keeps_cut s0 v ?_ (fun hv => ?_); (on_goal 2 => try clear_value v); dsimp only [v]) | intro v | lift_lets | (simp only [keeps_mk_iff]; apply keepsP_of) | with_reducible rfl | split | (clear_value *; split) | dsimp only)

theorem keeps_execAddi (core) (rd) (rs1) (imm) {s : State} (h0 : Keeps s0 s) : KeepsO s0 (@execAddi core rd rs1 imm s) := by
  unfold execAddi
  repeat' (first | with_reducible assumption | with_reducible apply keeps_issueRI | with_reducible apply keepsO_next | (intro v; refine keeps_cut s0 v ?_ (fun hv => ?_); (on_goal 2 => try clear_value v); dsimp only [v]) | intro v | lift_lets | (simp only [keeps_mk_iff]; apply keepsP_of) | with_reducible rfl | split | (clear_value *; split) | dsimp only)

theorem keeps_execAndi (core) (rd) (rs1) (imm) {s : State} (h0 : Keeps s0 s) : KeepsO s0 (@execAndi core rd rs1 imm s) := by
  unfold execAndi
  repeat' (first | with_reducible assumption | with_reducible apply keeps_issueRI | with_reducible apply keepsO_next | (intro v; refine keeps_cut s0 v ?_ (fun hv => ?_); (on_goal 2 => try clear_value v); dsimp only [v]) | intro v | lift_lets | (simp only [keeps_mk_iff]; apply keepsP_of) | with_reducible rfl | split | (clear_value *; split) | dsimp only)

theorem keeps_execOri (core) (rd) (rs1) (imm) {s : State} (h0 : Keeps s0 s) : KeepsO s0 (@execOri core rd rs1 imm s) := by
  unfold execOri
  repeat' (first | with_reducible assumption | with_reducible apply keeps_issueRI | with_reducible apply keepsO_next | (intro v; refine keeps_cut s0 v ?_ (fun hv => ?_); (on_goal 2 => try clear_value v); dsimp only [v]) | intro v | lift_lets | (simp only [keeps_mk_iff]; apply keepsP_of) | with_reducible rfl | split | (clear_value *; split) | dsimp only)

theorem keeps_execXori (core) (rd) (rs1) (imm) {s : State} (h0 : Keeps s0 s) : KeepsO s0 (@execXori core rd rs1 imm s) := by
  unfold execXori
  repeat' (first | with_reducible assumption | with_reducible apply keeps_issueRI | with_reducible apply keepsO_next | (intro v; refine keeps_cut s0 v ?_ (fun hv => ?_); (on_goal 2 => try clear_value v); dsimp only [v]) | intro v | lift_lets | (simp only [keeps_mk_iff]; apply keepsP_of) | with_reducible rfl | split | (clear_value *; split) | dsimp only)

theorem keeps_execShifti (core) (rd) (rs1) (rs2) (func) {s : State} (h0 : Keeps s0 s) : KeepsO s0 (@execShifti core rd rs1 rs2 func s) := by
  unfold execShifti
  repeat' (first | with_reducible assumption | with_reducible apply keeps_issueCore | with_reducible apply keepsO_next | (intro v; refine keeps_cut s0 v ?_ (fun hv => ?_); (on_goal 2 => try clear_value v); dsimp only [v]) | intro v | lift_lets | (simp only [keeps_mk_iff]; apply keepsP_of) | with_reducible rfl | split | (clear_value *; split) | dsimp only)

theorem keeps_execSlti (core) (rd) (rs1) (imm) {s : State} (h0 : Keeps s0 s) : KeepsO s0 (@execSlti core rd rs1 imm s) := by
  unfold execSlti
  repeat' (first | with_reducible assumption | with_reducible apply keeps_issueRI | with_reducible apply keepsO_next | (intro v; refine keeps_cut s0 v ?_ (fun hv => ?_); (on_goal 2 => try clear_value v); dsimp only [v]) | intro v | lift_lets | with_reducible apply keeps_ite | (simp only [keeps_mk_iff]; apply keepsP_of) | with_reducible rfl | split | (clear_value *; split) | dsimp only)

theorem keeps_execLui (core) (rd) (rs1) (imm) {s : State} (h0 : Keeps s0 s) : KeepsO s0 (@execLui core rd rs1 imm s) := by
  unfold execLui
  repeat' (first | with_reducible assumption | with_reducible apply keeps_issueCore | with_reducible apply keepsO_next | (intro v; refine keeps_cut s0 v ?_ (fun hv => ?_); (on_goal 2 => try clear_value v); dsimp only [v]) | intro v | lift_lets | (simp only [keeps_mk_iff]; apply keepsP_of) | with_reducible rfl | split | (clear_value *; split) | dsimp only)

theorem keeps_execShin (core) (rd) (rs1) (imm) {s : State} (h0 : Keeps s0 s) : KeepsO s0 (@execShin core rd rs1 imm s) := by
  unfold execShin
  repeat' (first | with_reducible assumption | with_reducible apply keeps_issueRI | with_reducible apply keepsO_next | (intro v; refine keeps_cut s0 v ?_ (fun hv => ?_); (on_goal 2 => try clear_value v); dsimp only [v]) | intro v | lift_lets | (simp only [keeps_mk_iff]; apply keepsP_of) | with_reducible rfl | split | (clear_value *; split) | dsimp only)

theorem keeps_execSel (core) (rd) (rs1) (rs2) (func) {s : State} (h0 : Keeps s0 s) : KeepsO s0 (@execSel core rd rs1 rs2 func s) := by
  unfold execSel
  repeat' (first | with_reducible assumption | with_reducible apply keeps_issueCore | with_reducible apply keepsO_next | (intro v; refine keeps_cut s0 v ?_ (fun hv => ?_); (on_goal 2 => try clear_value v); dsimp only [v]) | intro v | lift_lets | with_reducible apply keeps_ite | (simp only [keeps_mk_iff]; apply keepsP_of) | with_reducible rfl | split | (clear_value *; split) | dsimp only)

theorem keeps_execLimm (core) (pred) (rd) (mbz) (imm) {s : State} (h0 : Keeps s0 s) : KeepsO s0 (@execLimm core pred rd mbz imm s) := by
  unfold execLimm
  repeat' (first | with_reducible assumption | with_reducible apply keeps_issueCore | with_reducible apply keepsO_next | (intro v; refine keeps_cut s0 v ?_ (fun hv => ?_); (on_goal 2 => try clear_value v); dsimp only [v]) | intro v | lift_lets | with_reducible apply keeps_ite | (simp only [keeps_mk_iff]; apply keepsP_of) | with_reducible rfl | split | (clear_value *; split) | dsimp only)

theorem keeps_execCmp (core) (rd) (rs1) (rs2) (func) {s : State} (h0 : Keeps s0 s) : KeepsO s0 (@execCmp core rd rs1 rs2 func s) := by
  unfold execCmp
  repeat' (first | with_reducible assumption | with_reducible apply keeps_issueCore | with_reducible apply keepsO_next | (intro v; refine keeps_cut s0 v ?_ (fun hv => ?_); (on_goal 2 => try clear_value v); dsimp only [v]) | intro v | lift_lets | (simp only [keeps_mk_iff]; apply keepsP_of) | with_reducible rfl | split | (clear_value *; split) | dsimp only)

theorem keeps_execCmpi (core) (rd) (rs1) (imm) {s : State} (h0 : Keeps s0 s) : KeepsO s0 (@execCmpi core rd rs1 imm s) := by
  unfold execCmpi
  repeat' (first | with_reducible assumption | with_reducible apply keeps_issueCore | with_reducible apply keepsO_next | (intro v; refine keeps_cut s0 v ?_ (fun hv => ?_); (on_goal 2 => try clear_value v); dsimp only [v]) | intro v | lift_lets | (simp only [keeps_mk_iff]; apply keepsP_of) | with_reducible rfl | split | (clear_value *; split) | dsimp only)

theorem keeps_execPlog (core) (rd) (rs1) (rs2) (func) {s : State} (h0 : Keeps s0 s) : KeepsO s0 (@execPlog core rd rs1 rs2 func s) := by
  unfold execPlog
  repeat' (first | with_reducible assumption | with_reducible apply keeps_issueCore | with_reducible apply keepsO_next | (intro v; refine keeps_cut s0 v ?_ (fun hv => ?_); (on_goal 2 => try clear_value v); dsimp only [v]) | intro v | lift_lets | with_reducible apply keeps_ite | (simp only [keeps_mk_iff]; apply keepsP_of) | with_reducible rfl | split | (clear_value *; split) | dsimp only)

theorem keeps_execJal (core) (rd) (imm) {s : State} (h0 : Keeps s0 s) : KeepsO s0 (@execJal core rd imm s) := by
  unfold execJal
  repeat' (first | with_reducible assumption | with_reducible apply keeps_issue | with_reducible apply keeps_setCore | with_reducible apply keepsO_next | (intro v; refine keeps_cut s0 v ?_ (fun hv => ?_); (on_goal 2 => try clear_value v); dsimp only [v]) | intro v | lift_lets | (simp only [keeps_mk_iff]; apply keepsP_of) | with_reducible rfl | split | (clear_value *; split) | dsimp only)

theorem keeps_execJalr (core) (rd) (rs1) (imm) {s : State} (h0 : Keeps s0 s) : KeepsO s0 (@execJalr core rd rs1 imm s) := by
  unfold execJalr
  repeat' (first | with_reducible assumption | with_reducible apply keeps_issue | with_reducible apply keeps_setCore | with_reducible apply keeps_scalarFault | with_reducible apply keepsO_next | (intro v; refine keeps_cut s0 v ?_ (fun hv => ?_); (on_goal 2 => try clear_value v); dsimp only [v]) | intro v | lift_lets | with_reducible apply keeps_ite | (simp only [keeps_mk_iff]; apply keepsP_of) | with_reducible rfl | split | (clear_value *; split) | dsimp only)

theorem keeps_branch {s : State} (n) (major) (ra) (rb) (off) (regs) (legal) (taken) (h0 : Keeps s0 s) : Keeps s0 (@State.branch s n major ra rb off regs legal taken) := by
  unfold State.branch
  repeat' (first | with_reducible assumption | with_reducible apply keeps_issue | with_reducible apply keeps_setCore | (intro v; refine keeps_cut s0 v ?_ (fun hv => ?_); (on_goal 2 => try clear_value v); dsimp only [v]) | intro v | lift_lets | with_reducible apply keeps_ite | (simp only [keeps_mk_iff]; apply keepsP_of) | with_reducible rfl | split | (clear_value *; split) | dsimp only)

theorem keeps_branchCond {s : State} (n) (major) (f) (ra) (rb) (off) (h0 : Keeps s0 s) : Keeps s0 (@State.branchCond s n major f ra rb off) := by
  unfold State.branchCond
  repeat' (first | with_reducible assumption | with_reducible apply keeps_branch | (intro v; refine keeps_cut s0 v ?_ (fun hv => ?_); (on_goal 2 => try clear_value v); dsimp only [v]) | intro v | lift_lets | (simp only [keeps_mk_iff]; apply keepsP_of) | with_reducible rfl | split | (clear_value *; split) | dsimp only)

theorem keeps_execBeq (core) (ra) (rb) (off) {s : State} (h0 : Keeps s0 s) : KeepsO s0 (@execBeq core ra rb off s) := by
  unfold execBeq
  repeat' (first | with_reducible assumption | with_reducible apply keeps_branchCond | with_reducible apply keepsO_next | (intro v; refine keeps_cut s0 v ?_ (fun hv => ?_); (on_goal 2 => try clear_value v); dsimp only [v]) | intro v | lift_lets | (simp only [keeps_mk_iff]; apply keepsP_of) | with_reducible rfl | split | (clear_value *; split) | dsimp only)

theorem keeps_execBne (core) (ra) (rb) (off) {s : State} (h0 : Keeps s0 s) : KeepsO s0 (@execBne core ra rb off s) := by
  unfold execBne
  repeat' (first | with_reducible assumption | with_reducible apply keeps_branchCond | with_reducible apply keepsO_next | (intro v; refine keeps_cut s0 v ?_ (fun hv => ?_); (on_goal 2 => try clear_value v); dsimp only [v]) | intro v | lift_lets | (simp only [keeps_mk_iff]; apply keepsP_of) | with_reducible rfl | split | (clear_value *; split) | dsimp only)

theorem keeps_execBlt (core) (ra) (rb) (off) {s : State} (h0 : Keeps s0 s) : KeepsO s0 (@execBlt core ra rb off s) := by
  unfold execBlt
  repeat' (first | with_reducible assumption | with_reducible apply keeps_branchCond | with_reducible apply keepsO_next | (intro v; refine keeps_cut s0 v ?_ (fun hv => ?_); (on_goal 2 => try clear_value v); dsimp only [v]) | intro v | lift_lets | (simp only [keeps_mk_iff]; apply keepsP_of) | with_reducible rfl | split | (clear_value *; split) | dsimp only)

theorem keeps_execBge (core) (ra) (rb) (off) {s : State} (h0 : Keeps s0 s) : KeepsO s0 (@execBge core ra rb off s) := by
  unfold execBge
  repeat' (first | with_reducible assumption | with_reducible apply keeps_branchCond | with_reducible apply keepsO_next | (intro v; refine keeps_cut s0 v ?_ (fun hv => ?_); (on_goal 2 => try clear_value v); dsimp only [v]) | intro v | lift_lets | (simp only [keeps_mk_iff]; apply keepsP_of) | with_reducible rfl | split | (clear_value *; split) | dsimp only)

theorem keeps_execBltu (core) (ra) (rb) (off) {s : State} (h0 : Keeps s0 s) : KeepsO s0 (@execBltu core ra rb off s) := by
  unfold execBltu
  repeat' (first | with_reducible assumption | with_reducible apply keeps_branchCond | with_reducible apply keepsO_next | (intro v; refine keeps_cut s0 v ?_ (fun hv => ?_); (on_goal 2 => try clear_value v); dsimp only [v]) | intro v | lift_lets | (simp only [keeps_mk_iff]; apply keepsP_of) | with_reducible rfl | split | (clear_value *; split) | dsimp only)

theorem keeps_execBgeu (core) (ra) (rb) (off) {s : State} (h0 : Keeps s0 s) : KeepsO s0 (@execBgeu core ra rb off s) := by
  unfold execBgeu
  repeat' (first | with_reducible assumption | with_reducible apply keeps_branchCond | with_reducible apply keepsO_next | (intro v; refine keeps_cut s0 v ?_ (fun hv => ?_); (on_goal 2 => try clear_value v); dsimp only [v]) | intro v | lift_lets | (simp only [keeps_mk_iff]; apply keepsP_of) | with_reducible rfl | split | (clear_value *; split) | dsimp only)

theorem keeps_execBp (core) (ra) (rb) (off) {s : State} (h0 : Keeps s0 s) : KeepsO s0 (@execBp core ra rb off s) := by
  unfold execBp
  repeat' (first | with_reducible assumption | with_reducible apply keeps_branch | with_reducible apply keepsO_next | (intro v; refine keeps_cut s0 v ?_ (fun hv => ?_); (on_goal 2 => try clear_value v); dsimp only [v]) | intro v | lift_lets | (simp only [keeps_mk_iff]; apply keepsP_of) | with_reducible rfl | split | (clear_value *; split) | dsimp only)

theorem keeps_execCwr (core) (rd) (rs1) (rs2) (func) {s : State} (h0 : Keeps s0 s) : KeepsO s0 (@execCwr core rd rs1 rs2 func s) := by
  unfold execCwr
  repeat' (first | with_reducible assumption | with_reducible apply keeps_issue | with_reducible apply keeps_setCore | with_reducible apply keepsO_next | (intro v; refine keeps_cut s0 v ?_ (fun hv => ?_); (on_goal 2 => try clear_value v); dsimp only [v]) | intro v | lift_lets | with_reducible apply keeps_ite | (simp only [keeps_mk_iff]; apply keepsP_of) | with_reducible rfl | (refine keeps_of_snd (by with_reducible assumption) ?_) | (refine keeps_of_fst (by with_reducible assumption) ?_) | split | (clear_value *; split) | with_reducible apply keeps_fresh | dsimp only)

theorem keeps_execCww (core) (rd) (rs1) (rs2) (func) {s : State} (h0 : Keeps s0 s) : KeepsO s0 (@execCww core rd rs1 rs2 func s) := by
  unfold execCww
  repeat' (first | with_reducible assumption | with_reducible apply keeps_issueCore | with_reducible apply keepsO_next | (intro v; refine keeps_cut s0 v ?_ (fun hv => ?_); (on_goal 2 => try clear_value v); dsimp only [v]) | intro v | lift_lets | (simp only [keeps_mk_iff]; apply keepsP_of) | with_reducible rfl | split | (clear_value *; split) | dsimp only)

theorem keeps_execEwait (core) (rd) (rs1) (imm) {s : State} (h0 : Keeps s0 s) : KeepsO s0 (@execEwait core rd rs1 imm s) := by
  unfold execEwait
  repeat' (first | with_reducible assumption | with_reducible apply keeps_issue | with_reducible apply keeps_setCore | with_reducible apply keepsO_next | (intro v; refine keeps_cut s0 v ?_ (fun hv => ?_); (on_goal 2 => try clear_value v); dsimp only [v]) | intro v | lift_lets | (simp only [keeps_mk_iff]; apply keepsP_of) | with_reducible rfl | split | (clear_value *; split) | dsimp only)

theorem keeps_execEset (core) (rd) (rs1) (imm) {s : State} (h0 : Keeps s0 s) : KeepsO s0 (@execEset core rd rs1 imm s) := by
  unfold execEset
  repeat' (first | with_reducible assumption | with_reducible apply keeps_issueCore | with_reducible apply keepsO_next | (intro v; refine keeps_cut s0 v ?_ (fun hv => ?_); (on_goal 2 => try clear_value v); dsimp only [v]) | intro v | lift_lets | with_reducible apply keeps_ite | (simp only [keeps_mk_iff]; apply keepsP_of) | with_reducible rfl | split | (clear_value *; split) | dsimp only)

theorem keeps_execEclr (core) (rd) (rs1) (imm) {s : State} (h0 : Keeps s0 s) : KeepsO s0 (@execEclr core rd rs1 imm s) := by
  unfold execEclr
  repeat' (first | with_reducible assumption | with_reducible apply keeps_issueCore | with_reducible apply keepsO_next | (intro v; refine keeps_cut s0 v ?_ (fun hv => ?_); (on_goal 2 => try clear_value v); dsimp only [v]) | intro v | lift_lets | (simp only [keeps_mk_iff]; apply keepsP_of) | with_reducible rfl | split | (clear_value *; split) | dsimp only)

theorem keeps_execEtst (core) (rd) (rs1) (imm) {s : State} (h0 : Keeps s0 s) : KeepsO s0 (@execEtst core rd rs1 imm s) := by
  unfold execEtst
  repeat' (first | with_reducible assumption | with_reducible apply keeps_issueCore | with_reducible apply keepsO_next | (intro v; refine keeps_cut s0 v ?_ (fun hv => ?_); (on_goal 2 => try clear_value v); dsimp only [v]) | intro v | lift_lets | (simp only [keeps_mk_iff]; apply keepsP_of) | with_reducible rfl | split | (clear_value *; split) | dsimp only)

theorem keeps_execFence (core) (rd) (rs1) (rs2) (func) {s : State} (h0 : Keeps s0 s) : KeepsO s0 (@execFence core rd rs1 rs2 func s) := by
  unfold execFence
  repeat' (first | with_reducible assumption | with_reducible apply keeps_issue | with_reducible apply keeps_setCore | with_reducible apply keepsO_next | (intro v; refine keeps_cut s0 v ?_ (fun hv => ?_); (on_goal 2 => try clear_value v); dsimp only [v]) | intro v | lift_lets | (simp only [keeps_mk_iff]; apply keepsP_of) | with_reducible rfl | split | (clear_value *; split) | dsimp only)

theorem keeps_execSysNop (core) {s : State} (h0 : Keeps s0 s) : KeepsO s0 (@execSysNop core s) := by
  unfold execSysNop
  repeat' (first | with_reducible assumption | with_reducible apply keeps_issueCore | with_reducible apply keepsO_next | (intro v; refine keeps_cut s0 v ?_ (fun hv => ?_); (on_goal 2 => try clear_value v); dsimp only [v]) | intro v | lift_lets | (simp only [keeps_mk_iff]; apply keepsP_of) | with_reducible rfl | split | (clear_value *; split) | dsimp only)

theorem keeps_execSysDone (core) (rs1) {s : State} (h0 : Keeps s0 s) : KeepsO s0 (@execSysDone core rs1 s) := by
  unfold execSysDone
  repeat' (first | with_reducible assumption | with_reducible apply keeps_issue | with_reducible apply keeps_setCore | with_reducible apply keepsO_next | (intro v; refine keeps_cut s0 v ?_ (fun hv => ?_); (on_goal 2 => try clear_value v); dsimp only [v]) | intro v | lift_lets | (simp only [keeps_mk_iff]; apply keepsP_of) | with_reducible rfl | split | (clear_value *; split) | dsimp only)

theorem keeps_execSysTrap (core) (rs1) {s : State} (h0 : Keeps s0 s) : KeepsO s0 (@execSysTrap core rs1 s) := by
  unfold execSysTrap
  repeat' (first | with_reducible assumption | with_reducible apply keeps_issue | with_reducible apply keeps_scalarFault | with_reducible apply keepsO_next | (intro v; refine keeps_cut s0 v ?_ (fun hv => ?_); (on_goal 2 => try clear_value v); dsimp only [v]) | intro v | lift_lets | (simp only [keeps_mk_iff]; apply keepsP_of) | with_reducible rfl | split | (clear_value *; split) | dsimp only)

theorem keeps_execSysIinv (core) {s : State} (h0 : Keeps s0 s) : KeepsO s0 (@execSysIinv core s) := by
  unfold execSysIinv
  repeat' (first | with_reducible assumption | with_reducible apply keeps_issueCore | with_reducible apply keepsO_next | (intro v; refine keeps_cut s0 v ?_ (fun hv => ?_); (on_goal 2 => try clear_value v); dsimp only [v]) | intro v | lift_lets | (simp only [keeps_mk_iff]; apply keepsP_of) | with_reducible rfl | split | (clear_value *; split) | dsimp only)

theorem keeps_execIcacheFill (core) (line) {s : State} (h0 : Keeps s0 s) : KeepsO s0 (@execIcacheFill core line s) := by
  unfold execIcacheFill
  repeat' (first | with_reducible assumption | with_reducible apply keeps_fillInstr | with_reducible apply keeps_scalarFault | with_reducible apply keepsO_next | (intro v; refine keeps_cut s0 v ?_ (fun hv => ?_); (on_goal 2 => try clear_value v); dsimp only [v]) | intro v | lift_lets | with_reducible apply keeps_ite | (simp only [keeps_mk_iff]; apply keepsP_of) | with_reducible rfl | split | (clear_value *; split) | dsimp only)

theorem keeps_execCoreFault (core) (cause) (engine) (later) {s : State} (h0 : Keeps s0 s) : KeepsO s0 (@execCoreFault core cause engine later s) := by
  unfold execCoreFault
  repeat' (first | with_reducible assumption | with_reducible apply keeps_takeFault | with_reducible apply keepsO_next | (intro v; refine keeps_cut s0 v ?_ (fun hv => ?_); (on_goal 2 => try clear_value v); dsimp only [v]) | intro v | lift_lets | with_reducible apply keeps_ite | (simp only [keeps_mk_iff]; apply keepsP_of) | with_reducible rfl | split | (clear_value *; split) | dsimp only)

/-! ### Machine/Access.lean -/

theorem keeps_issueLoad {s : State} (n) (major) (size) (signed) (vol) (rd) (rs1) (imm) (h0 : Keeps s0 s) : Keeps s0 (@State.issueLoad s n major size signed vol rd rs1 imm) := by
  unfold State.issueLoad
  repeat' (first | with_reducible assumption | with_reducible apply keeps_issue | with_reducible apply keeps_setCore | with_reducible apply keeps_scalarFault | (intro v; refine keeps_cut s0 v ?_ (fun hv => ?_); (on_goal 2 => try clear_value v); dsimp only [v]) | intro v | lift_lets | with_reducible apply keeps_ite | (simp only [keeps_mk_iff]; apply keepsP_of) | with_reducible rfl | split | (clear_value *; split) | dsimp only)

theorem keeps_execLdD (core) (rd) (rs1) (imm) {s : State} (h0 : Keeps s0 s) : KeepsO s0 (@execLdD core rd rs1 imm s) := by
  unfold execLdD
  repeat' (first | with_reducible assumption | with_reducible apply keeps_issueLoad | with_reducible apply keepsO_next | (intro v; refine keeps_cut s0 v ?_ (fun hv => ?_); (on_goal 2 => try clear_value v); dsimp only [v]) | intro v | lift_lets | (simp only [keeps_mk_iff]; apply keepsP_of) | with_reducible rfl | split | (clear_value *; split) | dsimp only)

theorem keeps_execLdW (core) (rd) (rs1) (imm) {s : State} (h0 : Keeps s0 s) : KeepsO s0 (@execLdW core rd rs1 imm s) := by
  unfold execLdW
  repeat' (first | with_reducible assumption | with_reducible apply keeps_issueLoad | with_reducible apply keepsO_next | (intro v; refine keeps_cut s0 v ?_ (fun hv => ?_); (on_goal 2 => try clear_value v); dsimp only [v]) | intro v | lift_lets | (simp only [keeps_mk_iff]; apply keepsP_of) | with_reducible rfl | split | (clear_value *; split) | dsimp only)

theorem keeps_execLdWu (core) (rd) (rs1) (imm) {s : State} (h0 : Keeps s0 s) : KeepsO s0 (@execLdWu core rd rs1 imm s) := by
  unfold execLdWu
  repeat' (first | with_reducible assumption | with_reducible apply keeps_issueLoad | with_reducible apply keepsO_next | (intro v; refine keeps_cut s0 v ?_ (fun hv => ?_); (on_goal 2 => try clear_value v); dsimp only [v]) | intro v | lift_lets | (simp only [keeps_mk_iff]; apply keepsP_of) | with_reducible rfl | split | (clear_value *; split) | dsimp only)

theorem keeps_execLdH (core) (rd) (rs1) (imm) {s : State} (h0 : Keeps s0 s) : KeepsO s0 (@execLdH core rd rs1 imm s) := by
  unfold execLdH
  repeat' (first | with_reducible assumption | with_reducible apply keeps_issueLoad | with_reducible apply keepsO_next | (intro v; refine keeps_cut s0 v ?_ (fun hv => ?_); (on_goal 2 => try clear_value v); dsimp only [v]) | intro v | lift_lets | (simp only [keeps_mk_iff]; apply keepsP_of) | with_reducible rfl | split | (clear_value *; split) | dsimp only)

theorem keeps_execLdHu (core) (rd) (rs1) (imm) {s : State} (h0 : Keeps s0 s) : KeepsO s0 (@execLdHu core rd rs1 imm s) := by
  unfold execLdHu
  repeat' (first | with_reducible assumption | with_reducible apply keeps_issueLoad | with_reducible apply keepsO_next | (intro v; refine keeps_cut s0 v ?_ (fun hv => ?_); (on_goal 2 => try clear_value v); dsimp only [v]) | intro v | lift_lets | (simp only [keeps_mk_iff]; apply keepsP_of) | with_reducible rfl | split | (clear_value *; split) | dsimp only)

theorem keeps_execLdB (core) (rd) (rs1) (imm) {s : State} (h0 : Keeps s0 s) : KeepsO s0 (@execLdB core rd rs1 imm s) := by
  unfold execLdB
  repeat' (first | with_reducible assumption | with_reducible apply keeps_issueLoad | with_reducible apply keepsO_next | (intro v; refine keeps_cut s0 v ?_ (fun hv => ?_); (on_goal 2 => try clear_value v); dsimp only [v]) | intro v | lift_lets | (simp only [keeps_mk_iff]; apply keepsP_of) | with_reducible rfl | split | (clear_value *; split) | dsimp only)

theorem keeps_execLdBu (core) (rd) (rs1) (imm) {s : State} (h0 : Keeps s0 s) : KeepsO s0 (@execLdBu core rd rs1 imm s) := by
  unfold execLdBu
  repeat' (first | with_reducible assumption | with_reducible apply keeps_issueLoad | with_reducible apply keepsO_next | (intro v; refine keeps_cut s0 v ?_ (fun hv => ?_); (on_goal 2 => try clear_value v); dsimp only [v]) | intro v | lift_lets | (simp only [keeps_mk_iff]; apply keepsP_of) | with_reducible rfl | split | (clear_value *; split) | dsimp only)

theorem keeps_execLdvD (core) (rd) (rs1) (imm) {s : State} (h0 : Keeps s0 s) : KeepsO s0 (@execLdvD core rd rs1 imm s) := by
  unfold execLdvD
  repeat' (first | with_reducible assumption | with_reducible apply keeps_issueLoad | with_reducible apply keepsO_next | (intro v; refine keeps_cut s0 v ?_ (fun hv => ?_); (on_goal 2 => try clear_value v); dsimp only [v]) | intro v | lift_lets | (simp only [keeps_mk_iff]; apply keepsP_of) | with_reducible rfl | split | (clear_value *; split) | dsimp only)

theorem keeps_execLdvW (core) (rd) (rs1) (imm) {s : State} (h0 : Keeps s0 s) : KeepsO s0 (@execLdvW core rd rs1 imm s) := by
  unfold execLdvW
  repeat' (first | with_reducible assumption | with_reducible apply keeps_issueLoad | with_reducible apply keepsO_next | (intro v; refine keeps_cut s0 v ?_ (fun hv => ?_); (on_goal 2 => try clear_value v); dsimp only [v]) | intro v | lift_lets | (simp only [keeps_mk_iff]; apply keepsP_of) | with_reducible rfl | split | (clear_value *; split) | dsimp only)

theorem keeps_issueStore {s : State} (n) (major) (size) (rd) (rs1) (imm) (h0 : Keeps s0 s) : Keeps s0 (@State.issueStore s n major size rd rs1 imm) := by
  unfold State.issueStore
  repeat' (first | with_reducible assumption | with_reducible apply keeps_issue | with_reducible apply keeps_setCore | with_reducible apply keeps_scalarFault | (intro v; refine keeps_cut s0 v ?_ (fun hv => ?_); (on_goal 2 => try clear_value v); dsimp only [v]) | intro v | lift_lets | with_reducible apply keeps_ite | (simp only [keeps_mk_iff]; apply keepsP_of) | with_reducible rfl | split | (clear_value *; split) | dsimp only)

theorem keeps_execStD (core) (rd) (rs1) (imm) {s : State} (h0 : Keeps s0 s) : KeepsO s0 (@execStD core rd rs1 imm s) := by
  unfold execStD
  repeat' (first | with_reducible assumption | with_reducible apply keeps_issueStore | with_reducible apply keepsO_next | (intro v; refine keeps_cut s0 v ?_ (fun hv => ?_); (on_goal 2 => try clear_value v); dsimp only [v]) | intro v | lift_lets | (simp only [keeps_mk_iff]; apply keepsP_of) | with_reducible rfl | split | (clear_value *; split) | dsimp only)

theorem keeps_execStW (core) (rd) (rs1) (imm) {s : State} (h0 : Keeps s0 s) : KeepsO s0 (@execStW core rd rs1 imm s) := by
  unfold execStW
  repeat' (first | with_reducible assumption | with_reducible apply keeps_issueStore | with_reducible apply keepsO_next | (intro v; refine keeps_cut s0 v ?_ (fun hv => ?_); (on_goal 2 => try clear_value v); dsimp only [v]) | intro v | lift_lets | (simp only [keeps_mk_iff]; apply keepsP_of) | with_reducible rfl | split | (clear_value *; split) | dsimp only)

theorem keeps_execStH (core) (rd) (rs1) (imm) {s : State} (h0 : Keeps s0 s) : KeepsO s0 (@execStH core rd rs1 imm s) := by
  unfold execStH
  repeat' (first | with_reducible assumption | with_reducible apply keeps_issueStore | with_reducible apply keepsO_next | (intro v; refine keeps_cut s0 v ?_ (fun hv => ?_); (on_goal 2 => try clear_value v); dsimp only [v]) | intro v | lift_lets | (simp only [keeps_mk_iff]; apply keepsP_of) | with_reducible rfl | split | (clear_value *; split) | dsimp only)

theorem keeps_execStB (core) (rd) (rs1) (imm) {s : State} (h0 : Keeps s0 s) : KeepsO s0 (@execStB core rd rs1 imm s) := by
  unfold execStB
  repeat' (first | with_reducible assumption | with_reducible apply keeps_issueStore | with_reducible apply keepsO_next | (intro v; refine keeps_cut s0 v ?_ (fun hv => ?_); (on_goal 2 => try clear_value v); dsimp only [v]) | intro v | lift_lets | (simp only [keeps_mk_iff]; apply keepsP_of) | with_reducible rfl | split | (clear_value *; split) | dsimp only)

theorem keeps_execAmo (core) (rd) (rs1) (rs2) (func) {s : State} (h0 : Keeps s0 s) : KeepsO s0 (@execAmo core rd rs1 rs2 func s) := by
  unfold execAmo
  repeat' (first | with_reducible assumption | with_reducible apply keeps_issue | with_reducible apply keeps_setCore | with_reducible apply keeps_scalarFault | with_reducible apply keepsO_next | (intro v; refine keeps_cut s0 v ?_ (fun hv => ?_); (on_goal 2 => try clear_value v); dsimp only [v]) | intro v | lift_lets | with_reducible apply keeps_ite | (simp only [keeps_mk_iff]; apply keepsP_of) | with_reducible rfl | split | (clear_value *; split) | dsimp only)

theorem keeps_deliver {s : State} (n) (o) (v_) (drop) (h0 : Keeps s0 s) : Keeps s0 (@State.deliver s n o v_ drop) := by
  unfold State.deliver
  repeat' (first | with_reducible assumption | with_reducible apply keeps_setCore | (intro v; refine keeps_cut s0 v ?_ (fun hv => ?_); (on_goal 2 => try clear_value v); dsimp only [v]) | intro v | lift_lets | with_reducible apply keeps_ite | (simp only [keeps_mk_iff]; apply keepsP_of) | with_reducible rfl | split | (clear_value *; split) | dsimp only)

theorem keeps_poisonFault {s : State} (n) (o) (a) (h0 : Keeps s0 s) : Keeps s0 (@State.poisonFault s n o a) := by
  unfold State.poisonFault
  repeat' (first | with_reducible assumption | with_reducible apply keeps_setCore | with_reducible apply keeps_takeFault | (intro v; refine keeps_cut s0 v ?_ (fun hv => ?_); (on_goal 2 => try clear_value v); dsimp only [v]) | intro v | lift_lets | (simp only [keeps_mk_iff]; apply keepsP_of) | with_reducible rfl | split | (clear_value *; split) | dsimp only)

theorem keeps_serveLoad {s : State} (n) (o) (a) (size) (signed) (vol) (h0 : Keeps s0 s) : Keeps s0 (@State.serveLoad s n o a size signed vol) := by
  unfold State.serveLoad
  repeat' (first | with_reducible assumption | with_reducible apply keeps_deliver | with_reducible apply keeps_noteRead | with_reducible apply keeps_poisonFault | with_reducible apply keeps_fillRead | (intro v; refine keeps_cut s0 v ?_ (fun hv => ?_); (on_goal 2 => try clear_value v); dsimp only [v]) | intro v | lift_lets | with_reducible apply keeps_ite | (simp only [keeps_mk_iff]; apply keepsP_of) | with_reducible rfl | split | (clear_value *; split) | dsimp only)

theorem keeps_serveAmo {s : State} (n) (o) (a) (func) (operand) (comparand) (h0 : Keeps s0 s) : Keeps s0 (@State.serveAmo s n o a func operand comparand) := by
  unfold State.serveAmo
  repeat' (first | with_reducible assumption | with_reducible apply keeps_fillAmo | with_reducible apply keeps_poisonFault | with_reducible apply keeps_land | with_reducible apply keeps_setCore | with_reducible apply keeps_deliver | (intro v; refine keeps_cut s0 v ?_ (fun hv => ?_); (on_goal 2 => try clear_value v); dsimp only [v]) | intro v | lift_lets | with_reducible apply keeps_ite | (simp only [keeps_mk_iff]; apply keepsP_of) | with_reducible rfl | split | (clear_value *; split) | dsimp only)

theorem keeps_serveBtn {s : State} (n) (o) (func) (b) (operand) (r) (h0 : Keeps s0 s) : Keeps s0 (@State.serveBtn s n o func b operand r) := by
  unfold State.serveBtn
  repeat' (first | with_reducible assumption | with_reducible apply keeps_deliver | (intro v; refine keeps_cut s0 v ?_ (fun hv => ?_); (on_goal 2 => try clear_value v); dsimp only [v]) | intro v | lift_lets | with_reducible apply keeps_ite | (simp only [keeps_mk_iff]; apply keepsP_of) | with_reducible rfl | split | (clear_value *; split) | dsimp only)

theorem keeps_execLoadReturn (core) (idx) {s : State} (h0 : Keeps s0 s) : KeepsO s0 (@execLoadReturn core idx s) := by
  unfold execLoadReturn
  repeat' (first | with_reducible assumption | with_reducible apply keeps_deliver | with_reducible apply keeps_serveLoad | with_reducible apply keeps_serveAmo | with_reducible apply keeps_serveBtn | with_reducible apply keepsO_next | (intro v; refine keeps_cut s0 v ?_ (fun hv => ?_); (on_goal 2 => try clear_value v); dsimp only [v]) | intro v | lift_lets | with_reducible apply keeps_ite | (simp only [keeps_mk_iff]; apply keepsP_of) | with_reducible rfl | split | (clear_value *; split) | dsimp only)

theorem keeps_execStoreReachHome (core) {s : State} (h0 : Keeps s0 s) : KeepsO s0 (@execStoreReachHome core s) := by
  unfold execStoreReachHome
  repeat' (first | with_reducible assumption | with_reducible apply keeps_setCore | with_reducible apply keeps_storeHome | with_reducible apply keeps_settle | with_reducible apply keepsO_next | (intro v; refine keeps_cut s0 v ?_ (fun hv => ?_); (on_goal 2 => try clear_value v); dsimp only [v]) | intro v | lift_lets | with_reducible apply keeps_ite | (simp only [keeps_mk_iff]; apply keepsP_of) | with_reducible rfl | (refine keeps_of_snd (by with_reducible assumption) ?_) | (refine keeps_of_fst (by with_reducible assumption) ?_) | split | (clear_value *; split) | with_reducible apply keeps_fresh | dsimp only)

theorem keeps_execHeldSetApply (core) {s : State} (h0 : Keeps s0 s) : KeepsO s0 (@execHeldSetApply core s) := by
  unfold execHeldSetApply
  repeat' (first | with_reducible assumption | with_reducible apply keeps_setCore | with_reducible apply keeps_settle | with_reducible apply keeps_applyBtn | with_reducible apply keepsO_next | (intro v; refine keeps_cut s0 v ?_ (fun hv => ?_); (on_goal 2 => try clear_value v); dsimp only [v]) | intro v | lift_lets | with_reducible apply keeps_ite | (simp only [keeps_mk_iff]; apply keepsP_of) | with_reducible rfl | split | (clear_value *; split) | dsimp only)

theorem keeps_issueBtn {s : State} (n) (func) (rd) (rs1) (rs2) (h0 : Keeps s0 s) : Keeps s0 (@State.issueBtn s n func rd rs1 rs2) := by
  unfold State.issueBtn
  repeat' (first | with_reducible assumption | with_reducible apply keeps_issue | with_reducible apply keeps_setCore | with_reducible apply keeps_scalarFault | (intro v; refine keeps_cut s0 v ?_ (fun hv => ?_); (on_goal 2 => try clear_value v); dsimp only [v]) | intro v | lift_lets | with_reducible apply keeps_ite | (simp only [keeps_mk_iff]; apply keepsP_of) | with_reducible rfl | split | (clear_value *; split) | dsimp only)

theorem keeps_execBtnRd (core) (rd) (rs1) (rs2) {s : State} (h0 : Keeps s0 s) : KeepsO s0 (@execBtnRd core rd rs1 rs2 s) := by
  unfold execBtnRd
  repeat' (first | with_reducible assumption | with_reducible apply keeps_issueBtn | with_reducible apply keepsO_next | (intro v; refine keeps_cut s0 v ?_ (fun hv => ?_); (on_goal 2 => try clear_value v); dsimp only [v]) | intro v | lift_lets | (simp only [keeps_mk_iff]; apply keepsP_of) | with_reducible rfl | split | (clear_value *; split) | dsimp only)

theorem keeps_execBtnAdd (core) (rd) (rs1) (rs2) {s : State} (h0 : Keeps s0 s) : KeepsO s0 (@execBtnAdd core rd rs1 rs2 s) := by
  unfold execBtnAdd
  repeat' (first | with_reducible assumption | with_reducible apply keeps_issueBtn | with_reducible apply keepsO_next | (intro v; refine keeps_cut s0 v ?_ (fun hv => ?_); (on_goal 2 => try clear_value v); dsimp only [v]) | intro v | lift_lets | (simp only [keeps_mk_iff]; apply keepsP_of) | with_reducible rfl | split | (clear_value *; split) | dsimp only)

theorem keeps_execBtnSet (core) (rd) (rs1) (rs2) {s : State} (h0 : Keeps s0 s) : KeepsO s0 (@execBtnSet core rd rs1 rs2 s) := by
  unfold execBtnSet
  repeat' (first | with_reducible assumption | with_reducible apply keeps_issueBtn | with_reducible apply keepsO_next | (intro v; refine keeps_cut s0 v ?_ (fun hv => ?_); (on_goal 2 => try clear_value v); dsimp only [v]) | intro v | lift_lets | (simp only [keeps_mk_iff]; apply keepsP_of) | with_reducible rfl | split | (clear_value *; split) | dsimp only)

theorem keeps_execBtnTest (core) (rd) (rs1) (rs2) {s : State} (h0 : Keeps s0 s) : KeepsO s0 (@execBtnTest core rd rs1 rs2 s) := by
  unfold execBtnTest
  repeat' (first | with_reducible assumption | with_reducible apply keeps_issueBtn | with_reducible apply keepsO_next | (intro v; refine keeps_cut s0 v ?_ (fun hv => ?_); (on_goal 2 => try clear_value v); dsimp only [v]) | intro v | lift_lets | (simp only [keeps_mk_iff]; apply keepsP_of) | with_reducible rfl | split | (clear_value *; split) | dsimp only)

theorem keeps_execBtnWait (core) (rd) (rs1) (rs2) {s : State} (h0 : Keeps s0 s) : KeepsO s0 (@execBtnWait core rd rs1 rs2 s) := by
  unfold execBtnWait
  repeat' (first | with_reducible assumption | with_reducible apply keeps_issue | with_reducible apply keeps_setCore | with_reducible apply keeps_watch | with_reducible apply keeps_scalarFault | with_reducible apply keepsO_next | (intro v; refine keeps_cut s0 v ?_ (fun hv => ?_); (on_goal 2 => try clear_value v); dsimp only [v]) | intro v | lift_lets | (simp only [keeps_mk_iff]; apply keepsP_of) | with_reducible rfl | split | (clear_value *; split) | dsimp only)

theorem keeps_issueLong {s : State} (n) (major) (w) (legal) (room) (put) (h0 : Keeps s0 s) (h1 : ∀ y0, Keeps s0 (put y0)) : Keeps s0 (@State.issueLong s n major w legal room put) := by
  unfold State.issueLong
  repeat' (first | with_reducible assumption | with_reducible apply h1 | with_reducible apply keeps_issue | with_reducible apply keeps_setCore | (intro v; refine keeps_cut s0 v ?_ (fun hv => ?_); (on_goal 2 => try clear_value v); dsimp only [v]) | intro v | lift_lets | with_reducible apply keeps_ite | (simp only [keeps_mk_iff]; apply keepsP_of) | with_reducible rfl | split | (clear_value *; split) | dsimp only)

theorem keeps_execMx (core) (w) {s : State} (h0 : Keeps s0 s) : KeepsO s0 (@execMx core w s) := by
  unfold execMx
  repeat' (first | with_reducible assumption | with_reducible apply keeps_issueLong | with_reducible apply keeps_setCore | with_reducible apply keepsO_next | (intro v; refine keeps_cut s0 v ?_ (fun hv => ?_); (on_goal 2 => try clear_value v); dsimp only [v]) | intro v | lift_lets | (simp only [keeps_mk_iff]; apply keepsP_of) | with_reducible rfl | split | (clear_value *; split) | dsimp only)

theorem keeps_execVx (core) (w) {s : State} (h0 : Keeps s0 s) : KeepsO s0 (@execVx core w s) := by
  unfold execVx
  repeat' (first | with_reducible assumption | with_reducible apply keeps_issueLong | with_reducible apply keeps_setCore | with_reducible apply keepsO_next | (intro v; refine keeps_cut s0 v ?_ (fun hv => ?_); (on_goal 2 => try clear_value v); dsimp only [v]) | intro v | lift_lets | (simp only [keeps_mk_iff]; apply keepsP_of) | with_reducible rfl | split | (clear_value *; split) | dsimp only)

theorem keeps_execDmaSubmit (core) (w) {s : State} (h0 : Keeps s0 s) : KeepsO s0 (@execDmaSubmit core w s) := by
  unfold execDmaSubmit
  repeat' (first | with_reducible assumption | with_reducible apply keeps_issueLong | with_reducible apply keeps_setCore | with_reducible apply keeps_scalarFault | with_reducible apply keepsO_next | (intro v; refine keeps_cut s0 v ?_ (fun hv => ?_); (on_goal 2 => try clear_value v); dsimp only [v]) | intro v | lift_lets | with_reducible apply keeps_ite | (simp only [keeps_mk_iff]; apply keepsP_of) | with_reducible rfl | split | (clear_value *; split) | dsimp only)

/-! ### Machine/Tasks.lean -/

theorem keeps_hostBatten {s : State} (who) (val) (h0 : Keeps s0 s) : Keeps s0 (@State.hostBatten s who val) := by
  unfold State.hostBatten
  repeat' (first | with_reducible assumption | with_reducible apply keeps_record | with_reducible apply keeps_batAdd | with_reducible apply keeps_batSet | (intro v; refine keeps_cut s0 v ?_ (fun hv => ?_); (on_goal 2 => try clear_value v); dsimp only [v]) | intro v | lift_lets | with_reducible apply keeps_ite | (simp only [keeps_mk_iff]; apply keepsP_of) | with_reducible rfl | split | (clear_value *; split) | dsimp only)

theorem keeps_execBtnHostAdd (who) (val) {s : State} (h0 : Keeps s0 s) : KeepsO s0 (@execBtnHostAdd who val s) := by
  unfold execBtnHostAdd
  repeat' (first | with_reducible assumption | with_reducible apply keeps_hostBatten | with_reducible apply keepsO_next | (intro v; refine keeps_cut s0 v ?_ (fun hv => ?_); (on_goal 2 => try clear_value v); dsimp only [v]) | intro v | lift_lets | with_reducible apply keeps_ite | (simp only [keeps_mk_iff]; apply keepsP_of) | with_reducible rfl | split | (clear_value *; split) | dsimp only)

theorem keeps_execBtnHostSet (who) (val) {s : State} (h0 : Keeps s0 s) : KeepsO s0 (@execBtnHostSet who val s) := by
  unfold execBtnHostSet
  repeat' (first | with_reducible assumption | with_reducible apply keeps_hostBatten | with_reducible apply keepsO_next | (intro v; refine keeps_cut s0 v ?_ (fun hv => ?_); (on_goal 2 => try clear_value v); dsimp only [v]) | intro v | lift_lets | with_reducible apply keeps_ite | (simp only [keeps_mk_iff]; apply keepsP_of) | with_reducible rfl | split | (clear_value *; split) | dsimp only)

theorem keeps_execWatchRetry (idx) {s : State} (h0 : Keeps s0 s) : KeepsO s0 (@execWatchRetry idx s) := by
  unfold execWatchRetry
  repeat' (first | with_reducible assumption | with_reducible apply keeps_watch | with_reducible apply keepsO_next | (intro v; refine keeps_cut s0 v ?_ (fun hv => ?_); (on_goal 2 => try clear_value v); dsimp only [v]) | intro v | lift_lets | with_reducible apply keeps_ite | (simp only [keeps_mk_iff]; apply keepsP_of) | with_reducible rfl | split | (clear_value *; split) | dsimp only)

theorem keeps_endTask {s : State} (n) (h0 : Keeps s0 s) : Keeps s0 (@State.endTask s n) := by
  unfold State.endTask
  repeat' (first | with_reducible assumption | with_reducible apply keeps_setCore | (intro v; refine keeps_cut s0 v ?_ (fun hv => ?_); (on_goal 2 => try clear_value v); dsimp only [v]) | intro v | lift_lets | (simp only [keeps_mk_iff]; apply keepsP_of) | with_reducible rfl | split | (clear_value *; split) | dsimp only)

theorem keeps_endUnwritten {s : State} (n) (t_) (h0 : Keeps s0 s) : Keeps s0 (@State.endUnwritten s n t_) := by
  unfold State.endUnwritten
  repeat' (first | with_reducible assumption | with_reducible apply keeps_record | with_reducible apply keeps_endTask | (intro v; refine keeps_cut s0 v ?_ (fun hv => ?_); (on_goal 2 => try clear_value v); dsimp only [v]) | intro v | lift_lets | (simp only [keeps_mk_iff]; apply keepsP_of) | with_reducible rfl | split | (clear_value *; split) | dsimp only)

theorem keeps_ctxWrite {s : State} (who) (q) (word) (val) (h0 : Keeps s0 s) : Keeps s0 (@State.ctxWrite s who q word val) := by
  unfold State.ctxWrite
  repeat' (first | with_reducible assumption | with_reducible apply keeps_writeCtx | with_reducible apply keeps_endUnwritten | (intro v; refine keeps_cut s0 v ?_ (fun hv => ?_); (on_goal 2 => try clear_value v); dsimp only [v]) | intro v | lift_lets | with_reducible apply keeps_foldl | with_reducible apply keeps_foldl_fst | with_reducible apply keeps_foldl_snd | with_reducible apply keeps_ite | (simp only [keeps_mk_iff]; apply keepsP_of) | with_reducible rfl | split | (clear_value *; split) | dsimp only)

theorem keeps_execQueueEnable (who) (queue) (val) {s : State} (h0 : Keeps s0 s) : KeepsO s0 (@execQueueEnable who queue val s) := by
  unfold execQueueEnable
  repeat' (first | with_reducible assumption | with_reducible apply keeps_ctxWrite | with_reducible apply keepsO_next | (intro v; refine keeps_cut s0 v ?_ (fun hv => ?_); (on_goal 2 => try clear_value v); dsimp only [v]) | intro v | lift_lets | with_reducible apply keeps_ite | (simp only [keeps_mk_iff]; apply keepsP_of) | with_reducible rfl | split | (clear_value *; split) | dsimp only)

theorem keeps_execQueueDisable (who) (queue) (val) {s : State} (h0 : Keeps s0 s) : KeepsO s0 (@execQueueDisable who queue val s) := by
  unfold execQueueDisable
  repeat' (first | with_reducible assumption | with_reducible apply keeps_ctxWrite | with_reducible apply keepsO_next | (intro v; refine keeps_cut s0 v ?_ (fun hv => ?_); (on_goal 2 => try clear_value v); dsimp only [v]) | intro v | lift_lets | with_reducible apply keeps_ite | (simp only [keeps_mk_iff]; apply keepsP_of) | with_reducible rfl | split | (clear_value *; split) | dsimp only)

theorem keeps_execQmDoorbell (who) (val) {s : State} (h0 : Keeps s0 s) : KeepsO s0 (@execQmDoorbell who val s) := by
  unfold execQmDoorbell
  repeat' (first | with_reducible assumption | with_reducible apply keeps_doorbell | with_reducible apply keepsO_next | (intro v; refine keeps_cut s0 v ?_ (fun hv => ?_); (on_goal 2 => try clear_value v); dsimp only [v]) | intro v | lift_lets | (simp only [keeps_mk_iff]; apply keepsP_of) | with_reducible rfl | split | (clear_value *; split) | dsimp only)

theorem keeps_execQmFlush (who) (val) {s : State} (h0 : Keeps s0 s) : KeepsO s0 (@execQmFlush who val s) := by
  unfold execQmFlush
  repeat' (first | with_reducible assumption | with_reducible apply keeps_flush | with_reducible apply keepsO_next | (intro v; refine keeps_cut s0 v ?_ (fun hv => ?_); (on_goal 2 => try clear_value v); dsimp only [v]) | intro v | lift_lets | (simp only [keeps_mk_iff]; apply keepsP_of) | with_reducible rfl | split | (clear_value *; split) | dsimp only)

theorem keeps_execQmCancel (who) (val) {s : State} (h0 : Keeps s0 s) : KeepsO s0 (@execQmCancel who val s) := by
  unfold execQmCancel
  repeat' (first | with_reducible assumption | with_reducible apply keeps_cancel | with_reducible apply keepsO_next | (intro v; refine keeps_cut s0 v ?_ (fun hv => ?_); (on_goal 2 => try clear_value v); dsimp only [v]) | intro v | lift_lets | (simp only [keeps_mk_iff]; apply keepsP_of) | with_reducible rfl | split | (clear_value *; split) | dsimp only)

theorem keeps_execOwedCompletionWrite {s : State} (h0 : Keeps s0 s) : KeepsO s0 (@execOwedCompletionWrite s) := by
  unfold execOwedCompletionWrite
  repeat' (first | with_reducible assumption | with_reducible apply keeps_payOwed | with_reducible apply keepsO_next | (intro v; refine keeps_cut s0 v ?_ (fun hv => ?_); (on_goal 2 => try clear_value v); dsimp only [v]) | intro v | lift_lets | (simp only [keeps_mk_iff]; apply keepsP_of) | with_reducible rfl | split | (clear_value *; split) | dsimp only)

theorem keeps_execShadowWrite (queue) {s : State} (h0 : Keeps s0 s) : KeepsO s0 (@execShadowWrite queue s) := by
  unfold execShadowWrite
  repeat' (first | with_reducible assumption | with_reducible apply keeps_writeShadow | with_reducible apply keepsO_next | (intro v; refine keeps_cut s0 v ?_ (fun hv => ?_); (on_goal 2 => try clear_value v); dsimp only [v]) | intro v | lift_lets | with_reducible apply keeps_ite | (simp only [keeps_mk_iff]; apply keepsP_of) | with_reducible rfl | split | (clear_value *; split) | dsimp only)

theorem keeps_readHead {s : State} (q) (h0 : Keeps s0 s) : Keeps s0 (@State.readHead s q) := by
  unfold State.readHead
  repeat' (first | with_reducible assumption | with_reducible apply keeps_noteRead | with_reducible apply keeps_setQState | with_reducible apply keeps_record | with_reducible apply keeps_raiseAbort | with_reducible apply keeps_setQueue | with_reducible apply keeps_retireCancelled | with_reducible apply keeps_watch | (intro v; refine keeps_cut s0 v ?_ (fun hv => ?_); (on_goal 2 => try clear_value v); dsimp only [v]) | intro v | lift_lets | with_reducible apply keeps_foldl | with_reducible apply keeps_foldl_fst | with_reducible apply keeps_foldl_snd | with_reducible apply keeps_ite | (simp only [keeps_mk_iff]; apply keepsP_of) | with_reducible rfl | split | (clear_value *; split) | dsimp only)

theorem keeps_execWorkItemRead (queue) {s : State} (h0 : Keeps s0 s) : KeepsO s0 (@execWorkItemRead queue s) := by
  unfold execWorkItemRead
  repeat' (first | with_reducible assumption | with_reducible apply keeps_readHead | with_reducible apply keepsO_next | (intro v; refine keeps_cut s0 v ?_ (fun hv => ?_); (on_goal 2 => try clear_value v); dsimp only [v]) | intro v | lift_lets | with_reducible apply keeps_ite | (simp only [keeps_mk_iff]; apply keepsP_of) | with_reducible rfl | split | (clear_value *; split) | dsimp only)

theorem keeps_startTask {s : State} (n) (q) (index) (item) (h0 : Keeps s0 s) : Keeps s0 (@State.startTask s n q index item) := by
  unfold State.startTask
  repeat' (first | with_reducible assumption | with_reducible apply keeps_setReg | with_reducible apply keeps_setCore | (intro v; refine keeps_cut s0 v ?_ (fun hv => ?_); (on_goal 2 => try clear_value v); dsimp only [v]) | intro v | lift_lets | with_reducible apply keeps_ite | (simp only [keeps_mk_iff]; apply keepsP_of) | with_reducible rfl | split | (clear_value *; split) | dsimp only)

theorem keeps_grant {s : State} (sl) (q) (h0 : Keeps s0 s) : Keeps s0 (@State.grant s sl q) := by
  unfold State.grant
  repeat' (first | with_reducible assumption | with_reducible apply keeps_startTask | with_reducible apply keeps_advanceCons | with_reducible apply keeps_land | (intro v; refine keeps_cut s0 v ?_ (fun hv => ?_); (on_goal 2 => try clear_value v); dsimp only [v]) | intro v | lift_lets | (simp only [keeps_mk_iff]; apply keepsP_of) | with_reducible rfl | split | (clear_value *; split) | dsimp only)

theorem keeps_execTaskGrant (slate) {s : State} (h0 : Keeps s0 s) : KeepsO s0 (@execTaskGrant slate s) := by
  unfold execTaskGrant
  repeat' (first | with_reducible assumption | with_reducible apply keeps_grant | with_reducible apply keepsO_next | (intro v; refine keeps_cut s0 v ?_ (fun hv => ?_); (on_goal 2 => try clear_value v); dsimp only [v]) | intro v | lift_lets | with_reducible apply keeps_ite | (simp only [keeps_mk_iff]; apply keepsP_of) | with_reducible rfl | split | (clear_value *; split) | dsimp only)

theorem keeps_execTaskFinish (core) {s : State} (h0 : Keeps s0 s) : KeepsO s0 (@execTaskFinish core s) := by
  unfold execTaskFinish
  repeat' (first | with_reducible assumption | with_reducible apply keeps_endUnwritten | with_reducible apply keeps_writeCpl | with_reducible apply keeps_batAdd | with_reducible apply keeps_endTask | with_reducible apply keepsO_next | (intro v; refine keeps_cut s0 v ?_ (fun hv => ?_); (on_goal 2 => try clear_value v); dsimp only [v]) | intro v | lift_lets | with_reducible apply keeps_ite | (simp only [keeps_mk_iff]; apply keepsP_of) | with_reducible rfl | split | (clear_value *; split) | dsimp only)

theorem keeps_execTaskTimeout (core) {s : State} (h0 : Keeps s0 s) : KeepsO s0 (@execTaskTimeout core s) := by
  unfold execTaskTimeout
  repeat' (first | with_reducible assumption | with_reducible apply keeps_takeFault | with_reducible apply keepsO_next | (intro v; refine keeps_cut s0 v ?_ (fun hv => ?_); (on_goal 2 => try clear_value v); dsimp only [v]) | intro v | lift_lets | with_reducible apply keeps_ite | (simp only [keeps_mk_iff]; apply keepsP_of) | with_reducible rfl | split | (clear_value *; split) | dsimp only)

theorem keeps_execAwinWrite (who) (slate) (win) (val) {s : State} (h0 : Keeps s0 s) : KeepsO s0 (@execAwinWrite who slate win val s) := by
  unfold execAwinWrite
  repeat' (first | with_reducible assumption | with_reducible apply keeps_writeAwin | with_reducible apply keepsO_next | (intro v; refine keeps_cut s0 v ?_ (fun hv => ?_); (on_goal 2 => try clear_value v); dsimp only [v]) | intro v | lift_lets | (simp only [keeps_mk_iff]; apply keepsP_of) | with_reducible rfl | split | (clear_value *; split) | dsimp only)

theorem keeps_relayCisterns {s : State} (val : Word) (h : Keeps s0 s) : Keeps s0 (s.relayCisterns val) :=
  ⟨h.pending, fun x => SMap.Canon.relist _ (h.mem x).2 (SMap.Canon.nil _), fun x => SMap.Canon.relist _ (h.poison x).2 (SMap.Canon.nil _),
    (keeps_setReg .TOP_CIL 0 val h).regs, h.log, h.dumps⟩

theorem keeps_writeCil {s : State} (who) (val) (h0 : Keeps s0 s) : Keeps s0 (@State.writeCil s who val) := by
  unfold State.writeCil
  repeat' (first | with_reducible assumption | with_reducible apply keeps_record | with_reducible apply keeps_relayCisterns | (intro v; refine keeps_cut s0 v ?_ (fun hv => ?_); (on_goal 2 => try clear_value v); dsimp only [v]) | intro v | lift_lets | with_reducible apply keeps_ite | (simp only [keeps_mk_iff]; apply keepsP_of) | with_reducible rfl | split | (clear_value *; split) | dsimp only)

theorem keeps_execTopCilWrite (who) (val) {s : State} (h0 : Keeps s0 s) : KeepsO s0 (@execTopCilWrite who val s) := by
  unfold execTopCilWrite
  repeat' (first | with_reducible assumption | with_reducible apply keeps_writeCil | with_reducible apply keepsO_next | (intro v; refine keeps_cut s0 v ?_ (fun hv => ?_); (on_goal 2 => try clear_value v); dsimp only [v]) | intro v | lift_lets | (simp only [keeps_mk_iff]; apply keepsP_of) | with_reducible rfl | split | (clear_value *; split) | dsimp only)

end Sys2Proof.Laws
end

