-- ==== Sys2Proof/Laws/KeepsHost.lean ====
section
/-!
SUPPORT. Laws/KeepsHost.lean: every operation and meaning of the host ports, the gauge, power and tenants keeps the queue and hands on `Safety.Sound`.
-/
namespace Sys2Proof.Laws
open Sys2Proof.Machine

set_option linter.unusedTactic false
set_option linter.unreachableTactic false
set_option linter.unusedVariables false
set_option linter.unusedSimpArgs false

variable {s0 : State}

/-! ### Machine/HostPorts.lean -/

theorem keeps_writePown {s : State} (who) (p) (val) (h0 : Keeps s0 s) : Keeps s0 (@State.writePown s who p val) := by
  unfold State.writePown
  repeat' (first | with_reducible assumption | with_reducible apply keeps_record | with_reducible apply keeps_setF | (intro v; refine keeps_cut s0 v ?_ (fun hv => ?_); (on_goal 2 => try clear_value v); dsimp only [v]) | intro v | lift_lets | with_reducible apply keeps_ite | (simp only [keeps_mk_iff]; apply keepsP_of) | with_reducible rfl | split | (clear_value *; split) | dsimp only)

theorem keeps_pownWrite {s : State} (who) (p) (val) (h0 : Keeps s0 s) : Keeps s0 (@State.pownWrite s who p val) := by
  unfold State.pownWrite
  repeat' (first | with_reducible assumption | with_reducible apply keeps_writePown | (intro v; refine keeps_cut s0 v ?_ (fun hv => ?_); (on_goal 2 => try clear_value v); dsimp only [v]) | intro v | lift_lets | with_reducible apply keeps_foldl | with_reducible apply keeps_foldl_fst | with_reducible apply keeps_foldl_snd | with_reducible apply keeps_ite | (simp only [keeps_mk_iff]; apply keepsP_of) | with_reducible rfl | split | (clear_value *; split) | dsimp only)

theorem keeps_execPartitionOwnerWrite (who) (part) (val) {s : State} (h0 : Keeps s0 s) : KeepsO s0 (@execPartitionOwnerWrite who part val s) := by
  unfold execPartitionOwnerWrite
  repeat' (first | with_reducible assumption | with_reducible apply keeps_pownWrite | with_reducible apply keepsO_next | (intro v; refine keeps_cut s0 v ?_ (fun hv => ?_); (on_goal 2 => try clear_value v); dsimp only [v]) | intro v | lift_lets | (simp only [keeps_mk_iff]; apply keepsP_of) | with_reducible rfl | split | (clear_value *; split) | dsimp only)

theorem keeps_writeFnA {s : State} (who) (fn) (val) (h0 : Keeps s0 s) : Keeps s0 (@State.writeFnA s who fn val) := by
  unfold State.writeFnA
  repeat' (first | with_reducible assumption | with_reducible apply keeps_record | with_reducible apply keeps_setF | (intro v; refine keeps_cut s0 v ?_ (fun hv => ?_); (on_goal 2 => try clear_value v); dsimp only [v]) | intro v | lift_lets | with_reducible apply keeps_ite | (simp only [keeps_mk_iff]; apply keepsP_of) | with_reducible rfl | split | (clear_value *; split) | dsimp only)

theorem keeps_execApertureBaseWrite (who) (fn) (val) {s : State} (h0 : Keeps s0 s) : KeepsO s0 (@execApertureBaseWrite who fn val s) := by
  unfold execApertureBaseWrite
  repeat' (first | with_reducible assumption | with_reducible apply keeps_writeFnA | with_reducible apply keepsO_next | (intro v; refine keeps_cut s0 v ?_ (fun hv => ?_); (on_goal 2 => try clear_value v); dsimp only [v]) | intro v | lift_lets | (simp only [keeps_mk_iff]; apply keepsP_of) | with_reducible rfl | split | (clear_value *; split) | dsimp only)

theorem keeps_writeFnB {s : State} (who) (fn) (val) (h0 : Keeps s0 s) : Keeps s0 (@State.writeFnB s who fn val) := by
  unfold State.writeFnB
  repeat' (first | with_reducible assumption | with_reducible apply keeps_record | with_reducible apply keeps_setReg | (intro v; refine keeps_cut s0 v ?_ (fun hv => ?_); (on_goal 2 => try clear_value v); dsimp only [v]) | intro v | lift_lets | with_reducible apply keeps_ite | (simp only [keeps_mk_iff]; apply keepsP_of) | with_reducible rfl | split | (clear_value *; split) | dsimp only)

theorem keeps_badAccess {s : State} (fn) (h0 : Keeps s0 s) : Keeps s0 (@State.badAccess s fn) := by
  unfold State.badAccess
  repeat' (first | with_reducible assumption | with_reducible apply keeps_bump | with_reducible apply keeps_recordOnce | (intro v; refine keeps_cut s0 v ?_ (fun hv => ?_); (on_goal 2 => try clear_value v); dsimp only [v]) | intro v | lift_lets | (simp only [keeps_mk_iff]; apply keepsP_of) | with_reducible rfl | split | (clear_value *; split) | dsimp only)

theorem keeps_execApertureRead (fn) (off) (len) {s : State} (h0 : Keeps s0 s) : KeepsO s0 (@execApertureRead fn off len s) := by
  unfold execApertureRead
  repeat' (first | with_reducible assumption | with_reducible apply keeps_emit | with_reducible apply keeps_noteRead | with_reducible apply keeps_badAccess | with_reducible apply keepsO_next | (intro v; refine keeps_cut s0 v ?_ (fun hv => ?_); (on_goal 2 => try clear_value v); dsimp only [v]) | intro v | lift_lets | with_reducible apply keeps_ite | (simp only [keeps_mk_iff]; apply keepsP_of) | with_reducible rfl | split | (clear_value *; split) | dsimp only)

theorem keeps_execApertureWrite (fn) (off) (data) (ep) {s : State} (h0 : Keeps s0 s) : KeepsO s0 (@execApertureWrite fn off data ep s) := by
  unfold execApertureWrite
  repeat' (first | with_reducible assumption | with_reducible apply keeps_land | with_reducible apply keeps_badAccess | with_reducible apply keepsO_next | (intro v; refine keeps_cut s0 v ?_ (fun hv => ?_); (on_goal 2 => try clear_value v); dsimp only [v]) | intro v | lift_lets | with_reducible apply keeps_ite | (simp only [keeps_mk_iff]; apply keepsP_of) | with_reducible rfl | split | (clear_value *; split) | dsimp only)

theorem keeps_setCopies {s : State} (fn) (x) (h0 : Keeps s0 s) : Keeps s0 (@State.setCopies s fn x) := by
  unfold State.setCopies
  repeat' (first | with_reducible assumption | (intro v; refine keeps_cut s0 v ?_ (fun hv => ?_); (on_goal 2 => try clear_value v); dsimp only [v]) | intro v | lift_lets | (simp only [keeps_mk_iff]; apply keepsP_of) | with_reducible rfl | split | (clear_value *; split) | dsimp only)

theorem keeps_copySubmit {s : State} (f) (data) (h0 : Keeps s0 s) : Keeps s0 (@State.copySubmit s f data) := by
  unfold State.copySubmit
  repeat' (first | with_reducible assumption | with_reducible apply keeps_bump | with_reducible apply keeps_record | with_reducible apply keeps_setCopies | with_reducible apply keeps_setF | (intro v; refine keeps_cut s0 v ?_ (fun hv => ?_); (on_goal 2 => try clear_value v); dsimp only [v]) | intro v | lift_lets | with_reducible apply keeps_ite | (simp only [keeps_mk_iff]; apply keepsP_of) | with_reducible rfl | split | (clear_value *; split) | dsimp only)

theorem keeps_execCopySubmit (fn) (data) {s : State} (h0 : Keeps s0 s) : KeepsO s0 (@execCopySubmit fn data s) := by
  unfold execCopySubmit
  repeat' (first | with_reducible assumption | with_reducible apply keeps_copySubmit | with_reducible apply keepsO_next | (intro v; refine keeps_cut s0 v ?_ (fun hv => ?_); (on_goal 2 => try clear_value v); dsimp only [v]) | intro v | lift_lets | (simp only [keeps_mk_iff]; apply keepsP_of) | with_reducible rfl | split | (clear_value *; split) | dsimp only)

theorem keeps_copyLand {s : State} (fn) (dir) (w) (h0 : Keeps s0 s) : Keeps s0 (@State.copyLand s fn dir w) := by
  unfold State.copyLand
  repeat' (first | with_reducible assumption | with_reducible apply keeps_land | with_reducible apply keeps_emit | (intro v; refine keeps_cut s0 v ?_ (fun hv => ?_); (on_goal 2 => try clear_value v); dsimp only [v]) | intro v | lift_lets | with_reducible apply keeps_ite | (simp only [keeps_mk_iff]; apply keepsP_of) | with_reducible rfl | split | (clear_value *; split) | dsimp only)

theorem keeps_execCopyStart (fn) (tlps) (busError) {s : State} (h0 : Keeps s0 s) : KeepsO s0 (@execCopyStart fn tlps busError s) := by
  unfold execCopyStart
  repeat' (first | with_reducible assumption | with_reducible apply keeps_setCopies | with_reducible apply keeps_emit | with_reducible apply keeps_noteRead | with_reducible apply keeps_copyLand | with_reducible apply keepsO_next | (intro v; refine keeps_cut s0 v ?_ (fun hv => ?_); (on_goal 2 => try clear_value v); dsimp only [v]) | intro v | lift_lets | with_reducible apply keeps_foldl | with_reducible apply keeps_foldl_fst | with_reducible apply keeps_foldl_snd | with_reducible apply keeps_ite | (simp only [keeps_mk_iff]; apply keepsP_of) | with_reducible rfl | (refine keeps_of_snd (by with_reducible assumption) ?_) | (refine keeps_of_fst (by with_reducible assumption) ?_) | split | (clear_value *; split) | with_reducible apply keeps_fresh | dsimp only)

theorem keeps_execCopyComplete (fn) {s : State} (h0 : Keeps s0 s) : KeepsO s0 (@execCopyComplete fn s) := by
  unfold execCopyComplete
  repeat' (first | with_reducible assumption | with_reducible apply keeps_copyLand | with_reducible apply keeps_emit | with_reducible apply keeps_batAdd | with_reducible apply keeps_raiseVec | with_reducible apply keeps_setCopies | with_reducible apply keeps_setF | with_reducible apply keepsO_next | (intro v; refine keeps_cut s0 v ?_ (fun hv => ?_); (on_goal 2 => try clear_value v); dsimp only [v]) | intro v | lift_lets | with_reducible apply keeps_foldl | with_reducible apply keeps_foldl_fst | with_reducible apply keeps_foldl_snd | with_reducible apply keeps_ite | (simp only [keeps_mk_iff]; apply keepsP_of) | with_reducible rfl | split | (clear_value *; split) | dsimp only)

theorem keeps_dropCopies {s : State} (fn) (h0 : Keeps s0 s) : Keeps s0 (@State.dropCopies s fn) := by
  unfold State.dropCopies
  repeat' (first | with_reducible assumption | with_reducible apply keeps_copyLand | with_reducible apply keeps_setCopies | with_reducible apply keeps_setF | (intro v; refine keeps_cut s0 v ?_ (fun hv => ?_); (on_goal 2 => try clear_value v); dsimp only [v]) | intro v | lift_lets | with_reducible apply keeps_foldl | with_reducible apply keeps_foldl_fst | with_reducible apply keeps_foldl_snd | with_reducible apply keeps_ite | (simp only [keeps_mk_iff]; apply keepsP_of) | with_reducible rfl | (refine keeps_of_snd (by with_reducible assumption) ?_) | (refine keeps_of_fst (by with_reducible assumption) ?_) | split | (clear_value *; split) | with_reducible apply keeps_fresh | dsimp only)

theorem keeps_setChan {s : State} (c) (x) (h0 : Keeps s0 s) : Keeps s0 (@State.setChan s c x) := by
  unfold State.setChan
  repeat' (first | with_reducible assumption | (intro v; refine keeps_cut s0 v ?_ (fun hv => ?_); (on_goal 2 => try clear_value v); dsimp only [v]) | intro v | lift_lets | (simp only [keeps_mk_iff]; apply keepsP_of) | with_reducible rfl | split | (clear_value *; split) | dsimp only)

theorem keeps_byChan {s : State} (who) (c) (f) (h0 : Keeps s0 s) (h1 : ∀ y0, Keeps s0 y0 → Keeps s0 (f y0)) : Keeps s0 (@State.byChan s who c f) := by
  unfold State.byChan
  repeat' (first | with_reducible assumption | with_reducible apply h1 | with_reducible apply keeps_record | (intro v; refine keeps_cut s0 v ?_ (fun hv => ?_); (on_goal 2 => try clear_value v); dsimp only [v]) | intro v | lift_lets | with_reducible apply keeps_ite | (simp only [keeps_mk_iff]; apply keepsP_of) | with_reducible rfl | split | (clear_value *; split) | dsimp only)

theorem keeps_chanVec {s : State} (c) (h0 : Keeps s0 s) : Keeps s0 (@State.chanVec s c) := by
  unfold State.chanVec
  repeat' (first | with_reducible assumption | with_reducible apply keeps_raiseVec | (intro v; refine keeps_cut s0 v ?_ (fun hv => ?_); (on_goal 2 => try clear_value v); dsimp only [v]) | intro v | lift_lets | with_reducible apply keeps_ite | (simp only [keeps_mk_iff]; apply keepsP_of) | with_reducible rfl | split | (clear_value *; split) | dsimp only)

theorem keeps_mbxReply {s : State} (c) (status) (ws) (h0 : Keeps s0 s) : Keeps s0 (@State.mbxReply s c status ws) := by
  unfold State.mbxReply
  repeat' (first | with_reducible assumption | with_reducible apply keeps_setChan | with_reducible apply keeps_setF | with_reducible apply keeps_chanVec | (intro v; refine keeps_cut s0 v ?_ (fun hv => ?_); (on_goal 2 => try clear_value v); dsimp only [v]) | intro v | lift_lets | with_reducible apply keeps_ite | (simp only [keeps_mk_iff]; apply keepsP_of) | with_reducible rfl | split | (clear_value *; split) | dsimp only)

theorem keeps_mbxTake {s : State} (c) (h0 : Keeps s0 s) : Keeps s0 (@State.mbxTake s c) := by
  unfold State.mbxTake
  repeat' (first | with_reducible assumption | with_reducible apply keeps_setChan | (intro v; refine keeps_cut s0 v ?_ (fun hv => ?_); (on_goal 2 => try clear_value v); dsimp only [v]) | intro v | lift_lets | (simp only [keeps_mk_iff]; apply keepsP_of) | with_reducible rfl | split | (clear_value *; split) | dsimp only)

theorem keeps_mbxBusy {s : State} (c) (h0 : Keeps s0 s) : Keeps s0 (@State.mbxBusy s c) := by
  unfold State.mbxBusy
  repeat' (first | with_reducible assumption | with_reducible apply keeps_mbxReply | (intro v; refine keeps_cut s0 v ?_ (fun hv => ?_); (on_goal 2 => try clear_value v); dsimp only [v]) | intro v | lift_lets | (simp only [keeps_mk_iff]; apply keepsP_of) | with_reducible rfl | (refine keeps_of_snd (by with_reducible assumption) ?_) | (refine keeps_of_fst (by with_reducible assumption) ?_) | split | (clear_value *; split) | with_reducible apply keeps_fresh | dsimp only)

theorem keeps_riderFirst {s : State} (h0 : Keeps s0 s) : Keeps s0 (@State.riderFirst s) := by
  unfold State.riderFirst
  repeat' (first | with_reducible assumption | (intro v; refine keeps_cut s0 v ?_ (fun hv => ?_); (on_goal 2 => try clear_value v); dsimp only [v]) | intro v | lift_lets | with_reducible apply keeps_ite | (simp only [keeps_mk_iff]; apply keepsP_of) | with_reducible rfl | split | (clear_value *; split) | dsimp only)

theorem keeps_mbxRow {s : State} (c) (op) (f) (h0 : Keeps s0 s) (h1 : ∀ y0 y1, Keeps s0 y1 → Keeps s0 (f y0 y1)) : Keeps s0 (@State.mbxRow s c op f) := by
  unfold State.mbxRow
  repeat' (first | with_reducible assumption | with_reducible apply h1 | with_reducible apply keeps_riderFirst | with_reducible apply keeps_mbxBusy | (intro v; refine keeps_cut s0 v ?_ (fun hv => ?_); (on_goal 2 => try clear_value v); dsimp only [v]) | intro v | lift_lets | with_reducible apply keeps_ite | (simp only [keeps_mk_iff]; apply keepsP_of) | with_reducible rfl | split | (clear_value *; split) | dsimp only)

theorem keeps_mbxCmd {s : State} (c) (op) (f) (h0 : Keeps s0 s) (h1 : ∀ y0 y1 y2, Keeps s0 y2 → Keeps s0 (f y0 y1 y2).2) : Keeps s0 (@State.mbxCmd s c op f) := by
  unfold State.mbxCmd
  repeat' (first | with_reducible assumption | with_reducible apply h1 | with_reducible apply keeps_mbxRow | with_reducible apply keeps_mbxReply | (intro v; refine keeps_cut s0 v ?_ (fun hv => ?_); (on_goal 2 => try clear_value v); dsimp only [v]) | intro v | lift_lets | (simp only [keeps_mk_iff]; apply keepsP_of) | with_reducible rfl | (refine keeps_of_snd (by with_reducible assumption) ?_) | (refine keeps_of_fst (by with_reducible assumption) ?_) | split | (clear_value *; split) | dsimp only)

theorem keeps_mbxSend {s : State} (c) (h0 : Keeps s0 s) : Keeps s0 (@State.mbxSend s c) := by
  unfold State.mbxSend
  repeat' (first | with_reducible assumption | with_reducible apply keeps_setF | with_reducible apply keeps_record | with_reducible apply keeps_setChan | (intro v; refine keeps_cut s0 v ?_ (fun hv => ?_); (on_goal 2 => try clear_value v); dsimp only [v]) | intro v | lift_lets | with_reducible apply keeps_ite | (simp only [keeps_mk_iff]; apply keepsP_of) | with_reducible rfl | split | (clear_value *; split) | dsimp only)

theorem keeps_mbxPop {s : State} (c) (h0 : Keeps s0 s) : Keeps s0 (@State.mbxPop s c) := by
  unfold State.mbxPop
  repeat' (first | with_reducible assumption | with_reducible apply keeps_setF | with_reducible apply keeps_record | with_reducible apply keeps_setChan | (intro v; refine keeps_cut s0 v ?_ (fun hv => ?_); (on_goal 2 => try clear_value v); dsimp only [v]) | intro v | lift_lets | (simp only [keeps_mk_iff]; apply keepsP_of) | with_reducible rfl | split | (clear_value *; split) | dsimp only)

theorem keeps_mbxReset {s : State} (c) (h0 : Keeps s0 s) : Keeps s0 (@State.mbxReset s c) := by
  unfold State.mbxReset
  repeat' (first | with_reducible assumption | with_reducible apply keeps_setChan | with_reducible apply keeps_setReg | with_reducible apply keeps_setF | (intro v; refine keeps_cut s0 v ?_ (fun hv => ?_); (on_goal 2 => try clear_value v); dsimp only [v]) | intro v | lift_lets | with_reducible apply keeps_ite | (simp only [keeps_mk_iff]; apply keepsP_of) | with_reducible rfl | (refine keeps_of_snd (by with_reducible assumption) ?_) | (refine keeps_of_fst (by with_reducible assumption) ?_) | split | (clear_value *; split) | with_reducible apply keeps_fresh | dsimp only)

theorem keeps_writeMbxCtl {s : State} (who) (c) (val) (h0 : Keeps s0 s) : Keeps s0 (@State.writeMbxCtl s who c val) := by
  unfold State.writeMbxCtl
  repeat' (first | with_reducible assumption | with_reducible apply keeps_byChan | with_reducible apply keeps_mbxSend | with_reducible apply keeps_mbxPop | with_reducible apply keeps_mbxReset | (intro v; refine keeps_cut s0 v ?_ (fun hv => ?_); (on_goal 2 => try clear_value v); dsimp only [v]) | intro v | lift_lets | with_reducible apply keeps_ite | (simp only [keeps_mk_iff]; apply keepsP_of) | with_reducible rfl | split | (clear_value *; split) | dsimp only)

theorem keeps_execMbxSend (who) (chan) {s : State} (h0 : Keeps s0 s) : KeepsO s0 (@execMbxSend who chan s) := by
  unfold execMbxSend
  repeat' (first | with_reducible assumption | with_reducible apply keeps_writeMbxCtl | with_reducible apply keepsO_next | (intro v; refine keeps_cut s0 v ?_ (fun hv => ?_); (on_goal 2 => try clear_value v); dsimp only [v]) | intro v | lift_lets | (simp only [keeps_mk_iff]; apply keepsP_of) | with_reducible rfl | split | (clear_value *; split) | dsimp only)

theorem keeps_execMbxPop (who) (chan) {s : State} (h0 : Keeps s0 s) : KeepsO s0 (@execMbxPop who chan s) := by
  unfold execMbxPop
  repeat' (first | with_reducible assumption | with_reducible apply keeps_writeMbxCtl | with_reducible apply keepsO_next | (intro v; refine keeps_cut s0 v ?_ (fun hv => ?_); (on_goal 2 => try clear_value v); dsimp only [v]) | intro v | lift_lets | (simp only [keeps_mk_iff]; apply keepsP_of) | with_reducible rfl | split | (clear_value *; split) | dsimp only)

theorem keeps_execMbxReset (who) (chan) {s : State} (h0 : Keeps s0 s) : KeepsO s0 (@execMbxReset who chan s) := by
  unfold execMbxReset
  repeat' (first | with_reducible assumption | with_reducible apply keeps_writeMbxCtl | with_reducible apply keepsO_next | (intro v; refine keeps_cut s0 v ?_ (fun hv => ?_); (on_goal 2 => try clear_value v); dsimp only [v]) | intro v | lift_lets | (simp only [keeps_mk_iff]; apply keepsP_of) | with_reducible rfl | split | (clear_value *; split) | dsimp only)

theorem keeps_writeMbxLock {s : State} (who) (c) (val) (h0 : Keeps s0 s) : Keeps s0 (@State.writeMbxLock s who c val) := by
  unfold State.writeMbxLock
  repeat' (first | with_reducible assumption | with_reducible apply keeps_byChan | with_reducible apply keeps_setF | with_reducible apply keeps_setReg | (intro v; refine keeps_cut s0 v ?_ (fun hv => ?_); (on_goal 2 => try clear_value v); dsimp only [v]) | intro v | lift_lets | with_reducible apply keeps_ite | (simp only [keeps_mk_iff]; apply keepsP_of) | with_reducible rfl | split | (clear_value *; split) | dsimp only)

theorem keeps_execMbxTake (who) (chan) (token) {s : State} (h0 : Keeps s0 s) : KeepsO s0 (@execMbxTake who chan token s) := by
  unfold execMbxTake
  repeat' (first | with_reducible assumption | with_reducible apply keeps_writeMbxLock | with_reducible apply keepsO_next | (intro v; refine keeps_cut s0 v ?_ (fun hv => ?_); (on_goal 2 => try clear_value v); dsimp only [v]) | intro v | lift_lets | (simp only [keeps_mk_iff]; apply keepsP_of) | with_reducible rfl | split | (clear_value *; split) | dsimp only)

theorem keeps_execMbxGive (who) (chan) (token) {s : State} (h0 : Keeps s0 s) : KeepsO s0 (@execMbxGive who chan token s) := by
  unfold execMbxGive
  repeat' (first | with_reducible assumption | with_reducible apply keeps_writeMbxLock | with_reducible apply keepsO_next | (intro v; refine keeps_cut s0 v ?_ (fun hv => ?_); (on_goal 2 => try clear_value v); dsimp only [v]) | intro v | lift_lets | (simp only [keeps_mk_iff]; apply keepsP_of) | with_reducible rfl | split | (clear_value *; split) | dsimp only)

theorem keeps_writeBind {s : State} (who) (c) (val) (h0 : Keeps s0 s) : Keeps s0 (@State.writeBind s who c val) := by
  unfold State.writeBind
  repeat' (first | with_reducible assumption | with_reducible apply keeps_record | with_reducible apply keeps_setF | (intro v; refine keeps_cut s0 v ?_ (fun hv => ?_); (on_goal 2 => try clear_value v); dsimp only [v]) | intro v | lift_lets | with_reducible apply keeps_ite | (simp only [keeps_mk_iff]; apply keepsP_of) | with_reducible rfl | split | (clear_value *; split) | dsimp only)

theorem keeps_execMailboxBind (who) (chan) (val) {s : State} (h0 : Keeps s0 s) : KeepsO s0 (@execMailboxBind who chan val s) := by
  unfold execMailboxBind
  repeat' (first | with_reducible assumption | with_reducible apply keeps_writeBind | with_reducible apply keepsO_next | (intro v; refine keeps_cut s0 v ?_ (fun hv => ?_); (on_goal 2 => try clear_value v); dsimp only [v]) | intro v | lift_lets | (simp only [keeps_mk_iff]; apply keepsP_of) | with_reducible rfl | split | (clear_value *; split) | dsimp only)

theorem keeps_execMailboxTimeout (chan) {s : State} (h0 : Keeps s0 s) : KeepsO s0 (@execMailboxTimeout chan s) := by
  unfold execMailboxTimeout
  repeat' (first | with_reducible assumption | with_reducible apply keeps_setChan | with_reducible apply keeps_setF | with_reducible apply keeps_chanVec | with_reducible apply keepsO_next | (intro v; refine keeps_cut s0 v ?_ (fun hv => ?_); (on_goal 2 => try clear_value v); dsimp only [v]) | intro v | lift_lets | with_reducible apply keeps_ite | (simp only [keeps_mk_iff]; apply keepsP_of) | with_reducible rfl | split | (clear_value *; split) | dsimp only)

theorem keeps_flr {s : State} (fn) (h0 : Keeps s0 s) : Keeps s0 (@State.flr s fn) := by
  unfold State.flr
  repeat' (first | with_reducible assumption | with_reducible apply keeps_mbxReset | with_reducible apply keeps_dropCopies | with_reducible apply keeps_clearRegs | (intro v; refine keeps_cut s0 v ?_ (fun hv => ?_); (on_goal 2 => try clear_value v); dsimp only [v]) | intro v | lift_lets | with_reducible apply keeps_foldl | with_reducible apply keeps_foldl_fst | with_reducible apply keeps_foldl_snd | (simp only [keeps_mk_iff]; apply keepsP_of) | with_reducible rfl | split | (clear_value *; split) | dsimp only)

theorem keeps_execFunctionLevelReset (fn) {s : State} (h0 : Keeps s0 s) : KeepsO s0 (@execFunctionLevelReset fn s) := by
  unfold execFunctionLevelReset
  repeat' (first | with_reducible assumption | with_reducible apply keeps_flr | with_reducible apply keepsO_next | (intro v; refine keeps_cut s0 v ?_ (fun hv => ?_); (on_goal 2 => try clear_value v); dsimp only [v]) | intro v | lift_lets | with_reducible apply keeps_foldl | with_reducible apply keeps_foldl_fst | with_reducible apply keeps_foldl_snd | with_reducible apply keeps_ite | (simp only [keeps_mk_iff]; apply keepsP_of) | with_reducible rfl | split | (clear_value *; split) | dsimp only)

theorem keeps_execPortReset (port) {s : State} (h0 : Keeps s0 s) : KeepsO s0 (@execPortReset port s) := by
  unfold execPortReset
  repeat' (first | with_reducible assumption | with_reducible apply keeps_flr | with_reducible apply keepsO_next | (intro v; refine keeps_cut s0 v ?_ (fun hv => ?_); (on_goal 2 => try clear_value v); dsimp only [v]) | intro v | lift_lets | with_reducible apply keeps_foldl | with_reducible apply keeps_foldl_fst | with_reducible apply keeps_foldl_snd | (simp only [keeps_mk_iff]; apply keepsP_of) | with_reducible rfl | split | (clear_value *; split) | dsimp only)

theorem keeps_vfRemove {s : State} (fn) (h0 : Keeps s0 s) : Keeps s0 (@State.vfRemove s fn) := by
  unfold State.vfRemove
  repeat' (first | with_reducible assumption | with_reducible apply keeps_setF | with_reducible apply keeps_mbxReset | with_reducible apply keeps_dropCopies | (intro v; refine keeps_cut s0 v ?_ (fun hv => ?_); (on_goal 2 => try clear_value v); dsimp only [v]) | intro v | lift_lets | with_reducible apply keeps_foldl | with_reducible apply keeps_foldl_fst | with_reducible apply keeps_foldl_snd | (simp only [keeps_mk_iff]; apply keepsP_of) | with_reducible rfl | split | (clear_value *; split) | dsimp only)

theorem keeps_execVfRemove (fn) {s : State} (h0 : Keeps s0 s) : KeepsO s0 (@execVfRemove fn s) := by
  unfold execVfRemove
  repeat' (first | with_reducible assumption | with_reducible apply keeps_vfRemove | with_reducible apply keepsO_next | (intro v; refine keeps_cut s0 v ?_ (fun hv => ?_); (on_goal 2 => try clear_value v); dsimp only [v]) | intro v | lift_lets | with_reducible apply keeps_ite | (simp only [keeps_mk_iff]; apply keepsP_of) | with_reducible rfl | split | (clear_value *; split) | dsimp only)

theorem keeps_execMsixIntervalEnd (fn) (vec) {s : State} (h0 : Keeps s0 s) : KeepsO s0 (@execMsixIntervalEnd fn vec s) := by
  unfold execMsixIntervalEnd
  repeat' (first | with_reducible assumption | with_reducible apply keeps_sendMsix | with_reducible apply keepsO_next | (intro v; refine keeps_cut s0 v ?_ (fun hv => ?_); (on_goal 2 => try clear_value v); dsimp only [v]) | intro v | lift_lets | with_reducible apply keeps_ite | (simp only [keeps_mk_iff]; apply keepsP_of) | with_reducible rfl | split | (clear_value *; split) | dsimp only)

theorem keeps_execMailboxBadOpcode (chan) {s : State} (h0 : Keeps s0 s) : KeepsO s0 (@execMailboxBadOpcode chan s) := by
  unfold execMailboxBadOpcode
  repeat' (first | with_reducible assumption | with_reducible apply keeps_mbxReply | with_reducible apply keepsO_next | (intro v; refine keeps_cut s0 v ?_ (fun hv => ?_); (on_goal 2 => try clear_value v); dsimp only [v]) | intro v | lift_lets | with_reducible apply keeps_ite | (simp only [keeps_mk_iff]; apply keepsP_of) | with_reducible rfl | split | (clear_value *; split) | dsimp only)

theorem keeps_execEcho (chan) {s : State} (h0 : Keeps s0 s) : KeepsO s0 (@execEcho chan s) := by
  unfold execEcho
  repeat' (first | with_reducible assumption | with_reducible apply keeps_mbxRow | with_reducible apply keeps_mbxReply | with_reducible apply keepsO_next | (intro v; refine keeps_cut s0 v ?_ (fun hv => ?_); (on_goal 2 => try clear_value v); dsimp only [v]) | intro v | lift_lets | (simp only [keeps_mk_iff]; apply keepsP_of) | with_reducible rfl | split | (clear_value *; split) | dsimp only)

theorem keeps_execInfo (chan) {s : State} (h0 : Keeps s0 s) : KeepsO s0 (@execInfo chan s) := by
  unfold execInfo
  repeat' (first | with_reducible assumption | with_reducible apply keeps_mbxCmd | with_reducible apply keepsO_next | (intro v; refine keeps_cut s0 v ?_ (fun hv => ?_); (on_goal 2 => try clear_value v); dsimp only [v]) | intro v | lift_lets | (simp only [keeps_mk_iff]; apply keepsP_of) | with_reducible rfl | split | (clear_value *; split) | dsimp only)

theorem keeps_readBuf {s : State} (who) (a) (n) (h0 : Keeps s0 s) : Keeps s0 (@State.readBuf s who a n) := by
  unfold State.readBuf
  repeat' (first | with_reducible assumption | with_reducible apply keeps_noteRead | (intro v; refine keeps_cut s0 v ?_ (fun hv => ?_); (on_goal 2 => try clear_value v); dsimp only [v]) | intro v | lift_lets | with_reducible apply keeps_ite | (simp only [keeps_mk_iff]; apply keepsP_of) | with_reducible rfl | split | (clear_value *; split) | dsimp only)

theorem keeps_cmdPlace (x0) (x1) {s : State} (h0 : Keeps s0 s) : Keeps s0 (@cmdPlace  x0 x1 s).2 := by
  unfold cmdPlace
  repeat' (first | with_reducible assumption | with_reducible apply keeps_readBuf | with_reducible apply keeps_land | (intro v; refine keeps_cut s0 v ?_ (fun hv => ?_); (on_goal 2 => try clear_value v); dsimp only [v]) | intro v | lift_lets | with_reducible apply keeps_ite | (simp only [keeps_mk_iff]; apply keepsP_of) | with_reducible rfl | split | (clear_value *; split) | dsimp only)

theorem keeps_execPlace (chan) {s : State} (h0 : Keeps s0 s) : KeepsO s0 (@execPlace chan s) := by
  unfold execPlace
  repeat' (first | with_reducible assumption | with_reducible apply keeps_mbxCmd | with_reducible apply keepsO_next | (intro v; refine keeps_cut s0 v ?_ (fun hv => ?_); (on_goal 2 => try clear_value v); dsimp only [v]) | intro v | lift_lets | (simp only [keeps_mk_iff]; apply keepsP_of) | with_reducible rfl | (refine keeps_of_snd (by with_reducible assumption) ?_) | (refine keeps_of_fst (by with_reducible assumption) ?_) | split | (clear_value *; split) | with_reducible apply keeps_cmdPlace | dsimp only)

/-! ### Machine/Gauge.lean -/

theorem keeps_refuseWrite {s : State} (status) (src) (h0 : Keeps s0 s) : Keeps s0 (@State.refuseWrite s status src) := by
  unfold State.refuseWrite
  repeat' (first | with_reducible assumption | with_reducible apply keeps_record | (intro v; refine keeps_cut s0 v ?_ (fun hv => ?_); (on_goal 2 => try clear_value v); dsimp only [v]) | intro v | lift_lets | (simp only [keeps_mk_iff]; apply keepsP_of) | with_reducible rfl | split | (clear_value *; split) | dsimp only)

theorem keeps_writeWord {s : State} (r) (i) (val) (locked) (src) (h0 : Keeps s0 s) : Keeps s0 (@State.writeWord s r i val locked src) := by
  unfold State.writeWord
  repeat' (first | with_reducible assumption | with_reducible apply keeps_setReg | with_reducible apply keeps_refuseWrite | (intro v; refine keeps_cut s0 v ?_ (fun hv => ?_); (on_goal 2 => try clear_value v); dsimp only [v]) | intro v | lift_lets | with_reducible apply keeps_ite | (simp only [keeps_mk_iff]; apply keepsP_of) | with_reducible rfl | split | (clear_value *; split) | dsimp only)

theorem keeps_byManager {s : State} (who) (src) (f) (h0 : Keeps s0 s) (h1 : ∀ y0, Keeps s0 y0 → Keeps s0 (f y0)) : Keeps s0 (@State.byManager s who src f) := by
  unfold State.byManager
  repeat' (first | with_reducible assumption | with_reducible apply h1 | with_reducible apply keeps_refuseWrite | (intro v; refine keeps_cut s0 v ?_ (fun hv => ?_); (on_goal 2 => try clear_value v); dsimp only [v]) | intro v | lift_lets | with_reducible apply keeps_ite | (simp only [keeps_mk_iff]; apply keepsP_of) | with_reducible rfl | split | (clear_value *; split) | dsimp only)

theorem keeps_setG {s : State} (st) (h0 : Keeps s0 s) : Keeps s0 (@State.setG s st) := by
  unfold State.setG
  repeat' (first | with_reducible assumption | with_reducible apply keeps_setF | (intro v; refine keeps_cut s0 v ?_ (fun hv => ?_); (on_goal 2 => try clear_value v); dsimp only [v]) | intro v | lift_lets | (simp only [keeps_mk_iff]; apply keepsP_of) | with_reducible rfl | split | (clear_value *; split) | dsimp only)

theorem keeps_loseTime {s : State} (h0 : Keeps s0 s) : Keeps s0 (@State.loseTime s) := by
  unfold State.loseTime
  repeat' (first | with_reducible assumption | with_reducible apply keeps_record | with_reducible apply keeps_raiseAbort | (intro v; refine keeps_cut s0 v ?_ (fun hv => ?_); (on_goal 2 => try clear_value v); dsimp only [v]) | intro v | lift_lets | with_reducible apply keeps_foldl | with_reducible apply keeps_foldl_fst | with_reducible apply keeps_foldl_snd | (simp only [keeps_mk_iff]; apply keepsP_of) | with_reducible rfl | split | (clear_value *; split) | dsimp only)

theorem keeps_gaugeOut {s : State} (h0 : Keeps s0 s) : Keeps s0 (@State.gaugeOut s) := by
  unfold State.gaugeOut
  repeat' (first | with_reducible assumption | with_reducible apply keeps_setG | with_reducible apply keeps_setF | with_reducible apply keeps_loseTime | (intro v; refine keeps_cut s0 v ?_ (fun hv => ?_); (on_goal 2 => try clear_value v); dsimp only [v]) | intro v | lift_lets | (simp only [keeps_mk_iff]; apply keepsP_of) | with_reducible rfl | split | (clear_value *; split) | dsimp only)

theorem keeps_setLinkTime {s : State} (l) (x) (h0 : Keeps s0 s) : Keeps s0 (@State.setLinkTime s l x) := by
  unfold State.setLinkTime
  repeat' (first | with_reducible assumption | (intro v; refine keeps_cut s0 v ?_ (fun hv => ?_); (on_goal 2 => try clear_value v); dsimp only [v]) | intro v | lift_lets | (simp only [keeps_mk_iff]; apply keepsP_of) | with_reducible rfl | split | (clear_value *; split) | dsimp only)

theorem keeps_setParent {s : State} (link) (hops) (root) (isRoot) (h0 : Keeps s0 s) : Keeps s0 (@State.setParent s link hops root isRoot) := by
  unfold State.setParent
  repeat' (first | with_reducible assumption | with_reducible apply keeps_setF | (intro v; refine keeps_cut s0 v ?_ (fun hv => ?_); (on_goal 2 => try clear_value v); dsimp only [v]) | intro v | lift_lets | (simp only [keeps_mk_iff]; apply keepsP_of) | with_reducible rfl | split | (clear_value *; split) | dsimp only)

theorem keeps_holdOver {s : State} (h0 : Keeps s0 s) : Keeps s0 (@State.holdOver s) := by
  unfold State.holdOver
  repeat' (first | with_reducible assumption | with_reducible apply keeps_setG | (intro v; refine keeps_cut s0 v ?_ (fun hv => ?_); (on_goal 2 => try clear_value v); dsimp only [v]) | intro v | lift_lets | (simp only [keeps_mk_iff]; apply keepsP_of) | with_reducible rfl | split | (clear_value *; split) | dsimp only)

theorem keeps_goFree {s : State} (h0 : Keeps s0 s) : Keeps s0 (@State.goFree s) := by
  unfold State.goFree
  repeat' (first | with_reducible assumption | with_reducible apply keeps_setG | with_reducible apply keeps_setF | (intro v; refine keeps_cut s0 v ?_ (fun hv => ?_); (on_goal 2 => try clear_value v); dsimp only [v]) | intro v | lift_lets | (simp only [keeps_mk_iff]; apply keepsP_of) | with_reducible rfl | split | (clear_value *; split) | dsimp only)

theorem keeps_linkLost {s : State} (l) (h0 : Keeps s0 s) : Keeps s0 (@State.linkLost s l) := by
  unfold State.linkLost
  repeat' (first | with_reducible assumption | with_reducible apply keeps_goFree | with_reducible apply keeps_setF | with_reducible apply keeps_holdOver | (intro v; refine keeps_cut s0 v ?_ (fun hv => ?_); (on_goal 2 => try clear_value v); dsimp only [v]) | intro v | lift_lets | with_reducible apply keeps_ite | (simp only [keeps_mk_iff]; apply keepsP_of) | with_reducible rfl | split | (clear_value *; split) | dsimp only)

theorem keeps_writeGaugeSet {s : State} (who) (val) (h0 : Keeps s0 s) : Keeps s0 (@State.writeGaugeSet s who val) := by
  unfold State.writeGaugeSet
  repeat' (first | with_reducible assumption | with_reducible apply keeps_refuseWrite | (intro v; refine keeps_cut s0 v ?_ (fun hv => ?_); (on_goal 2 => try clear_value v); dsimp only [v]) | intro v | lift_lets | with_reducible apply keeps_ite | (simp only [keeps_mk_iff]; apply keepsP_of) | with_reducible rfl | split | (clear_value *; split) | dsimp only)

theorem keeps_abdicate {s : State} (h0 : Keeps s0 s) : Keeps s0 (@State.abdicate s) := by
  unfold State.abdicate
  repeat' (first | with_reducible assumption | with_reducible apply keeps_setParent | with_reducible apply keeps_holdOver | (intro v; refine keeps_cut s0 v ?_ (fun hv => ?_); (on_goal 2 => try clear_value v); dsimp only [v]) | intro v | lift_lets | with_reducible apply keeps_ite | (simp only [keeps_mk_iff]; apply keepsP_of) | with_reducible rfl | split | (clear_value *; split) | dsimp only)

theorem keeps_writeGaugeCtl {s : State} (who) (val) (h0 : Keeps s0 s) : Keeps s0 (@State.writeGaugeCtl s who val) := by
  unfold State.writeGaugeCtl
  repeat' (first | with_reducible assumption | with_reducible apply keeps_byManager | with_reducible apply keeps_writeWord | with_reducible apply keeps_goFree | with_reducible apply keeps_abdicate | (intro v; refine keeps_cut s0 v ?_ (fun hv => ?_); (on_goal 2 => try clear_value v); dsimp only [v]) | intro v | lift_lets | with_reducible apply keeps_ite | (simp only [keeps_mk_iff]; apply keepsP_of) | with_reducible rfl | split | (clear_value *; split) | dsimp only)

theorem keeps_crsRefuse {s : State} (status) (h0 : Keeps s0 s) : Keeps s0 (@State.crsRefuse s status) := by
  unfold State.crsRefuse
  repeat' (first | with_reducible assumption | with_reducible apply keeps_setF | with_reducible apply keeps_refuseWrite | (intro v; refine keeps_cut s0 v ?_ (fun hv => ?_); (on_goal 2 => try clear_value v); dsimp only [v]) | intro v | lift_lets | (simp only [keeps_mk_iff]; apply keepsP_of) | with_reducible rfl | split | (clear_value *; split) | dsimp only)

theorem keeps_crsArm {s : State} (h0 : Keeps s0 s) : Keeps s0 (@State.crsArm s) := by
  unfold State.crsArm
  repeat' (first | with_reducible assumption | with_reducible apply keeps_crsRefuse | with_reducible apply keeps_setF | (intro v; refine keeps_cut s0 v ?_ (fun hv => ?_); (on_goal 2 => try clear_value v); dsimp only [v]) | intro v | lift_lets | with_reducible apply keeps_ite | (simp only [keeps_mk_iff]; apply keepsP_of) | with_reducible rfl | split | (clear_value *; split) | dsimp only)

theorem keeps_crsCancel {s : State} (h0 : Keeps s0 s) : Keeps s0 (@State.crsCancel s) := by
  unfold State.crsCancel
  repeat' (first | with_reducible assumption | with_reducible apply keeps_setF | with_reducible apply keeps_crsRefuse | (intro v; refine keeps_cut s0 v ?_ (fun hv => ?_); (on_goal 2 => try clear_value v); dsimp only [v]) | intro v | lift_lets | with_reducible apply keeps_ite | (simp only [keeps_mk_iff]; apply keepsP_of) | with_reducible rfl | split | (clear_value *; split) | dsimp only)

theorem keeps_writeCrsChg {s : State} (who) (val) (h0 : Keeps s0 s) : Keeps s0 (@State.writeCrsChg s who val) := by
  unfold State.writeCrsChg
  repeat' (first | with_reducible assumption | with_reducible apply keeps_crsRefuse | with_reducible apply keeps_setF | with_reducible apply keeps_crsArm | with_reducible apply keeps_crsCancel | (intro v; refine keeps_cut s0 v ?_ (fun hv => ?_); (on_goal 2 => try clear_value v); dsimp only [v]) | intro v | lift_lets | with_reducible apply keeps_ite | (simp only [keeps_mk_iff]; apply keepsP_of) | with_reducible rfl | split | (clear_value *; split) | dsimp only)

theorem keeps_writeCrsAt {s : State} (who) (val) (h0 : Keeps s0 s) : Keeps s0 (@State.writeCrsAt s who val) := by
  unfold State.writeCrsAt
  repeat' (first | with_reducible assumption | with_reducible apply keeps_crsRefuse | with_reducible apply keeps_setReg | (intro v; refine keeps_cut s0 v ?_ (fun hv => ?_); (on_goal 2 => try clear_value v); dsimp only [v]) | intro v | lift_lets | with_reducible apply keeps_ite | (simp only [keeps_mk_iff]; apply keepsP_of) | with_reducible rfl | split | (clear_value *; split) | dsimp only)

theorem keeps_execGaugeSet (who) (val) {s : State} (h0 : Keeps s0 s) : KeepsO s0 (@execGaugeSet who val s) := by
  unfold execGaugeSet
  repeat' (first | with_reducible assumption | with_reducible apply keeps_writeGaugeSet | with_reducible apply keepsO_next | (intro v; refine keeps_cut s0 v ?_ (fun hv => ?_); (on_goal 2 => try clear_value v); dsimp only [v]) | intro v | lift_lets | (simp only [keeps_mk_iff]; apply keepsP_of) | with_reducible rfl | split | (clear_value *; split) | dsimp only)

theorem keeps_execGaugeLock (who) (val) {s : State} (h0 : Keeps s0 s) : KeepsO s0 (@execGaugeLock who val s) := by
  unfold execGaugeLock
  repeat' (first | with_reducible assumption | with_reducible apply keeps_writeGaugeCtl | with_reducible apply keepsO_next | (intro v; refine keeps_cut s0 v ?_ (fun hv => ?_); (on_goal 2 => try clear_value v); dsimp only [v]) | intro v | lift_lets | with_reducible apply keeps_ite | (simp only [keeps_mk_iff]; apply keepsP_of) | with_reducible rfl | split | (clear_value *; split) | dsimp only)

theorem keeps_execCourseChangeArm (who) (val) {s : State} (h0 : Keeps s0 s) : KeepsO s0 (@execCourseChangeArm who val s) := by
  unfold execCourseChangeArm
  repeat' (first | with_reducible assumption | with_reducible apply keeps_writeCrsChg | with_reducible apply keepsO_next | (intro v; refine keeps_cut s0 v ?_ (fun hv => ?_); (on_goal 2 => try clear_value v); dsimp only [v]) | intro v | lift_lets | with_reducible apply keeps_ite | (simp only [keeps_mk_iff]; apply keepsP_of) | with_reducible rfl | split | (clear_value *; split) | dsimp only)

theorem keeps_execCourseChangeCancel (who) (val) {s : State} (h0 : Keeps s0 s) : KeepsO s0 (@execCourseChangeCancel who val s) := by
  unfold execCourseChangeCancel
  repeat' (first | with_reducible assumption | with_reducible apply keeps_writeCrsChg | with_reducible apply keepsO_next | (intro v; refine keeps_cut s0 v ?_ (fun hv => ?_); (on_goal 2 => try clear_value v); dsimp only [v]) | intro v | lift_lets | with_reducible apply keeps_ite | (simp only [keeps_mk_iff]; apply keepsP_of) | with_reducible rfl | split | (clear_value *; split) | dsimp only)

/-! ### Machine/Power.lean -/

theorem keeps_setFeed {s : State} (f) (x) (h0 : Keeps s0 s) : Keeps s0 (@State.setFeed s f x) := by
  unfold State.setFeed
  repeat' (first | with_reducible assumption | (intro v; refine keeps_cut s0 v ?_ (fun hv => ?_); (on_goal 2 => try clear_value v); dsimp only [v]) | intro v | lift_lets | (simp only [keeps_mk_iff]; apply keepsP_of) | with_reducible rfl | split | (clear_value *; split) | dsimp only)

theorem keeps_pwcRecord {s : State} (status) (h0 : Keeps s0 s) : Keeps s0 (@State.pwcRecord s status) := by
  unfold State.pwcRecord
  repeat' (first | with_reducible assumption | with_reducible apply keeps_record | (intro v; refine keeps_cut s0 v ?_ (fun hv => ?_); (on_goal 2 => try clear_value v); dsimp only [v]) | intro v | lift_lets | (simp only [keeps_mk_iff]; apply keepsP_of) | with_reducible rfl | split | (clear_value *; split) | dsimp only)

theorem keeps_setFeedOk {s : State} (f) (v_) (h0 : Keeps s0 s) : Keeps s0 (@State.setFeedOk s f v_) := by
  unfold State.setFeedOk
  repeat' (first | with_reducible assumption | with_reducible apply keeps_setF | (intro v; refine keeps_cut s0 v ?_ (fun hv => ?_); (on_goal 2 => try clear_value v); dsimp only [v]) | intro v | lift_lets | with_reducible apply keeps_ite | (simp only [keeps_mk_iff]; apply keepsP_of) | with_reducible rfl | split | (clear_value *; split) | dsimp only)

theorem keeps_setRamp {s : State} (h0 : Keeps s0 s) : Keeps s0 (@State.setRamp s) := by
  unfold State.setRamp
  repeat' (first | with_reducible assumption | with_reducible apply keeps_setF | (intro v; refine keeps_cut s0 v ?_ (fun hv => ?_); (on_goal 2 => try clear_value v); dsimp only [v]) | intro v | lift_lets | (simp only [keeps_mk_iff]; apply keepsP_of) | with_reducible rfl | split | (clear_value *; split) | dsimp only)

theorem keeps_feedsChanged {s : State} (h0 : Keeps s0 s) : Keeps s0 (@State.feedsChanged s) := by
  unfold State.feedsChanged
  repeat' (first | with_reducible assumption | with_reducible apply keeps_setF | with_reducible apply keeps_setRamp | (intro v; refine keeps_cut s0 v ?_ (fun hv => ?_); (on_goal 2 => try clear_value v); dsimp only [v]) | intro v | lift_lets | with_reducible apply keeps_ite | (simp only [keeps_mk_iff]; apply keepsP_of) | with_reducible rfl | split | (clear_value *; split) | dsimp only)

theorem keeps_setClaim {s : State} (f) (claim) (ramp) (h0 : Keeps s0 s) : Keeps s0 (@State.setClaim s f claim ramp) := by
  unfold State.setClaim
  repeat' (first | with_reducible assumption | with_reducible apply keeps_setF | with_reducible apply keeps_setFeed | with_reducible apply keeps_feedsChanged | (intro v; refine keeps_cut s0 v ?_ (fun hv => ?_); (on_goal 2 => try clear_value v); dsimp only [v]) | intro v | lift_lets | with_reducible apply keeps_ite | (simp only [keeps_mk_iff]; apply keepsP_of) | with_reducible rfl | split | (clear_value *; split) | dsimp only)

theorem keeps_takeClaim {s : State} (f) (h0 : Keeps s0 s) : Keeps s0 (@State.takeClaim s f) := by
  unfold State.takeClaim
  repeat' (first | with_reducible assumption | with_reducible apply keeps_setClaim | (intro v; refine keeps_cut s0 v ?_ (fun hv => ?_); (on_goal 2 => try clear_value v); dsimp only [v]) | intro v | lift_lets | with_reducible apply keeps_ite | (simp only [keeps_mk_iff]; apply keepsP_of) | with_reducible rfl | split | (clear_value *; split) | dsimp only)

theorem keeps_execPilotFrame (feedB) (b0) (b1) (b2) (b3) {s : State} (h0 : Keeps s0 s) : KeepsO s0 (@execPilotFrame feedB b0 b1 b2 b3 s) := by
  unfold execPilotFrame
  repeat' (first | with_reducible assumption | with_reducible apply keeps_setFeed | with_reducible apply keeps_setF | with_reducible apply keeps_takeClaim | with_reducible apply keepsO_next | (intro v; refine keeps_cut s0 v ?_ (fun hv => ?_); (on_goal 2 => try clear_value v); dsimp only [v]) | intro v | lift_lets | with_reducible apply keeps_ite | (simp only [keeps_mk_iff]; apply keepsP_of) | with_reducible rfl | split | (clear_value *; split) | dsimp only)

theorem keeps_execPilotLost (feedB) {s : State} (h0 : Keeps s0 s) : KeepsO s0 (@execPilotLost feedB s) := by
  unfold execPilotLost
  repeat' (first | with_reducible assumption | with_reducible apply keeps_setF | with_reducible apply keeps_setFeed | with_reducible apply keeps_setClaim | with_reducible apply keeps_pwcRecord | with_reducible apply keepsO_next | (intro v; refine keeps_cut s0 v ?_ (fun hv => ?_); (on_goal 2 => try clear_value v); dsimp only [v]) | intro v | lift_lets | with_reducible apply keeps_ite | (simp only [keeps_mk_iff]; apply keepsP_of) | with_reducible rfl | split | (clear_value *; split) | dsimp only)

theorem keeps_startHold {s : State} (h0 : Keeps s0 s) : Keeps s0 (@State.startHold s) := by
  unfold State.startHold
  repeat' (first | with_reducible assumption | with_reducible apply keeps_setF | (intro v; refine keeps_cut s0 v ?_ (fun hv => ?_); (on_goal 2 => try clear_value v); dsimp only [v]) | intro v | lift_lets | with_reducible apply keeps_ite | (simp only [keeps_mk_iff]; apply keepsP_of) | with_reducible rfl | split | (clear_value *; split) | dsimp only)

theorem keeps_moveLoad {s : State} (f) (h0 : Keeps s0 s) : Keeps s0 (@State.moveLoad s f) := by
  unfold State.moveLoad
  repeat' (first | with_reducible assumption | with_reducible apply keeps_setF | with_reducible apply keeps_bump | with_reducible apply keeps_setReg | with_reducible apply keeps_feedsChanged | with_reducible apply keeps_setRamp | (intro v; refine keeps_cut s0 v ?_ (fun hv => ?_); (on_goal 2 => try clear_value v); dsimp only [v]) | intro v | lift_lets | (simp only [keeps_mk_iff]; apply keepsP_of) | with_reducible rfl | split | (clear_value *; split) | dsimp only)

theorem keeps_closePath {s : State} (h0 : Keeps s0 s) : Keeps s0 (@State.closePath s) := by
  unfold State.closePath
  repeat' (first | with_reducible assumption | with_reducible apply keeps_moveLoad | with_reducible apply keeps_pwcRecord | (intro v; refine keeps_cut s0 v ?_ (fun hv => ?_); (on_goal 2 => try clear_value v); dsimp only [v]) | intro v | lift_lets | with_reducible apply keeps_ite | (simp only [keeps_mk_iff]; apply keepsP_of) | with_reducible rfl | split | (clear_value *; split) | dsimp only)

theorem keeps_loseFeed {s : State} (f) (h0 : Keeps s0 s) : Keeps s0 (@State.loseFeed s f) := by
  unfold State.loseFeed
  repeat' (first | with_reducible assumption | with_reducible apply keeps_startHold | (intro v; refine keeps_cut s0 v ?_ (fun hv => ?_); (on_goal 2 => try clear_value v); dsimp only [v]) | intro v | lift_lets | with_reducible apply keeps_ite | (simp only [keeps_mk_iff]; apply keepsP_of) | with_reducible rfl | (refine keeps_of_snd (by with_reducible assumption) ?_) | (refine keeps_of_fst (by with_reducible assumption) ?_) | split | (clear_value *; split) | with_reducible apply keeps_fresh | dsimp only)

theorem keeps_execFeedOutOfSpec (feedB) {s : State} (h0 : Keeps s0 s) : KeepsO s0 (@execFeedOutOfSpec feedB s) := by
  unfold execFeedOutOfSpec
  repeat' (first | with_reducible assumption | with_reducible apply keeps_setFeedOk | with_reducible apply keeps_feedsChanged | with_reducible apply keeps_loseFeed | with_reducible apply keepsO_next | (intro v; refine keeps_cut s0 v ?_ (fun hv => ?_); (on_goal 2 => try clear_value v); dsimp only [v]) | intro v | lift_lets | with_reducible apply keeps_ite | (simp only [keeps_mk_iff]; apply keepsP_of) | with_reducible rfl | split | (clear_value *; split) | dsimp only)

theorem keeps_execFeedInSpec (feedB) {s : State} (h0 : Keeps s0 s) : KeepsO s0 (@execFeedInSpec feedB s) := by
  unfold execFeedInSpec
  repeat' (first | with_reducible assumption | with_reducible apply keeps_setFeedOk | with_reducible apply keeps_feedsChanged | with_reducible apply keeps_moveLoad | with_reducible apply keeps_pwcRecord | with_reducible apply keepsO_next | (intro v; refine keeps_cut s0 v ?_ (fun hv => ?_); (on_goal 2 => try clear_value v); dsimp only [v]) | intro v | lift_lets | with_reducible apply keeps_ite | (simp only [keeps_mk_iff]; apply keepsP_of) | with_reducible rfl | split | (clear_value *; split) | dsimp only)

theorem keeps_execFeedReturn {s : State} (h0 : Keeps s0 s) : KeepsO s0 (@execFeedReturn s) := by
  unfold execFeedReturn
  repeat' (first | with_reducible assumption | with_reducible apply keeps_moveLoad | with_reducible apply keepsO_next | (intro v; refine keeps_cut s0 v ?_ (fun hv => ?_); (on_goal 2 => try clear_value v); dsimp only [v]) | intro v | lift_lets | with_reducible apply keeps_ite | (simp only [keeps_mk_iff]; apply keepsP_of) | with_reducible rfl | split | (clear_value *; split) | dsimp only)

theorem keeps_execPowerLossStop {s : State} (h0 : Keeps s0 s) : KeepsO s0 (@execPowerLossStop s) := by
  unfold execPowerLossStop
  repeat' (first | with_reducible assumption | with_reducible apply keepsO_next | (intro v; refine keeps_cut s0 v ?_ (fun hv => ?_); (on_goal 2 => try clear_value v); dsimp only [v]) | intro v | lift_lets | with_reducible apply keeps_ite | (simp only [keeps_mk_iff]; apply keepsP_of) | with_reducible rfl | split | (clear_value *; split) | dsimp only)

theorem keeps_setEff {s : State} (h0 : Keeps s0 s) : Keeps s0 (@State.setEff s) := by
  unfold State.setEff
  repeat' (first | with_reducible assumption | with_reducible apply keeps_setF | (intro v; refine keeps_cut s0 v ?_ (fun hv => ?_); (on_goal 2 => try clear_value v); dsimp only [v]) | intro v | lift_lets | (simp only [keeps_mk_iff]; apply keepsP_of) | with_reducible rfl | split | (clear_value *; split) | dsimp only)

theorem keeps_capRefuse {s : State} (status) (h0 : Keeps s0 s) : Keeps s0 (@State.capRefuse s status) := by
  unfold State.capRefuse
  repeat' (first | with_reducible assumption | with_reducible apply keeps_setF | with_reducible apply keeps_pwcRecord | (intro v; refine keeps_cut s0 v ?_ (fun hv => ?_); (on_goal 2 => try clear_value v); dsimp only [v]) | intro v | lift_lets | (simp only [keeps_mk_iff]; apply keepsP_of) | with_reducible rfl | split | (clear_value *; split) | dsimp only)

theorem keeps_writeCap {s : State} (who) (val) (h0 : Keeps s0 s) : Keeps s0 (@State.writeCap s who val) := by
  unfold State.writeCap
  repeat' (first | with_reducible assumption | with_reducible apply keeps_pwcRecord | with_reducible apply keeps_setF | (intro v; refine keeps_cut s0 v ?_ (fun hv => ?_); (on_goal 2 => try clear_value v); dsimp only [v]) | intro v | lift_lets | with_reducible apply keeps_ite | (simp only [keeps_mk_iff]; apply keepsP_of) | with_reducible rfl | split | (clear_value *; split) | dsimp only)

theorem keeps_capArm {s : State} (g) (h0 : Keeps s0 s) : Keeps s0 (@State.capArm s g) := by
  unfold State.capArm
  repeat' (first | with_reducible assumption | with_reducible apply keeps_capRefuse | with_reducible apply keeps_setF | (intro v; refine keeps_cut s0 v ?_ (fun hv => ?_); (on_goal 2 => try clear_value v); dsimp only [v]) | intro v | lift_lets | with_reducible apply keeps_ite | (simp only [keeps_mk_iff]; apply keepsP_of) | with_reducible rfl | split | (clear_value *; split) | dsimp only)

theorem keeps_capCancel {s : State} (h0 : Keeps s0 s) : Keeps s0 (@State.capCancel s) := by
  unfold State.capCancel
  repeat' (first | with_reducible assumption | with_reducible apply keeps_setF | with_reducible apply keeps_capRefuse | (intro v; refine keeps_cut s0 v ?_ (fun hv => ?_); (on_goal 2 => try clear_value v); dsimp only [v]) | intro v | lift_lets | with_reducible apply keeps_ite | (simp only [keeps_mk_iff]; apply keepsP_of) | with_reducible rfl | split | (clear_value *; split) | dsimp only)

theorem keeps_writeCapNext {s : State} (who) (val) (h0 : Keeps s0 s) : Keeps s0 (@State.writeCapNext s who val) := by
  unfold State.writeCapNext
  repeat' (first | with_reducible assumption | with_reducible apply keeps_capRefuse | with_reducible apply keeps_capArm | with_reducible apply keeps_setF | with_reducible apply keeps_capCancel | (intro v; refine keeps_cut s0 v ?_ (fun hv => ?_); (on_goal 2 => try clear_value v); dsimp only [v]) | intro v | lift_lets | with_reducible apply keeps_ite | (simp only [keeps_mk_iff]; apply keepsP_of) | with_reducible rfl | split | (clear_value *; split) | dsimp only)

theorem keeps_writeCapAt {s : State} (who) (val) (h0 : Keeps s0 s) : Keeps s0 (@State.writeCapAt s who val) := by
  unfold State.writeCapAt
  repeat' (first | with_reducible assumption | with_reducible apply keeps_capRefuse | with_reducible apply keeps_setReg | (intro v; refine keeps_cut s0 v ?_ (fun hv => ?_); (on_goal 2 => try clear_value v); dsimp only [v]) | intro v | lift_lets | with_reducible apply keeps_ite | (simp only [keeps_mk_iff]; apply keepsP_of) | with_reducible rfl | split | (clear_value *; split) | dsimp only)

theorem keeps_execCapApply {s : State} (h0 : Keeps s0 s) : KeepsO s0 (@execCapApply s) := by
  unfold execCapApply
  repeat' (first | with_reducible assumption | with_reducible apply keeps_setF | with_reducible apply keeps_setEff | with_reducible apply keepsO_next | (intro v; refine keeps_cut s0 v ?_ (fun hv => ?_); (on_goal 2 => try clear_value v); dsimp only [v]) | intro v | lift_lets | with_reducible apply keeps_ite | (simp only [keeps_mk_iff]; apply keepsP_of) | with_reducible rfl | split | (clear_value *; split) | dsimp only)

theorem keeps_takeSnapshot {s : State} (stamp) (manual) (counters) (h0 : Keeps s0 s) : Keeps s0 (@State.takeSnapshot s stamp manual counters) := by
  unfold State.takeSnapshot
  repeat' (first | with_reducible assumption | with_reducible apply keeps_setReg | with_reducible apply keeps_setF | (intro v; refine keeps_cut s0 v ?_ (fun hv => ?_); (on_goal 2 => try clear_value v); dsimp only [v]) | intro v | lift_lets | with_reducible apply keeps_foldl | with_reducible apply keeps_foldl_fst | with_reducible apply keeps_foldl_snd | (simp only [keeps_mk_iff]; apply keepsP_of) | with_reducible rfl | split | (clear_value *; split) | dsimp only)

theorem keeps_latchDemand {s : State} (h0 : Keeps s0 s) : Keeps s0 (@State.latchDemand s) := by
  unfold State.latchDemand
  repeat' (first | with_reducible assumption | (intro v; refine keeps_cut s0 v ?_ (fun hv => ?_); (on_goal 2 => try clear_value v); dsimp only [v]) | intro v | lift_lets | with_reducible apply keeps_ite | (simp only [keeps_mk_iff]; apply keepsP_of) | with_reducible rfl | split | (clear_value *; split) | dsimp only)

theorem keeps_writeDint {s : State} (who) (val) (h0 : Keeps s0 s) : Keeps s0 (@State.writeDint s who val) := by
  unfold State.writeDint
  repeat' (first | with_reducible assumption | with_reducible apply keeps_pwcRecord | with_reducible apply keeps_setF | with_reducible apply keeps_takeSnapshot | (intro v; refine keeps_cut s0 v ?_ (fun hv => ?_); (on_goal 2 => try clear_value v); dsimp only [v]) | intro v | lift_lets | with_reducible apply keeps_ite | (simp only [keeps_mk_iff]; apply keepsP_of) | with_reducible rfl | split | (clear_value *; split) | dsimp only)

theorem keeps_execDemandSnapshot {s : State} (h0 : Keeps s0 s) : KeepsO s0 (@execDemandSnapshot s) := by
  unfold execDemandSnapshot
  repeat' (first | with_reducible assumption | with_reducible apply keeps_takeSnapshot | with_reducible apply keepsO_next | (intro v; refine keeps_cut s0 v ?_ (fun hv => ?_); (on_goal 2 => try clear_value v); dsimp only [v]) | intro v | lift_lets | with_reducible apply keeps_ite | (simp only [keeps_mk_iff]; apply keepsP_of) | with_reducible rfl | split | (clear_value *; split) | dsimp only)

theorem keeps_execEnergyViewUpdate {s : State} (h0 : Keeps s0 s) : KeepsO s0 (@execEnergyViewUpdate s) := by
  unfold execEnergyViewUpdate
  repeat' (first | with_reducible assumption | with_reducible apply keepsO_next | (intro v; refine keeps_cut s0 v ?_ (fun hv => ?_); (on_goal 2 => try clear_value v); dsimp only [v]) | intro v | lift_lets | with_reducible apply keeps_ite | (simp only [keeps_mk_iff]; apply keepsP_of) | with_reducible rfl | split | (clear_value *; split) | dsimp only)

theorem keeps_writePwcCtl {s : State} (who) (val) (h0 : Keeps s0 s) : Keeps s0 (@State.writePwcCtl s who val) := by
  unfold State.writePwcCtl
  repeat' (first | with_reducible assumption | with_reducible apply keeps_pwcRecord | with_reducible apply keeps_setReg | with_reducible apply keeps_feedsChanged | (intro v; refine keeps_cut s0 v ?_ (fun hv => ?_); (on_goal 2 => try clear_value v); dsimp only [v]) | intro v | lift_lets | with_reducible apply keeps_ite | (simp only [keeps_mk_iff]; apply keepsP_of) | with_reducible rfl | split | (clear_value *; split) | dsimp only)

theorem keeps_pwcWrite {s : State} (who) (off) (val) (h0 : Keeps s0 s) : Keeps s0 (@State.pwcWrite s who off val) := by
  unfold State.pwcWrite
  repeat' (first | with_reducible assumption | with_reducible apply keeps_writeCap | with_reducible apply keeps_writeCapNext | with_reducible apply keeps_writeCapAt | with_reducible apply keeps_writePwcCtl | with_reducible apply keeps_writeDint | with_reducible apply keeps_writeWord | with_reducible apply keeps_pwcRecord | (intro v; refine keeps_cut s0 v ?_ (fun hv => ?_); (on_goal 2 => try clear_value v); dsimp only [v]) | intro v | lift_lets | with_reducible apply keeps_ite | (simp only [keeps_mk_iff]; apply keepsP_of) | with_reducible rfl | split | (clear_value *; split) | dsimp only)

theorem keeps_writePower {s : State} (who) (off) (val) (h0 : Keeps s0 s) : Keeps s0 (@State.writePower s who off val) := by
  unfold State.writePower
  repeat' (first | with_reducible assumption | with_reducible apply keeps_pwcWrite | (intro v; refine keeps_cut s0 v ?_ (fun hv => ?_); (on_goal 2 => try clear_value v); dsimp only [v]) | intro v | lift_lets | with_reducible apply keeps_ite | (simp only [keeps_mk_iff]; apply keepsP_of) | with_reducible rfl | split | (clear_value *; split) | dsimp only)

theorem keeps_execCapWrite (who) (val) {s : State} (h0 : Keeps s0 s) : KeepsO s0 (@execCapWrite who val s) := by
  unfold execCapWrite
  repeat' (first | with_reducible assumption | with_reducible apply keeps_writePower | with_reducible apply keepsO_next | (intro v; refine keeps_cut s0 v ?_ (fun hv => ?_); (on_goal 2 => try clear_value v); dsimp only [v]) | intro v | lift_lets | (simp only [keeps_mk_iff]; apply keepsP_of) | with_reducible rfl | split | (clear_value *; split) | dsimp only)

theorem keeps_execCapArm (who) (val) {s : State} (h0 : Keeps s0 s) : KeepsO s0 (@execCapArm who val s) := by
  unfold execCapArm
  repeat' (first | with_reducible assumption | with_reducible apply keeps_writePower | with_reducible apply keepsO_next | (intro v; refine keeps_cut s0 v ?_ (fun hv => ?_); (on_goal 2 => try clear_value v); dsimp only [v]) | intro v | lift_lets | with_reducible apply keeps_ite | (simp only [keeps_mk_iff]; apply keepsP_of) | with_reducible rfl | split | (clear_value *; split) | dsimp only)

theorem keeps_execCapCancel (who) (val) {s : State} (h0 : Keeps s0 s) : KeepsO s0 (@execCapCancel who val s) := by
  unfold execCapCancel
  repeat' (first | with_reducible assumption | with_reducible apply keeps_writePower | with_reducible apply keepsO_next | (intro v; refine keeps_cut s0 v ?_ (fun hv => ?_); (on_goal 2 => try clear_value v); dsimp only [v]) | intro v | lift_lets | with_reducible apply keeps_ite | (simp only [keeps_mk_iff]; apply keepsP_of) | with_reducible rfl | split | (clear_value *; split) | dsimp only)

theorem keeps_execSnap (who) (val) {s : State} (h0 : Keeps s0 s) : KeepsO s0 (@execSnap who val s) := by
  unfold execSnap
  repeat' (first | with_reducible assumption | with_reducible apply keeps_writePower | with_reducible apply keepsO_next | (intro v; refine keeps_cut s0 v ?_ (fun hv => ?_); (on_goal 2 => try clear_value v); dsimp only [v]) | intro v | lift_lets | with_reducible apply keeps_ite | (simp only [keeps_mk_iff]; apply keepsP_of) | with_reducible rfl | split | (clear_value *; split) | dsimp only)

theorem keeps_execHoldEnd {s : State} (h0 : Keeps s0 s) : KeepsO s0 (@execHoldEnd s) := by
  unfold execHoldEnd
  repeat' (first | with_reducible assumption | with_reducible apply keeps_setF | with_reducible apply keeps_pwcWrite | with_reducible apply keeps_takeClaim | with_reducible apply keeps_feedsChanged | with_reducible apply keepsO_next | (intro v; refine keeps_cut s0 v ?_ (fun hv => ?_); (on_goal 2 => try clear_value v); dsimp only [v]) | intro v | lift_lets | with_reducible apply keeps_foldl | with_reducible apply keeps_foldl_fst | with_reducible apply keeps_foldl_snd | with_reducible apply keeps_ite | (simp only [keeps_mk_iff]; apply keepsP_of) | with_reducible rfl | split | (clear_value *; split) | dsimp only)

theorem keeps_breach {s : State} (job) (h0 : Keeps s0 s) : Keeps s0 (@State.breach s job) := by
  unfold State.breach
  repeat' (first | with_reducible assumption | with_reducible apply keeps_bump | with_reducible apply keeps_record | (intro v; refine keeps_cut s0 v ?_ (fun hv => ?_); (on_goal 2 => try clear_value v); dsimp only [v]) | intro v | lift_lets | with_reducible apply keeps_ite | (simp only [keeps_mk_iff]; apply keepsP_of) | with_reducible rfl | split | (clear_value *; split) | dsimp only)

theorem keeps_addEnergy {s : State} (key) (units) (h0 : Keeps s0 s) : Keeps s0 (@State.addEnergy s key units) := by
  unfold State.addEnergy
  repeat' (first | with_reducible assumption | with_reducible apply keeps_setReg | (intro v; refine keeps_cut s0 v ?_ (fun hv => ?_); (on_goal 2 => try clear_value v); dsimp only [v]) | intro v | lift_lets | with_reducible apply keeps_ite | (simp only [keeps_mk_iff]; apply keepsP_of) | with_reducible rfl | split | (clear_value *; split) | dsimp only)

theorem keeps_divideEnergy {s : State} (m) (input) (h0 : Keeps s0 s) : Keeps s0 (@State.divideEnergy s m input) := by
  unfold State.divideEnergy
  repeat' (first | with_reducible assumption | with_reducible apply keeps_addEnergy | (intro v; refine keeps_cut s0 v ?_ (fun hv => ?_); (on_goal 2 => try clear_value v); dsimp only [v]) | intro v | lift_lets | with_reducible apply keeps_foldl | with_reducible apply keeps_foldl_fst | with_reducible apply keeps_foldl_snd | with_reducible apply keeps_ite | (simp only [keeps_mk_iff]; apply keepsP_of) | with_reducible rfl | split | (clear_value *; split) | dsimp only)

theorem keeps_judge {s : State} (ms) (h0 : Keeps s0 s) : Keeps s0 (@State.judge s ms) := by
  unfold State.judge
  repeat' (first | with_reducible assumption | with_reducible apply keeps_setF | with_reducible apply keeps_breach | (intro v; refine keeps_cut s0 v ?_ (fun hv => ?_); (on_goal 2 => try clear_value v); dsimp only [v]) | intro v | lift_lets | with_reducible apply keeps_foldl | with_reducible apply keeps_foldl_fst | with_reducible apply keeps_foldl_snd | with_reducible apply keeps_ite | (simp only [keeps_mk_iff]; apply keepsP_of) | with_reducible rfl | split | (clear_value *; split) | dsimp only)

theorem keeps_addSample {s : State} (m) (input) (h0 : Keeps s0 s) : Keeps s0 (@State.addSample s m input) := by
  unfold State.addSample
  repeat' (first | with_reducible assumption | with_reducible apply keeps_judge | (intro v; refine keeps_cut s0 v ?_ (fun hv => ?_); (on_goal 2 => try clear_value v); dsimp only [v]) | intro v | lift_lets | with_reducible apply keeps_ite | (simp only [keeps_mk_iff]; apply keepsP_of) | with_reducible rfl | split | (clear_value *; split) | dsimp only)

theorem keeps_compensate {s : State} (input) (maxed) (h0 : Keeps s0 s) : Keeps s0 (@State.compensate s input maxed) := by
  unfold State.compensate
  repeat' (first | with_reducible assumption | with_reducible apply keeps_bump | with_reducible apply keeps_pwcRecord | (intro v; refine keeps_cut s0 v ?_ (fun hv => ?_); (on_goal 2 => try clear_value v); dsimp only [v]) | intro v | lift_lets | with_reducible apply keeps_ite | (simp only [keeps_mk_iff]; apply keepsP_of) | with_reducible rfl | split | (clear_value *; split) | dsimp only)

theorem keeps_fastLimit {s : State} (m) (input) (h0 : Keeps s0 s) : Keeps s0 (@State.fastLimit s m input) := by
  unfold State.fastLimit
  repeat' (first | with_reducible assumption | with_reducible apply keeps_bump | (intro v; refine keeps_cut s0 v ?_ (fun hv => ?_); (on_goal 2 => try clear_value v); dsimp only [v]) | intro v | lift_lets | with_reducible apply keeps_ite | (simp only [keeps_mk_iff]; apply keepsP_of) | with_reducible rfl | split | (clear_value *; split) | dsimp only)

theorem keeps_execPowerSample (m) {s : State} (h0 : Keeps s0 s) : KeepsO s0 (@execPowerSample m s) := by
  unfold execPowerSample
  repeat' (first | with_reducible assumption | with_reducible apply keeps_setReg | with_reducible apply keeps_latchDemand | with_reducible apply keeps_setRamp | with_reducible apply keeps_addSample | with_reducible apply keeps_divideEnergy | with_reducible apply keeps_fastLimit | with_reducible apply keeps_compensate | with_reducible apply keepsO_next | (intro v; refine keeps_cut s0 v ?_ (fun hv => ?_); (on_goal 2 => try clear_value v); dsimp only [v]) | intro v | lift_lets | with_reducible apply keeps_ite | (simp only [keeps_mk_iff]; apply keepsP_of) | with_reducible rfl | split | (clear_value *; split) | dsimp only)

theorem keeps_execFastLimiterRelease {s : State} (h0 : Keeps s0 s) : KeepsO s0 (@execFastLimiterRelease s) := by
  unfold execFastLimiterRelease
  repeat' (first | with_reducible assumption | with_reducible apply keepsO_next | (intro v; refine keeps_cut s0 v ?_ (fun hv => ?_); (on_goal 2 => try clear_value v); dsimp only [v]) | intro v | lift_lets | with_reducible apply keeps_ite | (simp only [keeps_mk_iff]; apply keepsP_of) | with_reducible rfl | split | (clear_value *; split) | dsimp only)

theorem keeps_learn {s : State} (sl) (tag) (h0 : Keeps s0 s) : Keeps s0 (@State.learn s sl tag) := by
  unfold State.learn
  repeat' (first | with_reducible assumption | with_reducible apply keeps_setF | with_reducible apply keeps_bump | (intro v; refine keeps_cut s0 v ?_ (fun hv => ?_); (on_goal 2 => try clear_value v); dsimp only [v]) | intro v | lift_lets | with_reducible apply keeps_ite | (simp only [keeps_mk_iff]; apply keepsP_of) | with_reducible rfl | split | (clear_value *; split) | dsimp only)

theorem keeps_closeSlate {s : State} (m) (sl) (h0 : Keeps s0 s) : Keeps s0 (@State.closeSlate s m sl) := by
  unfold State.closeSlate
  repeat' (first | with_reducible assumption | with_reducible apply keeps_learn | with_reducible apply keeps_setF | (intro v; refine keeps_cut s0 v ?_ (fun hv => ?_); (on_goal 2 => try clear_value v); dsimp only [v]) | intro v | lift_lets | with_reducible apply keeps_ite | (simp only [keeps_mk_iff]; apply keepsP_of) | with_reducible rfl | split | (clear_value *; split) | dsimp only)

theorem keeps_moveCeil {s : State} (sl) (h0 : Keeps s0 s) : Keeps s0 (@State.moveCeil s sl) := by
  unfold State.moveCeil
  repeat' (first | with_reducible assumption | with_reducible apply keeps_setF | (intro v; refine keeps_cut s0 v ?_ (fun hv => ?_); (on_goal 2 => try clear_value v); dsimp only [v]) | intro v | lift_lets | with_reducible apply keeps_ite | (simp only [keeps_mk_iff]; apply keepsP_of) | with_reducible rfl | split | (clear_value *; split) | dsimp only)

theorem keeps_allocate {s : State} (h0 : Keeps s0 s) : Keeps s0 (@State.allocate s) := by
  unfold State.allocate
  repeat' (first | with_reducible assumption | with_reducible apply keeps_setF | with_reducible apply keeps_breach | (intro v; refine keeps_cut s0 v ?_ (fun hv => ?_); (on_goal 2 => try clear_value v); dsimp only [v]) | intro v | lift_lets | with_reducible apply keeps_foldl | with_reducible apply keeps_foldl_fst | with_reducible apply keeps_foldl_snd | with_reducible apply keeps_ite | (simp only [keeps_mk_iff]; apply keepsP_of) | with_reducible rfl | split | (clear_value *; split) | dsimp only)

theorem keeps_i3cRead {s : State} (index) (h0 : Keeps s0 s) : Keeps s0 (@State.i3cRead s index) := by
  unfold State.i3cRead
  repeat' (first | with_reducible assumption | with_reducible apply keeps_emit | (intro v; refine keeps_cut s0 v ?_ (fun hv => ?_); (on_goal 2 => try clear_value v); dsimp only [v]) | intro v | lift_lets | with_reducible apply keeps_ite | (simp only [keeps_mk_iff]; apply keepsP_of) | with_reducible rfl | split | (clear_value *; split) | dsimp only)

theorem keeps_ibi {s : State} (rises) (h0 : Keeps s0 s) : Keeps s0 (@State.ibi s rises) := by
  unfold State.ibi
  repeat' (first | with_reducible assumption | with_reducible apply keeps_emit | (intro v; refine keeps_cut s0 v ?_ (fun hv => ?_); (on_goal 2 => try clear_value v); dsimp only [v]) | intro v | lift_lets | with_reducible apply keeps_ite | (simp only [keeps_mk_iff]; apply keepsP_of) | with_reducible rfl | split | (clear_value *; split) | dsimp only)

theorem keeps_alert {s : State} (h0 : Keeps s0 s) : Keeps s0 (@State.alert s) := by
  unfold State.alert
  repeat' (first | with_reducible assumption | with_reducible apply keeps_setF | with_reducible apply keeps_ibi | (intro v; refine keeps_cut s0 v ?_ (fun hv => ?_); (on_goal 2 => try clear_value v); dsimp only [v]) | intro v | lift_lets | (simp only [keeps_mk_iff]; apply keepsP_of) | with_reducible rfl | split | (clear_value *; split) | dsimp only)

theorem keeps_execControlInterval (m) {s : State} (h0 : Keeps s0 s) : KeepsO s0 (@execControlInterval m s) := by
  unfold execControlInterval
  repeat' (first | with_reducible assumption | with_reducible apply keeps_setEff | with_reducible apply keeps_setRamp | with_reducible apply keeps_closeSlate | with_reducible apply keeps_moveCeil | with_reducible apply keeps_allocate | with_reducible apply keeps_alert | with_reducible apply keepsO_next | (intro v; refine keeps_cut s0 v ?_ (fun hv => ?_); (on_goal 2 => try clear_value v); dsimp only [v]) | intro v | lift_lets | with_reducible apply keeps_foldl | with_reducible apply keeps_foldl_fst | with_reducible apply keeps_foldl_snd | with_reducible apply keeps_ite | (simp only [keeps_mk_iff]; apply keepsP_of) | with_reducible rfl | split | (clear_value *; split) | dsimp only)

theorem keeps_bindPower {s : State} (p) (h0 : Keeps s0 s) : Keeps s0 (@State.bindPower s p) := by
  unfold State.bindPower
  repeat' (first | with_reducible assumption | with_reducible apply keeps_clearRegs | with_reducible apply keeps_setReg | (intro v; refine keeps_cut s0 v ?_ (fun hv => ?_); (on_goal 2 => try clear_value v); dsimp only [v]) | intro v | lift_lets | (simp only [keeps_mk_iff]; apply keepsP_of) | with_reducible rfl | split | (clear_value *; split) | dsimp only)

theorem keeps_throttleRecord {s : State} (i) (h0 : Keeps s0 s) : Keeps s0 (@State.throttleRecord s i) := by
  unfold State.throttleRecord
  repeat' (first | with_reducible assumption | with_reducible apply keeps_record | (intro v; refine keeps_cut s0 v ?_ (fun hv => ?_); (on_goal 2 => try clear_value v); dsimp only [v]) | intro v | lift_lets | with_reducible apply keeps_ite | (simp only [keeps_mk_iff]; apply keepsP_of) | with_reducible rfl | split | (clear_value *; split) | dsimp only)

theorem keeps_throttleCistern {s : State} (c) (h0 : Keeps s0 s) : Keeps s0 (@State.throttleCistern s c) := by
  unfold State.throttleCistern
  repeat' (first | with_reducible assumption | with_reducible apply keeps_setF | (intro v; refine keeps_cut s0 v ?_ (fun hv => ?_); (on_goal 2 => try clear_value v); dsimp only [v]) | intro v | lift_lets | with_reducible apply keeps_ite | (simp only [keeps_mk_iff]; apply keepsP_of) | with_reducible rfl | split | (clear_value *; split) | dsimp only)

theorem keeps_trip {s : State} (h0 : Keeps s0 s) : Keeps s0 (@State.trip s) := by
  unfold State.trip
  repeat' (first | with_reducible assumption | with_reducible apply keeps_setF | with_reducible apply keeps_ibi | with_reducible apply keeps_raiseAbort | with_reducible apply keeps_record | (intro v; refine keeps_cut s0 v ?_ (fun hv => ?_); (on_goal 2 => try clear_value v); dsimp only [v]) | intro v | lift_lets | with_reducible apply keeps_foldl | with_reducible apply keeps_foldl_fst | with_reducible apply keeps_foldl_snd | (simp only [keeps_mk_iff]; apply keepsP_of) | with_reducible rfl | split | (clear_value *; split) | dsimp only)

theorem keeps_coolantCheck {s : State} (m) (h0 : Keeps s0 s) : Keeps s0 (@State.coolantCheck s m) := by
  unfold State.coolantCheck
  repeat' (first | with_reducible assumption | with_reducible apply keeps_setF | with_reducible apply keeps_pwcRecord | (intro v; refine keeps_cut s0 v ?_ (fun hv => ?_); (on_goal 2 => try clear_value v); dsimp only [v]) | intro v | lift_lets | with_reducible apply keeps_foldl | with_reducible apply keeps_foldl_fst | with_reducible apply keeps_foldl_snd | with_reducible apply keeps_ite | (simp only [keeps_mk_iff]; apply keepsP_of) | with_reducible rfl | split | (clear_value *; split) | dsimp only)

theorem keeps_execThermalSample (m) {s : State} (h0 : Keeps s0 s) : KeepsO s0 (@execThermalSample m s) := by
  unfold execThermalSample
  repeat' (first | with_reducible assumption | with_reducible apply keeps_setF | with_reducible apply keeps_throttleCistern | with_reducible apply keeps_setReg | with_reducible apply keeps_throttleRecord | with_reducible apply keeps_coolantCheck | with_reducible apply keeps_alert | with_reducible apply keeps_trip | with_reducible apply keepsO_next | (intro v; refine keeps_cut s0 v ?_ (fun hv => ?_); (on_goal 2 => try clear_value v); dsimp only [v]) | intro v | lift_lets | with_reducible apply keeps_foldl | with_reducible apply keeps_foldl_fst | with_reducible apply keeps_foldl_snd | with_reducible apply keeps_ite | (simp only [keeps_mk_iff]; apply keepsP_of) | with_reducible rfl | split | (clear_value *; split) | dsimp only)

theorem keeps_writeThr {s : State} (who) (cis) (i) (val) (h0 : Keeps s0 s) : Keeps s0 (@State.writeThr s who cis i val) := by
  unfold State.writeThr
  repeat' (first | with_reducible assumption | with_reducible apply keeps_refuseWrite | with_reducible apply keeps_setF | (intro v; refine keeps_cut s0 v ?_ (fun hv => ?_); (on_goal 2 => try clear_value v); dsimp only [v]) | intro v | lift_lets | with_reducible apply keeps_ite | (simp only [keeps_mk_iff]; apply keepsP_of) | with_reducible rfl | split | (clear_value *; split) | dsimp only)

theorem keeps_powerCmd (f) (x0) (x1) {s : State} (h0 : Keeps s0 s) : Keeps s0 (@powerCmd f x0 x1 s).2 := by
  unfold powerCmd
  repeat' (first | with_reducible assumption | (intro v; refine keeps_cut s0 v ?_ (fun hv => ?_); (on_goal 2 => try clear_value v); dsimp only [v]) | intro v | lift_lets | with_reducible apply keeps_ite | (simp only [keeps_mk_iff]; apply keepsP_of) | with_reducible rfl | split | (clear_value *; split) | dsimp only)

theorem keeps_cmdEnergy (x0) (x1) {s : State} (h0 : Keeps s0 s) : Keeps s0 (@cmdEnergy  x0 x1 s).2 := by
  unfold cmdEnergy
  repeat' (first | with_reducible assumption | (intro v; refine keeps_cut s0 v ?_ (fun hv => ?_); (on_goal 2 => try clear_value v); dsimp only [v]) | intro v | lift_lets | (simp only [keeps_mk_iff]; apply keepsP_of) | with_reducible rfl | (refine keeps_of_snd (by with_reducible assumption) ?_) | (refine keeps_of_fst (by with_reducible assumption) ?_) | split | (clear_value *; split) | with_reducible apply keeps_powerCmd | dsimp only)

theorem keeps_cmdSnapshot (x0) (x1) {s : State} (h0 : Keeps s0 s) : Keeps s0 (@cmdSnapshot  x0 x1 s).2 := by
  unfold cmdSnapshot
  repeat' (first | with_reducible assumption | (intro v; refine keeps_cut s0 v ?_ (fun hv => ?_); (on_goal 2 => try clear_value v); dsimp only [v]) | intro v | lift_lets | (simp only [keeps_mk_iff]; apply keepsP_of) | with_reducible rfl | (refine keeps_of_snd (by with_reducible assumption) ?_) | (refine keeps_of_fst (by with_reducible assumption) ?_) | split | (clear_value *; split) | with_reducible apply keeps_powerCmd | dsimp only)

theorem keeps_cmdPower (x0) (x1) {s : State} (h0 : Keeps s0 s) : Keeps s0 (@cmdPower  x0 x1 s).2 := by
  unfold cmdPower
  repeat' (first | with_reducible assumption | (intro v; refine keeps_cut s0 v ?_ (fun hv => ?_); (on_goal 2 => try clear_value v); dsimp only [v]) | intro v | lift_lets | with_reducible apply keeps_ite | (simp only [keeps_mk_iff]; apply keepsP_of) | with_reducible rfl | (refine keeps_of_snd (by with_reducible assumption) ?_) | (refine keeps_of_fst (by with_reducible assumption) ?_) | split | (clear_value *; split) | with_reducible apply keeps_powerCmd | dsimp only)

theorem keeps_cmdCaps (x0) (x1) {s : State} (h0 : Keeps s0 s) : Keeps s0 (@cmdCaps  x0 x1 s).2 := by
  unfold cmdCaps
  repeat' (first | with_reducible assumption | (intro v; refine keeps_cut s0 v ?_ (fun hv => ?_); (on_goal 2 => try clear_value v); dsimp only [v]) | intro v | lift_lets | (simp only [keeps_mk_iff]; apply keepsP_of) | with_reducible rfl | (refine keeps_of_snd (by with_reducible assumption) ?_) | (refine keeps_of_fst (by with_reducible assumption) ?_) | split | (clear_value *; split) | with_reducible apply keeps_powerCmd | dsimp only)

theorem keeps_execEnergy (chan) {s : State} (h0 : Keeps s0 s) : KeepsO s0 (@execEnergy chan s) := by
  unfold execEnergy
  repeat' (first | with_reducible assumption | with_reducible apply keeps_mbxCmd | with_reducible apply keepsO_next | (intro v; refine keeps_cut s0 v ?_ (fun hv => ?_); (on_goal 2 => try clear_value v); dsimp only [v]) | intro v | lift_lets | (simp only [keeps_mk_iff]; apply keepsP_of) | with_reducible rfl | (refine keeps_of_snd (by with_reducible assumption) ?_) | (refine keeps_of_fst (by with_reducible assumption) ?_) | split | (clear_value *; split) | with_reducible apply keeps_cmdEnergy | dsimp only)

theorem keeps_execSnapshot (chan) {s : State} (h0 : Keeps s0 s) : KeepsO s0 (@execSnapshot chan s) := by
  unfold execSnapshot
  repeat' (first | with_reducible assumption | with_reducible apply keeps_mbxCmd | with_reducible apply keepsO_next | (intro v; refine keeps_cut s0 v ?_ (fun hv => ?_); (on_goal 2 => try clear_value v); dsimp only [v]) | intro v | lift_lets | (simp only [keeps_mk_iff]; apply keepsP_of) | with_reducible rfl | (refine keeps_of_snd (by with_reducible assumption) ?_) | (refine keeps_of_fst (by with_reducible assumption) ?_) | split | (clear_value *; split) | with_reducible apply keeps_cmdSnapshot | dsimp only)

theorem keeps_execPower (chan) {s : State} (h0 : Keeps s0 s) : KeepsO s0 (@execPower chan s) := by
  unfold execPower
  repeat' (first | with_reducible assumption | with_reducible apply keeps_mbxCmd | with_reducible apply keepsO_next | (intro v; refine keeps_cut s0 v ?_ (fun hv => ?_); (on_goal 2 => try clear_value v); dsimp only [v]) | intro v | lift_lets | (simp only [keeps_mk_iff]; apply keepsP_of) | with_reducible rfl | (refine keeps_of_snd (by with_reducible assumption) ?_) | (refine keeps_of_fst (by with_reducible assumption) ?_) | split | (clear_value *; split) | with_reducible apply keeps_cmdPower | dsimp only)

theorem keeps_execCaps (chan) {s : State} (h0 : Keeps s0 s) : KeepsO s0 (@execCaps chan s) := by
  unfold execCaps
  repeat' (first | with_reducible assumption | with_reducible apply keeps_mbxCmd | with_reducible apply keepsO_next | (intro v; refine keeps_cut s0 v ?_ (fun hv => ?_); (on_goal 2 => try clear_value v); dsimp only [v]) | intro v | lift_lets | (simp only [keeps_mk_iff]; apply keepsP_of) | with_reducible rfl | (refine keeps_of_snd (by with_reducible assumption) ?_) | (refine keeps_of_fst (by with_reducible assumption) ?_) | split | (clear_value *; split) | with_reducible apply keeps_cmdCaps | dsimp only)

/-! ### Machine/Tenancy.lean -/

theorem keeps_measure {s : State} (i) (ws) (h0 : Keeps s0 s) : Keeps s0 (@State.measure s i ws) := by
  unfold State.measure
  repeat' (first | with_reducible assumption | (intro v; refine keeps_cut s0 v ?_ (fun hv => ?_); (on_goal 2 => try clear_value v); dsimp only [v]) | intro v | lift_lets | (simp only [keeps_mk_iff]; apply keepsP_of) | with_reducible rfl | split | (clear_value *; split) | dsimp only)

theorem keeps_measureState {s : State} (h0 : Keeps s0 s) : Keeps s0 (@State.measureState s) := by
  unfold State.measureState
  repeat' (first | with_reducible assumption | with_reducible apply keeps_measure | (intro v; refine keeps_cut s0 v ?_ (fun hv => ?_); (on_goal 2 => try clear_value v); dsimp only [v]) | intro v | lift_lets | (simp only [keeps_mk_iff]; apply keepsP_of) | with_reducible rfl | split | (clear_value *; split) | dsimp only)

theorem keeps_measurePart {s : State} (p) (h0 : Keeps s0 s) : Keeps s0 (@State.measurePart s p) := by
  unfold State.measurePart
  repeat' (first | with_reducible assumption | with_reducible apply keeps_measure | (intro v; refine keeps_cut s0 v ?_ (fun hv => ?_); (on_goal 2 => try clear_value v); dsimp only [v]) | intro v | lift_lets | with_reducible apply keeps_ite | (simp only [keeps_mk_iff]; apply keepsP_of) | with_reducible rfl | split | (clear_value *; split) | dsimp only)

theorem keeps_setKeyMat {s : State} (slot) (m) (h0 : Keeps s0 s) : Keeps s0 (@State.setKeyMat s slot m) := by
  unfold State.setKeyMat
  repeat' (first | with_reducible assumption | (intro v; refine keeps_cut s0 v ?_ (fun hv => ?_); (on_goal 2 => try clear_value v); dsimp only [v]) | intro v | lift_lets | (simp only [keeps_mk_iff]; apply keepsP_of) | with_reducible rfl | split | (clear_value *; split) | dsimp only)

theorem keeps_newGen {s : State} (job) (g) (h0 : Keeps s0 s) : Keeps s0 (@State.newGen s job g) := by
  unfold State.newGen
  repeat' (first | with_reducible assumption | (intro v; refine keeps_cut s0 v ?_ (fun hv => ?_); (on_goal 2 => try clear_value v); dsimp only [v]) | intro v | lift_lets | (simp only [keeps_mk_iff]; apply keepsP_of) | with_reducible rfl | split | (clear_value *; split) | dsimp only)

theorem keeps_countSlots {s : State} (h0 : Keeps s0 s) : Keeps s0 (@State.countSlots s) := by
  unfold State.countSlots
  repeat' (first | with_reducible assumption | with_reducible apply keeps_setF | (intro v; refine keeps_cut s0 v ?_ (fun hv => ?_); (on_goal 2 => try clear_value v); dsimp only [v]) | intro v | lift_lets | (simp only [keeps_mk_iff]; apply keepsP_of) | with_reducible rfl | split | (clear_value *; split) | dsimp only)

theorem keeps_dropSlot {s : State} (slot) (h0 : Keeps s0 s) : Keeps s0 (@State.dropSlot s slot) := by
  unfold State.dropSlot
  repeat' (first | with_reducible assumption | with_reducible apply keeps_setReg | with_reducible apply keeps_setKeyMat | with_reducible apply keeps_countSlots | (intro v; refine keeps_cut s0 v ?_ (fun hv => ?_); (on_goal 2 => try clear_value v); dsimp only [v]) | intro v | lift_lets | (simp only [keeps_mk_iff]; apply keepsP_of) | with_reducible rfl | split | (clear_value *; split) | dsimp only)

theorem keeps_keyDeliver {s : State} (body) (h0 : Keeps s0 s) : Keeps s0 (@State.keyDeliver s body).2 := by
  unfold State.keyDeliver
  repeat' (first | with_reducible assumption | with_reducible apply keeps_setReg | with_reducible apply keeps_setKeyMat | with_reducible apply keeps_newGen | with_reducible apply keeps_countSlots | (intro v; refine keeps_cut s0 v ?_ (fun hv => ?_); (on_goal 2 => try clear_value v); dsimp only [v]) | intro v | lift_lets | with_reducible apply keeps_ite | (simp only [keeps_mk_iff]; apply keepsP_of) | with_reducible rfl | split | (clear_value *; split) | dsimp only)

theorem keeps_cmdKeyStatus (x0) (x1) {s : State} (h0 : Keeps s0 s) : Keeps s0 (@cmdKeyStatus  x0 x1 s).2 := by
  unfold cmdKeyStatus
  repeat' (first | with_reducible assumption | (intro v; refine keeps_cut s0 v ?_ (fun hv => ?_); (on_goal 2 => try clear_value v); dsimp only [v]) | intro v | lift_lets | with_reducible apply keeps_ite | (simp only [keeps_mk_iff]; apply keepsP_of) | with_reducible rfl | split | (clear_value *; split) | dsimp only)

theorem keeps_cmdKeyAdvance (x0) (x1) {s : State} (h0 : Keeps s0 s) : Keeps s0 (@cmdKeyAdvance  x0 x1 s).2 := by
  unfold cmdKeyAdvance
  repeat' (first | with_reducible assumption | with_reducible apply keeps_setKeyMat | with_reducible apply keeps_setF | with_reducible apply keeps_newGen | (intro v; refine keeps_cut s0 v ?_ (fun hv => ?_); (on_goal 2 => try clear_value v); dsimp only [v]) | intro v | lift_lets | with_reducible apply keeps_ite | (simp only [keeps_mk_iff]; apply keepsP_of) | with_reducible rfl | split | (clear_value *; split) | dsimp only)

theorem keeps_cmdKeyDrop (x0) (x1) {s : State} (h0 : Keeps s0 s) : Keeps s0 (@cmdKeyDrop  x0 x1 s).2 := by
  unfold cmdKeyDrop
  repeat' (first | with_reducible assumption | with_reducible apply keeps_dropSlot | (intro v; refine keeps_cut s0 v ?_ (fun hv => ?_); (on_goal 2 => try clear_value v); dsimp only [v]) | intro v | lift_lets | with_reducible apply keeps_ite | (simp only [keeps_mk_iff]; apply keepsP_of) | with_reducible rfl | split | (clear_value *; split) | dsimp only)

theorem keeps_execKeyStatus (chan) {s : State} (h0 : Keeps s0 s) : KeepsO s0 (@execKeyStatus chan s) := by
  unfold execKeyStatus
  repeat' (first | with_reducible assumption | with_reducible apply keeps_mbxCmd | with_reducible apply keepsO_next | (intro v; refine keeps_cut s0 v ?_ (fun hv => ?_); (on_goal 2 => try clear_value v); dsimp only [v]) | intro v | lift_lets | (simp only [keeps_mk_iff]; apply keepsP_of) | with_reducible rfl | (refine keeps_of_snd (by with_reducible assumption) ?_) | (refine keeps_of_fst (by with_reducible assumption) ?_) | split | (clear_value *; split) | with_reducible apply keeps_cmdKeyStatus | dsimp only)

theorem keeps_execKeyAdvance (chan) {s : State} (h0 : Keeps s0 s) : KeepsO s0 (@execKeyAdvance chan s) := by
  unfold execKeyAdvance
  repeat' (first | with_reducible assumption | with_reducible apply keeps_mbxCmd | with_reducible apply keepsO_next | (intro v; refine keeps_cut s0 v ?_ (fun hv => ?_); (on_goal 2 => try clear_value v); dsimp only [v]) | intro v | lift_lets | (simp only [keeps_mk_iff]; apply keepsP_of) | with_reducible rfl | (refine keeps_of_snd (by with_reducible assumption) ?_) | (refine keeps_of_fst (by with_reducible assumption) ?_) | split | (clear_value *; split) | with_reducible apply keeps_cmdKeyAdvance | dsimp only)

theorem keeps_execKeyDrop (chan) {s : State} (h0 : Keeps s0 s) : KeepsO s0 (@execKeyDrop chan s) := by
  unfold execKeyDrop
  repeat' (first | with_reducible assumption | with_reducible apply keeps_mbxCmd | with_reducible apply keepsO_next | (intro v; refine keeps_cut s0 v ?_ (fun hv => ?_); (on_goal 2 => try clear_value v); dsimp only [v]) | intro v | lift_lets | (simp only [keeps_mk_iff]; apply keepsP_of) | with_reducible rfl | (refine keeps_of_snd (by with_reducible assumption) ?_) | (refine keeps_of_fst (by with_reducible assumption) ?_) | split | (clear_value *; split) | with_reducible apply keeps_cmdKeyDrop | dsimp only)

theorem keeps_execKeySlotAutoDestroy (slot) {s : State} (h0 : Keeps s0 s) : KeepsO s0 (@execKeySlotAutoDestroy slot s) := by
  unfold execKeySlotAutoDestroy
  repeat' (first | with_reducible assumption | with_reducible apply keeps_dropSlot | with_reducible apply keepsO_next | (intro v; refine keeps_cut s0 v ?_ (fun hv => ?_); (on_goal 2 => try clear_value v); dsimp only [v]) | intro v | lift_lets | with_reducible apply keeps_ite | (simp only [keeps_mk_iff]; apply keepsP_of) | with_reducible rfl | split | (clear_value *; split) | dsimp only)

theorem keeps_dropCaches {s : State} (p) (h0 : Keeps s0 s) : Keeps s0 (@State.dropCaches s p) := by
  unfold State.dropCaches
  repeat' (first | with_reducible assumption | (intro v; refine keeps_cut s0 v ?_ (fun hv => ?_); (on_goal 2 => try clear_value v); dsimp only [v]) | intro v | lift_lets | with_reducible apply keeps_ite | (simp only [keeps_mk_iff]; apply keepsP_of) | with_reducible rfl | split | (clear_value *; split) | dsimp only)

theorem keeps_bindPart {s : State} (p) (i) (h0 : Keeps s0 s) : Keeps s0 (@State.bindPart s p i) := by
  unfold State.bindPart
  repeat' (first | with_reducible assumption | with_reducible apply keeps_setF | with_reducible apply keeps_batZero | with_reducible apply keeps_advanceGen | with_reducible apply keeps_dropCaches | with_reducible apply keeps_bindPower | with_reducible apply keeps_measurePart | (intro v; refine keeps_cut s0 v ?_ (fun hv => ?_); (on_goal 2 => try clear_value v); dsimp only [v]) | intro v | lift_lets | with_reducible apply keeps_foldl | with_reducible apply keeps_foldl_fst | with_reducible apply keeps_foldl_snd | (simp only [keeps_mk_iff]; apply keepsP_of) | with_reducible rfl | split | (clear_value *; split) | dsimp only)

theorem keeps_cmdBind (x0) (x1) {s : State} (h0 : Keeps s0 s) : Keeps s0 (@cmdBind  x0 x1 s).2 := by
  unfold cmdBind
  repeat' (first | with_reducible assumption | with_reducible apply keeps_bindPart | (intro v; refine keeps_cut s0 v ?_ (fun hv => ?_); (on_goal 2 => try clear_value v); dsimp only [v]) | intro v | lift_lets | with_reducible apply keeps_ite | (simp only [keeps_mk_iff]; apply keepsP_of) | with_reducible rfl | split | (clear_value *; split) | dsimp only)

theorem keeps_execBind (chan) {s : State} (h0 : Keeps s0 s) : KeepsO s0 (@execBind chan s) := by
  unfold execBind
  repeat' (first | with_reducible assumption | with_reducible apply keeps_mbxCmd | with_reducible apply keepsO_next | (intro v; refine keeps_cut s0 v ?_ (fun hv => ?_); (on_goal 2 => try clear_value v); dsimp only [v]) | intro v | lift_lets | (simp only [keeps_mk_iff]; apply keepsP_of) | with_reducible rfl | (refine keeps_of_snd (by with_reducible assumption) ?_) | (refine keeps_of_fst (by with_reducible assumption) ?_) | split | (clear_value *; split) | with_reducible apply keeps_cmdBind | dsimp only)

theorem keeps_cmdBindStatus (x0) (x1) {s : State} (h0 : Keeps s0 s) : Keeps s0 (@cmdBindStatus  x0 x1 s).2 := by
  unfold cmdBindStatus
  repeat' (first | with_reducible assumption | (intro v; refine keeps_cut s0 v ?_ (fun hv => ?_); (on_goal 2 => try clear_value v); dsimp only [v]) | intro v | lift_lets | with_reducible apply keeps_ite | (simp only [keeps_mk_iff]; apply keepsP_of) | with_reducible rfl | split | (clear_value *; split) | dsimp only)

theorem keeps_execBindStatus (chan) {s : State} (h0 : Keeps s0 s) : KeepsO s0 (@execBindStatus chan s) := by
  unfold execBindStatus
  repeat' (first | with_reducible assumption | with_reducible apply keeps_mbxCmd | with_reducible apply keepsO_next | (intro v; refine keeps_cut s0 v ?_ (fun hv => ?_); (on_goal 2 => try clear_value v); dsimp only [v]) | intro v | lift_lets | (simp only [keeps_mk_iff]; apply keepsP_of) | with_reducible rfl | (refine keeps_of_snd (by with_reducible assumption) ?_) | (refine keeps_of_fst (by with_reducible assumption) ?_) | split | (clear_value *; split) | with_reducible apply keeps_cmdBindStatus | dsimp only)

theorem keeps_startClear {s : State} (p) (h0 : Keeps s0 s) : Keeps s0 (@State.startClear s p) := by
  unfold State.startClear
  repeat' (first | with_reducible assumption | (intro v; refine keeps_cut s0 v ?_ (fun hv => ?_); (on_goal 2 => try clear_value v); dsimp only [v]) | intro v | lift_lets | (simp only [keeps_mk_iff]; apply keepsP_of) | with_reducible rfl | split | (clear_value *; split) | dsimp only)

theorem keeps_cmdUnbind (x0) (x1) {s : State} (h0 : Keeps s0 s) : Keeps s0 (@cmdUnbind  x0 x1 s).2 := by
  unfold cmdUnbind
  repeat' (first | with_reducible assumption | with_reducible apply keeps_startClear | (intro v; refine keeps_cut s0 v ?_ (fun hv => ?_); (on_goal 2 => try clear_value v); dsimp only [v]) | intro v | lift_lets | with_reducible apply keeps_ite | (simp only [keeps_mk_iff]; apply keepsP_of) | with_reducible rfl | split | (clear_value *; split) | dsimp only)

theorem keeps_execUnbind (chan) {s : State} (h0 : Keeps s0 s) : KeepsO s0 (@execUnbind chan s) := by
  unfold execUnbind
  repeat' (first | with_reducible assumption | with_reducible apply keeps_mbxCmd | with_reducible apply keepsO_next | (intro v; refine keeps_cut s0 v ?_ (fun hv => ?_); (on_goal 2 => try clear_value v); dsimp only [v]) | intro v | lift_lets | (simp only [keeps_mk_iff]; apply keepsP_of) | with_reducible rfl | (refine keeps_of_snd (by with_reducible assumption) ?_) | (refine keeps_of_fst (by with_reducible assumption) ?_) | split | (clear_value *; split) | with_reducible apply keeps_cmdUnbind | dsimp only)

theorem keeps_clearMemory {s : State} (p) (h0 : Keeps s0 s) : Keeps s0 (@State.clearMemory s p) := by
  unfold State.clearMemory
  repeat' (first | with_reducible assumption | with_reducible apply keeps_zeroRange | (intro v; refine keeps_cut s0 v ?_ (fun hv => ?_); (on_goal 2 => try clear_value v); dsimp only [v]) | intro v | lift_lets | with_reducible apply keeps_foldl | with_reducible apply keeps_foldl_fst | with_reducible apply keeps_foldl_snd | (simp only [keeps_mk_iff]; apply keepsP_of) | with_reducible rfl | split | (clear_value *; split) | dsimp only)

theorem keeps_endClear {s : State} (p) (h0 : Keeps s0 s) : Keeps s0 (@State.endClear s p) := by
  unfold State.endClear
  repeat' (first | with_reducible assumption | with_reducible apply keeps_clearMemory | with_reducible apply keeps_setF | with_reducible apply keeps_measurePart | (intro v; refine keeps_cut s0 v ?_ (fun hv => ?_); (on_goal 2 => try clear_value v); dsimp only [v]) | intro v | lift_lets | with_reducible apply keeps_ite | (simp only [keeps_mk_iff]; apply keepsP_of) | with_reducible rfl | split | (clear_value *; split) | dsimp only)

theorem keeps_execUnbindClearDone (part) {s : State} (h0 : Keeps s0 s) : KeepsO s0 (@execUnbindClearDone part s) := by
  unfold execUnbindClearDone
  repeat' (first | with_reducible assumption | with_reducible apply keeps_endClear | with_reducible apply keepsO_next | (intro v; refine keeps_cut s0 v ?_ (fun hv => ?_); (on_goal 2 => try clear_value v); dsimp only [v]) | intro v | lift_lets | with_reducible apply keeps_ite | (simp only [keeps_mk_iff]; apply keepsP_of) | with_reducible rfl | split | (clear_value *; split) | dsimp only)

theorem keeps_cmdUnseal (x0) (x1) {s : State} (h0 : Keeps s0 s) : Keeps s0 (@cmdUnseal  x0 x1 s).2 := by
  unfold cmdUnseal
  repeat' (first | with_reducible assumption | with_reducible apply keeps_noteRead | (intro v; refine keeps_cut s0 v ?_ (fun hv => ?_); (on_goal 2 => try clear_value v); dsimp only [v]) | intro v | lift_lets | with_reducible apply keeps_ite | (simp only [keeps_mk_iff]; apply keepsP_of) | with_reducible rfl | split | (clear_value *; split) | dsimp only)

theorem keeps_execUnseal (chan) {s : State} (h0 : Keeps s0 s) : KeepsO s0 (@execUnseal chan s) := by
  unfold execUnseal
  repeat' (first | with_reducible assumption | with_reducible apply keeps_mbxCmd | with_reducible apply keepsO_next | (intro v; refine keeps_cut s0 v ?_ (fun hv => ?_); (on_goal 2 => try clear_value v); dsimp only [v]) | intro v | lift_lets | with_reducible apply keeps_ite | (simp only [keeps_mk_iff]; apply keepsP_of) | with_reducible rfl | (refine keeps_of_snd (by with_reducible assumption) ?_) | (refine keeps_of_fst (by with_reducible assumption) ?_) | split | (clear_value *; split) | with_reducible apply keeps_cmdUnseal | dsimp only)

theorem keeps_finishUnseal {s : State} (u) (h0 : Keeps s0 s) : Keeps s0 (@State.finishUnseal s u) := by
  unfold State.finishUnseal
  repeat' (first | with_reducible assumption | with_reducible apply keeps_noteRead | with_reducible apply keeps_land | with_reducible apply keeps_batAdd | (intro v; refine keeps_cut s0 v ?_ (fun hv => ?_); (on_goal 2 => try clear_value v); dsimp only [v]) | intro v | lift_lets | with_reducible apply keeps_ite | (simp only [keeps_mk_iff]; apply keepsP_of) | with_reducible rfl | split | (clear_value *; split) | dsimp only)

end Sys2Proof.Laws
end

