-- ==== Sys2Proof/Laws/KeepsFabric.lean ====
section
/-!
SUPPORT. Laws/KeepsFabric.lean: every operation and meaning of the DMA engine, the links, routing and collectives keeps the queue and hands on `Safety.Sound`.
-/
namespace Sys2Proof.Laws
open Sys2Proof.Machine

set_option linter.unusedTactic false
set_option linter.unreachableTactic false
set_option linter.unusedVariables false
set_option linter.unusedSimpArgs false

variable {s0 : State}

/-! ### Machine/Engines.lean -/

theorem keeps_refuse {s : State} (n) (e) (h_) (bad) (h0 : Keeps s0 s) : Keeps s0 (@State.refuse s n e h_ bad) := by
  unfold State.refuse
  repeat' (first | with_reducible assumption | with_reducible apply keeps_takeFault | (intro v; refine keeps_cut s0 v ?_ (fun hv => ?_); (on_goal 2 => try clear_value v); dsimp only [v]) | intro v | lift_lets | (simp only [keeps_mk_iff]; apply keepsP_of) | with_reducible rfl | split | (clear_value *; split) | dsimp only)

theorem keeps_ran {s : State} (n) (e) (h_) (h0 : Keeps s0 s) : Keeps s0 (@State.ran s n e h_) := by
  unfold State.ran
  repeat' (first | with_reducible assumption | with_reducible apply keeps_setCore | (intro v; refine keeps_cut s0 v ?_ (fun hv => ?_); (on_goal 2 => try clear_value v); dsimp only [v]) | intro v | lift_lets | with_reducible apply keeps_ite | (simp only [keeps_mk_iff]; apply keepsP_of) | with_reducible rfl | split | (clear_value *; split) | dsimp only)

theorem keeps_poisonStop {s : State} (n) (e) (h_) (gs) (h0 : Keeps s0 s) : Keeps s0 (@State.poisonStop s n e h_ gs) := by
  unfold State.poisonStop
  repeat' (first | with_reducible assumption | with_reducible apply keeps_engineFault | (intro v; refine keeps_cut s0 v ?_ (fun hv => ?_); (on_goal 2 => try clear_value v); dsimp only [v]) | intro v | lift_lets | (simp only [keeps_mk_iff]; apply keepsP_of) | with_reducible rfl | (refine keeps_of_snd (by with_reducible assumption) ?_) | (refine keeps_of_fst (by with_reducible assumption) ?_) | split | (clear_value *; split) | with_reducible apply keeps_fresh | dsimp only)

theorem keeps_runHead {s : State} (n) (e) (mine) (run) (h0 : Keeps s0 s) (h1 : ∀ y0 y1, Keeps s0 y1 → Keeps s0 (run y0 y1).1) : Keeps s0 (@State.runHead s n e mine run) := by
  unfold State.runHead
  repeat' (first | with_reducible assumption | with_reducible apply h1 | with_reducible apply keeps_setCore | with_reducible apply keeps_ran | with_reducible apply keeps_settle | with_reducible apply keeps_poisonStop | with_reducible apply keeps_refuse | (intro v; refine keeps_cut s0 v ?_ (fun hv => ?_); (on_goal 2 => try clear_value v); dsimp only [v]) | intro v | lift_lets | with_reducible apply keeps_ite | (simp only [keeps_mk_iff]; apply keepsP_of) | with_reducible rfl | (refine keeps_of_snd (by with_reducible assumption) ?_) | (refine keeps_of_fst (by with_reducible assumption) ?_) | split | (clear_value *; split) | dsimp only)

theorem keeps_post {s : State} (n) (e) (h0 : Keeps s0 s) : Keeps s0 (@State.post s n e) := by
  unfold State.post
  repeat' (first | with_reducible assumption | with_reducible apply keeps_setCore | with_reducible apply keeps_settle | (intro v; refine keeps_cut s0 v ?_ (fun hv => ?_); (on_goal 2 => try clear_value v); dsimp only [v]) | intro v | lift_lets | with_reducible apply keeps_ite | (simp only [keeps_mk_iff]; apply keepsP_of) | with_reducible rfl | split | (clear_value *; split) | dsimp only)

theorem keeps_execEnginePost (core) (engine) {s : State} (h0 : Keeps s0 s) : KeepsO s0 (@execEnginePost core engine s) := by
  unfold execEnginePost
  repeat' (first | with_reducible assumption | with_reducible apply keeps_post | with_reducible apply keepsO_next | (intro v; refine keeps_cut s0 v ?_ (fun hv => ?_); (on_goal 2 => try clear_value v); dsimp only [v]) | intro v | lift_lets | with_reducible apply keeps_ite | (simp only [keeps_mk_iff]; apply keepsP_of) | with_reducible rfl | split | (clear_value *; split) | dsimp only)

/-! ### Machine/Dma.lean -/

theorem keeps_dmaSegs {s : State} (q) (h0 : Keeps s0 s) : Keeps s0 (@State.dmaSegs s q).2 := by
  unfold State.dmaSegs
  repeat' (first | with_reducible assumption | (intro v; refine keeps_cut s0 v ?_ (fun hv => ?_); (on_goal 2 => try clear_value v); dsimp only [v]) | intro v | lift_lets | with_reducible apply keeps_ite | (simp only [keeps_mk_iff]; apply keepsP_of) | with_reducible rfl | (refine keeps_of_snd (by with_reducible assumption) ?_) | (refine keeps_of_fst (by with_reducible assumption) ?_) | split | (clear_value *; split) | with_reducible apply keeps_fresh | dsimp only)

theorem keeps_keepSegs {s : State} (q) (segs) (h0 : Keeps s0 s) : Keeps s0 (@State.keepSegs s q segs).2 := by
  unfold State.keepSegs
  repeat' (first | with_reducible assumption | (intro v; refine keeps_cut s0 v ?_ (fun hv => ?_); (on_goal 2 => try clear_value v); dsimp only [v]) | intro v | lift_lets | with_reducible apply keeps_foldl | with_reducible apply keeps_foldl_fst | with_reducible apply keeps_foldl_snd | with_reducible apply keeps_ite | (simp only [keeps_mk_iff]; apply keepsP_of) | with_reducible rfl | (refine keeps_of_snd (by with_reducible assumption) ?_) | (refine keeps_of_fst (by with_reducible assumption) ?_) | split | (clear_value *; split) | with_reducible apply keeps_fresh | dsimp only)

theorem keeps_addRun {s : State} (n) (d) (h0 : Keeps s0 s) : Keeps s0 (@State.addRun s n d) := by
  unfold State.addRun
  repeat' (first | with_reducible assumption | with_reducible apply keeps_setCore | (intro v; refine keeps_cut s0 v ?_ (fun hv => ?_); (on_goal 2 => try clear_value v); dsimp only [v]) | intro v | lift_lets | (simp only [keeps_mk_iff]; apply keepsP_of) | with_reducible rfl | split | (clear_value *; split) | dsimp only)

theorem keeps_startCopy {s0_ : State} (n) (q) (h0 : Keeps s0 s0_) : Keeps s0 (@State.startCopy s0_ n q) := by
  unfold State.startCopy
  repeat' (first | with_reducible assumption | with_reducible apply keeps_noteReads | with_reducible apply keeps_addRun | (intro v; refine keeps_cut s0 v ?_ (fun hv => ?_); (on_goal 2 => try clear_value v); dsimp only [v]) | intro v | lift_lets | (simp only [keeps_mk_iff]; apply keepsP_of) | with_reducible rfl | (refine keeps_of_snd (by with_reducible assumption) ?_) | (refine keeps_of_fst (by with_reducible assumption) ?_) | split | (clear_value *; split) | with_reducible apply keeps_dmaSegs | with_reducible apply keeps_keepSegs | dsimp only)

theorem keeps_startFill {s : State} (n) (q) (h0 : Keeps s0 s) : Keeps s0 (@State.startFill s n q) := by
  unfold State.startFill
  repeat' (first | with_reducible assumption | with_reducible apply keeps_addRun | (intro v; refine keeps_cut s0 v ?_ (fun hv => ?_); (on_goal 2 => try clear_value v); dsimp only [v]) | intro v | lift_lets | (simp only [keeps_mk_iff]; apply keepsP_of) | with_reducible rfl | split | (clear_value *; split) | dsimp only)

theorem keeps_startAccum {s0_ : State} (n) (q) (h0 : Keeps s0 s0_) : Keeps s0 (@State.startAccum s0_ n q) := by
  unfold State.startAccum
  repeat' (first | with_reducible assumption | with_reducible apply keeps_noteReads | with_reducible apply keeps_addRun | (intro v; refine keeps_cut s0 v ?_ (fun hv => ?_); (on_goal 2 => try clear_value v); dsimp only [v]) | intro v | lift_lets | (simp only [keeps_mk_iff]; apply keepsP_of) | with_reducible rfl | split | (clear_value *; split) | dsimp only)

theorem keeps_drawCount {s : State} (n) (id) (q) (h0 : Keeps s0 s) : Keeps s0 (@State.drawCount s n id q).2 := by
  unfold State.drawCount
  repeat' (first | with_reducible assumption | with_reducible apply keeps_setSrcFlow | (intro v; refine keeps_cut s0 v ?_ (fun hv => ?_); (on_goal 2 => try clear_value v); dsimp only [v]) | intro v | lift_lets | (simp only [keeps_mk_iff]; apply keepsP_of) | with_reducible rfl | split | (clear_value *; split) | dsimp only)

theorem keeps_startPut {s0_ : State} (n) (q) (h0 : Keeps s0 s0_) : Keeps s0 (@State.startPut s0_ n q) := by
  unfold State.startPut
  repeat' (first | with_reducible assumption | with_reducible apply keeps_noteReads | with_reducible apply keeps_addRun | with_reducible apply keeps_send | (intro v; refine keeps_cut s0 v ?_ (fun hv => ?_); (on_goal 2 => try clear_value v); dsimp only [v]) | intro v | lift_lets | with_reducible apply keeps_foldl | with_reducible apply keeps_foldl_fst | with_reducible apply keeps_foldl_snd | with_reducible apply keeps_ite | (simp only [keeps_mk_iff]; apply keepsP_of) | with_reducible rfl | (refine keeps_of_snd (by with_reducible assumption) ?_) | (refine keeps_of_fst (by with_reducible assumption) ?_) | split | (clear_value *; split) | with_reducible apply keeps_drawCount | dsimp only)

theorem keeps_startSignal {s : State} (n) (q) (h0 : Keeps s0 s) : Keeps s0 (@State.startSignal s n q) := by
  unfold State.startSignal
  repeat' (first | with_reducible assumption | with_reducible apply keeps_addRun | with_reducible apply keeps_send | (intro v; refine keeps_cut s0 v ?_ (fun hv => ?_); (on_goal 2 => try clear_value v); dsimp only [v]) | intro v | lift_lets | (simp only [keeps_mk_iff]; apply keepsP_of) | with_reducible rfl | (refine keeps_of_snd (by with_reducible assumption) ?_) | (refine keeps_of_fst (by with_reducible assumption) ?_) | split | (clear_value *; split) | with_reducible apply keeps_drawCount | dsimp only)

theorem keeps_sendGet {s : State} (n) (d) (piece) (h0 : Keeps s0 s) : Keeps s0 (@State.sendGet s n d piece) := by
  unfold State.sendGet
  repeat' (first | with_reducible assumption | with_reducible apply keeps_send | (intro v; refine keeps_cut s0 v ?_ (fun hv => ?_); (on_goal 2 => try clear_value v); dsimp only [v]) | intro v | lift_lets | (simp only [keeps_mk_iff]; apply keepsP_of) | with_reducible rfl | split | (clear_value *; split) | dsimp only)

theorem keeps_sendNextGet {s : State} (n) (h0 : Keeps s0 s) : Keeps s0 (@State.sendNextGet s n) := by
  unfold State.sendNextGet
  repeat' (first | with_reducible assumption | with_reducible apply keeps_setCore | with_reducible apply keeps_sendGet | (intro v; refine keeps_cut s0 v ?_ (fun hv => ?_); (on_goal 2 => try clear_value v); dsimp only [v]) | intro v | lift_lets | with_reducible apply keeps_ite | (simp only [keeps_mk_iff]; apply keepsP_of) | with_reducible rfl | split | (clear_value *; split) | dsimp only)

theorem keeps_sendGets {s : State} (n k : Nat) (h : Keeps s0 s) : Keeps s0 (s.sendGets n k) := by
  induction k generalizing s with
  | zero => exact h
  | succ k ih => exact ih (keeps_sendNextGet n h)

theorem keeps_noteWay {s : State} (q) (h0 : Keeps s0 s) : Keeps s0 (@State.noteWay s q) := by
  unfold State.noteWay
  repeat' (first | with_reducible assumption | with_reducible apply keeps_setSrcFlow | (intro v; refine keeps_cut s0 v ?_ (fun hv => ?_); (on_goal 2 => try clear_value v); dsimp only [v]) | intro v | lift_lets | with_reducible apply keeps_ite | (simp only [keeps_mk_iff]; apply keepsP_of) | with_reducible rfl | split | (clear_value *; split) | dsimp only)

theorem keeps_startGet {s : State} (n) (q) (h0 : Keeps s0 s) : Keeps s0 (@State.startGet s n q) := by
  unfold State.startGet
  repeat' (first | with_reducible assumption | with_reducible apply keeps_noteWay | with_reducible apply keeps_addRun | with_reducible apply keeps_sendGets | (intro v; refine keeps_cut s0 v ?_ (fun hv => ?_); (on_goal 2 => try clear_value v); dsimp only [v]) | intro v | lift_lets | with_reducible apply keeps_ite | (simp only [keeps_mk_iff]; apply keepsP_of) | with_reducible rfl | split | (clear_value *; split) | dsimp only)

theorem keeps_runDma {s : State} (n) (op) (start) (h0 : Keeps s0 s) (h1 : ∀ y0 y1, Keeps s0 y1 → Keeps s0 (start y0 y1)) : Keeps s0 (@State.runDma s n op start) := by
  unfold State.runDma
  repeat' (first | with_reducible assumption | with_reducible apply h1 | with_reducible apply keeps_setCore | with_reducible apply keeps_settle | with_reducible apply keeps_refuse | (intro v; refine keeps_cut s0 v ?_ (fun hv => ?_); (on_goal 2 => try clear_value v); dsimp only [v]) | intro v | lift_lets | with_reducible apply keeps_ite | (simp only [keeps_mk_iff]; apply keepsP_of) | with_reducible rfl | split | (clear_value *; split) | dsimp only)

theorem keeps_execDmaCopy (core) {s : State} (h0 : Keeps s0 s) : KeepsO s0 (@execDmaCopy core s) := by
  unfold execDmaCopy
  repeat' (first | with_reducible assumption | with_reducible apply keeps_runDma | with_reducible apply keeps_startCopy | with_reducible apply keepsO_next | (intro v; refine keeps_cut s0 v ?_ (fun hv => ?_); (on_goal 2 => try clear_value v); dsimp only [v]) | intro v | lift_lets | (simp only [keeps_mk_iff]; apply keepsP_of) | with_reducible rfl | split | (clear_value *; split) | dsimp only)

theorem keeps_execDmaFill (core) {s : State} (h0 : Keeps s0 s) : KeepsO s0 (@execDmaFill core s) := by
  unfold execDmaFill
  repeat' (first | with_reducible assumption | with_reducible apply keeps_runDma | with_reducible apply keeps_startFill | with_reducible apply keepsO_next | (intro v; refine keeps_cut s0 v ?_ (fun hv => ?_); (on_goal 2 => try clear_value v); dsimp only [v]) | intro v | lift_lets | (simp only [keeps_mk_iff]; apply keepsP_of) | with_reducible rfl | split | (clear_value *; split) | dsimp only)

theorem keeps_execDmaAccum (core) {s : State} (h0 : Keeps s0 s) : KeepsO s0 (@execDmaAccum core s) := by
  unfold execDmaAccum
  repeat' (first | with_reducible assumption | with_reducible apply keeps_runDma | with_reducible apply keeps_startAccum | with_reducible apply keepsO_next | (intro v; refine keeps_cut s0 v ?_ (fun hv => ?_); (on_goal 2 => try clear_value v); dsimp only [v]) | intro v | lift_lets | (simp only [keeps_mk_iff]; apply keepsP_of) | with_reducible rfl | split | (clear_value *; split) | dsimp only)

theorem keeps_execDmaPut (core) {s : State} (h0 : Keeps s0 s) : KeepsO s0 (@execDmaPut core s) := by
  unfold execDmaPut
  repeat' (first | with_reducible assumption | with_reducible apply keeps_runDma | with_reducible apply keeps_startPut | with_reducible apply keepsO_next | (intro v; refine keeps_cut s0 v ?_ (fun hv => ?_); (on_goal 2 => try clear_value v); dsimp only [v]) | intro v | lift_lets | (simp only [keeps_mk_iff]; apply keepsP_of) | with_reducible rfl | split | (clear_value *; split) | dsimp only)

theorem keeps_execDmaGet (core) {s : State} (h0 : Keeps s0 s) : KeepsO s0 (@execDmaGet core s) := by
  unfold execDmaGet
  repeat' (first | with_reducible assumption | with_reducible apply keeps_runDma | with_reducible apply keeps_startGet | with_reducible apply keepsO_next | (intro v; refine keeps_cut s0 v ?_ (fun hv => ?_); (on_goal 2 => try clear_value v); dsimp only [v]) | intro v | lift_lets | (simp only [keeps_mk_iff]; apply keepsP_of) | with_reducible rfl | split | (clear_value *; split) | dsimp only)

theorem keeps_execDmaSignal (core) {s : State} (h0 : Keeps s0 s) : KeepsO s0 (@execDmaSignal core s) := by
  unfold execDmaSignal
  repeat' (first | with_reducible assumption | with_reducible apply keeps_runDma | with_reducible apply keeps_startSignal | with_reducible apply keepsO_next | (intro v; refine keeps_cut s0 v ?_ (fun hv => ?_); (on_goal 2 => try clear_value v); dsimp only [v]) | intro v | lift_lets | (simp only [keeps_mk_iff]; apply keepsP_of) | with_reducible rfl | split | (clear_value *; split) | dsimp only)

theorem keeps_mapRun {s : State} (n) (id) (f) (h0 : Keeps s0 s) : Keeps s0 (@State.mapRun s n id f) := by
  unfold State.mapRun
  repeat' (first | with_reducible assumption | with_reducible apply keeps_setCore | (intro v; refine keeps_cut s0 v ?_ (fun hv => ?_); (on_goal 2 => try clear_value v); dsimp only [v]) | intro v | lift_lets | with_reducible apply keeps_ite | (simp only [keeps_mk_iff]; apply keepsP_of) | with_reducible rfl | split | (clear_value *; split) | dsimp only)

theorem keeps_execTierAccumApply (idx) {s : State} (h0 : Keeps s0 s) : KeepsO s0 (@execTierAccumApply idx s) := by
  unfold execTierAccumApply
  repeat' (first | with_reducible assumption | (refine keeps_accumulate (by assumption) ?_) | with_reducible apply keeps_mapRun | with_reducible apply keeps_engineFault | with_reducible apply keepsO_next | (intro v; refine keeps_cut s0 v ?_ (fun hv => ?_); (on_goal 2 => try clear_value v); dsimp only [v]) | intro v | lift_lets | with_reducible apply keeps_ite | (simp only [keeps_mk_iff]; apply keepsP_of) | with_reducible rfl | split | (clear_value *; split) | dsimp only)

theorem keeps_dmaRecord {s : State} (n) (d) (h0 : Keeps s0 s) : Keeps s0 (@State.dmaRecord s n d) := by
  unfold State.dmaRecord
  repeat' (first | with_reducible assumption | with_reducible apply keeps_land | (intro v; refine keeps_cut s0 v ?_ (fun hv => ?_); (on_goal 2 => try clear_value v); dsimp only [v]) | intro v | lift_lets | with_reducible apply keeps_ite | (simp only [keeps_mk_iff]; apply keepsP_of) | with_reducible rfl | split | (clear_value *; split) | dsimp only)

theorem keeps_execDmaComplete (core) (idx) {s : State} (h0 : Keeps s0 s) : KeepsO s0 (@execDmaComplete core idx s) := by
  unfold execDmaComplete
  repeat' (first | with_reducible assumption | with_reducible apply keeps_landHome | with_reducible apply keeps_dmaRecord | with_reducible apply keeps_batAdd | with_reducible apply keeps_setCore | with_reducible apply keeps_settle | with_reducible apply keepsO_next | (intro v; refine keeps_cut s0 v ?_ (fun hv => ?_); (on_goal 2 => try clear_value v); dsimp only [v]) | intro v | lift_lets | with_reducible apply keeps_foldl | with_reducible apply keeps_foldl_fst | with_reducible apply keeps_foldl_snd | with_reducible apply keeps_ite | (simp only [keeps_mk_iff]; apply keepsP_of) | with_reducible rfl | split | (clear_value *; split) | dsimp only)

theorem keeps_execDmaTimeout (core) (idx) {s : State} (h0 : Keeps s0 s) : KeepsO s0 (@execDmaTimeout core idx s) := by
  unfold execDmaTimeout
  repeat' (first | with_reducible assumption | with_reducible apply keeps_takeFault | with_reducible apply keepsO_next | (intro v; refine keeps_cut s0 v ?_ (fun hv => ?_); (on_goal 2 => try clear_value v); dsimp only [v]) | intro v | lift_lets | with_reducible apply keeps_ite | (simp only [keeps_mk_iff]; apply keepsP_of) | with_reducible rfl | split | (clear_value *; split) | dsimp only)

/-! ### Machine/Links.lean -/

theorem keeps_mapStrand {s : State} (d) (l) (f) (h0 : Keeps s0 s) : Keeps s0 (@State.mapStrand s d l f) := by
  unfold State.mapStrand
  repeat' (first | with_reducible assumption | with_reducible apply keeps_setStrand | (intro v; refine keeps_cut s0 v ?_ (fun hv => ?_); (on_goal 2 => try clear_value v); dsimp only [v]) | intro v | lift_lets | (simp only [keeps_mk_iff]; apply keepsP_of) | with_reducible rfl | split | (clear_value *; split) | dsimp only)

theorem keeps_setSF {s : State} (f) (d) (l) (v_) (h0 : Keeps s0 s) : Keeps s0 (@State.setSF s f d l v_) := by
  unfold State.setSF
  repeat' (first | with_reducible assumption | with_reducible apply keeps_setF | (intro v; refine keeps_cut s0 v ?_ (fun hv => ?_); (on_goal 2 => try clear_value v); dsimp only [v]) | intro v | lift_lets | (simp only [keeps_mk_iff]; apply keepsP_of) | with_reducible rfl | split | (clear_value *; split) | dsimp only)

theorem keeps_strandRecord {s : State} (d) (l) (h0 : Keeps s0 s) : Keeps s0 (@State.strandRecord s d l) := by
  unfold State.strandRecord
  repeat' (first | with_reducible assumption | with_reducible apply keeps_recordOnce | (intro v; refine keeps_cut s0 v ?_ (fun hv => ?_); (on_goal 2 => try clear_value v); dsimp only [v]) | intro v | lift_lets | (simp only [keeps_mk_iff]; apply keepsP_of) | with_reducible rfl | split | (clear_value *; split) | dsimp only)

theorem keeps_moveQueued {s : State} (d) (l) (moves) (h0 : Keeps s0 s) : Keeps s0 (@State.moveQueued s d l moves) := by
  unfold State.moveQueued
  repeat' (first | with_reducible assumption | with_reducible apply keeps_setStrand | with_reducible apply keeps_requeue | (intro v; refine keeps_cut s0 v ?_ (fun hv => ?_); (on_goal 2 => try clear_value v); dsimp only [v]) | intro v | lift_lets | with_reducible apply keeps_foldl | with_reducible apply keeps_foldl_fst | with_reducible apply keeps_foldl_snd | (simp only [keeps_mk_iff]; apply keepsP_of) | with_reducible rfl | split | (clear_value *; split) | dsimp only)

theorem keeps_orphan {s : State} (k) (h0 : Keeps s0 s) : Keeps s0 (@State.orphan s k) := by
  unfold State.orphan
  repeat' (first | with_reducible assumption | with_reducible apply keeps_bump | (intro v; refine keeps_cut s0 v ?_ (fun hv => ?_); (on_goal 2 => try clear_value v); dsimp only [v]) | intro v | lift_lets | (simp only [keeps_mk_iff]; apply keepsP_of) | with_reducible rfl | split | (clear_value *; split) | dsimp only)

theorem keeps_strandLost {s : State} (d) (l) (h0 : Keeps s0 s) : Keeps s0 (@State.strandLost s d l) := by
  unfold State.strandLost
  repeat' (first | with_reducible assumption | with_reducible apply keeps_orphan | with_reducible apply keeps_bump | with_reducible apply keeps_setStrand | with_reducible apply keeps_moveQueued | (intro v; refine keeps_cut s0 v ?_ (fun hv => ?_); (on_goal 2 => try clear_value v); dsimp only [v]) | intro v | lift_lets | with_reducible apply keeps_foldl | with_reducible apply keeps_foldl_fst | with_reducible apply keeps_foldl_snd | (simp only [keeps_mk_iff]; apply keepsP_of) | with_reducible rfl | split | (clear_value *; split) | dsimp only)

theorem keeps_linkChanged {s : State} (l) (h0 : Keeps s0 s) : Keeps s0 (@State.linkChanged s l) := by
  unfold State.linkChanged
  repeat' (first | with_reducible assumption | with_reducible apply keeps_linkLost | with_reducible apply keeps_retryWaiting | (intro v; refine keeps_cut s0 v ?_ (fun hv => ?_); (on_goal 2 => try clear_value v); dsimp only [v]) | intro v | lift_lets | with_reducible apply keeps_ite | (simp only [keeps_mk_iff]; apply keepsP_of) | with_reducible rfl | split | (clear_value *; split) | dsimp only)

theorem keeps_noteMember {s : State} (l) (st) (h0 : Keeps s0 s) : Keeps s0 (@State.noteMember s l st) := by
  unfold State.noteMember
  repeat' (first | with_reducible assumption | (intro v; refine keeps_cut s0 v ?_ (fun hv => ?_); (on_goal 2 => try clear_value v); dsimp only [v]) | intro v | lift_lets | with_reducible apply keeps_ite | (simp only [keeps_mk_iff]; apply keepsP_of) | with_reducible rfl | split | (clear_value *; split) | dsimp only)

theorem keeps_setStrandState {s : State} (d) (l) (st) (h0 : Keeps s0 s) : Keeps s0 (@State.setStrandState s d l st) := by
  unfold State.setStrandState
  repeat' (first | with_reducible assumption | with_reducible apply keeps_setSF | with_reducible apply keeps_mapStrand | with_reducible apply keeps_noteMember | with_reducible apply keeps_moveQueued | with_reducible apply keeps_strandLost | with_reducible apply keeps_linkChanged | (intro v; refine keeps_cut s0 v ?_ (fun hv => ?_); (on_goal 2 => try clear_value v); dsimp only [v]) | intro v | lift_lets | with_reducible apply keeps_ite | (simp only [keeps_mk_iff]; apply keepsP_of) | with_reducible rfl | split | (clear_value *; split) | dsimp only)

theorem keeps_startAttempt {s : State} (d) (l) (a) (h0 : Keeps s0 s) : Keeps s0 (@State.startAttempt s d l a) := by
  unfold State.startAttempt
  repeat' (first | with_reducible assumption | with_reducible apply keeps_setStrandState | with_reducible apply keeps_mapStrand | with_reducible apply keeps_setSF | (intro v; refine keeps_cut s0 v ?_ (fun hv => ?_); (on_goal 2 => try clear_value v); dsimp only [v]) | intro v | lift_lets | (simp only [keeps_mk_iff]; apply keepsP_of) | with_reducible rfl | split | (clear_value *; split) | dsimp only)

theorem keeps_retrain {s : State} (d) (l) (a) (h0 : Keeps s0 s) : Keeps s0 (@State.retrain s d l a) := by
  unfold State.retrain
  repeat' (first | with_reducible assumption | with_reducible apply keeps_bump | with_reducible apply keeps_record | with_reducible apply keeps_startAttempt | with_reducible apply keeps_mapStrand | (intro v; refine keeps_cut s0 v ?_ (fun hv => ?_); (on_goal 2 => try clear_value v); dsimp only [v]) | intro v | lift_lets | (simp only [keeps_mk_iff]; apply keepsP_of) | with_reducible rfl | split | (clear_value *; split) | dsimp only)

theorem keeps_attemptFails {s : State} (d) (l) (h0 : Keeps s0 s) : Keeps s0 (@State.attemptFails s d l) := by
  unfold State.attemptFails
  repeat' (first | with_reducible assumption | with_reducible apply keeps_bump | with_reducible apply keeps_mapStrand | with_reducible apply keeps_setStrandState | with_reducible apply keeps_record | with_reducible apply keeps_startAttempt | (intro v; refine keeps_cut s0 v ?_ (fun hv => ?_); (on_goal 2 => try clear_value v); dsimp only [v]) | intro v | lift_lets | with_reducible apply keeps_ite | (simp only [keeps_mk_iff]; apply keepsP_of) | with_reducible rfl | split | (clear_value *; split) | dsimp only)

theorem keeps_goActive {s : State} (d) (l) (h0 : Keeps s0 s) : Keeps s0 (@State.goActive s d l) := by
  unfold State.goActive
  repeat' (first | with_reducible assumption | with_reducible apply keeps_setSF | with_reducible apply keeps_mapStrand | with_reducible apply keeps_setStrandState | with_reducible apply keeps_retryWaiting | (intro v; refine keeps_cut s0 v ?_ (fun hv => ?_); (on_goal 2 => try clear_value v); dsimp only [v]) | intro v | lift_lets | (simp only [keeps_mk_iff]; apply keepsP_of) | with_reducible rfl | split | (clear_value *; split) | dsimp only)

theorem keeps_verifyStrand {s : State} (d) (l) (h0 : Keeps s0 s) : Keeps s0 (@State.verifyStrand s d l) := by
  unfold State.verifyStrand
  repeat' (first | with_reducible assumption | with_reducible apply keeps_mapStrand | with_reducible apply keeps_setStrandState | with_reducible apply keeps_goActive | with_reducible apply keeps_bump | with_reducible apply keeps_strandRecord | with_reducible apply keeps_record | (intro v; refine keeps_cut s0 v ?_ (fun hv => ?_); (on_goal 2 => try clear_value v); dsimp only [v]) | intro v | lift_lets | with_reducible apply keeps_ite | (simp only [keeps_mk_iff]; apply keepsP_of) | with_reducible rfl | split | (clear_value *; split) | dsimp only)

theorem keeps_execStrandTrainingStageDone (die) (link) (found) {s : State} (h0 : Keeps s0 s) : KeepsO s0 (@execStrandTrainingStageDone die link found s) := by
  unfold execStrandTrainingStageDone
  repeat' (first | with_reducible assumption | with_reducible apply keeps_setStrandState | with_reducible apply keeps_setSF | with_reducible apply keeps_verifyStrand | with_reducible apply keeps_mapStrand | with_reducible apply keeps_goActive | with_reducible apply keepsO_next | (intro v; refine keeps_cut s0 v ?_ (fun hv => ?_); (on_goal 2 => try clear_value v); dsimp only [v]) | intro v | lift_lets | with_reducible apply keeps_ite | (simp only [keeps_mk_iff]; apply keepsP_of) | with_reducible rfl | (refine keeps_of_snd (by with_reducible assumption) ?_) | (refine keeps_of_fst (by with_reducible assumption) ?_) | split | (clear_value *; split) | with_reducible apply keeps_fresh | dsimp only)

theorem keeps_lastTraining {s : State} (d) (l) (h0 : Keeps s0 s) : Keeps s0 (@State.lastTraining s d l) := by
  unfold State.lastTraining
  repeat' (first | with_reducible assumption | with_reducible apply keeps_retrain | with_reducible apply keeps_mapStrand | (intro v; refine keeps_cut s0 v ?_ (fun hv => ?_); (on_goal 2 => try clear_value v); dsimp only [v]) | intro v | lift_lets | (simp only [keeps_mk_iff]; apply keepsP_of) | with_reducible rfl | split | (clear_value *; split) | dsimp only)

theorem keeps_execTrainingStageTimeout (die) (link) {s : State} (h0 : Keeps s0 s) : KeepsO s0 (@execTrainingStageTimeout die link s) := by
  unfold execTrainingStageTimeout
  repeat' (first | with_reducible assumption | with_reducible apply keeps_lastTraining | with_reducible apply keeps_attemptFails | with_reducible apply keepsO_next | (intro v; refine keeps_cut s0 v ?_ (fun hv => ?_); (on_goal 2 => try clear_value v); dsimp only [v]) | intro v | lift_lets | with_reducible apply keeps_ite | (simp only [keeps_mk_iff]; apply keepsP_of) | with_reducible rfl | split | (clear_value *; split) | dsimp only)

theorem keeps_execTrainingPatternDetect (die) (link) {s : State} (h0 : Keeps s0 s) : KeepsO s0 (@execTrainingPatternDetect die link s) := by
  unfold execTrainingPatternDetect
  repeat' (first | with_reducible assumption | with_reducible apply keeps_startAttempt | with_reducible apply keeps_mapStrand | with_reducible apply keepsO_next | (intro v; refine keeps_cut s0 v ?_ (fun hv => ?_); (on_goal 2 => try clear_value v); dsimp only [v]) | intro v | lift_lets | with_reducible apply keeps_ite | (simp only [keeps_mk_iff]; apply keepsP_of) | with_reducible rfl | split | (clear_value *; split) | dsimp only)

theorem keeps_writeStrCtl {s : State} (who) (d) (l) (val) (h0 : Keeps s0 s) : Keeps s0 (@State.writeStrCtl s who d l val) := by
  unfold State.writeStrCtl
  repeat' (first | with_reducible assumption | with_reducible apply keeps_byManager | with_reducible apply keeps_setSF | with_reducible apply keeps_setStrandState | with_reducible apply keeps_retrain | with_reducible apply keeps_startAttempt | with_reducible apply keeps_mapStrand | (intro v; refine keeps_cut s0 v ?_ (fun hv => ?_); (on_goal 2 => try clear_value v); dsimp only [v]) | intro v | lift_lets | with_reducible apply keeps_ite | (simp only [keeps_mk_iff]; apply keepsP_of) | with_reducible rfl | split | (clear_value *; split) | dsimp only)

theorem keeps_execStrandEn (who) (die) (link) (val) {s : State} (h0 : Keeps s0 s) : KeepsO s0 (@execStrandEn who die link val s) := by
  unfold execStrandEn
  repeat' (first | with_reducible assumption | with_reducible apply keeps_writeStrCtl | with_reducible apply keepsO_next | (intro v; refine keeps_cut s0 v ?_ (fun hv => ?_); (on_goal 2 => try clear_value v); dsimp only [v]) | intro v | lift_lets | (simp only [keeps_mk_iff]; apply keepsP_of) | with_reducible rfl | split | (clear_value *; split) | dsimp only)

theorem keeps_execStrandRetrain (who) (die) (link) (val) {s : State} (h0 : Keeps s0 s) : KeepsO s0 (@execStrandRetrain who die link val s) := by
  unfold execStrandRetrain
  repeat' (first | with_reducible assumption | with_reducible apply keeps_writeStrCtl | with_reducible apply keepsO_next | (intro v; refine keeps_cut s0 v ?_ (fun hv => ?_); (on_goal 2 => try clear_value v); dsimp only [v]) | intro v | lift_lets | with_reducible apply keeps_ite | (simp only [keeps_mk_iff]; apply keepsP_of) | with_reducible rfl | split | (clear_value *; split) | dsimp only)

theorem keeps_execStrandLoop (who) (die) (link) (val) {s : State} (h0 : Keeps s0 s) : KeepsO s0 (@execStrandLoop who die link val s) := by
  unfold execStrandLoop
  repeat' (first | with_reducible assumption | with_reducible apply keeps_writeStrCtl | with_reducible apply keepsO_next | (intro v; refine keeps_cut s0 v ?_ (fun hv => ?_); (on_goal 2 => try clear_value v); dsimp only [v]) | intro v | lift_lets | (simp only [keeps_mk_iff]; apply keepsP_of) | with_reducible rfl | split | (clear_value *; split) | dsimp only)

theorem keeps_writeOptExp {s : State} (who) (d) (l) (val) (h0 : Keeps s0 s) : Keeps s0 (@State.writeOptExp s who d l val) := by
  unfold State.writeOptExp
  repeat' (first | with_reducible assumption | with_reducible apply keeps_byManager | with_reducible apply keeps_writeWord | with_reducible apply keeps_setStrandState | with_reducible apply keeps_mapStrand | (intro v; refine keeps_cut s0 v ?_ (fun hv => ?_); (on_goal 2 => try clear_value v); dsimp only [v]) | intro v | lift_lets | with_reducible apply keeps_ite | (simp only [keeps_mk_iff]; apply keepsP_of) | with_reducible rfl | split | (clear_value *; split) | dsimp only)

theorem keeps_execSluOptExpWrite (who) (die) (link) (val) {s : State} (h0 : Keeps s0 s) : KeepsO s0 (@execSluOptExpWrite who die link val s) := by
  unfold execSluOptExpWrite
  repeat' (first | with_reducible assumption | with_reducible apply keeps_writeOptExp | with_reducible apply keepsO_next | (intro v; refine keeps_cut s0 v ?_ (fun hv => ?_); (on_goal 2 => try clear_value v); dsimp only [v]) | intro v | lift_lets | (simp only [keeps_mk_iff]; apply keepsP_of) | with_reducible rfl | split | (clear_value *; split) | dsimp only)

theorem keeps_linkSend {s : State} (d) (l) (body) (h0 : Keeps s0 s) : Keeps s0 (@State.linkSend s d l body) := by
  unfold State.linkSend
  repeat' (first | with_reducible assumption | with_reducible apply keeps_mapStrand | (intro v; refine keeps_cut s0 v ?_ (fun hv => ?_); (on_goal 2 => try clear_value v); dsimp only [v]) | intro v | lift_lets | (simp only [keeps_mk_iff]; apply keepsP_of) | with_reducible rfl | split | (clear_value *; split) | dsimp only)

theorem keeps_execCreditSend (die) (link) {s : State} (h0 : Keeps s0 s) : KeepsO s0 (@execCreditSend die link s) := by
  unfold execCreditSend
  repeat' (first | with_reducible assumption | with_reducible apply keeps_linkSend | with_reducible apply keeps_mapStrand | with_reducible apply keepsO_next | (intro v; refine keeps_cut s0 v ?_ (fun hv => ?_); (on_goal 2 => try clear_value v); dsimp only [v]) | intro v | lift_lets | with_reducible apply keeps_ite | (simp only [keeps_mk_iff]; apply keepsP_of) | with_reducible rfl | split | (clear_value *; split) | dsimp only)

theorem keeps_execCredit (die) (link) (freed) {s : State} (h0 : Keeps s0 s) : KeepsO s0 (@execCredit die link freed s) := by
  unfold execCredit
  repeat' (first | with_reducible assumption | with_reducible apply keeps_mapStrand | with_reducible apply keeps_retryWaiting | with_reducible apply keepsO_next | (intro v; refine keeps_cut s0 v ?_ (fun hv => ?_); (on_goal 2 => try clear_value v); dsimp only [v]) | intro v | lift_lets | with_reducible apply keeps_ite | (simp only [keeps_mk_iff]; apply keepsP_of) | with_reducible rfl | split | (clear_value *; split) | dsimp only)

theorem keeps_execInit (die) (link) (expSeq) (freed) {s : State} (h0 : Keeps s0 s) : KeepsO s0 (@execInit die link expSeq freed s) := by
  unfold execInit
  repeat' (first | with_reducible assumption | with_reducible apply keeps_mapStrand | with_reducible apply keepsO_next | (intro v; refine keeps_cut s0 v ?_ (fun hv => ?_); (on_goal 2 => try clear_value v); dsimp only [v]) | intro v | lift_lets | with_reducible apply keeps_ite | (simp only [keeps_mk_iff]; apply keepsP_of) | with_reducible rfl | split | (clear_value *; split) | dsimp only)

theorem keeps_execIdent (die) (link) (m) {s : State} (h0 : Keeps s0 s) : KeepsO s0 (@execIdent die link m s) := by
  unfold execIdent
  repeat' (first | with_reducible assumption | with_reducible apply keeps_mapStrand | with_reducible apply keeps_setSF | with_reducible apply keepsO_next | (intro v; refine keeps_cut s0 v ?_ (fun hv => ?_); (on_goal 2 => try clear_value v); dsimp only [v]) | intro v | lift_lets | with_reducible apply keeps_ite | (simp only [keeps_mk_iff]; apply keepsP_of) | with_reducible rfl | split | (clear_value *; split) | dsimp only)

theorem keeps_startReplay {s : State} (d) (l) (h0 : Keeps s0 s) : Keeps s0 (@State.startReplay s d l) := by
  unfold State.startReplay
  repeat' (first | with_reducible assumption | with_reducible apply keeps_retrain | with_reducible apply keeps_bump | with_reducible apply keeps_setStrand | with_reducible apply keeps_strandRecord | (intro v; refine keeps_cut s0 v ?_ (fun hv => ?_); (on_goal 2 => try clear_value v); dsimp only [v]) | intro v | lift_lets | with_reducible apply keeps_ite | (simp only [keeps_mk_iff]; apply keepsP_of) | with_reducible rfl | split | (clear_value *; split) | dsimp only)

theorem keeps_applyAck {s : State} (d) (l) (ackt) (ack) (h0 : Keeps s0 s) : Keeps s0 (@State.applyAck s d l ackt ack) := by
  unfold State.applyAck
  repeat' (first | with_reducible assumption | with_reducible apply keeps_setStrand | with_reducible apply keeps_startReplay | (intro v; refine keeps_cut s0 v ?_ (fun hv => ?_); (on_goal 2 => try clear_value v); dsimp only [v]) | intro v | lift_lets | with_reducible apply keeps_ite | (simp only [keeps_mk_iff]; apply keepsP_of) | with_reducible rfl | split | (clear_value *; split) | dsimp only)

theorem keeps_passOn {s : State} (d) (l) (vl) (bs) (h0 : Keeps s0 s) : Keeps s0 (@State.passOn s d l vl bs) := by
  unfold State.passOn
  repeat' (first | with_reducible assumption | with_reducible apply keeps_freeFlits | (intro v; refine keeps_cut s0 v ?_ (fun hv => ?_); (on_goal 2 => try clear_value v); dsimp only [v]) | intro v | lift_lets | with_reducible apply keeps_ite | (simp only [keeps_mk_iff]; apply keepsP_of) | with_reducible rfl | split | (clear_value *; split) | dsimp only)

theorem keeps_takeData {s : State} (d) (l) (vl) (start) (bs) (h0 : Keeps s0 s) : Keeps s0 (@State.takeData s d l vl start bs) := by
  unfold State.takeData
  repeat' (first | with_reducible assumption | with_reducible apply keeps_setStrand | with_reducible apply keeps_passOn | (intro v; refine keeps_cut s0 v ?_ (fun hv => ?_); (on_goal 2 => try clear_value v); dsimp only [v]) | intro v | lift_lets | with_reducible apply keeps_ite | (simp only [keeps_mk_iff]; apply keepsP_of) | with_reducible rfl | split | (clear_value *; split) | dsimp only)

theorem keeps_goodFlit {s : State} (d) (l) (bs) (h0 : Keeps s0 s) : Keeps s0 (@State.goodFlit s d l bs) := by
  unfold State.goodFlit
  repeat' (first | with_reducible assumption | with_reducible apply keeps_applyAck | with_reducible apply keeps_bump | with_reducible apply keeps_strandRecord | with_reducible apply keeps_mapStrand | with_reducible apply keeps_setStrand | with_reducible apply keeps_takeData | (intro v; refine keeps_cut s0 v ?_ (fun hv => ?_); (on_goal 2 => try clear_value v); dsimp only [v]) | intro v | lift_lets | with_reducible apply keeps_ite | (simp only [keeps_mk_iff]; apply keepsP_of) | with_reducible rfl | split | (clear_value *; split) | dsimp only)

theorem keeps_takeFlit {s : State} (d) (l) (flit) (h0 : Keeps s0 s) : Keeps s0 (@State.takeFlit s d l flit) := by
  unfold State.takeFlit
  repeat' (first | with_reducible assumption | with_reducible apply keeps_bump | with_reducible apply keeps_strandRecord | with_reducible apply keeps_mapStrand | with_reducible apply keeps_goodFlit | (intro v; refine keeps_cut s0 v ?_ (fun hv => ?_); (on_goal 2 => try clear_value v); dsimp only [v]) | intro v | lift_lets | with_reducible apply keeps_ite | (simp only [keeps_mk_iff]; apply keepsP_of) | with_reducible rfl | split | (clear_value *; split) | dsimp only)

theorem keeps_nextFlit {s : State} (d) (l) (h0 : Keeps s0 s) : Keeps s0 (@State.nextFlit s d l) := by
  unfold State.nextFlit
  repeat' (first | with_reducible assumption | with_reducible apply keeps_mapStrand | with_reducible apply keeps_takeFlit | (intro v; refine keeps_cut s0 v ?_ (fun hv => ?_); (on_goal 2 => try clear_value v); dsimp only [v]) | intro v | lift_lets | (simp only [keeps_mk_iff]; apply keepsP_of) | with_reducible rfl | split | (clear_value *; split) | dsimp only)

theorem keeps_laneOk {s : State} (d) (l) (pos) (v_) (h0 : Keeps s0 s) : Keeps s0 (@State.laneOk s d l pos v_) := by
  unfold State.laneOk
  repeat' (first | with_reducible assumption | with_reducible apply keeps_setSF | (intro v; refine keeps_cut s0 v ?_ (fun hv => ?_); (on_goal 2 => try clear_value v); dsimp only [v]) | intro v | lift_lets | (simp only [keeps_mk_iff]; apply keepsP_of) | with_reducible rfl | split | (clear_value *; split) | dsimp only)

theorem keeps_laneFails {s : State} (d) (l) (pos) (h0 : Keeps s0 s) : Keeps s0 (@State.laneFails s d l pos) := by
  unfold State.laneFails
  repeat' (first | with_reducible assumption | with_reducible apply keeps_setStrandState | with_reducible apply keeps_laneOk | with_reducible apply keeps_mapStrand | with_reducible apply keeps_lastTraining | with_reducible apply keeps_retrain | with_reducible apply keeps_attemptFails | (intro v; refine keeps_cut s0 v ?_ (fun hv => ?_); (on_goal 2 => try clear_value v); dsimp only [v]) | intro v | lift_lets | with_reducible apply keeps_ite | (simp only [keeps_mk_iff]; apply keepsP_of) | with_reducible rfl | split | (clear_value *; split) | dsimp only)

theorem keeps_takeCode {s : State} (d) (l) (c) (h0 : Keeps s0 s) : Keeps s0 (@State.takeCode s d l c) := by
  unfold State.takeCode
  repeat' (first | with_reducible assumption | with_reducible apply keeps_mapStrand | with_reducible apply keeps_bump | with_reducible apply keeps_strandRecord | with_reducible apply keeps_laneFails | (intro v; refine keeps_cut s0 v ?_ (fun hv => ?_); (on_goal 2 => try clear_value v); dsimp only [v]) | intro v | lift_lets | with_reducible apply keeps_ite | (simp only [keeps_mk_iff]; apply keepsP_of) | with_reducible rfl | split | (clear_value *; split) | dsimp only)

theorem keeps_execFlitReceive (die) (link) (codes) {s : State} (h0 : Keeps s0 s) : KeepsO s0 (@execFlitReceive die link codes s) := by
  unfold execFlitReceive
  repeat' (first | with_reducible assumption | with_reducible apply keeps_takeCode | with_reducible apply keeps_nextFlit | with_reducible apply keepsO_next | (intro v; refine keeps_cut s0 v ?_ (fun hv => ?_); (on_goal 2 => try clear_value v); dsimp only [v]) | intro v | lift_lets | with_reducible apply keeps_foldl | with_reducible apply keeps_foldl_fst | with_reducible apply keeps_foldl_snd | with_reducible apply keeps_ite | (simp only [keeps_mk_iff]; apply keepsP_of) | with_reducible rfl | split | (clear_value *; split) | dsimp only)

theorem keeps_execReplayTimeout (die) (link) {s : State} (h0 : Keeps s0 s) : KeepsO s0 (@execReplayTimeout die link s) := by
  unfold execReplayTimeout
  repeat' (first | with_reducible assumption | with_reducible apply keeps_startReplay | with_reducible apply keepsO_next | (intro v; refine keeps_cut s0 v ?_ (fun hv => ?_); (on_goal 2 => try clear_value v); dsimp only [v]) | intro v | lift_lets | with_reducible apply keeps_ite | (simp only [keeps_mk_iff]; apply keepsP_of) | with_reducible rfl | split | (clear_value *; split) | dsimp only)

theorem keeps_emitFlit {s : State} (d) (l) (f) (h0 : Keeps s0 s) : Keeps s0 (@State.emitFlit s d l f) := by
  unfold State.emitFlit
  repeat' (first | with_reducible assumption | with_reducible apply keeps_mapStrand | with_reducible apply keeps_emit | (intro v; refine keeps_cut s0 v ?_ (fun hv => ?_); (on_goal 2 => try clear_value v); dsimp only [v]) | intro v | lift_lets | (simp only [keeps_mk_iff]; apply keepsP_of) | with_reducible rfl | split | (clear_value *; split) | dsimp only)

theorem keeps_putFlit {s : State} (d) (l) (body) (kind) (vl) (start) (sequenced) (h0 : Keeps s0 s) : Keeps s0 (@State.putFlit s d l body kind vl start sequenced) := by
  unfold State.putFlit
  repeat' (first | with_reducible assumption | with_reducible apply keeps_setStrand | with_reducible apply keeps_bump | with_reducible apply keeps_emitFlit | (intro v; refine keeps_cut s0 v ?_ (fun hv => ?_); (on_goal 2 => try clear_value v); dsimp only [v]) | intro v | lift_lets | with_reducible apply keeps_ite | (simp only [keeps_mk_iff]; apply keepsP_of) | with_reducible rfl | split | (clear_value *; split) | dsimp only)

theorem keeps_resendFlit {s : State} (d) (l) (seq) (h0 : Keeps s0 s) : Keeps s0 (@State.resendFlit s d l seq) := by
  unfold State.resendFlit
  repeat' (first | with_reducible assumption | with_reducible apply keeps_setStrand | with_reducible apply keeps_emitFlit | (intro v; refine keeps_cut s0 v ?_ (fun hv => ?_); (on_goal 2 => try clear_value v); dsimp only [v]) | intro v | lift_lets | with_reducible apply keeps_ite | (simp only [keeps_mk_iff]; apply keepsP_of) | with_reducible rfl | split | (clear_value *; split) | dsimp only)

theorem keeps_fanSent {s : State} (l) (t_) (h0 : Keeps s0 s) : Keeps s0 (@State.fanSent s l t_) := by
  unfold State.fanSent
  repeat' (first | with_reducible assumption | (intro v; refine keeps_cut s0 v ?_ (fun hv => ?_); (on_goal 2 => try clear_value v); dsimp only [v]) | intro v | lift_lets | (simp only [keeps_mk_iff]; apply keepsP_of) | with_reducible rfl | split | (clear_value *; split) | dsimp only)

theorem keeps_freeFrom {s : State} (t_) (h0 : Keeps s0 s) : Keeps s0 (@State.freeFrom s t_) := by
  unfold State.freeFrom
  repeat' (first | with_reducible assumption | with_reducible apply keeps_mapStrand | (intro v; refine keeps_cut s0 v ?_ (fun hv => ?_); (on_goal 2 => try clear_value v); dsimp only [v]) | intro v | lift_lets | (simp only [keeps_mk_iff]; apply keepsP_of) | with_reducible rfl | split | (clear_value *; split) | dsimp only)

theorem keeps_sendVl {s : State} (d) (l) (vl) (may) (h0 : Keeps s0 s) : Keeps s0 (@State.sendVl s d l vl may) := by
  unfold State.sendVl
  repeat' (first | with_reducible assumption | with_reducible apply keeps_setStrand | with_reducible apply keeps_putFlit | with_reducible apply keeps_freeFrom | with_reducible apply keeps_fanSent | (intro v; refine keeps_cut s0 v ?_ (fun hv => ?_); (on_goal 2 => try clear_value v); dsimp only [v]) | intro v | lift_lets | with_reducible apply keeps_ite | (simp only [keeps_mk_iff]; apply keepsP_of) | with_reducible rfl | split | (clear_value *; split) | dsimp only)

theorem keeps_sendLinkMsg {s : State} (d) (l) (i) (body) (h0 : Keeps s0 s) : Keeps s0 (@State.sendLinkMsg s d l i body) := by
  unfold State.sendLinkMsg
  repeat' (first | with_reducible assumption | with_reducible apply keeps_mapStrand | with_reducible apply keeps_putFlit | (intro v; refine keeps_cut s0 v ?_ (fun hv => ?_); (on_goal 2 => try clear_value v); dsimp only [v]) | intro v | lift_lets | (simp only [keeps_mk_iff]; apply keepsP_of) | with_reducible rfl | split | (clear_value *; split) | dsimp only)

theorem keeps_sendIdle {s : State} (d) (l) (h0 : Keeps s0 s) : Keeps s0 (@State.sendIdle s d l) := by
  unfold State.sendIdle
  repeat' (first | with_reducible assumption | with_reducible apply keeps_putFlit | (intro v; refine keeps_cut s0 v ?_ (fun hv => ?_); (on_goal 2 => try clear_value v); dsimp only [v]) | intro v | lift_lets | (simp only [keeps_mk_iff]; apply keepsP_of) | with_reducible rfl | split | (clear_value *; split) | dsimp only)

theorem keeps_arbitrateFlit {s : State} (d) (l) (h0 : Keeps s0 s) : Keeps s0 (@State.arbitrateFlit s d l) := by
  unfold State.arbitrateFlit
  repeat' (first | with_reducible assumption | with_reducible apply keeps_mapStrand | with_reducible apply keeps_sendLinkMsg | with_reducible apply keeps_sendVl | with_reducible apply keeps_sendIdle | (intro v; refine keeps_cut s0 v ?_ (fun hv => ?_); (on_goal 2 => try clear_value v); dsimp only [v]) | intro v | lift_lets | with_reducible apply keeps_ite | (simp only [keeps_mk_iff]; apply keepsP_of) | with_reducible rfl | split | (clear_value *; split) | dsimp only)

theorem keeps_execFlitBoundary (die) (link) {s : State} (h0 : Keeps s0 s) : KeepsO s0 (@execFlitBoundary die link s) := by
  unfold execFlitBoundary
  repeat' (first | with_reducible assumption | with_reducible apply keeps_resendFlit | with_reducible apply keeps_arbitrateFlit | with_reducible apply keeps_putFlit | with_reducible apply keeps_sendLinkMsg | with_reducible apply keeps_sendIdle | with_reducible apply keepsO_next | (intro v; refine keeps_cut s0 v ?_ (fun hv => ?_); (on_goal 2 => try clear_value v); dsimp only [v]) | intro v | lift_lets | with_reducible apply keeps_ite | (simp only [keeps_mk_iff]; apply keepsP_of) | with_reducible rfl | split | (clear_value *; split) | dsimp only)

theorem keeps_execLaneFail (die) (link) (pos) {s : State} (h0 : Keeps s0 s) : KeepsO s0 (@execLaneFail die link pos s) := by
  unfold execLaneFail
  repeat' (first | with_reducible assumption | with_reducible apply keeps_laneFails | with_reducible apply keepsO_next | (intro v; refine keeps_cut s0 v ?_ (fun hv => ?_); (on_goal 2 => try clear_value v); dsimp only [v]) | intro v | lift_lets | with_reducible apply keeps_ite | (simp only [keeps_mk_iff]; apply keepsP_of) | with_reducible rfl | split | (clear_value *; split) | dsimp only)

theorem keeps_execLoopbackTestDone (die) (link) (pos) (passed) {s : State} (h0 : Keeps s0 s) : KeepsO s0 (@execLoopbackTestDone die link pos passed s) := by
  unfold execLoopbackTestDone
  repeat' (first | with_reducible assumption | with_reducible apply keeps_setReg | with_reducible apply keeps_setSF | with_reducible apply keeps_mapStrand | with_reducible apply keeps_linkSend | with_reducible apply keeps_lastTraining | with_reducible apply keepsO_next | (intro v; refine keeps_cut s0 v ?_ (fun hv => ?_); (on_goal 2 => try clear_value v); dsimp only [v]) | intro v | lift_lets | with_reducible apply keeps_ite | (simp only [keeps_mk_iff]; apply keepsP_of) | with_reducible rfl | split | (clear_value *; split) | dsimp only)

theorem keeps_execSwap (die) (link) (pos) {s : State} (h0 : Keeps s0 s) : KeepsO s0 (@execSwap die link pos s) := by
  unfold execSwap
  repeat' (first | with_reducible assumption | with_reducible apply keeps_setStrandState | with_reducible apply keeps_laneOk | with_reducible apply keeps_mapStrand | with_reducible apply keepsO_next | (intro v; refine keeps_cut s0 v ?_ (fun hv => ?_); (on_goal 2 => try clear_value v); dsimp only [v]) | intro v | lift_lets | with_reducible apply keeps_ite | (simp only [keeps_mk_iff]; apply keepsP_of) | with_reducible rfl | split | (clear_value *; split) | dsimp only)

theorem keeps_execSwapComplete (die) (link) {s : State} (h0 : Keeps s0 s) : KeepsO s0 (@execSwapComplete die link s) := by
  unfold execSwapComplete
  repeat' (first | with_reducible assumption | with_reducible apply keeps_setSF | with_reducible apply keeps_mapStrand | with_reducible apply keeps_setStrandState | with_reducible apply keeps_bump | with_reducible apply keeps_record | with_reducible apply keeps_addFieldEntry | with_reducible apply keepsO_next | (intro v; refine keeps_cut s0 v ?_ (fun hv => ?_); (on_goal 2 => try clear_value v); dsimp only [v]) | intro v | lift_lets | with_reducible apply keeps_ite | (simp only [keeps_mk_iff]; apply keepsP_of) | with_reducible rfl | split | (clear_value *; split) | dsimp only)

/-! ### Machine/Remote.lean -/

theorem keeps_writeRteSelf {s : State} (who) (val) (h0 : Keeps s0 s) : Keeps s0 (@State.writeRteSelf s who val) := by
  unfold State.writeRteSelf
  repeat' (first | with_reducible assumption | with_reducible apply keeps_byManager | with_reducible apply keeps_writeWord | (intro v; refine keeps_cut s0 v ?_ (fun hv => ?_); (on_goal 2 => try clear_value v); dsimp only [v]) | intro v | lift_lets | with_reducible apply keeps_ite | (simp only [keeps_mk_iff]; apply keepsP_of) | with_reducible rfl | split | (clear_value *; split) | dsimp only)

theorem keeps_writeRsetPart {s : State} (who) (r) (ix) (i) (val) (h0 : Keeps s0 s) : Keeps s0 (@State.writeRsetPart s who r ix i val) := by
  unfold State.writeRsetPart
  repeat' (first | with_reducible assumption | with_reducible apply keeps_byManager | with_reducible apply keeps_writeWord | (intro v; refine keeps_cut s0 v ?_ (fun hv => ?_); (on_goal 2 => try clear_value v); dsimp only [v]) | intro v | lift_lets | with_reducible apply keeps_ite | (simp only [keeps_mk_iff]; apply keepsP_of) | with_reducible rfl | split | (clear_value *; split) | dsimp only)

theorem keeps_nameSlot {s : State} (slot) (h0 : Keeps s0 s) : Keeps s0 (@State.nameSlot s slot) := by
  unfold State.nameSlot
  repeat' (first | with_reducible assumption | (intro v; refine keeps_cut s0 v ?_ (fun hv => ?_); (on_goal 2 => try clear_value v); dsimp only [v]) | intro v | lift_lets | (simp only [keeps_mk_iff]; apply keepsP_of) | with_reducible rfl | split | (clear_value *; split) | dsimp only)

theorem keeps_writeRsetA {s : State} (who) (i) (val) (h0 : Keeps s0 s) : Keeps s0 (@State.writeRsetA s who i val) := by
  unfold State.writeRsetA
  repeat' (first | with_reducible assumption | with_reducible apply keeps_byManager | with_reducible apply keeps_writeWord | with_reducible apply keeps_setF | with_reducible apply keeps_refuseWrite | with_reducible apply keeps_retryWaiting | with_reducible apply keeps_nameSlot | (intro v; refine keeps_cut s0 v ?_ (fun hv => ?_); (on_goal 2 => try clear_value v); dsimp only [v]) | intro v | lift_lets | with_reducible apply keeps_ite | (simp only [keeps_mk_iff]; apply keepsP_of) | with_reducible rfl | split | (clear_value *; split) | dsimp only)

theorem keeps_execRouteSetValidate (who) (rset) (val) {s : State} (h0 : Keeps s0 s) : KeepsO s0 (@execRouteSetValidate who rset val s) := by
  unfold execRouteSetValidate
  repeat' (first | with_reducible assumption | with_reducible apply keeps_writeRsetA | with_reducible apply keepsO_next | (intro v; refine keeps_cut s0 v ?_ (fun hv => ?_); (on_goal 2 => try clear_value v); dsimp only [v]) | intro v | lift_lets | with_reducible apply keeps_ite | (simp only [keeps_mk_iff]; apply keepsP_of) | with_reducible rfl | split | (clear_value *; split) | dsimp only)

theorem keeps_execRouteSetInvalidate (who) (rset) (val) {s : State} (h0 : Keeps s0 s) : KeepsO s0 (@execRouteSetInvalidate who rset val s) := by
  unfold execRouteSetInvalidate
  repeat' (first | with_reducible assumption | with_reducible apply keeps_writeRsetA | with_reducible apply keepsO_next | (intro v; refine keeps_cut s0 v ?_ (fun hv => ?_); (on_goal 2 => try clear_value v); dsimp only [v]) | intro v | lift_lets | with_reducible apply keeps_ite | (simp only [keeps_mk_iff]; apply keepsP_of) | with_reducible rfl | split | (clear_value *; split) | dsimp only)

theorem keeps_writeSchedA {s : State} (who) (n) (val) (h0 : Keeps s0 s) : Keeps s0 (@State.writeSchedA s who n val) := by
  unfold State.writeSchedA
  repeat' (first | with_reducible assumption | with_reducible apply keeps_byManager | with_reducible apply keeps_refuseWrite | with_reducible apply keeps_writeWord | with_reducible apply keeps_setF | (intro v; refine keeps_cut s0 v ?_ (fun hv => ?_); (on_goal 2 => try clear_value v); dsimp only [v]) | intro v | lift_lets | with_reducible apply keeps_ite | (simp only [keeps_mk_iff]; apply keepsP_of) | with_reducible rfl | split | (clear_value *; split) | dsimp only)

theorem keeps_writeSchedB {s : State} (who) (n) (val) (h0 : Keeps s0 s) : Keeps s0 (@State.writeSchedB s who n val) := by
  unfold State.writeSchedB
  repeat' (first | with_reducible assumption | with_reducible apply keeps_byManager | with_reducible apply keeps_refuseWrite | with_reducible apply keeps_setReg | (intro v; refine keeps_cut s0 v ?_ (fun hv => ?_); (on_goal 2 => try clear_value v); dsimp only [v]) | intro v | lift_lets | with_reducible apply keeps_ite | (simp only [keeps_mk_iff]; apply keepsP_of) | with_reducible rfl | split | (clear_value *; split) | dsimp only)

theorem keeps_execSchedEntryValidate (who) (n) (val) {s : State} (h0 : Keeps s0 s) : KeepsO s0 (@execSchedEntryValidate who n val s) := by
  unfold execSchedEntryValidate
  repeat' (first | with_reducible assumption | with_reducible apply keeps_writeSchedA | with_reducible apply keepsO_next | (intro v; refine keeps_cut s0 v ?_ (fun hv => ?_); (on_goal 2 => try clear_value v); dsimp only [v]) | intro v | lift_lets | with_reducible apply keeps_ite | (simp only [keeps_mk_iff]; apply keepsP_of) | with_reducible rfl | split | (clear_value *; split) | dsimp only)

theorem keeps_bankRefuse {s : State} (status) (h0 : Keeps s0 s) : Keeps s0 (@State.bankRefuse s status) := by
  unfold State.bankRefuse
  repeat' (first | with_reducible assumption | with_reducible apply keeps_setF | with_reducible apply keeps_refuseWrite | (intro v; refine keeps_cut s0 v ?_ (fun hv => ?_); (on_goal 2 => try clear_value v); dsimp only [v]) | intro v | lift_lets | (simp only [keeps_mk_iff]; apply keepsP_of) | with_reducible rfl | split | (clear_value *; split) | dsimp only)

theorem keeps_bankArm {s : State} (h0 : Keeps s0 s) : Keeps s0 (@State.bankArm s) := by
  unfold State.bankArm
  repeat' (first | with_reducible assumption | with_reducible apply keeps_bankRefuse | with_reducible apply keeps_setF | (intro v; refine keeps_cut s0 v ?_ (fun hv => ?_); (on_goal 2 => try clear_value v); dsimp only [v]) | intro v | lift_lets | with_reducible apply keeps_ite | (simp only [keeps_mk_iff]; apply keepsP_of) | with_reducible rfl | split | (clear_value *; split) | dsimp only)

theorem keeps_bankCancel {s : State} (h0 : Keeps s0 s) : Keeps s0 (@State.bankCancel s) := by
  unfold State.bankCancel
  repeat' (first | with_reducible assumption | with_reducible apply keeps_setF | with_reducible apply keeps_bankRefuse | (intro v; refine keeps_cut s0 v ?_ (fun hv => ?_); (on_goal 2 => try clear_value v); dsimp only [v]) | intro v | lift_lets | with_reducible apply keeps_ite | (simp only [keeps_mk_iff]; apply keepsP_of) | with_reducible rfl | split | (clear_value *; split) | dsimp only)

theorem keeps_writeBanksw {s : State} (who) (val) (h0 : Keeps s0 s) : Keeps s0 (@State.writeBanksw s who val) := by
  unfold State.writeBanksw
  repeat' (first | with_reducible assumption | with_reducible apply keeps_bankRefuse | with_reducible apply keeps_bankArm | with_reducible apply keeps_bankCancel | (intro v; refine keeps_cut s0 v ?_ (fun hv => ?_); (on_goal 2 => try clear_value v); dsimp only [v]) | intro v | lift_lets | with_reducible apply keeps_ite | (simp only [keeps_mk_iff]; apply keepsP_of) | with_reducible rfl | split | (clear_value *; split) | dsimp only)

theorem keeps_writeBankswAt {s : State} (who) (val) (h0 : Keeps s0 s) : Keeps s0 (@State.writeBankswAt s who val) := by
  unfold State.writeBankswAt
  repeat' (first | with_reducible assumption | with_reducible apply keeps_refuseWrite | with_reducible apply keeps_bankRefuse | with_reducible apply keeps_setReg | (intro v; refine keeps_cut s0 v ?_ (fun hv => ?_); (on_goal 2 => try clear_value v); dsimp only [v]) | intro v | lift_lets | with_reducible apply keeps_ite | (simp only [keeps_mk_iff]; apply keepsP_of) | with_reducible rfl | split | (clear_value *; split) | dsimp only)

theorem keeps_execBankSwapArm (who) (val) {s : State} (h0 : Keeps s0 s) : KeepsO s0 (@execBankSwapArm who val s) := by
  unfold execBankSwapArm
  repeat' (first | with_reducible assumption | with_reducible apply keeps_writeBanksw | with_reducible apply keepsO_next | (intro v; refine keeps_cut s0 v ?_ (fun hv => ?_); (on_goal 2 => try clear_value v); dsimp only [v]) | intro v | lift_lets | with_reducible apply keeps_ite | (simp only [keeps_mk_iff]; apply keepsP_of) | with_reducible rfl | split | (clear_value *; split) | dsimp only)

theorem keeps_execBankSwapCancel (who) (val) {s : State} (h0 : Keeps s0 s) : KeepsO s0 (@execBankSwapCancel who val s) := by
  unfold execBankSwapCancel
  repeat' (first | with_reducible assumption | with_reducible apply keeps_writeBanksw | with_reducible apply keepsO_next | (intro v; refine keeps_cut s0 v ?_ (fun hv => ?_); (on_goal 2 => try clear_value v); dsimp only [v]) | intro v | lift_lets | with_reducible apply keeps_ite | (simp only [keeps_mk_iff]; apply keepsP_of) | with_reducible rfl | split | (clear_value *; split) | dsimp only)

theorem keeps_toggleBank {s : State} (t_) (h0 : Keeps s0 s) : Keeps s0 (@State.toggleBank s t_) := by
  unfold State.toggleBank
  repeat' (first | with_reducible assumption | with_reducible apply keeps_setF | (intro v; refine keeps_cut s0 v ?_ (fun hv => ?_); (on_goal 2 => try clear_value v); dsimp only [v]) | intro v | lift_lets | with_reducible apply keeps_ite | (simp only [keeps_mk_iff]; apply keepsP_of) | with_reducible rfl | split | (clear_value *; split) | dsimp only)

theorem keeps_execBankSwap {s : State} (h0 : Keeps s0 s) : KeepsO s0 (@execBankSwap s) := by
  unfold execBankSwap
  repeat' (first | with_reducible assumption | with_reducible apply keeps_setF | with_reducible apply keeps_toggleBank | with_reducible apply keepsO_next | (intro v; refine keeps_cut s0 v ?_ (fun hv => ?_); (on_goal 2 => try clear_value v); dsimp only [v]) | intro v | lift_lets | with_reducible apply keeps_ite | (simp only [keeps_mk_iff]; apply keepsP_of) | with_reducible rfl | split | (clear_value *; split) | dsimp only)

theorem keeps_takeArrived {s : State} (d) (l) (p) (h0 : Keeps s0 s) : Keeps s0 (@State.takeArrived s d l p).2 := by
  unfold State.takeArrived
  repeat' (first | with_reducible assumption | with_reducible apply keeps_setStrand | (intro v; refine keeps_cut s0 v ?_ (fun hv => ?_); (on_goal 2 => try clear_value v); dsimp only [v]) | intro v | lift_lets | (simp only [keeps_mk_iff]; apply keepsP_of) | with_reducible rfl | split | (clear_value *; split) | dsimp only)

theorem keeps_authFail {s : State} (d) (p) (h0 : Keeps s0 s) : Keeps s0 (@State.authFail s d p) := by
  unfold State.authFail
  repeat' (first | with_reducible assumption | with_reducible apply keeps_bump | with_reducible apply keeps_record | with_reducible apply keeps_raiseAbort | (intro v; refine keeps_cut s0 v ?_ (fun hv => ?_); (on_goal 2 => try clear_value v); dsimp only [v]) | intro v | lift_lets | (simp only [keeps_mk_iff]; apply keepsP_of) | with_reducible rfl | split | (clear_value *; split) | dsimp only)

theorem keeps_passTo {s : State} (i) (o) (from_) (missing) (d) (p) (h0 : Keeps s0 s) : Keeps s0 (@State.passTo s i o from_ missing d p) := by
  unfold State.passTo
  repeat' (first | with_reducible assumption | with_reducible apply keeps_overrunOn | with_reducible apply keeps_queueOn | with_reducible apply keeps_sendOn | (intro v; refine keeps_cut s0 v ?_ (fun hv => ?_); (on_goal 2 => try clear_value v); dsimp only [v]) | intro v | lift_lets | with_reducible apply keeps_foldl | with_reducible apply keeps_foldl_fst | with_reducible apply keeps_foldl_snd | with_reducible apply keeps_ite | (simp only [keeps_mk_iff]; apply keepsP_of) | with_reducible rfl | (refine keeps_of_snd (by with_reducible assumption) ?_) | (refine keeps_of_fst (by with_reducible assumption) ?_) | split | (clear_value *; split) | with_reducible apply keeps_chooseStrand | dsimp only)

theorem keeps_forward {s : State} (vl) (d) (l) (p) (h0 : Keeps s0 s) : Keeps s0 (@State.forward s vl d l p) := by
  unfold State.forward
  repeat' (first | with_reducible assumption | with_reducible apply keeps_bump | with_reducible apply keeps_consume | with_reducible apply keeps_passTo | (intro v; refine keeps_cut s0 v ?_ (fun hv => ?_); (on_goal 2 => try clear_value v); dsimp only [v]) | intro v | lift_lets | (simp only [keeps_mk_iff]; apply keepsP_of) | with_reducible rfl | split | (clear_value *; split) | dsimp only)

theorem keeps_headFails {s t : State} {d l : Nat} {p : Packet} (e : s.headFails d l p = some t) (h : Keeps s0 s) : Keeps s0 t := by
  unfold State.headFails at e
  split at e
  · cases e; exact keeps_recordOnce _ _ (keeps_bump _ _ _ h)
  · split at e
    · cases e; exact keeps_recordOnce _ _ (keeps_bump _ _ _ h)
    · split at e
      · cases e; exact keeps_recordOnce _ _ (keeps_bump _ _ _ h)
      · cases e

theorem keeps_receive {s : State} (d) (l) (p) (deliver) (h0 : Keeps s0 s) (h1 : ∀ y0 y1 y2, Keeps s0 y2 → Keeps s0 (deliver y0 y1 y2)) : Keeps s0 (@State.receive s d l p deliver) := by
  unfold State.receive
  repeat' (first | with_reducible assumption | with_reducible apply h1 | (refine keeps_headFails (by assumption) ?_) | with_reducible apply keeps_consume | with_reducible apply keeps_forward | with_reducible apply keeps_bump | with_reducible apply keeps_authFail | (intro v; refine keeps_cut s0 v ?_ (fun hv => ?_); (on_goal 2 => try clear_value v); dsimp only [v]) | intro v | lift_lets | with_reducible apply keeps_ite | (simp only [keeps_mk_iff]; apply keepsP_of) | with_reducible rfl | (refine keeps_of_snd (by with_reducible assumption) ?_) | (refine keeps_of_fst (by with_reducible assumption) ?_) | split | (clear_value *; split) | with_reducible apply keeps_takeArrived | with_reducible apply keeps_openQ | dsimp only)

theorem keeps_packetRow {s : State} (t_) (d) (l) (p) (deliver) (h0 : Keeps s0 s) (h1 : ∀ y0 y1 y2, Keeps s0 y2 → Keeps s0 (deliver y0 y1 y2)) : Keeps s0 (@State.packetRow s t_ d l p deliver) := by
  unfold State.packetRow
  repeat' (first | with_reducible assumption | with_reducible apply h1 | with_reducible apply keeps_receive | (intro v; refine keeps_cut s0 v ?_ (fun hv => ?_); (on_goal 2 => try clear_value v); dsimp only [v]) | intro v | lift_lets | with_reducible apply keeps_ite | (simp only [keeps_mk_iff]; apply keepsP_of) | with_reducible rfl | split | (clear_value *; split) | dsimp only)

theorem keeps_receivePart {s : State} (d) (l) (vl) (missing) (p) (h0 : Keeps s0 s) : Keeps s0 (@State.receivePart s d l vl missing p) := by
  unfold State.receivePart
  repeat' (first | with_reducible assumption | (refine keeps_headFails (by assumption) ?_) | with_reducible apply keeps_setStrand | with_reducible apply keeps_freeFlits | with_reducible apply keeps_bump | with_reducible apply keeps_passTo | (intro v; refine keeps_cut s0 v ?_ (fun hv => ?_); (on_goal 2 => try clear_value v); dsimp only [v]) | intro v | lift_lets | (simp only [keeps_mk_iff]; apply keepsP_of) | with_reducible rfl | split | (clear_value *; split) | dsimp only)

theorem keeps_execPacketForward (die) (link) (pkt) {s : State} (h0 : Keeps s0 s) : KeepsO s0 (@execPacketForward die link pkt s) := by
  unfold execPacketForward
  repeat' (first | with_reducible assumption | with_reducible apply keeps_receivePart | with_reducible apply keeps_receive | with_reducible apply keeps_consume | with_reducible apply keepsO_next | (intro v; refine keeps_cut s0 v ?_ (fun hv => ?_); (on_goal 2 => try clear_value v); dsimp only [v]) | intro v | lift_lets | with_reducible apply keeps_ite | (simp only [keeps_mk_iff]; apply keepsP_of) | with_reducible rfl | split | (clear_value *; split) | dsimp only)

theorem keeps_landFar {s : State} (job) (a) (data) (poisoned) (h0 : Keeps s0 s) : Keeps s0 (@State.landFar s job a data poisoned) := by
  unfold State.landFar
  repeat' (first | with_reducible assumption | with_reducible apply keeps_landHome | (intro v; refine keeps_cut s0 v ?_ (fun hv => ?_); (on_goal 2 => try clear_value v); dsimp only [v]) | intro v | lift_lets | (simp only [keeps_mk_iff]; apply keepsP_of) | with_reducible rfl | split | (clear_value *; split) | dsimp only)

theorem keeps_dropAdd {s : State} (d) (job) (h0 : Keeps s0 s) : Keeps s0 (@State.dropAdd s d job) := by
  unfold State.dropAdd
  repeat' (first | with_reducible assumption | with_reducible apply keeps_bump | with_reducible apply keeps_recordOnce | (intro v; refine keeps_cut s0 v ?_ (fun hv => ?_); (on_goal 2 => try clear_value v); dsimp only [v]) | intro v | lift_lets | (simp only [keeps_mk_iff]; apply keepsP_of) | with_reducible rfl | split | (clear_value *; split) | dsimp only)

theorem keeps_remoteAdd {s : State} (d) (job) (b) (v_) (h0 : Keeps s0 s) : Keeps s0 (@State.remoteAdd s d job b v_) := by
  unfold State.remoteAdd
  repeat' (first | with_reducible assumption | with_reducible apply keeps_batAdd | with_reducible apply keeps_dropAdd | (intro v; refine keeps_cut s0 v ?_ (fun hv => ?_); (on_goal 2 => try clear_value v); dsimp only [v]) | intro v | lift_lets | with_reducible apply keeps_ite | (simp only [keeps_mk_iff]; apply keepsP_of) | with_reducible rfl | split | (clear_value *; split) | dsimp only)

theorem keeps_sendAck {s : State} (p) (status) (h0 : Keeps s0 s) : Keeps s0 (@State.sendAck s p status) := by
  unfold State.sendAck
  repeat' (first | with_reducible assumption | with_reducible apply keeps_send | (intro v; refine keeps_cut s0 v ?_ (fun hv => ?_); (on_goal 2 => try clear_value v); dsimp only [v]) | intro v | lift_lets | (simp only [keeps_mk_iff]; apply keepsP_of) | with_reducible rfl | split | (clear_value *; split) | dsimp only)

theorem keeps_markLanded {s : State} (p) (h0 : Keeps s0 s) : Keeps s0 (@State.markLanded s p) := by
  unfold State.markLanded
  repeat' (first | with_reducible assumption | with_reducible apply keeps_setDstFlow | (intro v; refine keeps_cut s0 v ?_ (fun hv => ?_); (on_goal 2 => try clear_value v); dsimp only [v]) | intro v | lift_lets | (simp only [keeps_mk_iff]; apply keepsP_of) | with_reducible rfl | split | (clear_value *; split) | dsimp only)

theorem keeps_landPut {s : State} (d) (p) (h0 : Keeps s0 s) : Keeps s0 (@State.landPut s d p) := by
  unfold State.landPut
  repeat' (first | with_reducible assumption | with_reducible apply keeps_landFar | with_reducible apply keeps_markLanded | with_reducible apply keeps_remoteAdd | with_reducible apply keeps_sendAck | with_reducible apply keeps_setDstFlow | (intro v; refine keeps_cut s0 v ?_ (fun hv => ?_); (on_goal 2 => try clear_value v); dsimp only [v]) | intro v | lift_lets | with_reducible apply keeps_ite | (simp only [keeps_mk_iff]; apply keepsP_of) | with_reducible rfl | split | (clear_value *; split) | dsimp only)

theorem keeps_applySignal {s : State} (d) (p) (h0 : Keeps s0 s) : Keeps s0 (@State.applySignal s d p) := by
  unfold State.applySignal
  repeat' (first | with_reducible assumption | with_reducible apply keeps_remoteAdd | with_reducible apply keeps_markLanded | with_reducible apply keeps_sendAck | (intro v; refine keeps_cut s0 v ?_ (fun hv => ?_); (on_goal 2 => try clear_value v); dsimp only [v]) | intro v | lift_lets | (simp only [keeps_mk_iff]; apply keepsP_of) | with_reducible rfl | split | (clear_value *; split) | dsimp only)

theorem keeps_hold {s : State} (vl) (d) (l) (p) (h0 : Keeps s0 s) : Keeps s0 (@State.hold s vl d l p) := by
  unfold State.hold
  repeat' (first | with_reducible assumption | with_reducible apply keeps_consume | with_reducible apply keeps_bump | (intro v; refine keeps_cut s0 v ?_ (fun hv => ?_); (on_goal 2 => try clear_value v); dsimp only [v]) | intro v | lift_lets | with_reducible apply keeps_ite | (simp only [keeps_mk_iff]; apply keepsP_of) | with_reducible rfl | split | (clear_value *; split) | dsimp only)

theorem keeps_landOrHold {s : State} (vl) (d) (l) (p) (h0 : Keeps s0 s) : Keeps s0 (@State.landOrHold s vl d l p) := by
  unfold State.landOrHold
  repeat' (first | with_reducible assumption | with_reducible apply keeps_hold | with_reducible apply keeps_consume | with_reducible apply keeps_applySignal | with_reducible apply keeps_landPut | (intro v; refine keeps_cut s0 v ?_ (fun hv => ?_); (on_goal 2 => try clear_value v); dsimp only [v]) | intro v | lift_lets | with_reducible apply keeps_ite | (simp only [keeps_mk_iff]; apply keepsP_of) | with_reducible rfl | split | (clear_value *; split) | dsimp only)

theorem keeps_execPutPacket (die) (link) (pkt) {s : State} (h0 : Keeps s0 s) : KeepsO s0 (@execPutPacket die link pkt s) := by
  unfold execPutPacket
  repeat' (first | with_reducible assumption | with_reducible apply keeps_packetRow | with_reducible apply keeps_landOrHold | with_reducible apply keeps_consume | with_reducible apply keeps_bump | with_reducible apply keeps_dropAdd | with_reducible apply keeps_sendAck | with_reducible apply keepsO_next | (intro v; refine keeps_cut s0 v ?_ (fun hv => ?_); (on_goal 2 => try clear_value v); dsimp only [v]) | intro v | lift_lets | with_reducible apply keeps_ite | (simp only [keeps_mk_iff]; apply keepsP_of) | with_reducible rfl | split | (clear_value *; split) | dsimp only)

theorem keeps_execSignalPacket (die) (link) (pkt) {s : State} (h0 : Keeps s0 s) : KeepsO s0 (@execSignalPacket die link pkt s) := by
  unfold execSignalPacket
  repeat' (first | with_reducible assumption | with_reducible apply keeps_packetRow | with_reducible apply keeps_landOrHold | with_reducible apply keeps_consume | with_reducible apply keeps_bump | with_reducible apply keeps_dropAdd | with_reducible apply keeps_sendAck | with_reducible apply keepsO_next | (intro v; refine keeps_cut s0 v ?_ (fun hv => ?_); (on_goal 2 => try clear_value v); dsimp only [v]) | intro v | lift_lets | with_reducible apply keeps_ite | (simp only [keeps_mk_iff]; apply keepsP_of) | with_reducible rfl | split | (clear_value *; split) | dsimp only)

theorem keeps_unhold {s : State} (idx) (h_) (h0 : Keeps s0 s) : Keeps s0 (@State.unhold s idx h_) := by
  unfold State.unhold
  repeat' (first | with_reducible assumption | with_reducible apply keeps_consume | (intro v; refine keeps_cut s0 v ?_ (fun hv => ?_); (on_goal 2 => try clear_value v); dsimp only [v]) | intro v | lift_lets | with_reducible apply keeps_ite | (simp only [keeps_mk_iff]; apply keepsP_of) | with_reducible rfl | split | (clear_value *; split) | dsimp only)

theorem keeps_execHeldWriteLand (idx) {s : State} (h0 : Keeps s0 s) : KeepsO s0 (@execHeldWriteLand idx s) := by
  unfold execHeldWriteLand
  repeat' (first | with_reducible assumption | with_reducible apply keeps_unhold | with_reducible apply keeps_applySignal | with_reducible apply keeps_landPut | with_reducible apply keepsO_next | (intro v; refine keeps_cut s0 v ?_ (fun hv => ?_); (on_goal 2 => try clear_value v); dsimp only [v]) | intro v | lift_lets | with_reducible apply keeps_ite | (simp only [keeps_mk_iff]; apply keepsP_of) | with_reducible rfl | split | (clear_value *; split) | dsimp only)

theorem keeps_execFinalHoldExpiry (idx) {s : State} (h0 : Keeps s0 s) : KeepsO s0 (@execFinalHoldExpiry idx s) := by
  unfold execFinalHoldExpiry
  repeat' (first | with_reducible assumption | with_reducible apply keeps_unhold | with_reducible apply keeps_bump | with_reducible apply keeps_record | with_reducible apply keeps_raiseAbort | with_reducible apply keepsO_next | (intro v; refine keeps_cut s0 v ?_ (fun hv => ?_); (on_goal 2 => try clear_value v); dsimp only [v]) | intro v | lift_lets | with_reducible apply keeps_ite | (simp only [keeps_mk_iff]; apply keepsP_of) | with_reducible rfl | split | (clear_value *; split) | dsimp only)

theorem keeps_execGetPacket (die) (link) (pkt) {s : State} (h0 : Keeps s0 s) : KeepsO s0 (@execGetPacket die link pkt s) := by
  unfold execGetPacket
  repeat' (first | with_reducible assumption | with_reducible apply keeps_packetRow | with_reducible apply keeps_consume | with_reducible apply keeps_noteRead | with_reducible apply keeps_send | with_reducible apply keeps_bump | with_reducible apply keepsO_next | (intro v; refine keeps_cut s0 v ?_ (fun hv => ?_); (on_goal 2 => try clear_value v); dsimp only [v]) | intro v | lift_lets | with_reducible apply keeps_ite | (simp only [keeps_mk_iff]; apply keepsP_of) | with_reducible rfl | split | (clear_value *; split) | dsimp only)

theorem keeps_remoteDenied {s : State} (n) (id) (h0 : Keeps s0 s) : Keeps s0 (@State.remoteDenied s n id) := by
  unfold State.remoteDenied
  repeat' (first | with_reducible assumption | with_reducible apply keeps_engineFault | (intro v; refine keeps_cut s0 v ?_ (fun hv => ?_); (on_goal 2 => try clear_value v); dsimp only [v]) | intro v | lift_lets | (simp only [keeps_mk_iff]; apply keepsP_of) | with_reducible rfl | split | (clear_value *; split) | dsimp only)

theorem keeps_execGetRsp (die) (link) (pkt) {s : State} (h0 : Keeps s0 s) : KeepsO s0 (@execGetRsp die link pkt s) := by
  unfold execGetRsp
  repeat' (first | with_reducible assumption | with_reducible apply keeps_packetRow | with_reducible apply keeps_consume | with_reducible apply keeps_bump | with_reducible apply keeps_remoteDenied | with_reducible apply keeps_landFar | with_reducible apply keeps_mapRun | with_reducible apply keeps_sendGets | with_reducible apply keepsO_next | (intro v; refine keeps_cut s0 v ?_ (fun hv => ?_); (on_goal 2 => try clear_value v); dsimp only [v]) | intro v | lift_lets | with_reducible apply keeps_ite | (simp only [keeps_mk_iff]; apply keepsP_of) | with_reducible rfl | split | (clear_value *; split) | dsimp only)

theorem keeps_execAck (die) (link) (pkt) {s : State} (h0 : Keeps s0 s) : KeepsO s0 (@execAck die link pkt s) := by
  unfold execAck
  repeat' (first | with_reducible assumption | with_reducible apply keeps_packetRow | with_reducible apply keeps_consume | with_reducible apply keeps_bump | with_reducible apply keeps_setSrcFlow | with_reducible apply keeps_mapRun | with_reducible apply keeps_remoteDenied | with_reducible apply keepsO_next | (intro v; refine keeps_cut s0 v ?_ (fun hv => ?_); (on_goal 2 => try clear_value v); dsimp only [v]) | intro v | lift_lets | with_reducible apply keeps_ite | (simp only [keeps_mk_iff]; apply keepsP_of) | with_reducible rfl | split | (clear_value *; split) | dsimp only)

theorem keeps_execLstateSend (link) {s : State} (h0 : Keeps s0 s) : KeepsO s0 (@execLstateSend link s) := by
  unfold execLstateSend
  repeat' (first | with_reducible assumption | with_reducible apply keeps_sendLink | with_reducible apply keepsO_next | (intro v; refine keeps_cut s0 v ?_ (fun hv => ?_); (on_goal 2 => try clear_value v); dsimp only [v]) | intro v | lift_lets | with_reducible apply keeps_foldl | with_reducible apply keeps_foldl_fst | with_reducible apply keeps_foldl_snd | (simp only [keeps_mk_iff]; apply keepsP_of) | with_reducible rfl | split | (clear_value *; split) | dsimp only)

theorem keeps_execLstate (die) (link) (pkt) {s : State} (h0 : Keeps s0 s) : KeepsO s0 (@execLstate die link pkt s) := by
  unfold execLstate
  repeat' (first | with_reducible assumption | with_reducible apply keeps_packetRow | with_reducible apply keeps_consume | with_reducible apply keeps_retryWaiting | with_reducible apply keepsO_next | (intro v; refine keeps_cut s0 v ?_ (fun hv => ?_); (on_goal 2 => try clear_value v); dsimp only [v]) | intro v | lift_lets | (simp only [keeps_mk_iff]; apply keepsP_of) | with_reducible rfl | split | (clear_value *; split) | dsimp only)

/-! ### Machine/Collectives.lean -/

theorem keeps_collCtl {s : State} (n) (dst) (type) (off) (arg) (h0 : Keeps s0 s) : Keeps s0 (@State.collCtl s n dst type off arg) := by
  unfold State.collCtl
  repeat' (first | with_reducible assumption | with_reducible apply keeps_send | (intro v; refine keeps_cut s0 v ?_ (fun hv => ?_); (on_goal 2 => try clear_value v); dsimp only [v]) | intro v | lift_lets | (simp only [keeps_mk_iff]; apply keepsP_of) | with_reducible rfl | split | (clear_value *; split) | dsimp only)

theorem keeps_queueYelm {s : State} (l) (y) (epn) (fan) (p) (h0 : Keeps s0 s) : Keeps s0 (@State.queueYelm s l y epn fan p) := by
  unfold State.queueYelm
  repeat' (first | with_reducible assumption | with_reducible apply keeps_sendOn | (intro v; refine keeps_cut s0 v ?_ (fun hv => ?_); (on_goal 2 => try clear_value v); dsimp only [v]) | intro v | lift_lets | (simp only [keeps_mk_iff]; apply keepsP_of) | with_reducible rfl | split | (clear_value *; split) | dsimp only)

theorem keeps_noteYelm {s : State} (n) (y) (h0 : Keeps s0 s) : Keeps s0 (@State.noteYelm s n y) := by
  unfold State.noteYelm
  repeat' (first | with_reducible assumption | with_reducible apply keeps_noteRead | (intro v; refine keeps_cut s0 v ?_ (fun hv => ?_); (on_goal 2 => try clear_value v); dsimp only [v]) | intro v | lift_lets | with_reducible apply keeps_ite | (simp only [keeps_mk_iff]; apply keepsP_of) | with_reducible rfl | split | (clear_value *; split) | dsimp only)

theorem keeps_sendYelmTo {s : State} (n) (y) (epn) (dst) (h0 : Keeps s0 s) : Keeps s0 (@State.sendYelmTo s n y epn dst) := by
  unfold State.sendYelmTo
  repeat' (first | with_reducible assumption | with_reducible apply keeps_noteYelm | with_reducible apply keeps_queueYelm | with_reducible apply keeps_bump | with_reducible apply keeps_send | (intro v; refine keeps_cut s0 v ?_ (fun hv => ?_); (on_goal 2 => try clear_value v); dsimp only [v]) | intro v | lift_lets | with_reducible apply keeps_foldl | with_reducible apply keeps_foldl_fst | with_reducible apply keeps_foldl_snd | with_reducible apply keeps_ite | (simp only [keeps_mk_iff]; apply keepsP_of) | with_reducible rfl | (refine keeps_of_snd (by with_reducible assumption) ?_) | (refine keeps_of_fst (by with_reducible assumption) ?_) | split | (clear_value *; split) | with_reducible apply keeps_seal | dsimp only)

theorem keeps_bcastYelm {s : State} (n) (y) (h0 : Keeps s0 s) : Keeps s0 (@State.bcastYelm s n y) := by
  unfold State.bcastYelm
  repeat' (first | with_reducible assumption | with_reducible apply keeps_sendYelmTo | with_reducible apply keeps_queueYelm | with_reducible apply keeps_bump | with_reducible apply keeps_noteYelm | (intro v; refine keeps_cut s0 v ?_ (fun hv => ?_); (on_goal 2 => try clear_value v); dsimp only [v]) | intro v | lift_lets | with_reducible apply keeps_foldl | with_reducible apply keeps_foldl_fst | with_reducible apply keeps_foldl_snd | with_reducible apply keeps_ite | (simp only [keeps_mk_iff]; apply keepsP_of) | with_reducible rfl | (refine keeps_of_snd (by with_reducible assumption) ?_) | (refine keeps_of_fst (by with_reducible assumption) ?_) | split | (clear_value *; split) | with_reducible apply keeps_seal | dsimp only)

theorem keeps_openFan {s : State} (n) (h0 : Keeps s0 s) : Keeps s0 (@State.openFan s n) := by
  unfold State.openFan
  repeat' (first | with_reducible assumption | (intro v; refine keeps_cut s0 v ?_ (fun hv => ?_); (on_goal 2 => try clear_value v); dsimp only [v]) | intro v | lift_lets | with_reducible apply keeps_foldl | with_reducible apply keeps_foldl_fst | with_reducible apply keeps_foldl_snd | (simp only [keeps_mk_iff]; apply keepsP_of) | with_reducible rfl | split | (clear_value *; split) | dsimp only)

theorem keeps_sendWindow {s : State} (n) (h0 : Keeps s0 s) : Keeps s0 (@State.sendWindow s n) := by
  unfold State.sendWindow
  repeat' (first | with_reducible assumption | with_reducible apply keeps_setSlot | with_reducible apply keeps_sendYelmTo | (intro v; refine keeps_cut s0 v ?_ (fun hv => ?_); (on_goal 2 => try clear_value v); dsimp only [v]) | intro v | lift_lets | with_reducible apply keeps_foldl | with_reducible apply keeps_foldl_fst | with_reducible apply keeps_foldl_snd | with_reducible apply keeps_ite | (simp only [keeps_mk_iff]; apply keepsP_of) | with_reducible rfl | split | (clear_value *; split) | dsimp only)

theorem keeps_checkLaunch {s : State} (n) (h0 : Keeps s0 s) : Keeps s0 (@State.checkLaunch s n) := by
  unfold State.checkLaunch
  repeat' (first | with_reducible assumption | with_reducible apply keeps_setSlot | (intro v; refine keeps_cut s0 v ?_ (fun hv => ?_); (on_goal 2 => try clear_value v); dsimp only [v]) | intro v | lift_lets | with_reducible apply keeps_ite | (simp only [keeps_mk_iff]; apply keepsP_of) | with_reducible rfl | split | (clear_value *; split) | dsimp only)

theorem keeps_enterHandshake {s : State} (n) (h0 : Keeps s0 s) : Keeps s0 (@State.enterHandshake s n) := by
  unfold State.enterHandshake
  repeat' (first | with_reducible assumption | with_reducible apply keeps_setF | with_reducible apply keeps_collCtl | with_reducible apply keeps_checkLaunch | (intro v; refine keeps_cut s0 v ?_ (fun hv => ?_); (on_goal 2 => try clear_value v); dsimp only [v]) | intro v | lift_lets | with_reducible apply keeps_ite | (simp only [keeps_mk_iff]; apply keepsP_of) | with_reducible rfl | split | (clear_value *; split) | dsimp only)

theorem keeps_enterArmed {s : State} (n) (h0 : Keeps s0 s) : Keeps s0 (@State.enterArmed s n) := by
  unfold State.enterArmed
  repeat' (first | with_reducible assumption | with_reducible apply keeps_setF | with_reducible apply keeps_setSlot | with_reducible apply keeps_unwatch | with_reducible apply keeps_watch | with_reducible apply keeps_enterHandshake | (intro v; refine keeps_cut s0 v ?_ (fun hv => ?_); (on_goal 2 => try clear_value v); dsimp only [v]) | intro v | lift_lets | with_reducible apply keeps_ite | (simp only [keeps_mk_iff]; apply keepsP_of) | with_reducible rfl | split | (clear_value *; split) | dsimp only)

theorem keeps_armSlot {s : State} (n) (h0 : Keeps s0 s) : Keeps s0 (@State.armSlot s n) := by
  unfold State.armSlot
  repeat' (first | with_reducible assumption | with_reducible apply keeps_setF | with_reducible apply keeps_enterArmed | (intro v; refine keeps_cut s0 v ?_ (fun hv => ?_); (on_goal 2 => try clear_value v); dsimp only [v]) | intro v | lift_lets | (simp only [keeps_mk_iff]; apply keepsP_of) | with_reducible rfl | split | (clear_value *; split) | dsimp only)

theorem keeps_disarmSlot {s : State} (n) (h0 : Keeps s0 s) : Keeps s0 (@State.disarmSlot s n) := by
  unfold State.disarmSlot
  repeat' (first | with_reducible assumption | with_reducible apply keeps_setF | with_reducible apply keeps_setSlot | with_reducible apply keeps_unwatch | with_reducible apply keeps_dropFan | with_reducible apply keeps_refuseWrite | (intro v; refine keeps_cut s0 v ?_ (fun hv => ?_); (on_goal 2 => try clear_value v); dsimp only [v]) | intro v | lift_lets | with_reducible apply keeps_ite | (simp only [keeps_mk_iff]; apply keepsP_of) | with_reducible rfl | split | (clear_value *; split) | dsimp only)

theorem keeps_writeTrgStat {s : State} (who) (n) (val) (h0 : Keeps s0 s) : Keeps s0 (@State.writeTrgStat s who n val) := by
  unfold State.writeTrgStat
  repeat' (first | with_reducible assumption | with_reducible apply keeps_setF | with_reducible apply keeps_refuseWrite | with_reducible apply keeps_armSlot | with_reducible apply keeps_disarmSlot | (intro v; refine keeps_cut s0 v ?_ (fun hv => ?_); (on_goal 2 => try clear_value v); dsimp only [v]) | intro v | lift_lets | with_reducible apply keeps_ite | (simp only [keeps_mk_iff]; apply keepsP_of) | with_reducible rfl | split | (clear_value *; split) | dsimp only)

theorem keeps_execTriggerArm (who) (slot) (val) {s : State} (h0 : Keeps s0 s) : KeepsO s0 (@execTriggerArm who slot val s) := by
  unfold execTriggerArm
  repeat' (first | with_reducible assumption | with_reducible apply keeps_writeTrgStat | with_reducible apply keepsO_next | (intro v; refine keeps_cut s0 v ?_ (fun hv => ?_); (on_goal 2 => try clear_value v); dsimp only [v]) | intro v | lift_lets | with_reducible apply keeps_ite | (simp only [keeps_mk_iff]; apply keepsP_of) | with_reducible rfl | split | (clear_value *; split) | dsimp only)

theorem keeps_execTriggerDisarm (who) (slot) (val) {s : State} (h0 : Keeps s0 s) : KeepsO s0 (@execTriggerDisarm who slot val s) := by
  unfold execTriggerDisarm
  repeat' (first | with_reducible assumption | with_reducible apply keeps_writeTrgStat | with_reducible apply keepsO_next | (intro v; refine keeps_cut s0 v ?_ (fun hv => ?_); (on_goal 2 => try clear_value v); dsimp only [v]) | intro v | lift_lets | with_reducible apply keeps_ite | (simp only [keeps_mk_iff]; apply keepsP_of) | with_reducible rfl | split | (clear_value *; split) | dsimp only)

theorem keeps_writeTrg {s : State} (who) (n) (w) (val) (h0 : Keeps s0 s) : Keeps s0 (@State.writeTrg s who n w val) := by
  unfold State.writeTrg
  repeat' (first | with_reducible assumption | with_reducible apply keeps_byManager | with_reducible apply keeps_writeWord | with_reducible apply keeps_refuseWrite | (intro v; refine keeps_cut s0 v ?_ (fun hv => ?_); (on_goal 2 => try clear_value v); dsimp only [v]) | intro v | lift_lets | with_reducible apply keeps_ite | (simp only [keeps_mk_iff]; apply keepsP_of) | with_reducible rfl | split | (clear_value *; split) | dsimp only)

theorem keeps_writeGrpA {s : State} (who) (g) (val) (h0 : Keeps s0 s) : Keeps s0 (@State.writeGrpA s who g val) := by
  unfold State.writeGrpA
  repeat' (first | with_reducible assumption | with_reducible apply keeps_byManager | with_reducible apply keeps_refuseWrite | with_reducible apply keeps_writeWord | with_reducible apply keeps_setF | (intro v; refine keeps_cut s0 v ?_ (fun hv => ?_); (on_goal 2 => try clear_value v); dsimp only [v]) | intro v | lift_lets | with_reducible apply keeps_ite | (simp only [keeps_mk_iff]; apply keepsP_of) | with_reducible rfl | split | (clear_value *; split) | dsimp only)

theorem keeps_writeGmask {s : State} (who) (ix) (val) (h0 : Keeps s0 s) : Keeps s0 (@State.writeGmask s who ix val) := by
  unfold State.writeGmask
  repeat' (first | with_reducible assumption | with_reducible apply keeps_byManager | with_reducible apply keeps_refuseWrite | with_reducible apply keeps_setReg | (intro v; refine keeps_cut s0 v ?_ (fun hv => ?_); (on_goal 2 => try clear_value v); dsimp only [v]) | intro v | lift_lets | with_reducible apply keeps_ite | (simp only [keeps_mk_iff]; apply keepsP_of) | with_reducible rfl | split | (clear_value *; split) | dsimp only)

theorem keeps_execGroupValidate (who) (group) (val) {s : State} (h0 : Keeps s0 s) : KeepsO s0 (@execGroupValidate who group val s) := by
  unfold execGroupValidate
  repeat' (first | with_reducible assumption | with_reducible apply keeps_writeGrpA | with_reducible apply keepsO_next | (intro v; refine keeps_cut s0 v ?_ (fun hv => ?_); (on_goal 2 => try clear_value v); dsimp only [v]) | intro v | lift_lets | with_reducible apply keeps_ite | (simp only [keeps_mk_iff]; apply keepsP_of) | with_reducible rfl | split | (clear_value *; split) | dsimp only)

theorem keeps_execJunctionReserve (slot) {s : State} (h0 : Keeps s0 s) : KeepsO s0 (@execJunctionReserve slot s) := by
  unfold execJunctionReserve
  repeat' (first | with_reducible assumption | with_reducible apply keeps_setSlot | with_reducible apply keeps_collCtl | with_reducible apply keeps_checkLaunch | with_reducible apply keepsO_next | (intro v; refine keeps_cut s0 v ?_ (fun hv => ?_); (on_goal 2 => try clear_value v); dsimp only [v]) | intro v | lift_lets | with_reducible apply keeps_foldl | with_reducible apply keeps_foldl_fst | with_reducible apply keeps_foldl_snd | with_reducible apply keeps_ite | (simp only [keeps_mk_iff]; apply keepsP_of) | with_reducible rfl | split | (clear_value *; split) | dsimp only)

theorem keeps_endSlot {s : State} (n) (status) (h0 : Keeps s0 s) : Keeps s0 (@State.endSlot s n status) := by
  unfold State.endSlot
  repeat' (first | with_reducible assumption | with_reducible apply keeps_bump | with_reducible apply keeps_slotFault | with_reducible apply keeps_record | with_reducible apply keeps_raiseAbort | (intro v; refine keeps_cut s0 v ?_ (fun hv => ?_); (on_goal 2 => try clear_value v); dsimp only [v]) | intro v | lift_lets | (simp only [keeps_mk_iff]; apply keepsP_of) | with_reducible rfl | split | (clear_value *; split) | dsimp only)

theorem keeps_combined {s : State} (n) (y) (h0 : Keeps s0 s) : Keeps s0 (@State.combined s n y).2 := by
  unfold State.combined
  repeat' (first | with_reducible assumption | (intro v; refine keeps_cut s0 v ?_ (fun hv => ?_); (on_goal 2 => try clear_value v); dsimp only [v]) | intro v | lift_lets | with_reducible apply keeps_ite | (simp only [keeps_mk_iff]; apply keepsP_of) | with_reducible rfl | (refine keeps_of_snd (by with_reducible assumption) ?_) | (refine keeps_of_fst (by with_reducible assumption) ?_) | split | (clear_value *; split) | with_reducible apply keeps_fresh | dsimp only)

theorem keeps_landYelm {s : State} (n) (y) (r) (h0 : Keeps s0 s) : Keeps s0 (@State.landYelm s n y r) := by
  unfold State.landYelm
  repeat' (first | with_reducible assumption | with_reducible apply keeps_land | with_reducible apply keeps_setSlot | with_reducible apply keeps_collCtl | (intro v; refine keeps_cut s0 v ?_ (fun hv => ?_); (on_goal 2 => try clear_value v); dsimp only [v]) | intro v | lift_lets | with_reducible apply keeps_foldl | with_reducible apply keeps_foldl_fst | with_reducible apply keeps_foldl_snd | with_reducible apply keeps_ite | (simp only [keeps_mk_iff]; apply keepsP_of) | with_reducible rfl | split | (clear_value *; split) | dsimp only)

theorem keeps_yelmRecord {s : State} (y) (n) (h0 : Keeps s0 s) : Keeps s0 (@State.yelmRecord s y n) := by
  unfold State.yelmRecord
  repeat' (first | with_reducible assumption | with_reducible apply keeps_recordOnce | (intro v; refine keeps_cut s0 v ?_ (fun hv => ?_); (on_goal 2 => try clear_value v); dsimp only [v]) | intro v | lift_lets | (simp only [keeps_mk_iff]; apply keepsP_of) | with_reducible rfl | split | (clear_value *; split) | dsimp only)

theorem keeps_countFail {s : State} (n) (y) (src) (h0 : Keeps s0 s) : Keeps s0 (@State.countFail s n y src).2 := by
  unfold State.countFail
  repeat' (first | with_reducible assumption | with_reducible apply keeps_bump | with_reducible apply keeps_setSlot | with_reducible apply keeps_yelmRecord | (intro v; refine keeps_cut s0 v ?_ (fun hv => ?_); (on_goal 2 => try clear_value v); dsimp only [v]) | intro v | lift_lets | (simp only [keeps_mk_iff]; apply keepsP_of) | with_reducible rfl | split | (clear_value *; split) | dsimp only)

theorem keeps_junction {s : State} (n y : Nat) (again : Bool) (fs : List JunctionFault) (h : Keeps s0 s) :
    Keeps s0 (s.junction n y again fs) := by
  induction fs generalizing s again with
  | nil =>
    unfold State.junction
    split
    rename_i e
    exact keeps_landYelm _ _ _ (keeps_of_snd e (keeps_combined _ _ h))
  | cons f rest ih =>
    cases f with
    | residue =>
      unfold State.junction
      exact keeps_ite (keeps_endSlot _ _ (keeps_bump _ _ _ h)) (ih _ (keeps_bump _ _ _ h))
    | own pos x =>
      unfold State.junction
      dsimp only
      refine keeps_ite (ih _ h) ?_
      have k := keeps_countFail n y s.epn h
      exact keeps_ite (keeps_endSlot _ _ k) (ih _ (keeps_noteYelm _ _ (keeps_bump _ _ _ k)))
    | output pos x =>
      unfold State.junction
      split
      rename_i e
      have k := keeps_of_snd e (keeps_combined n y h)
      dsimp only
      exact keeps_ite (keeps_landYelm _ _ _ k)
        (keeps_ite (keeps_endSlot _ _ (keeps_yelmRecord _ _ (keeps_bump _ _ _ k))) (ih _ (keeps_yelmRecord _ _ (keeps_bump _ _ _ k))))

theorem keeps_tryCombine {s : State} (n) (y) (faults) (h0 : Keeps s0 s) : Keeps s0 (@State.tryCombine s n y faults) := by
  unfold State.tryCombine
  repeat' (first | with_reducible assumption | with_reducible apply keeps_noteYelm | with_reducible apply keeps_junction | (intro v; refine keeps_cut s0 v ?_ (fun hv => ?_); (on_goal 2 => try clear_value v); dsimp only [v]) | intro v | lift_lets | with_reducible apply keeps_ite | (simp only [keeps_mk_iff]; apply keepsP_of) | with_reducible rfl | split | (clear_value *; split) | dsimp only)

theorem keeps_launchLate {s : State} (n) (t_) (h0 : Keeps s0 s) : Keeps s0 (@State.launchLate s n t_) := by
  unfold State.launchLate
  repeat' (first | with_reducible assumption | with_reducible apply keeps_addLag | (intro v; refine keeps_cut s0 v ?_ (fun hv => ?_); (on_goal 2 => try clear_value v); dsimp only [v]) | intro v | lift_lets | with_reducible apply keeps_ite | (simp only [keeps_mk_iff]; apply keepsP_of) | with_reducible rfl | split | (clear_value *; split) | dsimp only)

theorem keeps_launch {s : State} (n) (faults) (h0 : Keeps s0 s) : Keeps s0 (@State.launch s n faults) := by
  unfold State.launch
  repeat' (first | with_reducible assumption | with_reducible apply keeps_setF | with_reducible apply keeps_launchLate | with_reducible apply keeps_bcastYelm | with_reducible apply keeps_openFan | with_reducible apply keeps_tryCombine | with_reducible apply keeps_sendWindow | (intro v; refine keeps_cut s0 v ?_ (fun hv => ?_); (on_goal 2 => try clear_value v); dsimp only [v]) | intro v | lift_lets | with_reducible apply keeps_foldl | with_reducible apply keeps_foldl_fst | with_reducible apply keeps_foldl_snd | with_reducible apply keeps_ite | (simp only [keeps_mk_iff]; apply keepsP_of) | with_reducible rfl | split | (clear_value *; split) | dsimp only)

theorem keeps_execTriggerLaunch (launch) {s : State} (h0 : Keeps s0 s) : KeepsO s0 (@execTriggerLaunch launch s) := by
  unfold execTriggerLaunch
  repeat' (first | with_reducible assumption | with_reducible apply keeps_launch | with_reducible apply keepsO_next | (intro v; refine keeps_cut s0 v ?_ (fun hv => ?_); (on_goal 2 => try clear_value v); dsimp only [v]) | intro v | lift_lets | with_reducible apply keeps_ite | (simp only [keeps_mk_iff]; apply keepsP_of) | with_reducible rfl | split | (clear_value *; split) | dsimp only)

theorem keeps_collRow {s : State} (t_) (d) (l) (p) (f) (h0 : Keeps s0 s) (h1 : ∀ y0 y1 y2, Keeps s0 y2 → Keeps s0 (f y0 y1 y2)) : Keeps s0 (@State.collRow s t_ d l p f) := by
  unfold State.collRow
  repeat' (first | with_reducible assumption | with_reducible apply h1 | with_reducible apply keeps_packetRow | with_reducible apply keeps_consume | with_reducible apply keeps_bump | (intro v; refine keeps_cut s0 v ?_ (fun hv => ?_); (on_goal 2 => try clear_value v); dsimp only [v]) | intro v | lift_lets | with_reducible apply keeps_ite | (simp only [keeps_mk_iff]; apply keepsP_of) | with_reducible rfl | split | (clear_value *; split) | dsimp only)

theorem keeps_storeYelm {s : State} (n) (y) (p) (pt) (h0 : Keeps s0 s) : Keeps s0 (@State.storeYelm s n y p pt) := by
  unfold State.storeYelm
  repeat' (first | with_reducible assumption | with_reducible apply keeps_setSlot | (intro v; refine keeps_cut s0 v ?_ (fun hv => ?_); (on_goal 2 => try clear_value v); dsimp only [v]) | intro v | lift_lets | (simp only [keeps_mk_iff]; apply keepsP_of) | with_reducible rfl | split | (clear_value *; split) | dsimp only)

theorem keeps_yelmFails {s : State} (n) (v_) (h0 : Keeps s0 s) : Keeps s0 (@State.yelmFails s n v_) := by
  unfold State.yelmFails
  repeat' (first | with_reducible assumption | with_reducible apply keeps_setSlot | with_reducible apply keeps_collCtl | with_reducible apply keeps_endSlot | (intro v; refine keeps_cut s0 v ?_ (fun hv => ?_); (on_goal 2 => try clear_value v); dsimp only [v]) | intro v | lift_lets | with_reducible apply keeps_ite | (simp only [keeps_mk_iff]; apply keepsP_of) | with_reducible rfl | (refine keeps_of_snd (by with_reducible assumption) ?_) | (refine keeps_of_fst (by with_reducible assumption) ?_) | split | (clear_value *; split) | with_reducible apply keeps_countFail | dsimp only)

theorem keeps_takeYelm {s : State} (n) (p) (pt) (done) (h0 : Keeps s0 s) (h1 : ∀ y0 y1, Keeps s0 y1 → Keeps s0 (done y0 y1)) : Keeps s0 (@State.takeYelm s n p pt done) := by
  unfold State.takeYelm
  repeat' (first | with_reducible assumption | with_reducible apply h1 | with_reducible apply keeps_bump | with_reducible apply keeps_storeYelm | with_reducible apply keeps_yelmFails | (intro v; refine keeps_cut s0 v ?_ (fun hv => ?_); (on_goal 2 => try clear_value v); dsimp only [v]) | intro v | lift_lets | with_reducible apply keeps_ite | (simp only [keeps_mk_iff]; apply keepsP_of) | with_reducible rfl | split | (clear_value *; split) | dsimp only)

theorem keeps_execCbcast (die) (link) (pkt) {s : State} (h0 : Keeps s0 s) : KeepsO s0 (@execCbcast die link pkt s) := by
  unfold execCbcast
  repeat' (first | with_reducible assumption | with_reducible apply keeps_collRow | with_reducible apply keeps_takeYelm | with_reducible apply keeps_land | with_reducible apply keeps_setSlot | with_reducible apply keepsO_next | (intro v; refine keeps_cut s0 v ?_ (fun hv => ?_); (on_goal 2 => try clear_value v); dsimp only [v]) | intro v | lift_lets | (simp only [keeps_mk_iff]; apply keepsP_of) | with_reducible rfl | split | (clear_value *; split) | dsimp only)

theorem keeps_execCreduce (die) (link) (pkt) (faults) {s : State} (h0 : Keeps s0 s) : KeepsO s0 (@execCreduce die link pkt faults s) := by
  unfold execCreduce
  repeat' (first | with_reducible assumption | with_reducible apply keeps_collRow | with_reducible apply keeps_takeYelm | with_reducible apply keeps_setSlot | with_reducible apply keeps_tryCombine | with_reducible apply keepsO_next | (intro v; refine keeps_cut s0 v ?_ (fun hv => ?_); (on_goal 2 => try clear_value v); dsimp only [v]) | intro v | lift_lets | with_reducible apply keeps_ite | (simp only [keeps_mk_iff]; apply keepsP_of) | with_reducible rfl | split | (clear_value *; split) | dsimp only)

theorem keeps_ctlRow {s : State} (kind) (d) (l) (p) (f) (h0 : Keeps s0 s) (h1 : ∀ y0 y1 y2, Keeps s0 y2 → Keeps s0 (f y0 y1 y2)) : Keeps s0 (@State.ctlRow s kind d l p f) := by
  unfold State.ctlRow
  repeat' (first | with_reducible assumption | with_reducible apply h1 | with_reducible apply keeps_collRow | (intro v; refine keeps_cut s0 v ?_ (fun hv => ?_); (on_goal 2 => try clear_value v); dsimp only [v]) | intro v | lift_lets | with_reducible apply keeps_ite | (simp only [keeps_mk_iff]; apply keepsP_of) | with_reducible rfl | split | (clear_value *; split) | dsimp only)

theorem keeps_execCctlGrant (die) (link) (pkt) {s : State} (h0 : Keeps s0 s) : KeepsO s0 (@execCctlGrant die link pkt s) := by
  unfold execCctlGrant
  repeat' (first | with_reducible assumption | with_reducible apply keeps_ctlRow | with_reducible apply keeps_setSlot | with_reducible apply keeps_checkLaunch | with_reducible apply keepsO_next | (intro v; refine keeps_cut s0 v ?_ (fun hv => ?_); (on_goal 2 => try clear_value v); dsimp only [v]) | intro v | lift_lets | (simp only [keeps_mk_iff]; apply keepsP_of) | with_reducible rfl | split | (clear_value *; split) | dsimp only)

theorem keeps_execCctlReady (die) (link) (pkt) {s : State} (h0 : Keeps s0 s) : KeepsO s0 (@execCctlReady die link pkt s) := by
  unfold execCctlReady
  repeat' (first | with_reducible assumption | with_reducible apply keeps_ctlRow | with_reducible apply keeps_setSlot | with_reducible apply keeps_checkLaunch | with_reducible apply keepsO_next | (intro v; refine keeps_cut s0 v ?_ (fun hv => ?_); (on_goal 2 => try clear_value v); dsimp only [v]) | intro v | lift_lets | (simp only [keeps_mk_iff]; apply keepsP_of) | with_reducible rfl | split | (clear_value *; split) | dsimp only)

theorem keeps_execCctlYack (die) (link) (pkt) {s : State} (h0 : Keeps s0 s) : KeepsO s0 (@execCctlYack die link pkt s) := by
  unfold execCctlYack
  repeat' (first | with_reducible assumption | with_reducible apply keeps_ctlRow | with_reducible apply keeps_setSlot | with_reducible apply keeps_sendWindow | with_reducible apply keepsO_next | (intro v; refine keeps_cut s0 v ?_ (fun hv => ?_); (on_goal 2 => try clear_value v); dsimp only [v]) | intro v | lift_lets | (simp only [keeps_mk_iff]; apply keepsP_of) | with_reducible rfl | split | (clear_value *; split) | dsimp only)

theorem keeps_execCctlDone (die) (link) (pkt) {s : State} (h0 : Keeps s0 s) : KeepsO s0 (@execCctlDone die link pkt s) := by
  unfold execCctlDone
  repeat' (first | with_reducible assumption | with_reducible apply keeps_ctlRow | with_reducible apply keeps_setSlot | with_reducible apply keepsO_next | (intro v; refine keeps_cut s0 v ?_ (fun hv => ?_); (on_goal 2 => try clear_value v); dsimp only [v]) | intro v | lift_lets | (simp only [keeps_mk_iff]; apply keepsP_of) | with_reducible rfl | split | (clear_value *; split) | dsimp only)

theorem keeps_execCnak (die) (link) (pkt) {s : State} (h0 : Keeps s0 s) : KeepsO s0 (@execCnak die link pkt s) := by
  unfold execCnak
  repeat' (first | with_reducible assumption | with_reducible apply keeps_collRow | with_reducible apply keeps_bump | with_reducible apply keeps_sendYelmTo | with_reducible apply keepsO_next | (intro v; refine keeps_cut s0 v ?_ (fun hv => ?_); (on_goal 2 => try clear_value v); dsimp only [v]) | intro v | lift_lets | with_reducible apply keeps_ite | (simp only [keeps_mk_iff]; apply keepsP_of) | with_reducible rfl | split | (clear_value *; split) | dsimp only)

theorem keeps_rearm {s : State} (n) (h0 : Keeps s0 s) : Keeps s0 (@State.rearm s n) := by
  unfold State.rearm
  repeat' (first | with_reducible assumption | with_reducible apply keeps_setF | with_reducible apply keeps_enterArmed | (intro v; refine keeps_cut s0 v ?_ (fun hv => ?_); (on_goal 2 => try clear_value v); dsimp only [v]) | intro v | lift_lets | with_reducible apply keeps_ite | (simp only [keeps_mk_iff]; apply keepsP_of) | with_reducible rfl | split | (clear_value *; split) | dsimp only)

theorem keeps_chain {s : State} (n) (h0 : Keeps s0 s) : Keeps s0 (@State.chain s n) := by
  unfold State.chain
  repeat' (first | with_reducible assumption | with_reducible apply keeps_armSlot | with_reducible apply keeps_slotFault | with_reducible apply keeps_record | with_reducible apply keeps_raiseAbort | (intro v; refine keeps_cut s0 v ?_ (fun hv => ?_); (on_goal 2 => try clear_value v); dsimp only [v]) | intro v | lift_lets | with_reducible apply keeps_ite | (simp only [keeps_mk_iff]; apply keepsP_of) | with_reducible rfl | split | (clear_value *; split) | dsimp only)

theorem keeps_completeSlot {s : State} (n) (h0 : Keeps s0 s) : Keeps s0 (@State.completeSlot s n) := by
  unfold State.completeSlot
  repeat' (first | with_reducible assumption | with_reducible apply keeps_collCtl | with_reducible apply keeps_setF | with_reducible apply keeps_batAdd | with_reducible apply keeps_setSlot | with_reducible apply keeps_dropFan | with_reducible apply keeps_rearm | with_reducible apply keeps_chain | (intro v; refine keeps_cut s0 v ?_ (fun hv => ?_); (on_goal 2 => try clear_value v); dsimp only [v]) | intro v | lift_lets | with_reducible apply keeps_ite | (simp only [keeps_mk_iff]; apply keepsP_of) | with_reducible rfl | split | (clear_value *; split) | dsimp only)

theorem keeps_execTriggerComplete (slot) {s : State} (h0 : Keeps s0 s) : KeepsO s0 (@execTriggerComplete slot s) := by
  unfold execTriggerComplete
  repeat' (first | with_reducible assumption | with_reducible apply keeps_completeSlot | with_reducible apply keepsO_next | (intro v; refine keeps_cut s0 v ?_ (fun hv => ?_); (on_goal 2 => try clear_value v); dsimp only [v]) | intro v | lift_lets | with_reducible apply keeps_ite | (simp only [keeps_mk_iff]; apply keepsP_of) | with_reducible rfl | split | (clear_value *; split) | dsimp only)

theorem keeps_execCollectiveTimeout (slot) {s : State} (h0 : Keeps s0 s) : KeepsO s0 (@execCollectiveTimeout slot s) := by
  unfold execCollectiveTimeout
  repeat' (first | with_reducible assumption | with_reducible apply keeps_endSlot | with_reducible apply keepsO_next | (intro v; refine keeps_cut s0 v ?_ (fun hv => ?_); (on_goal 2 => try clear_value v); dsimp only [v]) | intro v | lift_lets | with_reducible apply keeps_ite | (simp only [keeps_mk_iff]; apply keepsP_of) | with_reducible rfl | split | (clear_value *; split) | dsimp only)

theorem keeps_slateLate {s : State} (n) (m) (h0 : Keeps s0 s) : Keeps s0 (@State.slateLate s n m) := by
  unfold State.slateLate
  repeat' (first | with_reducible assumption | with_reducible apply keeps_addLag | (intro v; refine keeps_cut s0 v ?_ (fun hv => ?_); (on_goal 2 => try clear_value v); dsimp only [v]) | intro v | lift_lets | with_reducible apply keeps_ite | (simp only [keeps_mk_iff]; apply keepsP_of) | with_reducible rfl | split | (clear_value *; split) | dsimp only)

theorem keeps_execBattenWatchWake (idx) {s : State} (h0 : Keeps s0 s) : KeepsO s0 (@execBattenWatchWake idx s) := by
  unfold execBattenWatchWake
  repeat' (first | with_reducible assumption | with_reducible apply keeps_setCore | with_reducible apply keeps_setQueue | with_reducible apply keeps_slateLate | with_reducible apply keeps_enterHandshake | with_reducible apply keepsO_next | (intro v; refine keeps_cut s0 v ?_ (fun hv => ?_); (on_goal 2 => try clear_value v); dsimp only [v]) | intro v | lift_lets | with_reducible apply keeps_ite | (simp only [keeps_mk_iff]; apply keepsP_of) | with_reducible rfl | split | (clear_value *; split) | dsimp only)

end Sys2Proof.Laws
end

