-- ==== Sys2Proof/Laws/KeepsModule.lean ====
section
/-!
SUPPORT. Laws/KeepsModule.lean: every operation and meaning of the stores, recovery, the rider, the security processor and the edge keeps the queue and hands on `Safety.Sound`.
-/
namespace Sys2Proof.Laws
open Sys2Proof.Machine

set_option linter.unusedTactic false
set_option linter.unreachableTactic false
set_option linter.unusedVariables false
set_option linter.unusedSimpArgs false

variable {s0 : State}

/-! ### Machine/Store.lean -/

theorem keeps_reviewRaw {s : State} (c) (h0 : Keeps s0 s) : Keeps s0 (@State.reviewRaw s c) := by
  unfold State.reviewRaw
  repeat' (first | with_reducible assumption | with_reducible apply keeps_viewRaw | (intro v; refine keeps_cut s0 v ?_ (fun hv => ?_); (on_goal 2 => try clear_value v); dsimp only [v]) | intro v | lift_lets | with_reducible apply keeps_foldl | with_reducible apply keeps_foldl_fst | with_reducible apply keeps_foldl_snd | with_reducible apply keeps_ite | (simp only [keeps_mk_iff]; apply keepsP_of) | with_reducible rfl | split | (clear_value *; split) | dsimp only)

theorem keeps_setErase {s : State} (c) (die) (valid) (h0 : Keeps s0 s) : Keeps s0 (@State.setErase s c die valid) := by
  unfold State.setErase
  repeat' (first | with_reducible assumption | with_reducible apply keeps_setF | with_reducible apply keeps_reviewRaw | (intro v; refine keeps_cut s0 v ?_ (fun hv => ?_); (on_goal 2 => try clear_value v); dsimp only [v]) | intro v | lift_lets | (simp only [keeps_mk_iff]; apply keepsP_of) | with_reducible rfl | split | (clear_value *; split) | dsimp only)

theorem keeps_writeErase {s : State} (who) (c) (val) (h0 : Keeps s0 s) : Keeps s0 (@State.writeErase s who c val) := by
  unfold State.writeErase
  repeat' (first | with_reducible assumption | with_reducible apply keeps_record | with_reducible apply keeps_setErase | (intro v; refine keeps_cut s0 v ?_ (fun hv => ?_); (on_goal 2 => try clear_value v); dsimp only [v]) | intro v | lift_lets | with_reducible apply keeps_ite | (simp only [keeps_mk_iff]; apply keepsP_of) | with_reducible rfl | split | (clear_value *; split) | dsimp only)

theorem keeps_execDieEraseWrite (who) (cis) (val) {s : State} (h0 : Keeps s0 s) : KeepsO s0 (@execDieEraseWrite who cis val s) := by
  unfold execDieEraseWrite
  repeat' (first | with_reducible assumption | with_reducible apply keeps_writeErase | with_reducible apply keepsO_next | (intro v; refine keeps_cut s0 v ?_ (fun hv => ?_); (on_goal 2 => try clear_value v); dsimp only [v]) | intro v | lift_lets | (simp only [keeps_mk_iff]; apply keepsP_of) | with_reducible rfl | split | (clear_value *; split) | dsimp only)

theorem keeps_setTally {s : State} (c) (d) (t_) (h0 : Keeps s0 s) : Keeps s0 (@State.setTally s c d t_) := by
  unfold State.setTally
  repeat' (first | with_reducible assumption | (intro v; refine keeps_cut s0 v ?_ (fun hv => ?_); (on_goal 2 => try clear_value v); dsimp only [v]) | intro v | lift_lets | (simp only [keeps_mk_iff]; apply keepsP_of) | with_reducible rfl | split | (clear_value *; split) | dsimp only)

theorem keeps_markDie {s : State} (c) (d) (h0 : Keeps s0 s) : Keeps s0 (@State.markDie s c d) := by
  unfold State.markDie
  repeat' (first | with_reducible assumption | with_reducible apply keeps_record | with_reducible apply keeps_setErase | with_reducible apply keeps_setTally | with_reducible apply keeps_addFieldEntry | (intro v; refine keeps_cut s0 v ?_ (fun hv => ?_); (on_goal 2 => try clear_value v); dsimp only [v]) | intro v | lift_lets | with_reducible apply keeps_ite | (simp only [keeps_mk_iff]; apply keepsP_of) | with_reducible rfl | split | (clear_value *; split) | dsimp only)

theorem keeps_execDieMark (cis) (die) {s : State} (h0 : Keeps s0 s) : KeepsO s0 (@execDieMark cis die s) := by
  unfold execDieMark
  repeat' (first | with_reducible assumption | with_reducible apply keeps_markDie | with_reducible apply keepsO_next | (intro v; refine keeps_cut s0 v ?_ (fun hv => ?_); (on_goal 2 => try clear_value v); dsimp only [v]) | intro v | lift_lets | with_reducible apply keeps_ite | (simp only [keeps_mk_iff]; apply keepsP_of) | with_reducible rfl | split | (clear_value *; split) | dsimp only)

theorem keeps_execMergeWriteback (cis) (chan) (idx) {s : State} (h0 : Keeps s0 s) : KeepsO s0 (@execMergeWriteback cis chan idx s) := by
  unfold execMergeWriteback
  repeat' (first | with_reducible assumption | with_reducible apply keeps_writeBack | with_reducible apply keepsO_next | (intro v; refine keeps_cut s0 v ?_ (fun hv => ?_); (on_goal 2 => try clear_value v); dsimp only [v]) | intro v | lift_lets | with_reducible apply keeps_ite | (simp only [keeps_mk_iff]; apply keepsP_of) | with_reducible rfl | split | (clear_value *; split) | dsimp only)

theorem keeps_execRowRepair (tier) (bank) (row) {s : State} (h0 : Keeps s0 s) : KeepsO s0 (@execRowRepair tier bank row s) := by
  unfold execRowRepair
  repeat' (first | with_reducible assumption | with_reducible apply keeps_noteDecode | with_reducible apply keeps_eraseRaw | with_reducible apply keeps_record | with_reducible apply keeps_addFieldEntry | with_reducible apply keepsO_next | (intro v; refine keeps_cut s0 v ?_ (fun hv => ?_); (on_goal 2 => try clear_value v); dsimp only [v]) | intro v | lift_lets | with_reducible apply keeps_foldl | with_reducible apply keeps_foldl_fst | with_reducible apply keeps_foldl_snd | with_reducible apply keeps_ite | (simp only [keeps_mk_iff]; apply keepsP_of) | with_reducible rfl | split | (clear_value *; split) | dsimp only)

theorem keeps_scrub {s : State} (g) (obs) (h0 : Keeps s0 s) : Keeps s0 (@State.scrub s g obs) := by
  unfold State.scrub
  repeat' (first | with_reducible assumption | with_reducible apply keeps_countEdc | with_reducible apply keeps_countCorrected | with_reducible apply keeps_setBytes | with_reducible apply keeps_setPoison | with_reducible apply keeps_eraseRaw | with_reducible apply keeps_mergeWrite | with_reducible apply keeps_createPoison | (intro v; refine keeps_cut s0 v ?_ (fun hv => ?_); (on_goal 2 => try clear_value v); dsimp only [v]) | intro v | lift_lets | with_reducible apply keeps_ite | (simp only [keeps_mk_iff]; apply keepsP_of) | with_reducible rfl | split | (clear_value *; split) | dsimp only)

theorem keeps_newPass {s : State} (c) (h0 : Keeps s0 s) : Keeps s0 (@State.newPass s c) := by
  unfold State.newPass
  repeat' (first | with_reducible assumption | (intro v; refine keeps_cut s0 v ?_ (fun hv => ?_); (on_goal 2 => try clear_value v); dsimp only [v]) | intro v | lift_lets | with_reducible apply keeps_ite | (simp only [keeps_mk_iff]; apply keepsP_of) | with_reducible rfl | split | (clear_value *; split) | dsimp only)

theorem keeps_scrubOn {s : State} (key) (total) (h0 : Keeps s0 s) : Keeps s0 (@State.scrubOn s key total) := by
  unfold State.scrubOn
  repeat' (first | with_reducible assumption | with_reducible apply keeps_newPass | (intro v; refine keeps_cut s0 v ?_ (fun hv => ?_); (on_goal 2 => try clear_value v); dsimp only [v]) | intro v | lift_lets | with_reducible apply keeps_ite | (simp only [keeps_mk_iff]; apply keepsP_of) | with_reducible rfl | split | (clear_value *; split) | dsimp only)

theorem keeps_execScrubRead (unit) (obs) {s : State} (h0 : Keeps s0 s) : KeepsO s0 (@execScrubRead unit obs s) := by
  unfold execScrubRead
  repeat' (first | with_reducible assumption | with_reducible apply keeps_scrub | with_reducible apply keeps_scrubOn | with_reducible apply keepsO_next | (intro v; refine keeps_cut s0 v ?_ (fun hv => ?_); (on_goal 2 => try clear_value v); dsimp only [v]) | intro v | lift_lets | with_reducible apply keeps_ite | (simp only [keeps_mk_iff]; apply keepsP_of) | with_reducible rfl | split | (clear_value *; split) | dsimp only)

theorem keeps_writeScrb {s : State} (who) (val) (h0 : Keeps s0 s) : Keeps s0 (@State.writeScrb s who val) := by
  unfold State.writeScrb
  repeat' (first | with_reducible assumption | with_reducible apply keeps_record | with_reducible apply keeps_setReg | (intro v; refine keeps_cut s0 v ?_ (fun hv => ?_); (on_goal 2 => try clear_value v); dsimp only [v]) | intro v | lift_lets | with_reducible apply keeps_ite | (simp only [keeps_mk_iff]; apply keepsP_of) | with_reducible rfl | split | (clear_value *; split) | dsimp only)

theorem keeps_execRecordFlashCopy (seq) {s : State} (h0 : Keeps s0 s) : KeepsO s0 (@execRecordFlashCopy seq s) := by
  unfold execRecordFlashCopy
  repeat' (first | with_reducible assumption | with_reducible apply keepsO_next | (intro v; refine keeps_cut s0 v ?_ (fun hv => ?_); (on_goal 2 => try clear_value v); dsimp only [v]) | intro v | lift_lets | with_reducible apply keeps_ite | (simp only [keeps_mk_iff]; apply keepsP_of) | with_reducible rfl | split | (clear_value *; split) | dsimp only)

theorem keeps_writeLogSel {s : State} (who) (val) (h0 : Keeps s0 s) : Keeps s0 (@State.writeLogSel s who val) := by
  unfold State.writeLogSel
  repeat' (first | with_reducible assumption | with_reducible apply keeps_setF | with_reducible apply keeps_record | (intro v; refine keeps_cut s0 v ?_ (fun hv => ?_); (on_goal 2 => try clear_value v); dsimp only [v]) | intro v | lift_lets | with_reducible apply keeps_ite | (simp only [keeps_mk_iff]; apply keepsP_of) | with_reducible rfl | split | (clear_value *; split) | dsimp only)

theorem keeps_execLogSelect (who) (val) {s : State} (h0 : Keeps s0 s) : KeepsO s0 (@execLogSelect who val s) := by
  unfold execLogSelect
  repeat' (first | with_reducible assumption | with_reducible apply keeps_writeLogSel | with_reducible apply keepsO_next | (intro v; refine keeps_cut s0 v ?_ (fun hv => ?_); (on_goal 2 => try clear_value v); dsimp only [v]) | intro v | lift_lets | (simp only [keeps_mk_iff]; apply keepsP_of) | with_reducible rfl | split | (clear_value *; split) | dsimp only)

theorem keeps_rawOp {s : State} (g) (write) (h0 : Keeps s0 s) : Keeps s0 (@State.rawOp s g write) := by
  unfold State.rawOp
  repeat' (first | with_reducible assumption | with_reducible apply keeps_storeRaw | with_reducible apply keeps_setReg | (intro v; refine keeps_cut s0 v ?_ (fun hv => ?_); (on_goal 2 => try clear_value v); dsimp only [v]) | intro v | lift_lets | with_reducible apply keeps_foldl | with_reducible apply keeps_foldl_fst | with_reducible apply keeps_foldl_snd | with_reducible apply keeps_ite | (simp only [keeps_mk_iff]; apply keepsP_of) | with_reducible rfl | split | (clear_value *; split) | dsimp only)

theorem keeps_writeRaw {s : State} (who) (val) (h0 : Keeps s0 s) : Keeps s0 (@State.writeRaw s who val) := by
  unfold State.writeRaw
  repeat' (first | with_reducible assumption | with_reducible apply keeps_setF | with_reducible apply keeps_record | with_reducible apply keeps_setReg | with_reducible apply keeps_rawOp | (intro v; refine keeps_cut s0 v ?_ (fun hv => ?_); (on_goal 2 => try clear_value v); dsimp only [v]) | intro v | lift_lets | with_reducible apply keeps_ite | (simp only [keeps_mk_iff]; apply keepsP_of) | with_reducible rfl | split | (clear_value *; split) | dsimp only)

theorem keeps_execRawRead (who) (val) {s : State} (h0 : Keeps s0 s) : KeepsO s0 (@execRawRead who val s) := by
  unfold execRawRead
  repeat' (first | with_reducible assumption | with_reducible apply keeps_writeRaw | with_reducible apply keepsO_next | (intro v; refine keeps_cut s0 v ?_ (fun hv => ?_); (on_goal 2 => try clear_value v); dsimp only [v]) | intro v | lift_lets | with_reducible apply keeps_ite | (simp only [keeps_mk_iff]; apply keepsP_of) | with_reducible rfl | split | (clear_value *; split) | dsimp only)

theorem keeps_execRawWrite (who) (val) {s : State} (h0 : Keeps s0 s) : KeepsO s0 (@execRawWrite who val s) := by
  unfold execRawWrite
  repeat' (first | with_reducible assumption | with_reducible apply keeps_writeRaw | with_reducible apply keepsO_next | (intro v; refine keeps_cut s0 v ?_ (fun hv => ?_); (on_goal 2 => try clear_value v); dsimp only [v]) | intro v | lift_lets | with_reducible apply keeps_ite | (simp only [keeps_mk_iff]; apply keepsP_of) | with_reducible rfl | split | (clear_value *; split) | dsimp only)

/-! ### Machine/Recovery.lean -/

theorem keeps_answer {s : State} (dest) (status) (ws) (h0 : Keeps s0 s) : Keeps s0 (@State.answer s dest status ws) := by
  unfold State.answer
  repeat' (first | with_reducible assumption | with_reducible apply keeps_mbxReply | with_reducible apply keeps_emit | (intro v; refine keeps_cut s0 v ?_ (fun hv => ?_); (on_goal 2 => try clear_value v); dsimp only [v]) | intro v | lift_lets | with_reducible apply keeps_ite | (simp only [keeps_mk_iff]; apply keepsP_of) | with_reducible rfl | split | (clear_value *; split) | dsimp only)

theorem keeps_setSites {s : State} (sl) (good) (h0 : Keeps s0 s) : Keeps s0 (@State.setSites s sl good) := by
  unfold State.setSites
  repeat' (first | with_reducible assumption | with_reducible apply keeps_setReg | (intro v; refine keeps_cut s0 v ?_ (fun hv => ?_); (on_goal 2 => try clear_value v); dsimp only [v]) | intro v | lift_lets | with_reducible apply keeps_ite | (simp only [keeps_mk_iff]; apply keepsP_of) | with_reducible rfl | split | (clear_value *; split) | dsimp only)

theorem keeps_addRows {s : State} (fs) (h0 : Keeps s0 s) : Keeps s0 (@State.addRows s fs) := by
  unfold State.addRows
  repeat' (first | with_reducible assumption | (intro v; refine keeps_cut s0 v ?_ (fun hv => ?_); (on_goal 2 => try clear_value v); dsimp only [v]) | intro v | lift_lets | (simp only [keeps_mk_iff]; apply keepsP_of) | with_reducible rfl | split | (clear_value *; split) | dsimp only)

theorem keeps_applyRows {s : State} (sl) (h0 : Keeps s0 s) : Keeps s0 (@State.applyRows s sl) := by
  unfold State.applyRows
  repeat' (first | with_reducible assumption | (intro v; refine keeps_cut s0 v ?_ (fun hv => ?_); (on_goal 2 => try clear_value v); dsimp only [v]) | intro v | lift_lets | (simp only [keeps_mk_iff]; apply keepsP_of) | with_reducible rfl | split | (clear_value *; split) | dsimp only)

theorem keeps_findingRecord {s : State} (f) (h0 : Keeps s0 s) : Keeps s0 (@State.findingRecord s f) := by
  unfold State.findingRecord
  repeat' (first | with_reducible assumption | with_reducible apply keeps_record | (intro v; refine keeps_cut s0 v ?_ (fun hv => ?_); (on_goal 2 => try clear_value v); dsimp only [v]) | intro v | lift_lets | (simp only [keeps_mk_iff]; apply keepsP_of) | with_reducible rfl | split | (clear_value *; split) | dsimp only)

theorem keeps_march {s : State} (sl) (findings) (h0 : Keeps s0 s) : Keeps s0 (@State.march s sl findings) := by
  unfold State.march
  repeat' (first | with_reducible assumption | with_reducible apply keeps_zeroRange | with_reducible apply keeps_findingRecord | with_reducible apply keeps_addRows | (intro v; refine keeps_cut s0 v ?_ (fun hv => ?_); (on_goal 2 => try clear_value v); dsimp only [v]) | intro v | lift_lets | with_reducible apply keeps_foldl | with_reducible apply keeps_foldl_fst | with_reducible apply keeps_foldl_snd | with_reducible apply keeps_ite | (simp only [keeps_mk_iff]; apply keepsP_of) | with_reducible rfl | split | (clear_value *; split) | dsimp only)

theorem keeps_startSlate {s : State} (sl) (failing) (wave) (h0 : Keeps s0 s) : Keeps s0 (@State.startSlate s sl failing wave) := by
  unfold State.startSlate
  repeat' (first | with_reducible assumption | with_reducible apply keeps_setF | with_reducible apply keeps_march | with_reducible apply keeps_applyRows | (intro v; refine keeps_cut s0 v ?_ (fun hv => ?_); (on_goal 2 => try clear_value v); dsimp only [v]) | intro v | lift_lets | (simp only [keeps_mk_iff]; apply keepsP_of) | with_reducible rfl | split | (clear_value *; split) | dsimp only)

theorem keeps_finishSlate {s : State} (sl) (x) (h0 : Keeps s0 s) : Keeps s0 (@State.finishSlate s sl x) := by
  unfold State.finishSlate
  repeat' (first | with_reducible assumption | with_reducible apply keeps_addFieldEntry | with_reducible apply keeps_setSites | with_reducible apply keeps_zeroRange | with_reducible apply keeps_setF | (intro v; refine keeps_cut s0 v ?_ (fun hv => ?_); (on_goal 2 => try clear_value v); dsimp only [v]) | intro v | lift_lets | with_reducible apply keeps_foldl | with_reducible apply keeps_foldl_fst | with_reducible apply keeps_foldl_snd | with_reducible apply keeps_ite | (simp only [keeps_mk_iff]; apply keepsP_of) | with_reducible rfl | split | (clear_value *; split) | dsimp only)

theorem keeps_execSlateWave (found) {s : State} (h0 : Keeps s0 s) : KeepsO s0 (@execSlateWave found s) := by
  unfold execSlateWave
  repeat' (first | with_reducible assumption | with_reducible apply keeps_startSlate | with_reducible apply keepsO_next | (intro v; refine keeps_cut s0 v ?_ (fun hv => ?_); (on_goal 2 => try clear_value v); dsimp only [v]) | intro v | lift_lets | with_reducible apply keeps_foldl | with_reducible apply keeps_foldl_fst | with_reducible apply keeps_foldl_snd | with_reducible apply keeps_ite | (simp only [keeps_mk_iff]; apply keepsP_of) | with_reducible rfl | split | (clear_value *; split) | dsimp only)

theorem keeps_execCoreBootReport (slate) (site) (pass) {s : State} (h0 : Keeps s0 s) : KeepsO s0 (@execCoreBootReport slate site pass s) := by
  unfold execCoreBootReport
  repeat' (first | with_reducible assumption | with_reducible apply keeps_finishSlate | with_reducible apply keeps_setF | with_reducible apply keepsO_next | (intro v; refine keeps_cut s0 v ?_ (fun hv => ?_); (on_goal 2 => try clear_value v); dsimp only [v]) | intro v | lift_lets | with_reducible apply keeps_ite | (simp only [keeps_mk_iff]; apply keepsP_of) | with_reducible rfl | split | (clear_value *; split) | dsimp only)

theorem keeps_serviceSlates {s : State} (h0 : Keeps s0 s) : Keeps s0 (@State.serviceSlates s) := by
  unfold State.serviceSlates
  repeat' (first | with_reducible assumption | with_reducible apply keeps_setF | (intro v; refine keeps_cut s0 v ?_ (fun hv => ?_); (on_goal 2 => try clear_value v); dsimp only [v]) | intro v | lift_lets | with_reducible apply keeps_foldl | with_reducible apply keeps_foldl_fst | with_reducible apply keeps_foldl_snd | (simp only [keeps_mk_iff]; apply keepsP_of) | with_reducible rfl | split | (clear_value *; split) | dsimp only)

theorem keeps_quiescePart {s : State} (p) (h0 : Keeps s0 s) : Keeps s0 (@State.quiescePart s p) := by
  unfold State.quiescePart
  repeat' (first | with_reducible assumption | with_reducible apply keeps_stopCores | with_reducible apply keeps_flushPart | with_reducible apply keeps_advanceGen | with_reducible apply keeps_dropCaches | with_reducible apply keeps_batZero | (intro v; refine keeps_cut s0 v ?_ (fun hv => ?_); (on_goal 2 => try clear_value v); dsimp only [v]) | intro v | lift_lets | with_reducible apply keeps_foldl | with_reducible apply keeps_foldl_fst | with_reducible apply keeps_foldl_snd | (simp only [keeps_mk_iff]; apply keepsP_of) | with_reducible rfl | split | (clear_value *; split) | dsimp only)

theorem keeps_riderAbort {s : State} (job) (status) (h0 : Keeps s0 s) : Keeps s0 (@State.riderAbort s job status) := by
  unfold State.riderAbort
  repeat' (first | with_reducible assumption | with_reducible apply keeps_record | with_reducible apply keeps_raiseAbort | (intro v; refine keeps_cut s0 v ?_ (fun hv => ?_); (on_goal 2 => try clear_value v); dsimp only [v]) | intro v | lift_lets | (simp only [keeps_mk_iff]; apply keepsP_of) | with_reducible rfl | split | (clear_value *; split) | dsimp only)

theorem keeps_partOffline {s : State} (p) (h0 : Keeps s0 s) : Keeps s0 (@State.partOffline s p) := by
  unfold State.partOffline
  repeat' (first | with_reducible assumption | with_reducible apply keeps_endClear | with_reducible apply keeps_setF | with_reducible apply keeps_record | (intro v; refine keeps_cut s0 v ?_ (fun hv => ?_); (on_goal 2 => try clear_value v); dsimp only [v]) | intro v | lift_lets | with_reducible apply keeps_foldl | with_reducible apply keeps_foldl_fst | with_reducible apply keeps_foldl_snd | with_reducible apply keeps_ite | (simp only [keeps_mk_iff]; apply keepsP_of) | with_reducible rfl | split | (clear_value *; split) | dsimp only)

theorem keeps_moduleOffline {s : State} (h0 : Keeps s0 s) : Keeps s0 (@State.moduleOffline s) := by
  unfold State.moduleOffline
  repeat' (first | with_reducible assumption | with_reducible apply keeps_raiseAbort | with_reducible apply keeps_endClear | with_reducible apply keeps_answer | with_reducible apply keeps_setF | with_reducible apply keeps_record | (intro v; refine keeps_cut s0 v ?_ (fun hv => ?_); (on_goal 2 => try clear_value v); dsimp only [v]) | intro v | lift_lets | with_reducible apply keeps_foldl | with_reducible apply keeps_foldl_fst | with_reducible apply keeps_foldl_snd | (simp only [keeps_mk_iff]; apply keepsP_of) | with_reducible rfl | split | (clear_value *; split) | dsimp only)

theorem keeps_failCistern {s : State} (c) (h0 : Keeps s0 s) : Keeps s0 (@State.failCistern s c) := by
  unfold State.failCistern
  repeat' (first | with_reducible assumption | with_reducible apply keeps_record | with_reducible apply keeps_addFieldEntry | with_reducible apply keeps_moduleOffline | (intro v; refine keeps_cut s0 v ?_ (fun hv => ?_); (on_goal 2 => try clear_value v); dsimp only [v]) | intro v | lift_lets | (simp only [keeps_mk_iff]; apply keepsP_of) | with_reducible rfl | split | (clear_value *; split) | dsimp only)

theorem keeps_execCisternFail (cis) {s : State} (h0 : Keeps s0 s) : KeepsO s0 (@execCisternFail cis s) := by
  unfold execCisternFail
  repeat' (first | with_reducible assumption | with_reducible apply keeps_failCistern | with_reducible apply keepsO_next | (intro v; refine keeps_cut s0 v ?_ (fun hv => ?_); (on_goal 2 => try clear_value v); dsimp only [v]) | intro v | lift_lets | with_reducible apply keeps_ite | (simp only [keeps_mk_iff]; apply keepsP_of) | with_reducible rfl | split | (clear_value *; split) | dsimp only)

theorem keeps_quiesceAll {s : State} (h0 : Keeps s0 s) : Keeps s0 (@State.quiesceAll s) := by
  unfold State.quiesceAll
  repeat' (first | with_reducible assumption | with_reducible apply keeps_stopCore | with_reducible apply keeps_flushPart | with_reducible apply keeps_batZero | with_reducible apply keeps_slotFault | (intro v; refine keeps_cut s0 v ?_ (fun hv => ?_); (on_goal 2 => try clear_value v); dsimp only [v]) | intro v | lift_lets | with_reducible apply keeps_foldl | with_reducible apply keeps_foldl_fst | with_reducible apply keeps_foldl_snd | (simp only [keeps_mk_iff]; apply keepsP_of) | with_reducible rfl | split | (clear_value *; split) | dsimp only)

theorem keeps_startCompute {s : State} (cause) (counts) (h0 : Keeps s0 s) : Keeps s0 (@State.startCompute s cause counts) := by
  unfold State.startCompute
  repeat' (first | with_reducible assumption | with_reducible apply keeps_riderAbort | with_reducible apply keeps_quiesceAll | with_reducible apply keeps_setF | with_reducible apply keeps_moduleOffline | (intro v; refine keeps_cut s0 v ?_ (fun hv => ?_); (on_goal 2 => try clear_value v); dsimp only [v]) | intro v | lift_lets | with_reducible apply keeps_foldl | with_reducible apply keeps_foldl_fst | with_reducible apply keeps_foldl_snd | with_reducible apply keeps_ite | (simp only [keeps_mk_iff]; apply keepsP_of) | with_reducible rfl | split | (clear_value *; split) | dsimp only)

theorem keeps_cmdComputeReset (x0) (x1) {s : State} (h0 : Keeps s0 s) : Keeps s0 (@cmdComputeReset  x0 x1 s).2 := by
  unfold cmdComputeReset
  repeat' (first | with_reducible assumption | with_reducible apply keeps_startCompute | (intro v; refine keeps_cut s0 v ?_ (fun hv => ?_); (on_goal 2 => try clear_value v); dsimp only [v]) | intro v | lift_lets | with_reducible apply keeps_ite | (simp only [keeps_mk_iff]; apply keepsP_of) | with_reducible rfl | split | (clear_value *; split) | dsimp only)

theorem keeps_execComputeReset (chan) {s : State} (h0 : Keeps s0 s) : KeepsO s0 (@execComputeReset chan s) := by
  unfold execComputeReset
  repeat' (first | with_reducible assumption | with_reducible apply keeps_mbxCmd | with_reducible apply keepsO_next | (intro v; refine keeps_cut s0 v ?_ (fun hv => ?_); (on_goal 2 => try clear_value v); dsimp only [v]) | intro v | lift_lets | (simp only [keeps_mk_iff]; apply keepsP_of) | with_reducible rfl | (refine keeps_of_snd (by with_reducible assumption) ?_) | (refine keeps_of_fst (by with_reducible assumption) ?_) | split | (clear_value *; split) | with_reducible apply keeps_cmdComputeReset | dsimp only)

theorem keeps_joinReset {s : State} (p) (x) (h0 : Keeps s0 s) : Keeps s0 (@State.joinReset s p x) := by
  unfold State.joinReset
  repeat' (first | with_reducible assumption | with_reducible apply keeps_setF | with_reducible apply keeps_answer | (intro v; refine keeps_cut s0 v ?_ (fun hv => ?_); (on_goal 2 => try clear_value v); dsimp only [v]) | intro v | lift_lets | (simp only [keeps_mk_iff]; apply keepsP_of) | with_reducible rfl | split | (clear_value *; split) | dsimp only)

theorem keeps_execComputeResetComplete {s : State} (h0 : Keeps s0 s) : KeepsO s0 (@execComputeResetComplete s) := by
  unfold execComputeResetComplete
  repeat' (first | with_reducible assumption | with_reducible apply keeps_advanceGen | with_reducible apply keeps_setF | with_reducible apply keeps_serviceSlates | with_reducible apply keeps_joinReset | with_reducible apply keepsO_next | (intro v; refine keeps_cut s0 v ?_ (fun hv => ?_); (on_goal 2 => try clear_value v); dsimp only [v]) | intro v | lift_lets | with_reducible apply keeps_foldl | with_reducible apply keeps_foldl_fst | with_reducible apply keeps_foldl_snd | with_reducible apply keeps_ite | (simp only [keeps_mk_iff]; apply keepsP_of) | with_reducible rfl | split | (clear_value *; split) | dsimp only)

theorem keeps_execComputeResetTimeout {s : State} (h0 : Keeps s0 s) : KeepsO s0 (@execComputeResetTimeout s) := by
  unfold execComputeResetTimeout
  repeat' (first | with_reducible assumption | with_reducible apply keeps_moduleOffline | with_reducible apply keepsO_next | (intro v; refine keeps_cut s0 v ?_ (fun hv => ?_); (on_goal 2 => try clear_value v); dsimp only [v]) | intro v | lift_lets | with_reducible apply keeps_ite | (simp only [keeps_mk_iff]; apply keepsP_of) | with_reducible rfl | split | (clear_value *; split) | dsimp only)

theorem keeps_notePartReset {s : State} (p) (counts) (h0 : Keeps s0 s) : Keeps s0 (@State.notePartReset s p counts) := by
  unfold State.notePartReset
  repeat' (first | with_reducible assumption | (intro v; refine keeps_cut s0 v ?_ (fun hv => ?_); (on_goal 2 => try clear_value v); dsimp only [v]) | intro v | lift_lets | with_reducible apply keeps_ite | (simp only [keeps_mk_iff]; apply keepsP_of) | with_reducible rfl | split | (clear_value *; split) | dsimp only)

theorem keeps_beginPartReset {s : State} (p) (requester) (counts) (h0 : Keeps s0 s) : Keeps s0 (@State.beginPartReset s p requester counts) := by
  unfold State.beginPartReset
  repeat' (first | with_reducible assumption | (intro v; refine keeps_cut s0 v ?_ (fun hv => ?_); (on_goal 2 => try clear_value v); dsimp only [v]) | intro v | lift_lets | (simp only [keeps_mk_iff]; apply keepsP_of) | with_reducible rfl | split | (clear_value *; split) | dsimp only)

theorem keeps_startPartReset {s : State} (p) (cause) (requester) (counts) (h0 : Keeps s0 s) : Keeps s0 (@State.startPartReset s p cause requester counts) := by
  unfold State.startPartReset
  repeat' (first | with_reducible assumption | with_reducible apply keeps_setF | with_reducible apply keeps_riderAbort | with_reducible apply keeps_quiescePart | with_reducible apply keeps_notePartReset | with_reducible apply keeps_partOffline | with_reducible apply keeps_answer | with_reducible apply keeps_startSlate | with_reducible apply keeps_beginPartReset | (intro v; refine keeps_cut s0 v ?_ (fun hv => ?_); (on_goal 2 => try clear_value v); dsimp only [v]) | intro v | lift_lets | with_reducible apply keeps_foldl | with_reducible apply keeps_foldl_fst | with_reducible apply keeps_foldl_snd | with_reducible apply keeps_ite | (simp only [keeps_mk_iff]; apply keepsP_of) | with_reducible rfl | split | (clear_value *; split) | dsimp only)

theorem keeps_execPartReset (chan) {s : State} (h0 : Keeps s0 s) : KeepsO s0 (@execPartReset chan s) := by
  unfold execPartReset
  repeat' (first | with_reducible assumption | with_reducible apply keeps_mbxRow | with_reducible apply keeps_mbxReply | with_reducible apply keeps_mbxTake | with_reducible apply keeps_startPartReset | with_reducible apply keepsO_next | (intro v; refine keeps_cut s0 v ?_ (fun hv => ?_); (on_goal 2 => try clear_value v); dsimp only [v]) | intro v | lift_lets | (simp only [keeps_mk_iff]; apply keepsP_of) | with_reducible rfl | split | (clear_value *; split) | dsimp only)

theorem keeps_execPartResetComplete (part) {s : State} (h0 : Keeps s0 s) : KeepsO s0 (@execPartResetComplete part s) := by
  unfold execPartResetComplete
  repeat' (first | with_reducible assumption | with_reducible apply keeps_setF | with_reducible apply keeps_answer | with_reducible apply keeps_partOffline | with_reducible apply keepsO_next | (intro v; refine keeps_cut s0 v ?_ (fun hv => ?_); (on_goal 2 => try clear_value v); dsimp only [v]) | intro v | lift_lets | with_reducible apply keeps_foldl | with_reducible apply keeps_foldl_fst | with_reducible apply keeps_foldl_snd | with_reducible apply keeps_ite | (simp only [keeps_mk_iff]; apply keepsP_of) | with_reducible rfl | split | (clear_value *; split) | dsimp only)

theorem keeps_execPartResetTimeout (part) {s : State} (h0 : Keeps s0 s) : KeepsO s0 (@execPartResetTimeout part s) := by
  unfold execPartResetTimeout
  repeat' (first | with_reducible assumption | with_reducible apply keeps_startCompute | with_reducible apply keepsO_next | (intro v; refine keeps_cut s0 v ?_ (fun hv => ?_); (on_goal 2 => try clear_value v); dsimp only [v]) | intro v | lift_lets | with_reducible apply keeps_ite | (simp only [keeps_mk_iff]; apply keepsP_of) | with_reducible rfl | split | (clear_value *; split) | dsimp only)

theorem keeps_execAbortQuiesceTimeout (part) {s : State} (h0 : Keeps s0 s) : KeepsO s0 (@execAbortQuiesceTimeout part s) := by
  unfold execAbortQuiesceTimeout
  repeat' (first | with_reducible assumption | with_reducible apply keeps_startPartReset | with_reducible apply keepsO_next | (intro v; refine keeps_cut s0 v ?_ (fun hv => ?_); (on_goal 2 => try clear_value v); dsimp only [v]) | intro v | lift_lets | with_reducible apply keeps_ite | (simp only [keeps_mk_iff]; apply keepsP_of) | with_reducible rfl | split | (clear_value *; split) | dsimp only)

theorem keeps_cmdAbort (x0) (x1) {s : State} (h0 : Keeps s0 s) : Keeps s0 (@cmdAbort  x0 x1 s).2 := by
  unfold cmdAbort
  repeat' (first | with_reducible assumption | with_reducible apply keeps_riderAbort | (intro v; refine keeps_cut s0 v ?_ (fun hv => ?_); (on_goal 2 => try clear_value v); dsimp only [v]) | intro v | lift_lets | with_reducible apply keeps_ite | (simp only [keeps_mk_iff]; apply keepsP_of) | with_reducible rfl | split | (clear_value *; split) | dsimp only)

theorem keeps_execAbort (chan) {s : State} (h0 : Keeps s0 s) : KeepsO s0 (@execAbort chan s) := by
  unfold execAbort
  repeat' (first | with_reducible assumption | with_reducible apply keeps_mbxCmd | with_reducible apply keepsO_next | (intro v; refine keeps_cut s0 v ?_ (fun hv => ?_); (on_goal 2 => try clear_value v); dsimp only [v]) | intro v | lift_lets | (simp only [keeps_mk_iff]; apply keepsP_of) | with_reducible rfl | (refine keeps_of_snd (by with_reducible assumption) ?_) | (refine keeps_of_fst (by with_reducible assumption) ?_) | split | (clear_value *; split) | with_reducible apply keeps_cmdAbort | dsimp only)

theorem keeps_takeAbort {s : State} (l) (p) (h0 : Keeps s0 s) : Keeps s0 (@State.takeAbort s l p) := by
  unfold State.takeAbort
  repeat' (first | with_reducible assumption | with_reducible apply keeps_enterWindow | with_reducible apply keeps_abortLocal | with_reducible apply keeps_sendAborts | (intro v; refine keeps_cut s0 v ?_ (fun hv => ?_); (on_goal 2 => try clear_value v); dsimp only [v]) | intro v | lift_lets | with_reducible apply keeps_ite | (simp only [keeps_mk_iff]; apply keepsP_of) | with_reducible rfl | split | (clear_value *; split) | dsimp only)

theorem keeps_execAbortPacket (die) (link) (pkt) {s : State} (h0 : Keeps s0 s) : KeepsO s0 (@execAbortPacket die link pkt s) := by
  unfold execAbortPacket
  repeat' (first | with_reducible assumption | with_reducible apply keeps_packetRow | with_reducible apply keeps_takeAbort | with_reducible apply keeps_consume | with_reducible apply keepsO_next | (intro v; refine keeps_cut s0 v ?_ (fun hv => ?_); (on_goal 2 => try clear_value v); dsimp only [v]) | intro v | lift_lets | (simp only [keeps_mk_iff]; apply keepsP_of) | with_reducible rfl | split | (clear_value *; split) | dsimp only)

theorem keeps_execAbortFenceEnd (job) {s : State} (h0 : Keeps s0 s) : KeepsO s0 (@execAbortFenceEnd job s) := by
  unfold execAbortFenceEnd
  repeat' (first | with_reducible assumption | with_reducible apply keeps_showAbort | with_reducible apply keeps_retryWaiting | with_reducible apply keepsO_next | (intro v; refine keeps_cut s0 v ?_ (fun hv => ?_); (on_goal 2 => try clear_value v); dsimp only [v]) | intro v | lift_lets | with_reducible apply keeps_ite | (simp only [keeps_mk_iff]; apply keepsP_of) | with_reducible rfl | split | (clear_value *; split) | dsimp only)

theorem keeps_execAbortWindowEnd (job) {s : State} (h0 : Keeps s0 s) : KeepsO s0 (@execAbortWindowEnd job s) := by
  unfold execAbortWindowEnd
  repeat' (first | with_reducible assumption | with_reducible apply keeps_setF | with_reducible apply keeps_retryWaiting | with_reducible apply keepsO_next | (intro v; refine keeps_cut s0 v ?_ (fun hv => ?_); (on_goal 2 => try clear_value v); dsimp only [v]) | intro v | lift_lets | with_reducible apply keeps_ite | (simp only [keeps_mk_iff]; apply keepsP_of) | with_reducible rfl | split | (clear_value *; split) | dsimp only)

theorem keeps_cmdResetStatus (x0) (x1) {s : State} (h0 : Keeps s0 s) : Keeps s0 (@cmdResetStatus  x0 x1 s).2 := by
  unfold cmdResetStatus
  repeat' (first | with_reducible assumption | (intro v; refine keeps_cut s0 v ?_ (fun hv => ?_); (on_goal 2 => try clear_value v); dsimp only [v]) | intro v | lift_lets | with_reducible apply keeps_ite | (simp only [keeps_mk_iff]; apply keepsP_of) | with_reducible rfl | split | (clear_value *; split) | dsimp only)

theorem keeps_execResetStatus (chan) {s : State} (h0 : Keeps s0 s) : KeepsO s0 (@execResetStatus chan s) := by
  unfold execResetStatus
  repeat' (first | with_reducible assumption | with_reducible apply keeps_mbxCmd | with_reducible apply keepsO_next | (intro v; refine keeps_cut s0 v ?_ (fun hv => ?_); (on_goal 2 => try clear_value v); dsimp only [v]) | intro v | lift_lets | (simp only [keeps_mk_iff]; apply keepsP_of) | with_reducible rfl | (refine keeps_of_snd (by with_reducible assumption) ?_) | (refine keeps_of_fst (by with_reducible assumption) ?_) | split | (clear_value *; split) | with_reducible apply keeps_cmdResetStatus | dsimp only)

theorem keeps_restoreModule {s : State} (h0 : Keeps s0 s) : Keeps s0 (@State.restoreModule s) := by
  unfold State.restoreModule
  repeat' (first | with_reducible assumption | with_reducible apply keeps_setF | (intro v; refine keeps_cut s0 v ?_ (fun hv => ?_); (on_goal 2 => try clear_value v); dsimp only [v]) | intro v | lift_lets | (simp only [keeps_mk_iff]; apply keepsP_of) | with_reducible rfl | split | (clear_value *; split) | dsimp only)

theorem keeps_cmdRestore (mgmt) (x0) (x1) {s : State} (h0 : Keeps s0 s) : Keeps s0 (@cmdRestore mgmt x0 x1 s).2 := by
  unfold cmdRestore
  repeat' (first | with_reducible assumption | with_reducible apply keeps_restoreModule | with_reducible apply keeps_startPartReset | (intro v; refine keeps_cut s0 v ?_ (fun hv => ?_); (on_goal 2 => try clear_value v); dsimp only [v]) | intro v | lift_lets | with_reducible apply keeps_ite | (simp only [keeps_mk_iff]; apply keepsP_of) | with_reducible rfl | split | (clear_value *; split) | dsimp only)

theorem keeps_execRestore (chan) {s : State} (h0 : Keeps s0 s) : KeepsO s0 (@execRestore chan s) := by
  unfold execRestore
  repeat' (first | with_reducible assumption | with_reducible apply keeps_mbxCmd | with_reducible apply keepsO_next | (intro v; refine keeps_cut s0 v ?_ (fun hv => ?_); (on_goal 2 => try clear_value v); dsimp only [v]) | intro v | lift_lets | (simp only [keeps_mk_iff]; apply keepsP_of) | with_reducible rfl | (refine keeps_of_snd (by with_reducible assumption) ?_) | (refine keeps_of_fst (by with_reducible assumption) ?_) | split | (clear_value *; split) | with_reducible apply keeps_cmdRestore | dsimp only)

theorem keeps_cmdFmapRead (x0) (x1) {s : State} (h0 : Keeps s0 s) : Keeps s0 (@cmdFmapRead  x0 x1 s).2 := by
  unfold cmdFmapRead
  repeat' (first | with_reducible assumption | with_reducible apply keeps_land | (intro v; refine keeps_cut s0 v ?_ (fun hv => ?_); (on_goal 2 => try clear_value v); dsimp only [v]) | intro v | lift_lets | with_reducible apply keeps_ite | (simp only [keeps_mk_iff]; apply keepsP_of) | with_reducible rfl | split | (clear_value *; split) | dsimp only)

theorem keeps_execFmapRead (chan) {s : State} (h0 : Keeps s0 s) : KeepsO s0 (@execFmapRead chan s) := by
  unfold execFmapRead
  repeat' (first | with_reducible assumption | with_reducible apply keeps_mbxCmd | with_reducible apply keepsO_next | (intro v; refine keeps_cut s0 v ?_ (fun hv => ?_); (on_goal 2 => try clear_value v); dsimp only [v]) | intro v | lift_lets | (simp only [keeps_mk_iff]; apply keepsP_of) | with_reducible rfl | (refine keeps_of_snd (by with_reducible assumption) ?_) | (refine keeps_of_fst (by with_reducible assumption) ?_) | split | (clear_value *; split) | with_reducible apply keeps_cmdFmapRead | dsimp only)

/-! ### Machine/Rider.lean -/

theorem keeps_riderRecord {s : State} (status) (h0 : Keeps s0 s) : Keeps s0 (@State.riderRecord s status) := by
  unfold State.riderRecord
  repeat' (first | with_reducible assumption | with_reducible apply keeps_record | (intro v; refine keeps_cut s0 v ?_ (fun hv => ?_); (on_goal 2 => try clear_value v); dsimp only [v]) | intro v | lift_lets | (simp only [keeps_mk_iff]; apply keepsP_of) | with_reducible rfl | split | (clear_value *; split) | dsimp only)

theorem keeps_execRiderLoadWindow (load) {s : State} (h0 : Keeps s0 s) : KeepsO s0 (@execRiderLoadWindow load s) := by
  unfold execRiderLoadWindow
  repeat' (first | with_reducible assumption | with_reducible apply keeps_setF | with_reducible apply keepsO_next | (intro v; refine keeps_cut s0 v ?_ (fun hv => ?_); (on_goal 2 => try clear_value v); dsimp only [v]) | intro v | lift_lets | with_reducible apply keeps_ite | (simp only [keeps_mk_iff]; apply keepsP_of) | with_reducible rfl | split | (clear_value *; split) | dsimp only)

theorem keeps_setFlashSlot {s : State} (i) (x) (h0 : Keeps s0 s) : Keeps s0 (@State.setFlashSlot s i x) := by
  unfold State.setFlashSlot
  repeat' (first | with_reducible assumption | (intro v; refine keeps_cut s0 v ?_ (fun hv => ?_); (on_goal 2 => try clear_value v); dsimp only [v]) | intro v | lift_lets | (simp only [keeps_mk_iff]; apply keepsP_of) | with_reducible rfl | split | (clear_value *; split) | dsimp only)

theorem keeps_setSlotState {s : State} (i) (v_) (h0 : Keeps s0 s) : Keeps s0 (@State.setSlotState s i v_) := by
  unfold State.setSlotState
  repeat' (first | with_reducible assumption | with_reducible apply keeps_setF | (intro v; refine keeps_cut s0 v ?_ (fun hv => ?_); (on_goal 2 => try clear_value v); dsimp only [v]) | intro v | lift_lets | with_reducible apply keeps_ite | (simp only [keeps_mk_iff]; apply keepsP_of) | with_reducible rfl | split | (clear_value *; split) | dsimp only)

theorem keeps_journalAdd {s : State} (sector) (start) (h0 : Keeps s0 s) : Keeps s0 (@State.journalAdd s sector start) := by
  unfold State.journalAdd
  repeat' (first | with_reducible assumption | (intro v; refine keeps_cut s0 v ?_ (fun hv => ?_); (on_goal 2 => try clear_value v); dsimp only [v]) | intro v | lift_lets | with_reducible apply keeps_ite | (simp only [keeps_mk_iff]; apply keepsP_of) | with_reducible rfl | split | (clear_value *; split) | dsimp only)

theorem keeps_beginErase {s : State} (slot) (sector) (h0 : Keeps s0 s) : Keeps s0 (@State.beginErase s slot sector) := by
  unfold State.beginErase
  repeat' (first | with_reducible assumption | with_reducible apply keeps_journalAdd | with_reducible apply keeps_setFlashSlot | (intro v; refine keeps_cut s0 v ?_ (fun hv => ?_); (on_goal 2 => try clear_value v); dsimp only [v]) | intro v | lift_lets | with_reducible apply keeps_ite | (simp only [keeps_mk_iff]; apply keepsP_of) | with_reducible rfl | split | (clear_value *; split) | dsimp only)

theorem keeps_fillErases {s : State} (h0 : Keeps s0 s) : Keeps s0 (@State.fillErases s) := by
  unfold State.fillErases
  repeat' (first | with_reducible assumption | with_reducible apply keeps_beginErase | (intro v; refine keeps_cut s0 v ?_ (fun hv => ?_); (on_goal 2 => try clear_value v); dsimp only [v]) | intro v | lift_lets | with_reducible apply keeps_foldl | with_reducible apply keeps_foldl_fst | with_reducible apply keeps_foldl_snd | (simp only [keeps_mk_iff]; apply keepsP_of) | with_reducible rfl | split | (clear_value *; split) | dsimp only)

theorem keeps_execFlashEraseDone (sector) {s : State} (h0 : Keeps s0 s) : KeepsO s0 (@execFlashEraseDone sector s) := by
  unfold execFlashEraseDone
  repeat' (first | with_reducible assumption | with_reducible apply keeps_journalAdd | with_reducible apply keeps_fillErases | with_reducible apply keeps_setSlotState | with_reducible apply keepsO_next | (intro v; refine keeps_cut s0 v ?_ (fun hv => ?_); (on_goal 2 => try clear_value v); dsimp only [v]) | intro v | lift_lets | with_reducible apply keeps_ite | (simp only [keeps_mk_iff]; apply keepsP_of) | with_reducible rfl | split | (clear_value *; split) | dsimp only)

theorem keeps_showBuilds {s : State} (h0 : Keeps s0 s) : Keeps s0 (@State.showBuilds s) := by
  unfold State.showBuilds
  repeat' (first | with_reducible assumption | with_reducible apply keeps_setF | (intro v; refine keeps_cut s0 v ?_ (fun hv => ?_); (on_goal 2 => try clear_value v); dsimp only [v]) | intro v | lift_lets | with_reducible apply keeps_ite | (simp only [keeps_mk_iff]; apply keepsP_of) | with_reducible rfl | split | (clear_value *; split) | dsimp only)

theorem keeps_updLast {s : State} (st) (h0 : Keeps s0 s) : Keeps s0 (@State.updLast s st) := by
  unfold State.updLast
  repeat' (first | with_reducible assumption | with_reducible apply keeps_setF | (intro v; refine keeps_cut s0 v ?_ (fun hv => ?_); (on_goal 2 => try clear_value v); dsimp only [v]) | intro v | lift_lets | (simp only [keeps_mk_iff]; apply keepsP_of) | with_reducible rfl | split | (clear_value *; split) | dsimp only)

theorem keeps_beginUpdate {s : State} (head) (chain) (h0 : Keeps s0 s) : Keeps s0 (@State.beginUpdate s head chain).2 := by
  unfold State.beginUpdate
  repeat' (first | with_reducible assumption | with_reducible apply keeps_setSlotState | with_reducible apply keeps_setF | with_reducible apply keeps_showBuilds | with_reducible apply keeps_fillErases | (intro v; refine keeps_cut s0 v ?_ (fun hv => ?_); (on_goal 2 => try clear_value v); dsimp only [v]) | intro v | lift_lets | with_reducible apply keeps_ite | (simp only [keeps_mk_iff]; apply keepsP_of) | with_reducible rfl | split | (clear_value *; split) | dsimp only)

theorem keeps_cmdUpdBegin (x0) (x1) {s : State} (h0 : Keeps s0 s) : Keeps s0 (@cmdUpdBegin  x0 x1 s).2 := by
  unfold cmdUpdBegin
  repeat' (first | with_reducible assumption | with_reducible apply keeps_updLast | with_reducible apply keeps_readBuf | (intro v; refine keeps_cut s0 v ?_ (fun hv => ?_); (on_goal 2 => try clear_value v); dsimp only [v]) | intro v | lift_lets | with_reducible apply keeps_ite | (simp only [keeps_mk_iff]; apply keepsP_of) | with_reducible rfl | (refine keeps_of_snd (by with_reducible assumption) ?_) | (refine keeps_of_fst (by with_reducible assumption) ?_) | split | (clear_value *; split) | with_reducible apply keeps_beginUpdate | dsimp only)

theorem keeps_execUpdBegin (chan) {s : State} (h0 : Keeps s0 s) : KeepsO s0 (@execUpdBegin chan s) := by
  unfold execUpdBegin
  repeat' (first | with_reducible assumption | with_reducible apply keeps_mbxCmd | with_reducible apply keepsO_next | (intro v; refine keeps_cut s0 v ?_ (fun hv => ?_); (on_goal 2 => try clear_value v); dsimp only [v]) | intro v | lift_lets | (simp only [keeps_mk_iff]; apply keepsP_of) | with_reducible rfl | (refine keeps_of_snd (by with_reducible assumption) ?_) | (refine keeps_of_fst (by with_reducible assumption) ?_) | split | (clear_value *; split) | with_reducible apply keeps_cmdUpdBegin | dsimp only)

theorem keeps_stageBlock {s : State} (u) (off) (data) (h0 : Keeps s0 s) : Keeps s0 (@State.stageBlock s u off data).2 := by
  unfold State.stageBlock
  repeat' (first | with_reducible assumption | (intro v; refine keeps_cut s0 v ?_ (fun hv => ?_); (on_goal 2 => try clear_value v); dsimp only [v]) | intro v | lift_lets | with_reducible apply keeps_ite | (simp only [keeps_mk_iff]; apply keepsP_of) | with_reducible rfl | split | (clear_value *; split) | dsimp only)

theorem keeps_cmdUpdBlock (x0) (x1) {s : State} (h0 : Keeps s0 s) : Keeps s0 (@cmdUpdBlock  x0 x1 s).2 := by
  unfold cmdUpdBlock
  repeat' (first | with_reducible assumption | with_reducible apply keeps_updLast | with_reducible apply keeps_readBuf | (intro v; refine keeps_cut s0 v ?_ (fun hv => ?_); (on_goal 2 => try clear_value v); dsimp only [v]) | intro v | lift_lets | with_reducible apply keeps_ite | (simp only [keeps_mk_iff]; apply keepsP_of) | with_reducible rfl | (refine keeps_of_snd (by with_reducible assumption) ?_) | (refine keeps_of_fst (by with_reducible assumption) ?_) | split | (clear_value *; split) | with_reducible apply keeps_fresh | with_reducible apply keeps_stageBlock | dsimp only)

theorem keeps_execUpdBlock (chan) {s : State} (h0 : Keeps s0 s) : KeepsO s0 (@execUpdBlock chan s) := by
  unfold execUpdBlock
  repeat' (first | with_reducible assumption | with_reducible apply keeps_mbxCmd | with_reducible apply keepsO_next | (intro v; refine keeps_cut s0 v ?_ (fun hv => ?_); (on_goal 2 => try clear_value v); dsimp only [v]) | intro v | lift_lets | (simp only [keeps_mk_iff]; apply keepsP_of) | with_reducible rfl | (refine keeps_of_snd (by with_reducible assumption) ?_) | (refine keeps_of_fst (by with_reducible assumption) ?_) | split | (clear_value *; split) | with_reducible apply keeps_cmdUpdBlock | dsimp only)

theorem keeps_execStagingProgram {s : State} (h0 : Keeps s0 s) : KeepsO s0 (@execStagingProgram s) := by
  unfold execStagingProgram
  repeat' (first | with_reducible assumption | with_reducible apply keeps_setFlashSlot | with_reducible apply keeps_setF | with_reducible apply keepsO_next | (intro v; refine keeps_cut s0 v ?_ (fun hv => ?_); (on_goal 2 => try clear_value v); dsimp only [v]) | intro v | lift_lets | with_reducible apply keeps_ite | (simp only [keeps_mk_iff]; apply keepsP_of) | with_reducible rfl | split | (clear_value *; split) | dsimp only)

theorem keeps_startVerify {s : State} (h0 : Keeps s0 s) : Keeps s0 (@State.startVerify s).2 := by
  unfold State.startVerify
  repeat' (first | with_reducible assumption | with_reducible apply keeps_setSlotState | (intro v; refine keeps_cut s0 v ?_ (fun hv => ?_); (on_goal 2 => try clear_value v); dsimp only [v]) | intro v | lift_lets | with_reducible apply keeps_ite | (simp only [keeps_mk_iff]; apply keepsP_of) | with_reducible rfl | split | (clear_value *; split) | dsimp only)

theorem keeps_cmdUpdVerify (x0) (x1) {s : State} (h0 : Keeps s0 s) : Keeps s0 (@cmdUpdVerify  x0 x1 s).2 := by
  unfold cmdUpdVerify
  repeat' (first | with_reducible assumption | with_reducible apply keeps_updLast | (intro v; refine keeps_cut s0 v ?_ (fun hv => ?_); (on_goal 2 => try clear_value v); dsimp only [v]) | intro v | lift_lets | with_reducible apply keeps_ite | (simp only [keeps_mk_iff]; apply keepsP_of) | with_reducible rfl | (refine keeps_of_snd (by with_reducible assumption) ?_) | (refine keeps_of_fst (by with_reducible assumption) ?_) | split | (clear_value *; split) | with_reducible apply keeps_startVerify | dsimp only)

theorem keeps_execUpdVerify (chan) {s : State} (h0 : Keeps s0 s) : KeepsO s0 (@execUpdVerify chan s) := by
  unfold execUpdVerify
  repeat' (first | with_reducible assumption | with_reducible apply keeps_mbxCmd | with_reducible apply keepsO_next | (intro v; refine keeps_cut s0 v ?_ (fun hv => ?_); (on_goal 2 => try clear_value v); dsimp only [v]) | intro v | lift_lets | (simp only [keeps_mk_iff]; apply keepsP_of) | with_reducible rfl | (refine keeps_of_snd (by with_reducible assumption) ?_) | (refine keeps_of_fst (by with_reducible assumption) ?_) | split | (clear_value *; split) | with_reducible apply keeps_cmdUpdVerify | dsimp only)

theorem keeps_execUpdVerifyDone {s : State} (h0 : Keeps s0 s) : KeepsO s0 (@execUpdVerifyDone s) := by
  unfold execUpdVerifyDone
  repeat' (first | with_reducible assumption | with_reducible apply keeps_setFlashSlot | with_reducible apply keeps_setSlotState | with_reducible apply keeps_showBuilds | with_reducible apply keepsO_next | (intro v; refine keeps_cut s0 v ?_ (fun hv => ?_); (on_goal 2 => try clear_value v); dsimp only [v]) | intro v | lift_lets | with_reducible apply keeps_ite | (simp only [keeps_mk_iff]; apply keepsP_of) | with_reducible rfl | split | (clear_value *; split) | dsimp only)

theorem keeps_prefer {s : State} (slot) (trial) (h0 : Keeps s0 s) : Keeps s0 (@State.prefer s slot trial) := by
  unfold State.prefer
  repeat' (first | with_reducible assumption | with_reducible apply keeps_setF | (intro v; refine keeps_cut s0 v ?_ (fun hv => ?_); (on_goal 2 => try clear_value v); dsimp only [v]) | intro v | lift_lets | (simp only [keeps_mk_iff]; apply keepsP_of) | with_reducible rfl | split | (clear_value *; split) | dsimp only)

theorem keeps_measureImage {s : State} (i) (slot) (type) (h0 : Keeps s0 s) : Keeps s0 (@State.measureImage s i slot type) := by
  unfold State.measureImage
  repeat' (first | with_reducible assumption | with_reducible apply keeps_measure | (intro v; refine keeps_cut s0 v ?_ (fun hv => ?_); (on_goal 2 => try clear_value v); dsimp only [v]) | intro v | lift_lets | with_reducible apply keeps_ite | (simp only [keeps_mk_iff]; apply keepsP_of) | with_reducible rfl | split | (clear_value *; split) | dsimp only)

theorem keeps_runFrom {s : State} (slot) (h0 : Keeps s0 s) : Keeps s0 (@State.runFrom s slot) := by
  unfold State.runFrom
  repeat' (first | with_reducible assumption | with_reducible apply keeps_setF | with_reducible apply keeps_showBuilds | with_reducible apply keeps_measureImage | (intro v; refine keeps_cut s0 v ?_ (fun hv => ?_); (on_goal 2 => try clear_value v); dsimp only [v]) | intro v | lift_lets | with_reducible apply keeps_ite | (simp only [keeps_mk_iff]; apply keepsP_of) | with_reducible rfl | split | (clear_value *; split) | dsimp only)

theorem keeps_beginPause {s : State} (fallback) (watchdog) (slot) (reply) (h0 : Keeps s0 s) : Keeps s0 (@State.beginPause s fallback watchdog slot reply) := by
  unfold State.beginPause
  repeat' (first | with_reducible assumption | with_reducible apply keeps_setF | (intro v; refine keeps_cut s0 v ?_ (fun hv => ?_); (on_goal 2 => try clear_value v); dsimp only [v]) | intro v | lift_lets | with_reducible apply keeps_ite | (simp only [keeps_mk_iff]; apply keepsP_of) | with_reducible rfl | (refine keeps_of_snd (by with_reducible assumption) ?_) | (refine keeps_of_fst (by with_reducible assumption) ?_) | split | (clear_value *; split) | with_reducible apply keeps_fresh | dsimp only)

theorem keeps_shedChannel {s : State} (c k : Nat) (h : Keeps s0 s) : Keeps s0 (s.shedChannel c k) := by
  induction k generalizing s with
  | zero => exact h
  | succ k ih =>
    unfold State.shedChannel
    split
    · exact keeps_ite h (ih (keeps_mbxReply _ _ _ h))
    · exact h

theorem keeps_restartRider {s : State} (h0 : Keeps s0 s) : Keeps s0 (@State.restartRider s) := by
  unfold State.restartRider
  repeat' (first | with_reducible assumption | with_reducible apply keeps_shedChannel | with_reducible apply keeps_setSlotState | (intro v; refine keeps_cut s0 v ?_ (fun hv => ?_); (on_goal 2 => try clear_value v); dsimp only [v]) | intro v | lift_lets | with_reducible apply keeps_foldl | with_reducible apply keeps_foldl_fst | with_reducible apply keeps_foldl_snd | with_reducible apply keeps_ite | (simp only [keeps_mk_iff]; apply keepsP_of) | with_reducible rfl | split | (clear_value *; split) | dsimp only)

theorem keeps_fallback {s : State} (slot) (watchdog) (h0 : Keeps s0 s) : Keeps s0 (@State.fallback s slot watchdog) := by
  unfold State.fallback
  repeat' (first | with_reducible assumption | with_reducible apply keeps_restartRider | with_reducible apply keeps_beginPause | (intro v; refine keeps_cut s0 v ?_ (fun hv => ?_); (on_goal 2 => try clear_value v); dsimp only [v]) | intro v | lift_lets | (simp only [keeps_mk_iff]; apply keepsP_of) | with_reducible rfl | split | (clear_value *; split) | dsimp only)

theorem keeps_revert {s : State} (h0 : Keeps s0 s) : Keeps s0 (@State.revert s) := by
  unfold State.revert
  repeat' (first | with_reducible assumption | with_reducible apply keeps_prefer | with_reducible apply keeps_riderRecord | with_reducible apply keeps_fallback | (intro v; refine keeps_cut s0 v ?_ (fun hv => ?_); (on_goal 2 => try clear_value v); dsimp only [v]) | intro v | lift_lets | with_reducible apply keeps_ite | (simp only [keeps_mk_iff]; apply keepsP_of) | with_reducible rfl | split | (clear_value *; split) | dsimp only)

theorem keeps_answerSome {s : State} (dest) (h0 : Keeps s0 s) : Keeps s0 (@State.answerSome s dest) := by
  unfold State.answerSome
  repeat' (first | with_reducible assumption | with_reducible apply keeps_answer | (intro v; refine keeps_cut s0 v ?_ (fun hv => ?_); (on_goal 2 => try clear_value v); dsimp only [v]) | intro v | lift_lets | (simp only [keeps_mk_iff]; apply keepsP_of) | with_reducible rfl | split | (clear_value *; split) | dsimp only)

theorem keeps_activate {s : State} (mode) (dest) (h0 : Keeps s0 s) : Keeps s0 (@State.activate s mode dest) := by
  unfold State.activate
  repeat' (first | with_reducible assumption | with_reducible apply keeps_updLast | with_reducible apply keeps_prefer | with_reducible apply keeps_answerSome | with_reducible apply keeps_beginPause | with_reducible apply keeps_fallback | (intro v; refine keeps_cut s0 v ?_ (fun hv => ?_); (on_goal 2 => try clear_value v); dsimp only [v]) | intro v | lift_lets | with_reducible apply keeps_ite | (simp only [keeps_mk_iff]; apply keepsP_of) | with_reducible rfl | split | (clear_value *; split) | dsimp only)

theorem keeps_execUpdActivate (chan) {s : State} (h0 : Keeps s0 s) : KeepsO s0 (@execUpdActivate chan s) := by
  unfold execUpdActivate
  repeat' (first | with_reducible assumption | with_reducible apply keeps_mbxRow | with_reducible apply keeps_updLast | with_reducible apply keeps_mbxReply | with_reducible apply keeps_mbxTake | with_reducible apply keeps_activate | with_reducible apply keepsO_next | (intro v; refine keeps_cut s0 v ?_ (fun hv => ?_); (on_goal 2 => try clear_value v); dsimp only [v]) | intro v | lift_lets | with_reducible apply keeps_ite | (simp only [keeps_mk_iff]; apply keepsP_of) | with_reducible rfl | split | (clear_value *; split) | dsimp only)

theorem keeps_cmdUpdStatus (x0) (x1) {s : State} (h0 : Keeps s0 s) : Keeps s0 (@cmdUpdStatus  x0 x1 s).2 := by
  unfold cmdUpdStatus
  repeat' (first | with_reducible assumption | (intro v; refine keeps_cut s0 v ?_ (fun hv => ?_); (on_goal 2 => try clear_value v); dsimp only [v]) | intro v | lift_lets | with_reducible apply keeps_ite | (simp only [keeps_mk_iff]; apply keepsP_of) | with_reducible rfl | split | (clear_value *; split) | dsimp only)

theorem keeps_execUpdStatus (chan) {s : State} (h0 : Keeps s0 s) : KeepsO s0 (@execUpdStatus chan s) := by
  unfold execUpdStatus
  repeat' (first | with_reducible assumption | with_reducible apply keeps_mbxCmd | with_reducible apply keepsO_next | (intro v; refine keeps_cut s0 v ?_ (fun hv => ?_); (on_goal 2 => try clear_value v); dsimp only [v]) | intro v | lift_lets | (simp only [keeps_mk_iff]; apply keepsP_of) | with_reducible rfl | (refine keeps_of_snd (by with_reducible assumption) ?_) | (refine keeps_of_fst (by with_reducible assumption) ?_) | split | (clear_value *; split) | with_reducible apply keeps_cmdUpdStatus | dsimp only)

theorem keeps_cmdUpdCancel (x0) (x1) {s : State} (h0 : Keeps s0 s) : Keeps s0 (@cmdUpdCancel  x0 x1 s).2 := by
  unfold cmdUpdCancel
  repeat' (first | with_reducible assumption | with_reducible apply keeps_updLast | with_reducible apply keeps_setSlotState | with_reducible apply keeps_showBuilds | (intro v; refine keeps_cut s0 v ?_ (fun hv => ?_); (on_goal 2 => try clear_value v); dsimp only [v]) | intro v | lift_lets | with_reducible apply keeps_ite | (simp only [keeps_mk_iff]; apply keepsP_of) | with_reducible rfl | split | (clear_value *; split) | dsimp only)

theorem keeps_execUpdCancel (chan) {s : State} (h0 : Keeps s0 s) : KeepsO s0 (@execUpdCancel chan s) := by
  unfold execUpdCancel
  repeat' (first | with_reducible assumption | with_reducible apply keeps_mbxCmd | with_reducible apply keepsO_next | (intro v; refine keeps_cut s0 v ?_ (fun hv => ?_); (on_goal 2 => try clear_value v); dsimp only [v]) | intro v | lift_lets | (simp only [keeps_mk_iff]; apply keepsP_of) | with_reducible rfl | (refine keeps_of_snd (by with_reducible assumption) ?_) | (refine keeps_of_fst (by with_reducible assumption) ?_) | split | (clear_value *; split) | with_reducible apply keeps_cmdUpdCancel | dsimp only)

theorem keeps_confirmTrial {s : State} (h0 : Keeps s0 s) : Keeps s0 (@State.confirmTrial s) := by
  unfold State.confirmTrial
  repeat' (first | with_reducible assumption | with_reducible apply keeps_prefer | (intro v; refine keeps_cut s0 v ?_ (fun hv => ?_); (on_goal 2 => try clear_value v); dsimp only [v]) | intro v | lift_lets | (simp only [keeps_mk_iff]; apply keepsP_of) | with_reducible rfl | split | (clear_value *; split) | dsimp only)

theorem keeps_cmdConfirm (x0) (x1) {s : State} (h0 : Keeps s0 s) : Keeps s0 (@cmdConfirm  x0 x1 s).2 := by
  unfold cmdConfirm
  repeat' (first | with_reducible assumption | with_reducible apply keeps_updLast | with_reducible apply keeps_confirmTrial | (intro v; refine keeps_cut s0 v ?_ (fun hv => ?_); (on_goal 2 => try clear_value v); dsimp only [v]) | intro v | lift_lets | with_reducible apply keeps_ite | (simp only [keeps_mk_iff]; apply keepsP_of) | with_reducible rfl | split | (clear_value *; split) | dsimp only)

theorem keeps_execConfirm (chan) {s : State} (h0 : Keeps s0 s) : KeepsO s0 (@execConfirm chan s) := by
  unfold execConfirm
  repeat' (first | with_reducible assumption | with_reducible apply keeps_mbxCmd | with_reducible apply keepsO_next | (intro v; refine keeps_cut s0 v ?_ (fun hv => ?_); (on_goal 2 => try clear_value v); dsimp only [v]) | intro v | lift_lets | (simp only [keeps_mk_iff]; apply keepsP_of) | with_reducible rfl | (refine keeps_of_snd (by with_reducible assumption) ?_) | (refine keeps_of_fst (by with_reducible assumption) ?_) | split | (clear_value *; split) | with_reducible apply keeps_cmdConfirm | dsimp only)

theorem keeps_execTrialConfirmTimer {s : State} (h0 : Keeps s0 s) : KeepsO s0 (@execTrialConfirmTimer s) := by
  unfold execTrialConfirmTimer
  repeat' (first | with_reducible assumption | with_reducible apply keeps_confirmTrial | with_reducible apply keepsO_next | (intro v; refine keeps_cut s0 v ?_ (fun hv => ?_); (on_goal 2 => try clear_value v); dsimp only [v]) | intro v | lift_lets | with_reducible apply keeps_ite | (simp only [keeps_mk_iff]; apply keepsP_of) | with_reducible rfl | split | (clear_value *; split) | dsimp only)

theorem keeps_execTrialReadyTimeout {s : State} (h0 : Keeps s0 s) : KeepsO s0 (@execTrialReadyTimeout s) := by
  unfold execTrialReadyTimeout
  repeat' (first | with_reducible assumption | with_reducible apply keeps_revert | with_reducible apply keepsO_next | (intro v; refine keeps_cut s0 v ?_ (fun hv => ?_); (on_goal 2 => try clear_value v); dsimp only [v]) | intro v | lift_lets | with_reducible apply keeps_ite | (simp only [keeps_mk_iff]; apply keepsP_of) | with_reducible rfl | split | (clear_value *; split) | dsimp only)

theorem keeps_kick {s : State} (who) (h0 : Keeps s0 s) : Keeps s0 (@State.kick s who) := by
  unfold State.kick
  repeat' (first | with_reducible assumption | with_reducible apply keeps_refuseWrite | (intro v; refine keeps_cut s0 v ?_ (fun hv => ?_); (on_goal 2 => try clear_value v); dsimp only [v]) | intro v | lift_lets | with_reducible apply keeps_ite | (simp only [keeps_mk_iff]; apply keepsP_of) | with_reducible rfl | split | (clear_value *; split) | dsimp only)

theorem keeps_execWatchdogKick (who) {s : State} (h0 : Keeps s0 s) : KeepsO s0 (@execWatchdogKick who s) := by
  unfold execWatchdogKick
  repeat' (first | with_reducible assumption | with_reducible apply keeps_kick | with_reducible apply keepsO_next | (intro v; refine keeps_cut s0 v ?_ (fun hv => ?_); (on_goal 2 => try clear_value v); dsimp only [v]) | intro v | lift_lets | (simp only [keeps_mk_iff]; apply keepsP_of) | with_reducible rfl | split | (clear_value *; split) | dsimp only)

theorem keeps_execRiderWatchdogExpiry {s : State} (h0 : Keeps s0 s) : KeepsO s0 (@execRiderWatchdogExpiry s) := by
  unfold execRiderWatchdogExpiry
  repeat' (first | with_reducible assumption | with_reducible apply keeps_fallback | with_reducible apply keeps_restartRider | with_reducible apply keeps_beginPause | with_reducible apply keepsO_next | (intro v; refine keeps_cut s0 v ?_ (fun hv => ?_); (on_goal 2 => try clear_value v); dsimp only [v]) | intro v | lift_lets | with_reducible apply keeps_ite | (simp only [keeps_mk_iff]; apply keepsP_of) | with_reducible rfl | split | (clear_value *; split) | dsimp only)

theorem keeps_afterWatchdog {s : State} (h0 : Keeps s0 s) : Keeps s0 (@State.afterWatchdog s) := by
  unfold State.afterWatchdog
  repeat' (first | with_reducible assumption | with_reducible apply keeps_crashDump | with_reducible apply keeps_riderRecord | with_reducible apply keeps_revert | with_reducible apply keeps_record | (intro v; refine keeps_cut s0 v ?_ (fun hv => ?_); (on_goal 2 => try clear_value v); dsimp only [v]) | intro v | lift_lets | with_reducible apply keeps_ite | (simp only [keeps_mk_iff]; apply keepsP_of) | with_reducible rfl | split | (clear_value *; split) | dsimp only)

theorem keeps_endPause {s : State} (h0 : Keeps s0 s) : Keeps s0 (@State.endPause s) := by
  unfold State.endPause
  repeat' (first | with_reducible assumption | with_reducible apply keeps_setF | with_reducible apply keeps_runFrom | with_reducible apply keeps_answerSome | with_reducible apply keeps_afterWatchdog | (intro v; refine keeps_cut s0 v ?_ (fun hv => ?_); (on_goal 2 => try clear_value v); dsimp only [v]) | intro v | lift_lets | with_reducible apply keeps_ite | (simp only [keeps_mk_iff]; apply keepsP_of) | with_reducible rfl | split | (clear_value *; split) | dsimp only)

theorem keeps_saveSettings {s : State} (h0 : Keeps s0 s) : Keeps s0 (@State.saveSettings s) := by
  unfold State.saveSettings
  repeat' (first | with_reducible assumption | with_reducible apply keeps_journalAdd | (intro v; refine keeps_cut s0 v ?_ (fun hv => ?_); (on_goal 2 => try clear_value v); dsimp only [v]) | intro v | lift_lets | with_reducible apply keeps_foldl | with_reducible apply keeps_foldl_fst | with_reducible apply keeps_foldl_snd | with_reducible apply keeps_ite | (simp only [keeps_mk_iff]; apply keepsP_of) | with_reducible rfl | split | (clear_value *; split) | dsimp only)

theorem keeps_execSettingsSave {s : State} (h0 : Keeps s0 s) : KeepsO s0 (@execSettingsSave s) := by
  unfold execSettingsSave
  repeat' (first | with_reducible assumption | with_reducible apply keeps_saveSettings | with_reducible apply keepsO_next | (intro v; refine keeps_cut s0 v ?_ (fun hv => ?_); (on_goal 2 => try clear_value v); dsimp only [v]) | intro v | lift_lets | with_reducible apply keeps_ite | (simp only [keeps_mk_iff]; apply keepsP_of) | with_reducible rfl | split | (clear_value *; split) | dsimp only)

theorem keeps_loadSettings {s : State} (h0 : Keeps s0 s) : Keeps s0 (@State.loadSettings s) := by
  unfold State.loadSettings
  repeat' (first | with_reducible assumption | with_reducible apply keeps_setF | with_reducible apply keeps_saveSettings | with_reducible apply keeps_record | (intro v; refine keeps_cut s0 v ?_ (fun hv => ?_); (on_goal 2 => try clear_value v); dsimp only [v]) | intro v | lift_lets | with_reducible apply keeps_foldl | with_reducible apply keeps_foldl_fst | with_reducible apply keeps_foldl_snd | with_reducible apply keeps_ite | (simp only [keeps_mk_iff]; apply keepsP_of) | with_reducible rfl | split | (clear_value *; split) | dsimp only)

theorem keeps_cmdSetRead (x0) (x1) {s : State} (h0 : Keeps s0 s) : Keeps s0 (@cmdSetRead  x0 x1 s).2 := by
  unfold cmdSetRead
  repeat' (first | with_reducible assumption | with_reducible apply keeps_land | (intro v; refine keeps_cut s0 v ?_ (fun hv => ?_); (on_goal 2 => try clear_value v); dsimp only [v]) | intro v | lift_lets | with_reducible apply keeps_ite | (simp only [keeps_mk_iff]; apply keepsP_of) | with_reducible rfl | split | (clear_value *; split) | dsimp only)

theorem keeps_execSetRead (chan) {s : State} (h0 : Keeps s0 s) : KeepsO s0 (@execSetRead chan s) := by
  unfold execSetRead
  repeat' (first | with_reducible assumption | with_reducible apply keeps_mbxCmd | with_reducible apply keepsO_next | (intro v; refine keeps_cut s0 v ?_ (fun hv => ?_); (on_goal 2 => try clear_value v); dsimp only [v]) | intro v | lift_lets | (simp only [keeps_mk_iff]; apply keepsP_of) | with_reducible rfl | (refine keeps_of_snd (by with_reducible assumption) ?_) | (refine keeps_of_fst (by with_reducible assumption) ?_) | split | (clear_value *; split) | with_reducible apply keeps_cmdSetRead | dsimp only)

theorem keeps_cmdSetReset (x0) (x1) {s : State} (h0 : Keeps s0 s) : Keeps s0 (@cmdSetReset  x0 x1 s).2 := by
  unfold cmdSetReset
  repeat' (first | with_reducible assumption | (intro v; refine keeps_cut s0 v ?_ (fun hv => ?_); (on_goal 2 => try clear_value v); dsimp only [v]) | intro v | lift_lets | with_reducible apply keeps_ite | (simp only [keeps_mk_iff]; apply keepsP_of) | with_reducible rfl | split | (clear_value *; split) | dsimp only)

theorem keeps_execSetReset (chan) {s : State} (h0 : Keeps s0 s) : KeepsO s0 (@execSetReset chan s) := by
  unfold execSetReset
  repeat' (first | with_reducible assumption | with_reducible apply keeps_mbxCmd | with_reducible apply keepsO_next | (intro v; refine keeps_cut s0 v ?_ (fun hv => ?_); (on_goal 2 => try clear_value v); dsimp only [v]) | intro v | lift_lets | (simp only [keeps_mk_iff]; apply keepsP_of) | with_reducible rfl | (refine keeps_of_snd (by with_reducible assumption) ?_) | (refine keeps_of_fst (by with_reducible assumption) ?_) | split | (clear_value *; split) | with_reducible apply keeps_cmdSetReset | dsimp only)

theorem keeps_cmdDumpList (x0) (x1) {s : State} (h0 : Keeps s0 s) : Keeps s0 (@cmdDumpList  x0 x1 s).2 := by
  unfold cmdDumpList
  repeat' (first | with_reducible assumption | with_reducible apply keeps_land | (intro v; refine keeps_cut s0 v ?_ (fun hv => ?_); (on_goal 2 => try clear_value v); dsimp only [v]) | intro v | lift_lets | with_reducible apply keeps_ite | (simp only [keeps_mk_iff]; apply keepsP_of) | with_reducible rfl | split | (clear_value *; split) | dsimp only)

theorem keeps_execDumpList (chan) {s : State} (h0 : Keeps s0 s) : KeepsO s0 (@execDumpList chan s) := by
  unfold execDumpList
  repeat' (first | with_reducible assumption | with_reducible apply keeps_mbxCmd | with_reducible apply keepsO_next | (intro v; refine keeps_cut s0 v ?_ (fun hv => ?_); (on_goal 2 => try clear_value v); dsimp only [v]) | intro v | lift_lets | (simp only [keeps_mk_iff]; apply keepsP_of) | with_reducible rfl | (refine keeps_of_snd (by with_reducible assumption) ?_) | (refine keeps_of_fst (by with_reducible assumption) ?_) | split | (clear_value *; split) | with_reducible apply keeps_cmdDumpList | dsimp only)

theorem keeps_cmdDumpRead (x0) (x1) {s : State} (h0 : Keeps s0 s) : Keeps s0 (@cmdDumpRead  x0 x1 s).2 := by
  unfold cmdDumpRead
  repeat' (first | with_reducible assumption | with_reducible apply keeps_land | (intro v; refine keeps_cut s0 v ?_ (fun hv => ?_); (on_goal 2 => try clear_value v); dsimp only [v]) | intro v | lift_lets | with_reducible apply keeps_ite | (simp only [keeps_mk_iff]; apply keepsP_of) | with_reducible rfl | split | (clear_value *; split) | dsimp only)

theorem keeps_execDumpRead (chan) {s : State} (h0 : Keeps s0 s) : KeepsO s0 (@execDumpRead chan s) := by
  unfold execDumpRead
  repeat' (first | with_reducible assumption | with_reducible apply keeps_mbxCmd | with_reducible apply keepsO_next | (intro v; refine keeps_cut s0 v ?_ (fun hv => ?_); (on_goal 2 => try clear_value v); dsimp only [v]) | intro v | lift_lets | (simp only [keeps_mk_iff]; apply keepsP_of) | with_reducible rfl | (refine keeps_of_snd (by with_reducible assumption) ?_) | (refine keeps_of_fst (by with_reducible assumption) ?_) | split | (clear_value *; split) | with_reducible apply keeps_cmdDumpRead | dsimp only)

theorem keeps_pldmReply {s : State} (session) (st) (h0 : Keeps s0 s) : Keeps s0 (@State.pldmReply s session st) := by
  unfold State.pldmReply
  repeat' (first | with_reducible assumption | with_reducible apply keeps_emit | (intro v; refine keeps_cut s0 v ?_ (fun hv => ?_); (on_goal 2 => try clear_value v); dsimp only [v]) | intro v | lift_lets | with_reducible apply keeps_ite | (simp only [keeps_mk_iff]; apply keepsP_of) | with_reducible rfl | split | (clear_value *; split) | dsimp only)

theorem keeps_pldm {s : State} (session) (f) (h0 : Keeps s0 s) (h1 : ∀ y0, Keeps s0 y0 → Keeps s0 (f y0).2) : Keeps s0 (@State.pldm s session f) := by
  unfold State.pldm
  repeat' (first | with_reducible assumption | with_reducible apply h1 | with_reducible apply keeps_riderFirst | with_reducible apply keeps_updLast | with_reducible apply keeps_pldmReply | (intro v; refine keeps_cut s0 v ?_ (fun hv => ?_); (on_goal 2 => try clear_value v); dsimp only [v]) | intro v | lift_lets | with_reducible apply keeps_ite | (simp only [keeps_mk_iff]; apply keepsP_of) | with_reducible rfl | (refine keeps_of_snd (by with_reducible assumption) ?_) | (refine keeps_of_fst (by with_reducible assumption) ?_) | split | (clear_value *; split) | dsimp only)

theorem keeps_execUpdateComponent (session) (header) {s : State} (h0 : Keeps s0 s) : KeepsO s0 (@execUpdateComponent session header s) := by
  unfold execUpdateComponent
  repeat' (first | with_reducible assumption | with_reducible apply keeps_pldm | with_reducible apply keepsO_next | (intro v; refine keeps_cut s0 v ?_ (fun hv => ?_); (on_goal 2 => try clear_value v); dsimp only [v]) | intro v | lift_lets | (simp only [keeps_mk_iff]; apply keepsP_of) | with_reducible rfl | (refine keeps_of_snd (by with_reducible assumption) ?_) | (refine keeps_of_fst (by with_reducible assumption) ?_) | split | (clear_value *; split) | with_reducible apply keeps_beginUpdate | dsimp only)

theorem keeps_execRequestFirmwareData (session) (offset) (data) {s : State} (h0 : Keeps s0 s) : KeepsO s0 (@execRequestFirmwareData session offset data s) := by
  unfold execRequestFirmwareData
  repeat' (first | with_reducible assumption | with_reducible apply keeps_riderFirst | with_reducible apply keeps_updLast | with_reducible apply keepsO_next | (intro v; refine keeps_cut s0 v ?_ (fun hv => ?_); (on_goal 2 => try clear_value v); dsimp only [v]) | intro v | lift_lets | with_reducible apply keeps_ite | (simp only [keeps_mk_iff]; apply keepsP_of) | with_reducible rfl | (refine keeps_of_snd (by with_reducible assumption) ?_) | (refine keeps_of_fst (by with_reducible assumption) ?_) | split | (clear_value *; split) | with_reducible apply keeps_stageBlock | dsimp only)

theorem keeps_execTransferComplete (session) {s : State} (h0 : Keeps s0 s) : KeepsO s0 (@execTransferComplete session s) := by
  unfold execTransferComplete
  repeat' (first | with_reducible assumption | with_reducible apply keeps_pldm | with_reducible apply keepsO_next | (intro v; refine keeps_cut s0 v ?_ (fun hv => ?_); (on_goal 2 => try clear_value v); dsimp only [v]) | intro v | lift_lets | (simp only [keeps_mk_iff]; apply keepsP_of) | with_reducible rfl | (refine keeps_of_snd (by with_reducible assumption) ?_) | (refine keeps_of_fst (by with_reducible assumption) ?_) | split | (clear_value *; split) | with_reducible apply keeps_startVerify | dsimp only)

theorem keeps_execActivateFirmware (session) (selfContained) {s : State} (h0 : Keeps s0 s) : KeepsO s0 (@execActivateFirmware session selfContained s) := by
  unfold execActivateFirmware
  repeat' (first | with_reducible assumption | with_reducible apply keeps_pldm | with_reducible apply keeps_activate | with_reducible apply keepsO_next | (intro v; refine keeps_cut s0 v ?_ (fun hv => ?_); (on_goal 2 => try clear_value v); dsimp only [v]) | intro v | lift_lets | (simp only [keeps_mk_iff]; apply keepsP_of) | with_reducible rfl | split | (clear_value *; split) | dsimp only)

theorem keeps_execTelemetryFrame {s : State} (h0 : Keeps s0 s) : KeepsO s0 (@execTelemetryFrame s) := by
  unfold execTelemetryFrame
  repeat' (first | with_reducible assumption | with_reducible apply keeps_riderFirst | with_reducible apply keeps_emit | with_reducible apply keepsO_next | (intro v; refine keeps_cut s0 v ?_ (fun hv => ?_); (on_goal 2 => try clear_value v); dsimp only [v]) | intro v | lift_lets | with_reducible apply keeps_foldl | with_reducible apply keeps_foldl_fst | with_reducible apply keeps_foldl_snd | with_reducible apply keeps_ite | (simp only [keeps_mk_iff]; apply keepsP_of) | with_reducible rfl | split | (clear_value *; split) | dsimp only)

/-! ### Machine/Boot.lean -/

theorem keptRegs_canon {s : State} (x : RegsCanon s.regs) : RegsCanon s.keptRegs := by
  unfold State.keptRegs
  dsimp only
  refine (keeps_setF _ _ _ (keeps_setF _ _ _ (keeps_setF _ _ _ (keeps_setF _ _ _ (keeps_setReg _ _ _ (Keeps.refl _)))))).regs ?_
  exact x.filter _

theorem keeps_powerOff {s : State} (h : Keeps s0 s) : Keeps s0 s.powerOff :=
  ⟨h.pending, fun _ => SMap.Canon.nil _, fun _ => SMap.Canon.nil _, fun x => keptRegs_canon (h.regs x), fun _ => Nat.zero_le _, h.dumps⟩

theorem keeps_powerUp {s : State} (feed) (straps) (presence) (h0 : Keeps s0 s) : Keeps s0 (@State.powerUp s feed straps presence) := by
  unfold State.powerUp
  repeat' (first | with_reducible assumption | with_reducible apply keeps_setF | (intro v; refine keeps_cut s0 v ?_ (fun hv => ?_); (on_goal 2 => try clear_value v); dsimp only [v]) | intro v | lift_lets | with_reducible apply keeps_ite | (simp only [keeps_mk_iff]; apply keepsP_of) | with_reducible rfl | split | (clear_value *; split) | dsimp only)

theorem keeps_execBusPowerUp (feedB) (straps) (presence) {s : State} (h0 : Keeps s0 s) : KeepsO s0 (@execBusPowerUp feedB straps presence s) := by
  unfold execBusPowerUp
  repeat' (first | with_reducible assumption | with_reducible apply keeps_powerUp | with_reducible apply keepsO_next | (intro v; refine keeps_cut s0 v ?_ (fun hv => ?_); (on_goal 2 => try clear_value v); dsimp only [v]) | intro v | lift_lets | with_reducible apply keeps_ite | (simp only [keeps_mk_iff]; apply keepsP_of) | with_reducible rfl | split | (clear_value *; split) | dsimp only)

theorem keeps_execBusHoldupExhausted {s : State} (h0 : Keeps s0 s) : KeepsO s0 (@execBusHoldupExhausted s) := by
  unfold execBusHoldupExhausted
  repeat' (first | with_reducible assumption | with_reducible apply keeps_powerOff | with_reducible apply keepsO_next | (intro v; refine keeps_cut s0 v ?_ (fun hv => ?_); (on_goal 2 => try clear_value v); dsimp only [v]) | intro v | lift_lets | with_reducible apply keeps_ite | (simp only [keeps_mk_iff]; apply keepsP_of) | with_reducible rfl | split | (clear_value *; split) | dsimp only)

theorem keeps_applyFuse {s : State} (e) (h0 : Keeps s0 s) : Keeps s0 (@State.applyFuse s e) := by
  unfold State.applyFuse
  repeat' (first | with_reducible assumption | with_reducible apply keeps_setF | with_reducible apply keeps_setReg | with_reducible apply keeps_setSF | (intro v; refine keeps_cut s0 v ?_ (fun hv => ?_); (on_goal 2 => try clear_value v); dsimp only [v]) | intro v | lift_lets | with_reducible apply keeps_ite | (simp only [keeps_mk_iff]; apply keepsP_of) | with_reducible rfl | split | (clear_value *; split) | dsimp only)

theorem keeps_measureStart {s : State} (slot) (h0 : Keeps s0 s) : Keeps s0 (@State.measureStart s slot) := by
  unfold State.measureStart
  repeat' (first | with_reducible assumption | with_reducible apply keeps_measureImage | with_reducible apply keeps_measure | with_reducible apply keeps_measurePart | with_reducible apply keeps_measureState | (intro v; refine keeps_cut s0 v ?_ (fun hv => ?_); (on_goal 2 => try clear_value v); dsimp only [v]) | intro v | lift_lets | with_reducible apply keeps_foldl | with_reducible apply keeps_foldl_fst | with_reducible apply keeps_foldl_snd | (simp only [keeps_mk_iff]; apply keepsP_of) | with_reducible rfl | split | (clear_value *; split) | dsimp only)

theorem keeps_startRider {s : State} (h0 : Keeps s0 s) : Keeps s0 (@State.startRider s) := by
  unfold State.startRider
  repeat' (first | with_reducible assumption | with_reducible apply keeps_goFree | with_reducible apply keeps_setF | with_reducible apply keeps_applyFuse | (intro v; refine keeps_cut s0 v ?_ (fun hv => ?_); (on_goal 2 => try clear_value v); dsimp only [v]) | intro v | lift_lets | with_reducible apply keeps_foldl | with_reducible apply keeps_foldl_fst | with_reducible apply keeps_foldl_snd | (simp only [keeps_mk_iff]; apply keepsP_of) | with_reducible rfl | split | (clear_value *; split) | dsimp only)

theorem keeps_bootFrom {s : State} (slot) (h0 : Keeps s0 s) : Keeps s0 (@State.bootFrom s slot) := by
  unfold State.bootFrom
  repeat' (first | with_reducible assumption | with_reducible apply keeps_startRider | with_reducible apply keeps_setSlotState | with_reducible apply keeps_setF | with_reducible apply keeps_prefer | with_reducible apply keeps_showBuilds | with_reducible apply keeps_loadSettings | with_reducible apply keeps_measureStart | with_reducible apply keeps_riderRecord | (intro v; refine keeps_cut s0 v ?_ (fun hv => ?_); (on_goal 2 => try clear_value v); dsimp only [v]) | intro v | lift_lets | with_reducible apply keeps_ite | (simp only [keeps_mk_iff]; apply keepsP_of) | with_reducible rfl | split | (clear_value *; split) | dsimp only)

theorem keeps_bootRecovery {s : State} (h0 : Keeps s0 s) : Keeps s0 (@State.bootRecovery s) := by
  unfold State.bootRecovery
  repeat' (first | with_reducible assumption | with_reducible apply keeps_startRider | with_reducible apply keeps_setF | with_reducible apply keeps_setSlotState | with_reducible apply keeps_measureState | (intro v; refine keeps_cut s0 v ?_ (fun hv => ?_); (on_goal 2 => try clear_value v); dsimp only [v]) | intro v | lift_lets | (simp only [keeps_mk_iff]; apply keepsP_of) | with_reducible rfl | split | (clear_value *; split) | dsimp only)

theorem keeps_execRiderRelease {s : State} (h0 : Keeps s0 s) : KeepsO s0 (@execRiderRelease s) := by
  unfold execRiderRelease
  repeat' (first | with_reducible assumption | with_reducible apply keeps_bootFrom | with_reducible apply keeps_bootRecovery | with_reducible apply keepsO_next | (intro v; refine keeps_cut s0 v ?_ (fun hv => ?_); (on_goal 2 => try clear_value v); dsimp only [v]) | intro v | lift_lets | with_reducible apply keeps_ite | (simp only [keeps_mk_iff]; apply keepsP_of) | with_reducible rfl | split | (clear_value *; split) | dsimp only)

theorem keeps_takeFinding {s : State} (f) (h0 : Keeps s0 s) : Keeps s0 (@State.takeFinding s f) := by
  unfold State.takeFinding
  repeat' (first | with_reducible assumption | with_reducible apply keeps_findingRecord | with_reducible apply keeps_setErase | with_reducible apply keeps_addFieldEntry | with_reducible apply keeps_addRows | (intro v; refine keeps_cut s0 v ?_ (fun hv => ?_); (on_goal 2 => try clear_value v); dsimp only [v]) | intro v | lift_lets | with_reducible apply keeps_ite | (simp only [keeps_mk_iff]; apply keepsP_of) | with_reducible rfl | split | (clear_value *; split) | dsimp only)

theorem keeps_zeroMemory {s : State} (h : Keeps s0 s) : Keeps s0 s.zeroMemory :=
  ⟨h.pending, fun _ => SMap.Canon.nil _, fun _ => SMap.Canon.nil _, h.regs, h.log, h.dumps⟩

theorem keeps_execPatternTest (findings) {s : State} (h0 : Keeps s0 s) : KeepsO s0 (@execPatternTest findings s) := by
  unfold execPatternTest
  repeat' (first | with_reducible assumption | with_reducible apply keeps_takeFinding | with_reducible apply keeps_zeroMemory | with_reducible apply keeps_setF | with_reducible apply keeps_failCistern | with_reducible apply keeps_moduleOffline | with_reducible apply keepsO_next | (intro v; refine keeps_cut s0 v ?_ (fun hv => ?_); (on_goal 2 => try clear_value v); dsimp only [v]) | intro v | lift_lets | with_reducible apply keeps_foldl | with_reducible apply keeps_foldl_fst | with_reducible apply keeps_foldl_snd | with_reducible apply keeps_ite | (simp only [keeps_mk_iff]; apply keepsP_of) | with_reducible rfl | split | (clear_value *; split) | dsimp only)

theorem keeps_enterStage {s : State} (st) (h0 : Keeps s0 s) : Keeps s0 (@State.enterStage s st) := by
  unfold State.enterStage
  repeat' (first | with_reducible assumption | with_reducible apply keeps_setF | (intro v; refine keeps_cut s0 v ?_ (fun hv => ?_); (on_goal 2 => try clear_value v); dsimp only [v]) | intro v | lift_lets | (simp only [keeps_mk_iff]; apply keepsP_of) | with_reducible rfl | split | (clear_value *; split) | dsimp only)

theorem keeps_execConsistencyCheck {s : State} (h0 : Keeps s0 s) : KeepsO s0 (@execConsistencyCheck s) := by
  unfold execConsistencyCheck
  repeat' (first | with_reducible assumption | with_reducible apply keeps_enterStage | with_reducible apply keeps_setF | with_reducible apply keepsO_next | (intro v; refine keeps_cut s0 v ?_ (fun hv => ?_); (on_goal 2 => try clear_value v); dsimp only [v]) | intro v | lift_lets | with_reducible apply keeps_ite | (simp only [keeps_mk_iff]; apply keepsP_of) | with_reducible rfl | split | (clear_value *; split) | dsimp only)

theorem keeps_execConsistencyTimeout {s : State} (h0 : Keeps s0 s) : KeepsO s0 (@execConsistencyTimeout s) := by
  unfold execConsistencyTimeout
  repeat' (first | with_reducible assumption | with_reducible apply keeps_record | with_reducible apply keeps_enterStage | with_reducible apply keepsO_next | (intro v; refine keeps_cut s0 v ?_ (fun hv => ?_); (on_goal 2 => try clear_value v); dsimp only [v]) | intro v | lift_lets | with_reducible apply keeps_ite | (simp only [keeps_mk_iff]; apply keepsP_of) | with_reducible rfl | split | (clear_value *; split) | dsimp only)

theorem keeps_enterReady {s : State} (h0 : Keeps s0 s) : Keeps s0 (@State.enterReady s) := by
  unfold State.enterReady
  repeat' (first | with_reducible assumption | with_reducible apply keeps_setF | with_reducible apply keeps_serviceSlates | with_reducible apply keeps_enterStage | (intro v; refine keeps_cut s0 v ?_ (fun hv => ?_); (on_goal 2 => try clear_value v); dsimp only [v]) | intro v | lift_lets | with_reducible apply keeps_ite | (simp only [keeps_mk_iff]; apply keepsP_of) | with_reducible rfl | split | (clear_value *; split) | dsimp only)

theorem keeps_checkTopology {s : State} (h0 : Keeps s0 s) : Keeps s0 (@State.checkTopology s) := by
  unfold State.checkTopology
  repeat' (first | with_reducible assumption | with_reducible apply keeps_setF | with_reducible apply keeps_enterReady | with_reducible apply keeps_enterStage | with_reducible apply keeps_record | (intro v; refine keeps_cut s0 v ?_ (fun hv => ?_); (on_goal 2 => try clear_value v); dsimp only [v]) | intro v | lift_lets | with_reducible apply keeps_ite | (simp only [keeps_mk_iff]; apply keepsP_of) | with_reducible rfl | split | (clear_value *; split) | dsimp only)

theorem keeps_rejudge {s : State} (h0 : Keeps s0 s) : Keeps s0 (@State.rejudge s) := by
  unfold State.rejudge
  repeat' (first | with_reducible assumption | with_reducible apply keeps_setF | with_reducible apply keeps_record | with_reducible apply keeps_enterReady | (intro v; refine keeps_cut s0 v ?_ (fun hv => ?_); (on_goal 2 => try clear_value v); dsimp only [v]) | intro v | lift_lets | with_reducible apply keeps_foldl | with_reducible apply keeps_foldl_fst | with_reducible apply keeps_foldl_snd | with_reducible apply keeps_ite | (simp only [keeps_mk_iff]; apply keepsP_of) | with_reducible rfl | split | (clear_value *; split) | dsimp only)

theorem keeps_execTopologyCheck {s : State} (h0 : Keeps s0 s) : KeepsO s0 (@execTopologyCheck s) := by
  unfold execTopologyCheck
  repeat' (first | with_reducible assumption | with_reducible apply keeps_checkTopology | with_reducible apply keeps_rejudge | with_reducible apply keepsO_next | (intro v; refine keeps_cut s0 v ?_ (fun hv => ?_); (on_goal 2 => try clear_value v); dsimp only [v]) | intro v | lift_lets | with_reducible apply keeps_ite | (simp only [keeps_mk_iff]; apply keepsP_of) | with_reducible rfl | split | (clear_value *; split) | dsimp only)

theorem keeps_cmdTopoRecheck (x0) (x1) {s : State} (h0 : Keeps s0 s) : Keeps s0 (@cmdTopoRecheck  x0 x1 s).2 := by
  unfold cmdTopoRecheck
  repeat' (first | with_reducible assumption | with_reducible apply keeps_checkTopology | (intro v; refine keeps_cut s0 v ?_ (fun hv => ?_); (on_goal 2 => try clear_value v); dsimp only [v]) | intro v | lift_lets | with_reducible apply keeps_ite | (simp only [keeps_mk_iff]; apply keepsP_of) | with_reducible rfl | split | (clear_value *; split) | dsimp only)

theorem keeps_execTopoRecheck (chan) {s : State} (h0 : Keeps s0 s) : KeepsO s0 (@execTopoRecheck chan s) := by
  unfold execTopoRecheck
  repeat' (first | with_reducible assumption | with_reducible apply keeps_mbxCmd | with_reducible apply keepsO_next | (intro v; refine keeps_cut s0 v ?_ (fun hv => ?_); (on_goal 2 => try clear_value v); dsimp only [v]) | intro v | lift_lets | (simp only [keeps_mk_iff]; apply keepsP_of) | with_reducible rfl | (refine keeps_of_snd (by with_reducible assumption) ?_) | (refine keeps_of_fst (by with_reducible assumption) ?_) | split | (clear_value *; split) | with_reducible apply keeps_cmdTopoRecheck | dsimp only)

/-! ### Machine/Security.lean -/

theorem keeps_setConn {s : State} (t_) (c) (h0 : Keeps s0 s) : Keeps s0 (@State.setConn s t_ c) := by
  unfold State.setConn
  repeat' (first | with_reducible assumption | (intro v; refine keeps_cut s0 v ?_ (fun hv => ?_); (on_goal 2 => try clear_value v); dsimp only [v]) | intro v | lift_lets | (simp only [keeps_mk_iff]; apply keepsP_of) | with_reducible rfl | split | (clear_value *; split) | dsimp only)

theorem keeps_spdmReply {s : State} (t_) (code) (body) (h0 : Keeps s0 s) : Keeps s0 (@State.spdmReply s t_ code body) := by
  unfold State.spdmReply
  repeat' (first | with_reducible assumption | with_reducible apply keeps_emit | (intro v; refine keeps_cut s0 v ?_ (fun hv => ?_); (on_goal 2 => try clear_value v); dsimp only [v]) | intro v | lift_lets | (simp only [keeps_mk_iff]; apply keepsP_of) | with_reducible rfl | split | (clear_value *; split) | dsimp only)

theorem keeps_spdmError {s : State} (t_) (e) (h0 : Keeps s0 s) : Keeps s0 (@State.spdmError s t_ e) := by
  unfold State.spdmError
  repeat' (first | with_reducible assumption | with_reducible apply keeps_spdmReply | (intro v; refine keeps_cut s0 v ?_ (fun hv => ?_); (on_goal 2 => try clear_value v); dsimp only [v]) | intro v | lift_lets | (simp only [keeps_mk_iff]; apply keepsP_of) | with_reducible rfl | split | (clear_value *; split) | dsimp only)

theorem keeps_spdm {s : State} (t_) (ready) (f) (h0 : Keeps s0 s) (h1 : ∀ y0, Keeps s0 y0 → Keeps s0 (f y0)) : Keeps s0 (@State.spdm s t_ ready f) := by
  unfold State.spdm
  repeat' (first | with_reducible assumption | with_reducible apply h1 | with_reducible apply keeps_riderFirst | with_reducible apply keeps_spdmError | (intro v; refine keeps_cut s0 v ?_ (fun hv => ?_); (on_goal 2 => try clear_value v); dsimp only [v]) | intro v | lift_lets | with_reducible apply keeps_ite | (simp only [keeps_mk_iff]; apply keepsP_of) | with_reducible rfl | split | (clear_value *; split) | dsimp only)

theorem keeps_execGetVersion (t_) {s : State} (h0 : Keeps s0 s) : KeepsO s0 (@execGetVersion t_ s) := by
  unfold execGetVersion
  repeat' (first | with_reducible assumption | with_reducible apply keeps_spdm | with_reducible apply keeps_setConn | with_reducible apply keeps_spdmReply | with_reducible apply keepsO_next | (intro v; refine keeps_cut s0 v ?_ (fun hv => ?_); (on_goal 2 => try clear_value v); dsimp only [v]) | intro v | lift_lets | (simp only [keeps_mk_iff]; apply keepsP_of) | with_reducible rfl | split | (clear_value *; split) | dsimp only)

theorem keeps_execGetCapabilities (t_) {s : State} (h0 : Keeps s0 s) : KeepsO s0 (@execGetCapabilities t_ s) := by
  unfold execGetCapabilities
  repeat' (first | with_reducible assumption | with_reducible apply keeps_spdm | with_reducible apply keeps_setConn | with_reducible apply keeps_spdmReply | with_reducible apply keepsO_next | (intro v; refine keeps_cut s0 v ?_ (fun hv => ?_); (on_goal 2 => try clear_value v); dsimp only [v]) | intro v | lift_lets | (simp only [keeps_mk_iff]; apply keepsP_of) | with_reducible rfl | split | (clear_value *; split) | dsimp only)

theorem keeps_execNegotiateAlgorithms (t_) (supported) {s : State} (h0 : Keeps s0 s) : KeepsO s0 (@execNegotiateAlgorithms t_ supported s) := by
  unfold execNegotiateAlgorithms
  repeat' (first | with_reducible assumption | with_reducible apply keeps_spdm | with_reducible apply keeps_setConn | with_reducible apply keeps_spdmReply | with_reducible apply keeps_spdmError | with_reducible apply keepsO_next | (intro v; refine keeps_cut s0 v ?_ (fun hv => ?_); (on_goal 2 => try clear_value v); dsimp only [v]) | intro v | lift_lets | with_reducible apply keeps_ite | (simp only [keeps_mk_iff]; apply keepsP_of) | with_reducible rfl | split | (clear_value *; split) | dsimp only)

theorem keeps_execGetDigests (t_) {s : State} (h0 : Keeps s0 s) : KeepsO s0 (@execGetDigests t_ s) := by
  unfold execGetDigests
  repeat' (first | with_reducible assumption | with_reducible apply keeps_spdm | with_reducible apply keeps_spdmReply | with_reducible apply keepsO_next | (intro v; refine keeps_cut s0 v ?_ (fun hv => ?_); (on_goal 2 => try clear_value v); dsimp only [v]) | intro v | lift_lets | (simp only [keeps_mk_iff]; apply keepsP_of) | with_reducible rfl | split | (clear_value *; split) | dsimp only)

theorem keeps_execGetCertificate (t_) (slot) (offset) (length) {s : State} (h0 : Keeps s0 s) : KeepsO s0 (@execGetCertificate t_ slot offset length s) := by
  unfold execGetCertificate
  repeat' (first | with_reducible assumption | with_reducible apply keeps_spdm | with_reducible apply keeps_spdmError | with_reducible apply keeps_spdmReply | with_reducible apply keepsO_next | (intro v; refine keeps_cut s0 v ?_ (fun hv => ?_); (on_goal 2 => try clear_value v); dsimp only [v]) | intro v | lift_lets | with_reducible apply keeps_ite | (simp only [keeps_mk_iff]; apply keepsP_of) | with_reducible rfl | split | (clear_value *; split) | dsimp only)

theorem keeps_issueNonce {s : State} (h0 : Keeps s0 s) : Keeps s0 (@State.issueNonce s).2 := by
  unfold State.issueNonce
  repeat' (first | with_reducible assumption | (intro v; refine keeps_cut s0 v ?_ (fun hv => ?_); (on_goal 2 => try clear_value v); dsimp only [v]) | intro v | lift_lets | (simp only [keeps_mk_iff]; apply keepsP_of) | with_reducible rfl | (refine keeps_of_snd (by with_reducible assumption) ?_) | (refine keeps_of_fst (by with_reducible assumption) ?_) | split | (clear_value *; split) | with_reducible apply keeps_freshWord | dsimp only)

theorem keeps_execChallenge (t_) (slot) (nonce) {s : State} (h0 : Keeps s0 s) : KeepsO s0 (@execChallenge t_ slot nonce s) := by
  unfold execChallenge
  repeat' (first | with_reducible assumption | with_reducible apply keeps_spdm | with_reducible apply keeps_spdmError | with_reducible apply keeps_spdmReply | with_reducible apply keepsO_next | (intro v; refine keeps_cut s0 v ?_ (fun hv => ?_); (on_goal 2 => try clear_value v); dsimp only [v]) | intro v | lift_lets | with_reducible apply keeps_ite | (simp only [keeps_mk_iff]; apply keepsP_of) | with_reducible rfl | (refine keeps_of_snd (by with_reducible assumption) ?_) | (refine keeps_of_fst (by with_reducible assumption) ?_) | split | (clear_value *; split) | with_reducible apply keeps_issueNonce | dsimp only)

theorem keeps_execGetMeasurements (t_) (index) (nonce) {s : State} (h0 : Keeps s0 s) : KeepsO s0 (@execGetMeasurements t_ index nonce s) := by
  unfold execGetMeasurements
  repeat' (first | with_reducible assumption | with_reducible apply keeps_spdm | with_reducible apply keeps_spdmError | with_reducible apply keeps_spdmReply | with_reducible apply keepsO_next | (intro v; refine keeps_cut s0 v ?_ (fun hv => ?_); (on_goal 2 => try clear_value v); dsimp only [v]) | intro v | lift_lets | (simp only [keeps_mk_iff]; apply keepsP_of) | with_reducible rfl | (refine keeps_of_snd (by with_reducible assumption) ?_) | (refine keeps_of_fst (by with_reducible assumption) ?_) | split | (clear_value *; split) | with_reducible apply keeps_issueNonce | dsimp only)

theorem keeps_setSessions {s : State} (l) (h0 : Keeps s0 s) : Keeps s0 (@State.setSessions s l) := by
  unfold State.setSessions
  repeat' (first | with_reducible assumption | (intro v; refine keeps_cut s0 v ?_ (fun hv => ?_); (on_goal 2 => try clear_value v); dsimp only [v]) | intro v | lift_lets | (simp only [keeps_mk_iff]; apply keepsP_of) | with_reducible rfl | split | (clear_value *; split) | dsimp only)

theorem keeps_execKeyExchange (t_) (random) (exchange) {s : State} (h0 : Keeps s0 s) : KeepsO s0 (@execKeyExchange t_ random exchange s) := by
  unfold execKeyExchange
  repeat' (first | with_reducible assumption | with_reducible apply keeps_spdm | with_reducible apply keeps_spdmError | with_reducible apply keeps_setSessions | with_reducible apply keeps_spdmReply | with_reducible apply keepsO_next | (intro v; refine keeps_cut s0 v ?_ (fun hv => ?_); (on_goal 2 => try clear_value v); dsimp only [v]) | intro v | lift_lets | with_reducible apply keeps_ite | (simp only [keeps_mk_iff]; apply keepsP_of) | with_reducible rfl | (refine keeps_of_snd (by with_reducible assumption) ?_) | (refine keeps_of_fst (by with_reducible assumption) ?_) | split | (clear_value *; split) | with_reducible apply keeps_freshWord | dsimp only)

theorem keeps_execFinish (t_) (session) (chain) (verified) {s : State} (h0 : Keeps s0 s) : KeepsO s0 (@execFinish t_ session chain verified s) := by
  unfold execFinish
  repeat' (first | with_reducible assumption | with_reducible apply keeps_spdm | with_reducible apply keeps_spdmError | with_reducible apply keeps_setSessions | with_reducible apply keeps_spdmReply | with_reducible apply keepsO_next | (intro v; refine keeps_cut s0 v ?_ (fun hv => ?_); (on_goal 2 => try clear_value v); dsimp only [v]) | intro v | lift_lets | with_reducible apply keeps_ite | (simp only [keeps_mk_iff]; apply keepsP_of) | with_reducible rfl | split | (clear_value *; split) | dsimp only)

theorem keeps_inSession {s : State} (t_) (id) (f) (h0 : Keeps s0 s) (h1 : ∀ y0, Keeps s0 y0 → Keeps s0 (f y0)) : Keeps s0 (@State.inSession s t_ id f) := by
  unfold State.inSession
  repeat' (first | with_reducible assumption | with_reducible apply h1 | with_reducible apply keeps_spdm | with_reducible apply keeps_spdmError | (intro v; refine keeps_cut s0 v ?_ (fun hv => ?_); (on_goal 2 => try clear_value v); dsimp only [v]) | intro v | lift_lets | with_reducible apply keeps_ite | (simp only [keeps_mk_iff]; apply keepsP_of) | with_reducible rfl | split | (clear_value *; split) | dsimp only)

theorem keeps_execHeartbeat (t_) (session) {s : State} (h0 : Keeps s0 s) : KeepsO s0 (@execHeartbeat t_ session s) := by
  unfold execHeartbeat
  repeat' (first | with_reducible assumption | with_reducible apply keeps_inSession | with_reducible apply keeps_spdmReply | with_reducible apply keepsO_next | (intro v; refine keeps_cut s0 v ?_ (fun hv => ?_); (on_goal 2 => try clear_value v); dsimp only [v]) | intro v | lift_lets | (simp only [keeps_mk_iff]; apply keepsP_of) | with_reducible rfl | split | (clear_value *; split) | dsimp only)

theorem keeps_execKeyUpdate (t_) (session) {s : State} (h0 : Keeps s0 s) : KeepsO s0 (@execKeyUpdate t_ session s) := by
  unfold execKeyUpdate
  repeat' (first | with_reducible assumption | with_reducible apply keeps_inSession | with_reducible apply keeps_setSessions | with_reducible apply keeps_spdmReply | with_reducible apply keepsO_next | (intro v; refine keeps_cut s0 v ?_ (fun hv => ?_); (on_goal 2 => try clear_value v); dsimp only [v]) | intro v | lift_lets | with_reducible apply keeps_ite | (simp only [keeps_mk_iff]; apply keepsP_of) | with_reducible rfl | split | (clear_value *; split) | dsimp only)

theorem keeps_execEndSession (t_) (session) {s : State} (h0 : Keeps s0 s) : KeepsO s0 (@execEndSession t_ session s) := by
  unfold execEndSession
  repeat' (first | with_reducible assumption | with_reducible apply keeps_inSession | with_reducible apply keeps_setSessions | with_reducible apply keeps_spdmReply | with_reducible apply keepsO_next | (intro v; refine keeps_cut s0 v ?_ (fun hv => ?_); (on_goal 2 => try clear_value v); dsimp only [v]) | intro v | lift_lets | (simp only [keeps_mk_iff]; apply keepsP_of) | with_reducible rfl | split | (clear_value *; split) | dsimp only)

theorem keeps_execKeyDeliver (t_) (session) (body) {s : State} (h0 : Keeps s0 s) : KeepsO s0 (@execKeyDeliver t_ session body s) := by
  unfold execKeyDeliver
  repeat' (first | with_reducible assumption | with_reducible apply keeps_inSession | with_reducible apply keeps_spdmReply | with_reducible apply keepsO_next | (intro v; refine keeps_cut s0 v ?_ (fun hv => ?_); (on_goal 2 => try clear_value v); dsimp only [v]) | intro v | lift_lets | (simp only [keeps_mk_iff]; apply keepsP_of) | with_reducible rfl | (refine keeps_of_snd (by with_reducible assumption) ?_) | (refine keeps_of_fst (by with_reducible assumption) ?_) | split | (clear_value *; split) | with_reducible apply keeps_keyDeliver | dsimp only)

theorem keeps_spRecord {s : State} (status) (h0 : Keeps s0 s) : Keeps s0 (@State.spRecord s status) := by
  unfold State.spRecord
  repeat' (first | with_reducible assumption | with_reducible apply keeps_record | (intro v; refine keeps_cut s0 v ?_ (fun hv => ?_); (on_goal 2 => try clear_value v); dsimp only [v]) | intro v | lift_lets | (simp only [keeps_mk_iff]; apply keepsP_of) | with_reducible rfl | split | (clear_value *; split) | dsimp only)

theorem keeps_destroyKeys {s : State} (h0 : Keeps s0 s) : Keeps s0 (@State.destroyKeys s) := by
  unfold State.destroyKeys
  repeat' (first | with_reducible assumption | with_reducible apply keeps_clearRegs | with_reducible apply keeps_setF | with_reducible apply keeps_countSlots | with_reducible apply keeps_measureState | (intro v; refine keeps_cut s0 v ?_ (fun hv => ?_); (on_goal 2 => try clear_value v); dsimp only [v]) | intro v | lift_lets | (simp only [keeps_mk_iff]; apply keepsP_of) | with_reducible rfl | split | (clear_value *; split) | dsimp only)

theorem keeps_coldStart {s : State} (h0 : Keeps s0 s) : Keeps s0 (@State.coldStart s) := by
  unfold State.coldStart
  repeat' (first | with_reducible assumption | with_reducible apply keeps_powerOff | with_reducible apply keeps_powerUp | (intro v; refine keeps_cut s0 v ?_ (fun hv => ?_); (on_goal 2 => try clear_value v); dsimp only [v]) | intro v | lift_lets | (simp only [keeps_mk_iff]; apply keepsP_of) | with_reducible rfl | split | (clear_value *; split) | dsimp only)

theorem keeps_presenceStep {s : State} (a) (h0 : Keeps s0 s) : Keeps s0 (@State.presenceStep s a) := by
  unfold State.presenceStep
  repeat' (first | with_reducible assumption | with_reducible apply keeps_destroyKeys | with_reducible apply keeps_raiseAbort | with_reducible apply keeps_setF | with_reducible apply keeps_measureState | with_reducible apply keeps_coldStart | (intro v; refine keeps_cut s0 v ?_ (fun hv => ?_); (on_goal 2 => try clear_value v); dsimp only [v]) | intro v | lift_lets | with_reducible apply keeps_foldl | with_reducible apply keeps_foldl_fst | with_reducible apply keeps_foldl_snd | with_reducible apply keeps_ite | (simp only [keeps_mk_iff]; apply keepsP_of) | with_reducible rfl | split | (clear_value *; split) | dsimp only)

theorem keeps_nextStep {s : State} (h0 : Keeps s0 s) : Keeps s0 (@State.nextStep s) := by
  unfold State.nextStep
  repeat' (first | with_reducible assumption | with_reducible apply keeps_presenceStep | (intro v; refine keeps_cut s0 v ?_ (fun hv => ?_); (on_goal 2 => try clear_value v); dsimp only [v]) | intro v | lift_lets | (simp only [keeps_mk_iff]; apply keepsP_of) | with_reducible rfl | split | (clear_value *; split) | dsimp only)

theorem keeps_beginSteps {s : State} (l) (h0 : Keeps s0 s) : Keeps s0 (@State.beginSteps s l) := by
  unfold State.beginSteps
  repeat' (first | with_reducible assumption | with_reducible apply keeps_nextStep | (intro v; refine keeps_cut s0 v ?_ (fun hv => ?_); (on_goal 2 => try clear_value v); dsimp only [v]) | intro v | lift_lets | with_reducible apply keeps_ite | (simp only [keeps_mk_iff]; apply keepsP_of) | with_reducible rfl | split | (clear_value *; split) | dsimp only)

theorem keeps_decideUnlock {s : State} (k) (h0 : Keeps s0 s) : Keeps s0 (@State.decideUnlock s k) := by
  unfold State.decideUnlock
  repeat' (first | with_reducible assumption | with_reducible apply keeps_beginSteps | with_reducible apply keeps_spRecord | (intro v; refine keeps_cut s0 v ?_ (fun hv => ?_); (on_goal 2 => try clear_value v); dsimp only [v]) | intro v | lift_lets | with_reducible apply keeps_ite | (simp only [keeps_mk_iff]; apply keepsP_of) | with_reducible rfl | split | (clear_value *; split) | dsimp only)

theorem keeps_execDebugUnlock (token) {s : State} (h0 : Keeps s0 s) : KeepsO s0 (@execDebugUnlock token s) := by
  unfold execDebugUnlock
  repeat' (first | with_reducible assumption | with_reducible apply keeps_decideUnlock | with_reducible apply keeps_spRecord | with_reducible apply keepsO_next | (intro v; refine keeps_cut s0 v ?_ (fun hv => ?_); (on_goal 2 => try clear_value v); dsimp only [v]) | intro v | lift_lets | with_reducible apply keeps_ite | (simp only [keeps_mk_iff]; apply keepsP_of) | with_reducible rfl | split | (clear_value *; split) | dsimp only)

theorem keeps_execFuseProgramming (image) {s : State} (h0 : Keeps s0 s) : KeepsO s0 (@execFuseProgramming image s) := by
  unfold execFuseProgramming
  repeat' (first | with_reducible assumption | with_reducible apply keeps_beginSteps | with_reducible apply keeps_spRecord | with_reducible apply keepsO_next | (intro v; refine keeps_cut s0 v ?_ (fun hv => ?_); (on_goal 2 => try clear_value v); dsimp only [v]) | intro v | lift_lets | with_reducible apply keeps_ite | (simp only [keeps_mk_iff]; apply keepsP_of) | with_reducible rfl | split | (clear_value *; split) | dsimp only)

theorem keeps_execForcedRecoveryBoot (session) {s : State} (h0 : Keeps s0 s) : KeepsO s0 (@execForcedRecoveryBoot session s) := by
  unfold execForcedRecoveryBoot
  repeat' (first | with_reducible assumption | with_reducible apply keeps_beginSteps | with_reducible apply keeps_spRecord | with_reducible apply keepsO_next | (intro v; refine keeps_cut s0 v ?_ (fun hv => ?_); (on_goal 2 => try clear_value v); dsimp only [v]) | intro v | lift_lets | with_reducible apply keeps_ite | (simp only [keeps_mk_iff]; apply keepsP_of) | with_reducible rfl | split | (clear_value *; split) | dsimp only)

theorem keeps_execCredentialReset {s : State} (h0 : Keeps s0 s) : KeepsO s0 (@execCredentialReset s) := by
  unfold execCredentialReset
  repeat' (first | with_reducible assumption | with_reducible apply keeps_beginSteps | with_reducible apply keeps_spRecord | with_reducible apply keepsO_next | (intro v; refine keeps_cut s0 v ?_ (fun hv => ?_); (on_goal 2 => try clear_value v); dsimp only [v]) | intro v | lift_lets | with_reducible apply keeps_ite | (simp only [keeps_mk_iff]; apply keepsP_of) | with_reducible rfl | split | (clear_value *; split) | dsimp only)

theorem keeps_execPresenceDeassert {s : State} (h0 : Keeps s0 s) : KeepsO s0 (@execPresenceDeassert s) := by
  unfold execPresenceDeassert
  repeat' (first | with_reducible assumption | with_reducible apply keeps_setF | with_reducible apply keeps_measureState | with_reducible apply keeps_spRecord | with_reducible apply keepsO_next | (intro v; refine keeps_cut s0 v ?_ (fun hv => ?_); (on_goal 2 => try clear_value v); dsimp only [v]) | intro v | lift_lets | with_reducible apply keeps_ite | (simp only [keeps_mk_iff]; apply keepsP_of) | with_reducible rfl | split | (clear_value *; split) | dsimp only)

theorem keeps_tdispReply {s : State} (v_) (code) (body) (h0 : Keeps s0 s) : Keeps s0 (@State.tdispReply s v_ code body) := by
  unfold State.tdispReply
  repeat' (first | with_reducible assumption | with_reducible apply keeps_spdmReply | (intro v; refine keeps_cut s0 v ?_ (fun hv => ?_); (on_goal 2 => try clear_value v); dsimp only [v]) | intro v | lift_lets | (simp only [keeps_mk_iff]; apply keepsP_of) | with_reducible rfl | split | (clear_value *; split) | dsimp only)

theorem keeps_tdisp {s : State} (v_) (session) (f) (h0 : Keeps s0 s) (h1 : ∀ y0, Keeps s0 y0 → Keeps s0 (f y0)) : Keeps s0 (@State.tdisp s v_ session f) := by
  unfold State.tdisp
  repeat' (first | with_reducible assumption | with_reducible apply h1 | with_reducible apply keeps_inSession | with_reducible apply keeps_tdispReply | (intro v; refine keeps_cut s0 v ?_ (fun hv => ?_); (on_goal 2 => try clear_value v); dsimp only [v]) | intro v | lift_lets | with_reducible apply keeps_ite | (simp only [keeps_mk_iff]; apply keepsP_of) | with_reducible rfl | split | (clear_value *; split) | dsimp only)

theorem keeps_execLockInterfaceRequest (vf) (session) (stream) {s : State} (h0 : Keeps s0 s) : KeepsO s0 (@execLockInterfaceRequest vf session stream s) := by
  unfold execLockInterfaceRequest
  repeat' (first | with_reducible assumption | with_reducible apply keeps_tdisp | with_reducible apply keeps_tdispReply | with_reducible apply keeps_setReg | with_reducible apply keepsO_next | (intro v; refine keeps_cut s0 v ?_ (fun hv => ?_); (on_goal 2 => try clear_value v); dsimp only [v]) | intro v | lift_lets | with_reducible apply keeps_ite | (simp only [keeps_mk_iff]; apply keepsP_of) | with_reducible rfl | split | (clear_value *; split) | dsimp only)

theorem keeps_execGetDeviceInterfaceReport (vf) (session) {s : State} (h0 : Keeps s0 s) : KeepsO s0 (@execGetDeviceInterfaceReport vf session s) := by
  unfold execGetDeviceInterfaceReport
  repeat' (first | with_reducible assumption | with_reducible apply keeps_tdisp | with_reducible apply keeps_tdispReply | with_reducible apply keepsO_next | (intro v; refine keeps_cut s0 v ?_ (fun hv => ?_); (on_goal 2 => try clear_value v); dsimp only [v]) | intro v | lift_lets | (simp only [keeps_mk_iff]; apply keepsP_of) | with_reducible rfl | split | (clear_value *; split) | dsimp only)

theorem keeps_execTdiRunRequest (vf) (session) {s : State} (h0 : Keeps s0 s) : KeepsO s0 (@execTdiRunRequest vf session s) := by
  unfold execTdiRunRequest
  repeat' (first | with_reducible assumption | with_reducible apply keeps_tdisp | with_reducible apply keeps_setF | with_reducible apply keeps_tdispReply | with_reducible apply keepsO_next | (intro v; refine keeps_cut s0 v ?_ (fun hv => ?_); (on_goal 2 => try clear_value v); dsimp only [v]) | intro v | lift_lets | with_reducible apply keeps_ite | (simp only [keeps_mk_iff]; apply keepsP_of) | with_reducible rfl | split | (clear_value *; split) | dsimp only)

theorem keeps_execStopInterfaceRequest (vf) (session) {s : State} (h0 : Keeps s0 s) : KeepsO s0 (@execStopInterfaceRequest vf session s) := by
  unfold execStopInterfaceRequest
  repeat' (first | with_reducible assumption | with_reducible apply keeps_tdisp | with_reducible apply keeps_tdispReply | with_reducible apply keeps_setReg | with_reducible apply keepsO_next | (intro v; refine keeps_cut s0 v ?_ (fun hv => ?_); (on_goal 2 => try clear_value v); dsimp only [v]) | intro v | lift_lets | with_reducible apply keeps_ite | (simp only [keeps_mk_iff]; apply keepsP_of) | with_reducible rfl | split | (clear_value *; split) | dsimp only)

theorem keeps_tdiError {s : State} (v_) (h0 : Keeps s0 s) : Keeps s0 (@State.tdiError s v_) := by
  unfold State.tdiError
  repeat' (first | with_reducible assumption | with_reducible apply keeps_raiseAbort | with_reducible apply keeps_setF | with_reducible apply keeps_startPartReset | with_reducible apply keeps_startClear | (intro v; refine keeps_cut s0 v ?_ (fun hv => ?_); (on_goal 2 => try clear_value v); dsimp only [v]) | intro v | lift_lets | with_reducible apply keeps_foldl | with_reducible apply keeps_foldl_fst | with_reducible apply keeps_foldl_snd | (simp only [keeps_mk_iff]; apply keepsP_of) | with_reducible rfl | split | (clear_value *; split) | dsimp only)

theorem keeps_execTdiTlpViolation (vf) {s : State} (h0 : Keeps s0 s) : KeepsO s0 (@execTdiTlpViolation vf s) := by
  unfold execTdiTlpViolation
  repeat' (first | with_reducible assumption | with_reducible apply keeps_emit | with_reducible apply keeps_tdiError | with_reducible apply keepsO_next | (intro v; refine keeps_cut s0 v ?_ (fun hv => ?_); (on_goal 2 => try clear_value v); dsimp only [v]) | intro v | lift_lets | with_reducible apply keeps_ite | (simp only [keeps_mk_iff]; apply keepsP_of) | with_reducible rfl | split | (clear_value *; split) | dsimp only)

theorem keeps_execIdeKm (port) (session) (stream) (key) {s : State} (h0 : Keeps s0 s) : KeepsO s0 (@execIdeKm port session stream key s) := by
  unfold execIdeKm
  repeat' (first | with_reducible assumption | with_reducible apply keeps_inSession | with_reducible apply keeps_spdmError | with_reducible apply keeps_spdmReply | with_reducible apply keepsO_next | (intro v; refine keeps_cut s0 v ?_ (fun hv => ?_); (on_goal 2 => try clear_value v); dsimp only [v]) | intro v | lift_lets | with_reducible apply keeps_ite | (simp only [keeps_mk_iff]; apply keepsP_of) | with_reducible rfl | split | (clear_value *; split) | dsimp only)

theorem keeps_execFabricKeyInstall (session) (gen) (key) {s : State} (h0 : Keeps s0 s) : KeepsO s0 (@execFabricKeyInstall session gen key s) := by
  unfold execFabricKeyInstall
  repeat' (first | with_reducible assumption | with_reducible apply keeps_newGen | with_reducible apply keeps_setF | with_reducible apply keeps_measureState | with_reducible apply keepsO_next | (intro v; refine keeps_cut s0 v ?_ (fun hv => ?_); (on_goal 2 => try clear_value v); dsimp only [v]) | intro v | lift_lets | with_reducible apply keeps_ite | (simp only [keeps_mk_iff]; apply keepsP_of) | with_reducible rfl | split | (clear_value *; split) | dsimp only)

theorem keeps_execMgmtSessionOpen (anchor) (newAnchor) {s : State} (h0 : Keeps s0 s) : KeepsO s0 (@execMgmtSessionOpen anchor newAnchor s) := by
  unfold execMgmtSessionOpen
  repeat' (first | with_reducible assumption | with_reducible apply keepsO_next | (intro v; refine keeps_cut s0 v ?_ (fun hv => ?_); (on_goal 2 => try clear_value v); dsimp only [v]) | intro v | lift_lets | (simp only [keeps_mk_iff]; apply keepsP_of) | with_reducible rfl | (refine keeps_of_snd (by with_reducible assumption) ?_) | (refine keeps_of_fst (by with_reducible assumption) ?_) | split | (clear_value *; split) | with_reducible apply keeps_fresh | dsimp only)

theorem keeps_mgmtCmd (op) (x0) (x1) {s : State} (h0 : Keeps s0 s) : Keeps s0 (@mgmtCmd op x0 x1 s).2 := by
  unfold mgmtCmd
  repeat' (first | with_reducible assumption | (intro v; refine keeps_cut s0 v ?_ (fun hv => ?_); (on_goal 2 => try clear_value v); dsimp only [v]) | intro v | lift_lets | (simp only [keeps_mk_iff]; apply keepsP_of) | with_reducible rfl | (refine keeps_of_snd (by with_reducible assumption) ?_) | (refine keeps_of_fst (by with_reducible assumption) ?_) | split | (clear_value *; split) | with_reducible apply keeps_cmdPlace | with_reducible apply keeps_cmdBind | with_reducible apply keeps_cmdUnbind | with_reducible apply keeps_cmdBindStatus | with_reducible apply keeps_cmdKeyStatus | with_reducible apply keeps_cmdKeyAdvance | with_reducible apply keeps_cmdKeyDrop | with_reducible apply keeps_cmdUnseal | with_reducible apply keeps_cmdComputeReset | with_reducible apply keeps_cmdAbort | with_reducible apply keeps_cmdResetStatus | with_reducible apply keeps_cmdRestore | with_reducible apply keeps_cmdTopoRecheck | with_reducible apply keeps_cmdFmapRead | with_reducible apply keeps_cmdUpdBegin | with_reducible apply keeps_cmdUpdBlock | with_reducible apply keeps_cmdUpdVerify | with_reducible apply keeps_cmdUpdStatus | with_reducible apply keeps_cmdUpdCancel | with_reducible apply keeps_cmdSetRead | with_reducible apply keeps_cmdSetReset | with_reducible apply keeps_cmdConfirm | with_reducible apply keeps_cmdDumpList | with_reducible apply keeps_cmdDumpRead | with_reducible apply keeps_cmdEnergy | with_reducible apply keeps_cmdSnapshot | with_reducible apply keeps_cmdPower | with_reducible apply keeps_cmdCaps | dsimp only)

theorem keeps_mgmtMessage {s : State} (n) (m) (h0 : Keeps s0 s) : Keeps s0 (@State.mgmtMessage s n m) := by
  unfold State.mgmtMessage
  repeat' (first | with_reducible assumption | with_reducible apply keeps_answer | with_reducible apply keeps_startPartReset | with_reducible apply keeps_updLast | with_reducible apply keeps_activate | (intro v; refine keeps_cut s0 v ?_ (fun hv => ?_); (on_goal 2 => try clear_value v); dsimp only [v]) | intro v | lift_lets | with_reducible apply keeps_ite | (simp only [keeps_mk_iff]; apply keepsP_of) | with_reducible rfl | (refine keeps_of_snd (by with_reducible assumption) ?_) | (refine keeps_of_fst (by with_reducible assumption) ?_) | split | (clear_value *; split) | with_reducible apply keeps_mgmtCmd | dsimp only)

theorem keeps_execMgmtFrame (session) (frame) {s : State} (h0 : Keeps s0 s) : KeepsO s0 (@execMgmtFrame session frame s) := by
  unfold execMgmtFrame
  repeat' (first | with_reducible assumption | with_reducible apply keeps_riderFirst | with_reducible apply keeps_mgmtMessage | with_reducible apply keepsO_next | (intro v; refine keeps_cut s0 v ?_ (fun hv => ?_); (on_goal 2 => try clear_value v); dsimp only [v]) | intro v | lift_lets | with_reducible apply keeps_ite | (simp only [keeps_mk_iff]; apply keepsP_of) | with_reducible rfl | split | (clear_value *; split) | dsimp only)

theorem keeps_takeFrame {s : State} (h0 : Keeps s0 s) : Keeps s0 (@State.takeFrame s) := by
  unfold State.takeFrame
  repeat' (first | with_reducible assumption | with_reducible apply keeps_riderFirst | with_reducible apply keeps_mgmtMessage | (intro v; refine keeps_cut s0 v ?_ (fun hv => ?_); (on_goal 2 => try clear_value v); dsimp only [v]) | intro v | lift_lets | with_reducible apply keeps_ite | (simp only [keeps_mk_iff]; apply keepsP_of) | with_reducible rfl | split | (clear_value *; split) | dsimp only)

theorem keeps_unsealsOver {s : State} (h0 : Keeps s0 s) : Keeps s0 (@State.unsealsOver s) := by
  unfold State.unsealsOver
  repeat' (first | with_reducible assumption | with_reducible apply keeps_decideUnlock | with_reducible apply keeps_mgmtMessage | (intro v; refine keeps_cut s0 v ?_ (fun hv => ?_); (on_goal 2 => try clear_value v); dsimp only [v]) | intro v | lift_lets | with_reducible apply keeps_foldl | with_reducible apply keeps_foldl_fst | with_reducible apply keeps_foldl_snd | (simp only [keeps_mk_iff]; apply keepsP_of) | with_reducible rfl | split | (clear_value *; split) | dsimp only)

theorem keeps_execUnsealComplete (part) {s : State} (h0 : Keeps s0 s) : KeepsO s0 (@execUnsealComplete part s) := by
  unfold execUnsealComplete
  repeat' (first | with_reducible assumption | with_reducible apply keeps_finishUnseal | with_reducible apply keeps_unsealsOver | with_reducible apply keepsO_next | (intro v; refine keeps_cut s0 v ?_ (fun hv => ?_); (on_goal 2 => try clear_value v); dsimp only [v]) | intro v | lift_lets | (simp only [keeps_mk_iff]; apply keepsP_of) | with_reducible rfl | split | (clear_value *; split) | dsimp only)

/-! ### Machine/Edge.lean -/

theorem keeps_execI3cEntdaa (addr) {s : State} (h0 : Keeps s0 s) : KeepsO s0 (@execI3cEntdaa addr s) := by
  unfold execI3cEntdaa
  repeat' (first | with_reducible assumption | with_reducible apply keepsO_next | (intro v; refine keeps_cut s0 v ?_ (fun hv => ?_); (on_goal 2 => try clear_value v); dsimp only [v]) | intro v | lift_lets | (simp only [keeps_mk_iff]; apply keepsP_of) | with_reducible rfl | split | (clear_value *; split) | dsimp only)

theorem keeps_execI3cRstdaa {s : State} (h0 : Keeps s0 s) : KeepsO s0 (@execI3cRstdaa s) := by
  unfold execI3cRstdaa
  repeat' (first | with_reducible assumption | with_reducible apply keepsO_next | (intro v; refine keeps_cut s0 v ?_ (fun hv => ?_); (on_goal 2 => try clear_value v); dsimp only [v]) | intro v | lift_lets | (simp only [keeps_mk_iff]; apply keepsP_of) | with_reducible rfl | split | (clear_value *; split) | dsimp only)

theorem keeps_execI3cBoardW (watts) {s : State} (h0 : Keeps s0 s) : KeepsO s0 (@execI3cBoardW watts s) := by
  unfold execI3cBoardW
  repeat' (first | with_reducible assumption | with_reducible apply keeps_setF | with_reducible apply keeps_pwcRecord | with_reducible apply keepsO_next | (intro v; refine keeps_cut s0 v ?_ (fun hv => ?_); (on_goal 2 => try clear_value v); dsimp only [v]) | intro v | lift_lets | with_reducible apply keeps_ite | (simp only [keeps_mk_iff]; apply keepsP_of) | with_reducible rfl | split | (clear_value *; split) | dsimp only)

theorem keeps_execI3cSnapshot {s : State} (h0 : Keeps s0 s) : KeepsO s0 (@execI3cSnapshot s) := by
  unfold execI3cSnapshot
  repeat' (first | with_reducible assumption | with_reducible apply keeps_takeSnapshot | with_reducible apply keepsO_next | (intro v; refine keeps_cut s0 v ?_ (fun hv => ?_); (on_goal 2 => try clear_value v); dsimp only [v]) | intro v | lift_lets | with_reducible apply keeps_ite | (simp only [keeps_mk_iff]; apply keepsP_of) | with_reducible rfl | split | (clear_value *; split) | dsimp only)

theorem keeps_modOff {s : State} (h0 : Keeps s0 s) : Keeps s0 (@State.modOff s) := by
  unfold State.modOff
  repeat' (first | with_reducible assumption | with_reducible apply keeps_riderAbort | with_reducible apply keeps_crashDump | with_reducible apply keeps_powerOff | (intro v; refine keeps_cut s0 v ?_ (fun hv => ?_); (on_goal 2 => try clear_value v); dsimp only [v]) | intro v | lift_lets | with_reducible apply keeps_foldl | with_reducible apply keeps_foldl_fst | with_reducible apply keeps_foldl_snd | (simp only [keeps_mk_iff]; apply keepsP_of) | with_reducible rfl | split | (clear_value *; split) | dsimp only)

theorem keeps_execModRstAssert (lowNs) {s : State} (h0 : Keeps s0 s) : KeepsO s0 (@execModRstAssert lowNs s) := by
  unfold execModRstAssert
  repeat' (first | with_reducible assumption | with_reducible apply keeps_modOff | with_reducible apply keepsO_next | (intro v; refine keeps_cut s0 v ?_ (fun hv => ?_); (on_goal 2 => try clear_value v); dsimp only [v]) | intro v | lift_lets | with_reducible apply keeps_ite | (simp only [keeps_mk_iff]; apply keepsP_of) | with_reducible rfl | split | (clear_value *; split) | dsimp only)

theorem keeps_execModRstRelease {s : State} (h0 : Keeps s0 s) : KeepsO s0 (@execModRstRelease s) := by
  unfold execModRstRelease
  repeat' (first | with_reducible assumption | with_reducible apply keeps_powerUp | with_reducible apply keepsO_next | (intro v; refine keeps_cut s0 v ?_ (fun hv => ?_); (on_goal 2 => try clear_value v); dsimp only [v]) | intro v | lift_lets | with_reducible apply keeps_ite | (simp only [keeps_mk_iff]; apply keepsP_of) | with_reducible rfl | split | (clear_value *; split) | dsimp only)

theorem keeps_execSlotIdChange (straps) {s : State} (h0 : Keeps s0 s) : KeepsO s0 (@execSlotIdChange straps s) := by
  unfold execSlotIdChange
  repeat' (first | with_reducible assumption | with_reducible apply keeps_setF | with_reducible apply keeps_record | with_reducible apply keepsO_next | (intro v; refine keeps_cut s0 v ?_ (fun hv => ?_); (on_goal 2 => try clear_value v); dsimp only [v]) | intro v | lift_lets | with_reducible apply keeps_ite | (simp only [keeps_mk_iff]; apply keepsP_of) | with_reducible rfl | split | (clear_value *; split) | dsimp only)

theorem keeps_execJtagInstruction (op) {s : State} (h0 : Keeps s0 s) : KeepsO s0 (@execJtagInstruction op s) := by
  unfold execJtagInstruction
  repeat' (first | with_reducible assumption | with_reducible apply keeps_emit | with_reducible apply keepsO_next | (intro v; refine keeps_cut s0 v ?_ (fun hv => ?_); (on_goal 2 => try clear_value v); dsimp only [v]) | intro v | lift_lets | with_reducible apply keeps_ite | (simp only [keeps_mk_iff]; apply keepsP_of) | with_reducible rfl | (refine keeps_of_snd (by with_reducible assumption) ?_) | (refine keeps_of_fst (by with_reducible assumption) ?_) | split | (clear_value *; split) | with_reducible apply keeps_fresh | dsimp only)

end Sys2Proof.Laws
end

