-- ==== Sys2Proof/Laws/KeepsEngines.lean ====
section
/-!
SUPPORT. Laws/KeepsEngines.lean: every operation and meaning of the matrix and vector engines, time and register writes keeps the queue and hands on `Safety.Sound`.
-/
namespace Sys2Proof.Laws
open Sys2Proof.Machine

set_option linter.unusedTactic false
set_option linter.unreachableTactic false
set_option linter.unusedVariables false
set_option linter.unusedSimpArgs false

variable {s0 : State}

/-! ### Machine/Matrix.lean -/

theorem keeps_execMxZero (core) {s : State} (h0 : Keeps s0 s) : KeepsO s0 (@execMxZero core s) := by
  unfold execMxZero
  repeat' (first | with_reducible assumption | with_reducible apply keeps_runHead | with_reducible apply keepsO_next | (intro v; refine keeps_cut s0 v ?_ (fun hv => ?_); (on_goal 2 => try clear_value v); dsimp only [v]) | intro v | lift_lets | (simp only [keeps_mk_iff]; apply keepsP_of) | with_reducible rfl | (refine keeps_of_snd (by with_reducible assumption) ?_) | (refine keeps_of_fst (by with_reducible assumption) ?_) | split | (clear_value *; split) | with_reducible apply keeps_mxZeroRun | dsimp only)

theorem keeps_execMxMac (core) {s : State} (h0 : Keeps s0 s) : KeepsO s0 (@execMxMac core s) := by
  unfold execMxMac
  repeat' (first | with_reducible assumption | with_reducible apply keeps_runHead | with_reducible apply keepsO_next | (intro v; refine keeps_cut s0 v ?_ (fun hv => ?_); (on_goal 2 => try clear_value v); dsimp only [v]) | intro v | lift_lets | (simp only [keeps_mk_iff]; apply keepsP_of) | with_reducible rfl | (refine keeps_of_snd (by with_reducible assumption) ?_) | (refine keeps_of_fst (by with_reducible assumption) ?_) | split | (clear_value *; split) | with_reducible apply keeps_mxMacRun | dsimp only)

theorem keeps_execMxOut (core) {s : State} (h0 : Keeps s0 s) : KeepsO s0 (@execMxOut core s) := by
  unfold execMxOut
  repeat' (first | with_reducible assumption | with_reducible apply keeps_runHead | with_reducible apply keepsO_next | (intro v; refine keeps_cut s0 v ?_ (fun hv => ?_); (on_goal 2 => try clear_value v); dsimp only [v]) | intro v | lift_lets | (simp only [keeps_mk_iff]; apply keepsP_of) | with_reducible rfl | (refine keeps_of_snd (by with_reducible assumption) ?_) | (refine keeps_of_fst (by with_reducible assumption) ?_) | split | (clear_value *; split) | with_reducible apply keeps_mxOutRun | dsimp only)

theorem keeps_execMxStore (core) {s : State} (h0 : Keeps s0 s) : KeepsO s0 (@execMxStore core s) := by
  unfold execMxStore
  repeat' (first | with_reducible assumption | with_reducible apply keeps_runHead | with_reducible apply keepsO_next | (intro v; refine keeps_cut s0 v ?_ (fun hv => ?_); (on_goal 2 => try clear_value v); dsimp only [v]) | intro v | lift_lets | (simp only [keeps_mk_iff]; apply keepsP_of) | with_reducible rfl | (refine keeps_of_snd (by with_reducible assumption) ?_) | (refine keeps_of_fst (by with_reducible assumption) ?_) | split | (clear_value *; split) | with_reducible apply keeps_mxStoreRun | dsimp only)

theorem keeps_execMxAddw (core) {s : State} (h0 : Keeps s0 s) : KeepsO s0 (@execMxAddw core s) := by
  unfold execMxAddw
  repeat' (first | with_reducible assumption | with_reducible apply keeps_runHead | with_reducible apply keepsO_next | (intro v; refine keeps_cut s0 v ?_ (fun hv => ?_); (on_goal 2 => try clear_value v); dsimp only [v]) | intro v | lift_lets | (simp only [keeps_mk_iff]; apply keepsP_of) | with_reducible rfl | (refine keeps_of_snd (by with_reducible assumption) ?_) | (refine keeps_of_fst (by with_reducible assumption) ?_) | split | (clear_value *; split) | with_reducible apply keeps_mxAddwRun | dsimp only)

theorem keeps_execMxBias (core) {s : State} (h0 : Keeps s0 s) : KeepsO s0 (@execMxBias core s) := by
  unfold execMxBias
  repeat' (first | with_reducible assumption | with_reducible apply keeps_runHead | with_reducible apply keepsO_next | (intro v; refine keeps_cut s0 v ?_ (fun hv => ?_); (on_goal 2 => try clear_value v); dsimp only [v]) | intro v | lift_lets | (simp only [keeps_mk_iff]; apply keepsP_of) | with_reducible rfl | (refine keeps_of_snd (by with_reducible assumption) ?_) | (refine keeps_of_fst (by with_reducible assumption) ?_) | split | (clear_value *; split) | with_reducible apply keeps_mxBiasRun | dsimp only)

theorem keeps_execMxFlags (core) {s : State} (h0 : Keeps s0 s) : KeepsO s0 (@execMxFlags core s) := by
  unfold execMxFlags
  repeat' (first | with_reducible assumption | with_reducible apply keeps_runHead | with_reducible apply keepsO_next | (intro v; refine keeps_cut s0 v ?_ (fun hv => ?_); (on_goal 2 => try clear_value v); dsimp only [v]) | intro v | lift_lets | (simp only [keeps_mk_iff]; apply keepsP_of) | with_reducible rfl | (refine keeps_of_snd (by with_reducible assumption) ?_) | (refine keeps_of_fst (by with_reducible assumption) ?_) | split | (clear_value *; split) | with_reducible apply keeps_mxFlagsRun | dsimp only)

/-! ### Machine/Time.lean -/

theorem keeps_stepGauge {s : State} (v_) (h0 : Keeps s0 s) : Keeps s0 (@State.stepGauge s v_) := by
  unfold State.stepGauge
  repeat' (first | with_reducible assumption | with_reducible apply keeps_setF | (intro v; refine keeps_cut s0 v ?_ (fun hv => ?_); (on_goal 2 => try clear_value v); dsimp only [v]) | intro v | lift_lets | (simp only [keeps_mk_iff]; apply keepsP_of) | with_reducible rfl | split | (clear_value *; split) | dsimp only)

theorem keeps_runGauge {s : State} (h0 : Keeps s0 s) : Keeps s0 (@State.runGauge s) := by
  unfold State.runGauge
  repeat' (first | with_reducible assumption | with_reducible apply keeps_setF | (intro v; refine keeps_cut s0 v ?_ (fun hv => ?_); (on_goal 2 => try clear_value v); dsimp only [v]) | intro v | lift_lets | with_reducible apply keeps_ite | (simp only [keeps_mk_iff]; apply keepsP_of) | with_reducible rfl | split | (clear_value *; split) | dsimp only)

theorem keeps_advanceGauge {s : State} (h0 : Keeps s0 s) : Keeps s0 (@State.advanceGauge s) := by
  unfold State.advanceGauge
  repeat' (first | with_reducible assumption | with_reducible apply keeps_runGauge | with_reducible apply keeps_refuseWrite | with_reducible apply keeps_stepGauge | (intro v; refine keeps_cut s0 v ?_ (fun hv => ?_); (on_goal 2 => try clear_value v); dsimp only [v]) | intro v | lift_lets | with_reducible apply keeps_ite | (simp only [keeps_mk_iff]; apply keepsP_of) | with_reducible rfl | split | (clear_value *; split) | dsimp only)

theorem keeps_execGaugeWrap {s : State} (h0 : Keeps s0 s) : KeepsO s0 (@execGaugeWrap s) := by
  unfold execGaugeWrap
  repeat' (first | with_reducible assumption | with_reducible apply keeps_advanceGauge | with_reducible apply keepsO_next | (intro v; refine keeps_cut s0 v ?_ (fun hv => ?_); (on_goal 2 => try clear_value v); dsimp only [v]) | intro v | lift_lets | with_reducible apply keeps_ite | (simp only [keeps_mk_iff]; apply keepsP_of) | with_reducible rfl | split | (clear_value *; split) | dsimp only)

theorem keeps_stamp {s : State} (h0 : Keeps s0 s) : Keeps s0 (@State.stamp s).2 := by
  unfold State.stamp
  repeat' (first | with_reducible assumption | (intro v; refine keeps_cut s0 v ?_ (fun hv => ?_); (on_goal 2 => try clear_value v); dsimp only [v]) | intro v | lift_lets | (simp only [keeps_mk_iff]; apply keepsP_of) | with_reducible rfl | (refine keeps_of_snd (by with_reducible assumption) ?_) | (refine keeps_of_fst (by with_reducible assumption) ?_) | split | (clear_value *; split) | with_reducible apply keeps_fresh | dsimp only)

theorem keeps_execTimeExchangeTick (link) {s : State} (h0 : Keeps s0 s) : KeepsO s0 (@execTimeExchangeTick link s) := by
  unfold execTimeExchangeTick
  repeat' (first | with_reducible assumption | with_reducible apply keeps_setLinkTime | with_reducible apply keeps_linkSend | with_reducible apply keepsO_next | (intro v; refine keeps_cut s0 v ?_ (fun hv => ?_); (on_goal 2 => try clear_value v); dsimp only [v]) | intro v | lift_lets | with_reducible apply keeps_ite | (simp only [keeps_mk_iff]; apply keepsP_of) | with_reducible rfl | (refine keeps_of_snd (by with_reducible assumption) ?_) | (refine keeps_of_fst (by with_reducible assumption) ?_) | split | (clear_value *; split) | with_reducible apply keeps_stamp | dsimp only)

theorem keeps_execTimeReq (link) (m) {s : State} (h0 : Keeps s0 s) : KeepsO s0 (@execTimeReq link m s) := by
  unfold execTimeReq
  repeat' (first | with_reducible assumption | with_reducible apply keeps_linkSend | with_reducible apply keepsO_next | (intro v; refine keeps_cut s0 v ?_ (fun hv => ?_); (on_goal 2 => try clear_value v); dsimp only [v]) | intro v | lift_lets | with_reducible apply keeps_ite | (simp only [keeps_mk_iff]; apply keepsP_of) | with_reducible rfl | (refine keeps_of_snd (by with_reducible assumption) ?_) | (refine keeps_of_fst (by with_reducible assumption) ?_) | split | (clear_value *; split) | with_reducible apply keeps_stamp | with_reducible apply keeps_fresh | dsimp only)

theorem keeps_becomeRoot {s : State} (h0 : Keeps s0 s) : Keeps s0 (@State.becomeRoot s) := by
  unfold State.becomeRoot
  repeat' (first | with_reducible assumption | with_reducible apply keeps_setParent | with_reducible apply keeps_setG | (intro v; refine keeps_cut s0 v ?_ (fun hv => ?_); (on_goal 2 => try clear_value v); dsimp only [v]) | intro v | lift_lets | with_reducible apply keeps_ite | (simp only [keeps_mk_iff]; apply keepsP_of) | with_reducible rfl | split | (clear_value *; split) | dsimp only)

theorem keeps_stepTo {s : State} (offset) (h0 : Keeps s0 s) : Keeps s0 (@State.stepTo s offset) := by
  unfold State.stepTo
  repeat' (first | with_reducible assumption | with_reducible apply keeps_stepGauge | with_reducible apply keeps_setG | with_reducible apply keeps_setF | (intro v; refine keeps_cut s0 v ?_ (fun hv => ?_); (on_goal 2 => try clear_value v); dsimp only [v]) | intro v | lift_lets | (simp only [keeps_mk_iff]; apply keepsP_of) | with_reducible rfl | split | (clear_value *; split) | dsimp only)

theorem keeps_takeParent {s : State} (o) (offset) (h0 : Keeps s0 s) : Keeps s0 (@State.takeParent s o offset) := by
  unfold State.takeParent
  repeat' (first | with_reducible assumption | with_reducible apply keeps_setParent | with_reducible apply keeps_stepTo | (intro v; refine keeps_cut s0 v ?_ (fun hv => ?_); (on_goal 2 => try clear_value v); dsimp only [v]) | intro v | lift_lets | with_reducible apply keeps_ite | (simp only [keeps_mk_iff]; apply keepsP_of) | with_reducible rfl | split | (clear_value *; split) | dsimp only)

theorem keeps_elect {s : State} (l) (offset) (h0 : Keeps s0 s) : Keeps s0 (@State.elect s l offset) := by
  unfold State.elect
  repeat' (first | with_reducible assumption | with_reducible apply keeps_setParent | with_reducible apply keeps_holdOver | with_reducible apply keeps_goFree | with_reducible apply keeps_becomeRoot | with_reducible apply keeps_takeParent | (intro v; refine keeps_cut s0 v ?_ (fun hv => ?_); (on_goal 2 => try clear_value v); dsimp only [v]) | intro v | lift_lets | with_reducible apply keeps_ite | (simp only [keeps_mk_iff]; apply keepsP_of) | with_reducible rfl | split | (clear_value *; split) | dsimp only)

theorem keeps_steer {s : State} (offset) (h0 : Keeps s0 s) : Keeps s0 (@State.steer s offset) := by
  unfold State.steer
  repeat' (first | with_reducible assumption | with_reducible apply keeps_setF | with_reducible apply keeps_gaugeOut | with_reducible apply keeps_setG | (intro v; refine keeps_cut s0 v ?_ (fun hv => ?_); (on_goal 2 => try clear_value v); dsimp only [v]) | intro v | lift_lets | with_reducible apply keeps_ite | (simp only [keeps_mk_iff]; apply keepsP_of) | with_reducible rfl | (refine keeps_of_snd (by with_reducible assumption) ?_) | (refine keeps_of_fst (by with_reducible assumption) ?_) | split | (clear_value *; split) | with_reducible apply keeps_fresh | dsimp only)

theorem keeps_checkCourse {s : State} (l) (m) (h0 : Keeps s0 s) : Keeps s0 (@State.checkCourse s l m) := by
  unfold State.checkCourse
  repeat' (first | with_reducible assumption | with_reducible apply keeps_setLinkTime | with_reducible apply keeps_raiseAbort | (intro v; refine keeps_cut s0 v ?_ (fun hv => ?_); (on_goal 2 => try clear_value v); dsimp only [v]) | intro v | lift_lets | with_reducible apply keeps_foldl | with_reducible apply keeps_foldl_fst | with_reducible apply keeps_foldl_snd | with_reducible apply keeps_ite | (simp only [keeps_mk_iff]; apply keepsP_of) | with_reducible rfl | split | (clear_value *; split) | dsimp only)

theorem keeps_checkPair {s : State} (l) (offset) (h0 : Keeps s0 s) : Keeps s0 (@State.checkPair s l offset) := by
  unfold State.checkPair
  repeat' (first | with_reducible assumption | with_reducible apply keeps_loseTime | (intro v; refine keeps_cut s0 v ?_ (fun hv => ?_); (on_goal 2 => try clear_value v); dsimp only [v]) | intro v | lift_lets | with_reducible apply keeps_ite | (simp only [keeps_mk_iff]; apply keepsP_of) | with_reducible rfl | split | (clear_value *; split) | dsimp only)

theorem keeps_execTimeRsp (link) (m) (t4) {s : State} (h0 : Keeps s0 s) : KeepsO s0 (@execTimeRsp link m t4 s) := by
  unfold execTimeRsp
  repeat' (first | with_reducible assumption | with_reducible apply keeps_setLinkTime | with_reducible apply keeps_setSF | with_reducible apply keeps_checkCourse | with_reducible apply keeps_elect | with_reducible apply keeps_steer | with_reducible apply keeps_checkPair | with_reducible apply keepsO_next | (intro v; refine keeps_cut s0 v ?_ (fun hv => ?_); (on_goal 2 => try clear_value v); dsimp only [v]) | intro v | lift_lets | with_reducible apply keeps_ite | (simp only [keeps_mk_iff]; apply keepsP_of) | with_reducible rfl | split | (clear_value *; split) | dsimp only)

theorem keeps_execHoldoverExpiry {s : State} (h0 : Keeps s0 s) : KeepsO s0 (@execHoldoverExpiry s) := by
  unfold execHoldoverExpiry
  repeat' (first | with_reducible assumption | with_reducible apply keeps_gaugeOut | with_reducible apply keepsO_next | (intro v; refine keeps_cut s0 v ?_ (fun hv => ?_); (on_goal 2 => try clear_value v); dsimp only [v]) | intro v | lift_lets | with_reducible apply keeps_ite | (simp only [keeps_mk_iff]; apply keepsP_of) | with_reducible rfl | split | (clear_value *; split) | dsimp only)

theorem keeps_execGaugeReacquire (step) {s : State} (h0 : Keeps s0 s) : KeepsO s0 (@execGaugeReacquire step s) := by
  unfold execGaugeReacquire
  repeat' (first | with_reducible assumption | with_reducible apply keeps_setG | with_reducible apply keeps_setParent | with_reducible apply keeps_stepGauge | with_reducible apply keepsO_next | (intro v; refine keeps_cut s0 v ?_ (fun hv => ?_); (on_goal 2 => try clear_value v); dsimp only [v]) | intro v | lift_lets | with_reducible apply keeps_ite | (simp only [keeps_mk_iff]; apply keepsP_of) | with_reducible rfl | split | (clear_value *; split) | dsimp only)

theorem keeps_strandOverruns {s : State} (course) (key) (h0 : Keeps s0 s) : Keeps s0 (@State.strandOverruns s course key) := by
  unfold State.strandOverruns
  repeat' (first | with_reducible assumption | with_reducible apply keeps_setStrand | with_reducible apply keeps_addLag | (intro v; refine keeps_cut s0 v ?_ (fun hv => ?_); (on_goal 2 => try clear_value v); dsimp only [v]) | intro v | lift_lets | with_reducible apply keeps_foldl | with_reducible apply keeps_foldl_fst | with_reducible apply keeps_foldl_snd | with_reducible apply keeps_ite | (simp only [keeps_mk_iff]; apply keepsP_of) | with_reducible rfl | split | (clear_value *; split) | dsimp only)

theorem keeps_waitOverruns {s : State} (course) (h0 : Keeps s0 s) : Keeps s0 (@State.waitOverruns s course) := by
  unfold State.waitOverruns
  repeat' (first | with_reducible assumption | with_reducible apply keeps_addLag | (intro v; refine keeps_cut s0 v ?_ (fun hv => ?_); (on_goal 2 => try clear_value v); dsimp only [v]) | intro v | lift_lets | with_reducible apply keeps_foldl | with_reducible apply keeps_foldl_fst | with_reducible apply keeps_foldl_snd | (simp only [keeps_mk_iff]; apply keepsP_of) | with_reducible rfl | split | (clear_value *; split) | dsimp only)

theorem keeps_overruns {s : State} (course) (h0 : Keeps s0 s) : Keeps s0 (@State.overruns s course) := by
  unfold State.overruns
  repeat' (first | with_reducible assumption | with_reducible apply keeps_strandOverruns | with_reducible apply keeps_waitOverruns | (intro v; refine keeps_cut s0 v ?_ (fun hv => ?_); (on_goal 2 => try clear_value v); dsimp only [v]) | intro v | lift_lets | with_reducible apply keeps_foldl | with_reducible apply keeps_foldl_fst | with_reducible apply keeps_foldl_snd | (simp only [keeps_mk_iff]; apply keepsP_of) | with_reducible rfl | split | (clear_value *; split) | dsimp only)

theorem keeps_inputsLate {s : State} (h0 : Keeps s0 s) : Keeps s0 (@State.inputsLate s) := by
  unfold State.inputsLate
  repeat' (first | with_reducible assumption | with_reducible apply keeps_addLag | (intro v; refine keeps_cut s0 v ?_ (fun hv => ?_); (on_goal 2 => try clear_value v); dsimp only [v]) | intro v | lift_lets | with_reducible apply keeps_foldl | with_reducible apply keeps_foldl_fst | with_reducible apply keeps_foldl_snd | (simp only [keeps_mk_iff]; apply keepsP_of) | with_reducible rfl | split | (clear_value *; split) | dsimp only)

theorem keeps_pushLag {s : State} (r) (h0 : Keeps s0 s) : Keeps s0 (@State.pushLag s r) := by
  unfold State.pushLag
  repeat' (first | with_reducible assumption | with_reducible apply keeps_bump | (intro v; refine keeps_cut s0 v ?_ (fun hv => ?_); (on_goal 2 => try clear_value v); dsimp only [v]) | intro v | lift_lets | with_reducible apply keeps_ite | (simp only [keeps_mk_iff]; apply keepsP_of) | with_reducible rfl | split | (clear_value *; split) | dsimp only)

theorem keeps_pwcLag {s : State} (e) (h0 : Keeps s0 s) : Keeps s0 (@State.pwcLag s e) := by
  unfold State.pwcLag
  repeat' (first | with_reducible assumption | (intro v; refine keeps_cut s0 v ?_ (fun hv => ?_); (on_goal 2 => try clear_value v); dsimp only [v]) | intro v | lift_lets | with_reducible apply keeps_ite | (simp only [keeps_mk_iff]; apply keepsP_of) | with_reducible rfl | split | (clear_value *; split) | dsimp only)

theorem keeps_reportLags {s : State} (course) (h0 : Keeps s0 s) : Keeps s0 (@State.reportLags s course) := by
  unfold State.reportLags
  repeat' (first | with_reducible assumption | with_reducible apply keeps_pushLag | with_reducible apply keeps_pwcLag | (intro v; refine keeps_cut s0 v ?_ (fun hv => ?_); (on_goal 2 => try clear_value v); dsimp only [v]) | intro v | lift_lets | with_reducible apply keeps_foldl | with_reducible apply keeps_foldl_fst | with_reducible apply keeps_foldl_snd | (simp only [keeps_mk_iff]; apply keepsP_of) | with_reducible rfl | split | (clear_value *; split) | dsimp only)

theorem keeps_countCourses {s : State} (h0 : Keeps s0 s) : Keeps s0 (@State.countCourses s) := by
  unfold State.countCourses
  repeat' (first | with_reducible assumption | (intro v; refine keeps_cut s0 v ?_ (fun hv => ?_); (on_goal 2 => try clear_value v); dsimp only [v]) | intro v | lift_lets | with_reducible apply keeps_foldl | with_reducible apply keeps_foldl_fst | with_reducible apply keeps_foldl_snd | with_reducible apply keeps_ite | (simp only [keeps_mk_iff]; apply keepsP_of) | with_reducible rfl | split | (clear_value *; split) | dsimp only)

theorem keeps_endCourse {s : State} (h0 : Keeps s0 s) : Keeps s0 (@State.endCourse s) := by
  unfold State.endCourse
  repeat' (first | with_reducible assumption | with_reducible apply keeps_overruns | with_reducible apply keeps_inputsLate | with_reducible apply keeps_reportLags | with_reducible apply keeps_countCourses | (intro v; refine keeps_cut s0 v ?_ (fun hv => ?_); (on_goal 2 => try clear_value v); dsimp only [v]) | intro v | lift_lets | (simp only [keeps_mk_iff]; apply keepsP_of) | with_reducible rfl | split | (clear_value *; split) | dsimp only)

theorem keeps_execCourseBoundary {s : State} (h0 : Keeps s0 s) : KeepsO s0 (@execCourseBoundary s) := by
  unfold execCourseBoundary
  repeat' (first | with_reducible assumption | with_reducible apply keeps_endCourse | with_reducible apply keepsO_next | (intro v; refine keeps_cut s0 v ?_ (fun hv => ?_); (on_goal 2 => try clear_value v); dsimp only [v]) | intro v | lift_lets | with_reducible apply keeps_ite | (simp only [keeps_mk_iff]; apply keepsP_of) | with_reducible rfl | split | (clear_value *; split) | dsimp only)

theorem keeps_switchCourse {s : State} (h0 : Keeps s0 s) : Keeps s0 (@State.switchCourse s) := by
  unfold State.switchCourse
  repeat' (first | with_reducible assumption | with_reducible apply keeps_setF | with_reducible apply keeps_toggleBank | with_reducible apply keeps_showAbort | (intro v; refine keeps_cut s0 v ?_ (fun hv => ?_); (on_goal 2 => try clear_value v); dsimp only [v]) | intro v | lift_lets | with_reducible apply keeps_foldl | with_reducible apply keeps_foldl_fst | with_reducible apply keeps_foldl_snd | (simp only [keeps_mk_iff]; apply keepsP_of) | with_reducible rfl | split | (clear_value *; split) | dsimp only)

theorem keeps_execCourseLengthSwitch {s : State} (h0 : Keeps s0 s) : KeepsO s0 (@execCourseLengthSwitch s) := by
  unfold execCourseLengthSwitch
  repeat' (first | with_reducible assumption | with_reducible apply keeps_endCourse | with_reducible apply keeps_switchCourse | with_reducible apply keepsO_next | (intro v; refine keeps_cut s0 v ?_ (fun hv => ?_); (on_goal 2 => try clear_value v); dsimp only [v]) | intro v | lift_lets | with_reducible apply keeps_ite | (simp only [keeps_mk_iff]; apply keepsP_of) | with_reducible rfl | split | (clear_value *; split) | dsimp only)

theorem keeps_execOldEpochExpiry {s : State} (h0 : Keeps s0 s) : KeepsO s0 (@execOldEpochExpiry s) := by
  unfold execOldEpochExpiry
  repeat' (first | with_reducible assumption | with_reducible apply keepsO_next | (intro v; refine keeps_cut s0 v ?_ (fun hv => ?_); (on_goal 2 => try clear_value v); dsimp only [v]) | intro v | lift_lets | with_reducible apply keeps_ite | (simp only [keeps_mk_iff]; apply keepsP_of) | with_reducible rfl | split | (clear_value *; split) | dsimp only)

theorem keeps_popLag {s : State} (who) (h0 : Keeps s0 s) : Keeps s0 (@State.popLag s who) := by
  unfold State.popLag
  repeat' (first | with_reducible assumption | with_reducible apply keeps_byManager | (intro v; refine keeps_cut s0 v ?_ (fun hv => ?_); (on_goal 2 => try clear_value v); dsimp only [v]) | intro v | lift_lets | (simp only [keeps_mk_iff]; apply keepsP_of) | with_reducible rfl | split | (clear_value *; split) | dsimp only)

theorem keeps_execLagFifoPop (who) {s : State} (h0 : Keeps s0 s) : KeepsO s0 (@execLagFifoPop who s) := by
  unfold execLagFifoPop
  repeat' (first | with_reducible assumption | with_reducible apply keeps_popLag | with_reducible apply keepsO_next | (intro v; refine keeps_cut s0 v ?_ (fun hv => ?_); (on_goal 2 => try clear_value v); dsimp only [v]) | intro v | lift_lets | (simp only [keeps_mk_iff]; apply keepsP_of) | with_reducible rfl | split | (clear_value *; split) | dsimp only)

/-! ### Machine/Tick.lean -/

theorem keeps_offAfterHold {s : State} (h0 : Keeps s0 s) : Keeps s0 (@State.offAfterHold s) := by
  unfold State.offAfterHold
  repeat' (first | with_reducible assumption | with_reducible apply keeps_modOff | (intro v; refine keeps_cut s0 v ?_ (fun hv => ?_); (on_goal 2 => try clear_value v); dsimp only [v]) | intro v | lift_lets | with_reducible apply keeps_ite | (simp only [keeps_mk_iff]; apply keepsP_of) | with_reducible rfl | split | (clear_value *; split) | dsimp only)

theorem keeps_tick {s : State} (h0 : Keeps s0 s) : Keeps s0 (@State.tick s) := by
  unfold State.tick
  repeat' (first | with_reducible assumption | with_reducible apply keeps_advanceGauge | with_reducible apply keeps_closePath | with_reducible apply keeps_nextStep | with_reducible apply keeps_offAfterHold | with_reducible apply keeps_endPause | with_reducible apply keeps_takeFrame | with_reducible apply keeps_rejudge | (intro v; refine keeps_cut s0 v ?_ (fun hv => ?_); (on_goal 2 => try clear_value v); dsimp only [v]) | intro v | lift_lets | with_reducible apply keeps_ite | (simp only [keeps_mk_iff]; apply keepsP_of) | with_reducible rfl | split | (clear_value *; split) | dsimp only)

/-! ### Machine/RegWrite.lean -/

theorem keeps_writeMsize {s : State} (who) (val) (h0 : Keeps s0 s) : Keeps s0 (@State.writeMsize s who val) := by
  unfold State.writeMsize
  repeat' (first | with_reducible assumption | with_reducible apply keeps_byManager | with_reducible apply keeps_writeWord | with_reducible apply keeps_refuseWrite | (intro v; refine keeps_cut s0 v ?_ (fun hv => ?_); (on_goal 2 => try clear_value v); dsimp only [v]) | intro v | lift_lets | with_reducible apply keeps_ite | (simp only [keeps_mk_iff]; apply keepsP_of) | with_reducible rfl | split | (clear_value *; split) | dsimp only)

theorem keeps_execTopMsizeWrite (who) (val) {s : State} (h0 : Keeps s0 s) : KeepsO s0 (@execTopMsizeWrite who val s) := by
  unfold execTopMsizeWrite
  repeat' (first | with_reducible assumption | with_reducible apply keeps_writeMsize | with_reducible apply keepsO_next | (intro v; refine keeps_cut s0 v ?_ (fun hv => ?_); (on_goal 2 => try clear_value v); dsimp only [v]) | intro v | lift_lets | (simp only [keeps_mk_iff]; apply keepsP_of) | with_reducible rfl | split | (clear_value *; split) | dsimp only)

theorem keeps_byPF {s : State} (who) (src) (f) (h0 : Keeps s0 s) (h1 : ∀ y0, Keeps s0 y0 → Keeps s0 (f y0)) : Keeps s0 (@State.byPF s who src f) := by
  unfold State.byPF
  repeat' (first | with_reducible assumption | with_reducible apply h1 | with_reducible apply keeps_refuseWrite | (intro v; refine keeps_cut s0 v ?_ (fun hv => ?_); (on_goal 2 => try clear_value v); dsimp only [v]) | intro v | lift_lets | with_reducible apply keeps_ite | (simp only [keeps_mk_iff]; apply keepsP_of) | with_reducible rfl | split | (clear_value *; split) | dsimp only)

theorem keeps_writeGrant {s : State} (who) (i) (val) (h0 : Keeps s0 s) : Keeps s0 (@State.writeGrant s who i val) := by
  unfold State.writeGrant
  repeat' (first | with_reducible assumption | with_reducible apply keeps_byPF | with_reducible apply keeps_writeWord | (intro v; refine keeps_cut s0 v ?_ (fun hv => ?_); (on_goal 2 => try clear_value v); dsimp only [v]) | intro v | lift_lets | with_reducible apply keeps_ite | (simp only [keeps_mk_iff]; apply keepsP_of) | with_reducible rfl | split | (clear_value *; split) | dsimp only)

theorem keeps_writeEsc {s : State} (who) (val) (h0 : Keeps s0 s) : Keeps s0 (@State.writeEsc s who val) := by
  unfold State.writeEsc
  repeat' (first | with_reducible assumption | with_reducible apply keeps_byManager | with_reducible apply keeps_setReg | with_reducible apply keeps_refuseWrite | (intro v; refine keeps_cut s0 v ?_ (fun hv => ?_); (on_goal 2 => try clear_value v); dsimp only [v]) | intro v | lift_lets | with_reducible apply keeps_ite | (simp only [keeps_mk_iff]; apply keepsP_of) | with_reducible rfl | split | (clear_value *; split) | dsimp only)

theorem keeps_writeStaging {s : State} (who) (c) (i) (val) (h0 : Keeps s0 s) : Keeps s0 (@State.writeStaging s who c i val) := by
  unfold State.writeStaging
  repeat' (first | with_reducible assumption | with_reducible apply keeps_byChan | with_reducible apply keeps_setChan | (intro v; refine keeps_cut s0 v ?_ (fun hv => ?_); (on_goal 2 => try clear_value v); dsimp only [v]) | intro v | lift_lets | (simp only [keeps_mk_iff]; apply keepsP_of) | with_reducible rfl | split | (clear_value *; split) | dsimp only)

theorem keeps_writeRawData {s : State} (who) (i) (val) (h0 : Keeps s0 s) : Keeps s0 (@State.writeRawData s who i val) := by
  unfold State.writeRawData
  repeat' (first | with_reducible assumption | with_reducible apply keeps_byManager | with_reducible apply keeps_setReg | (intro v; refine keeps_cut s0 v ?_ (fun hv => ?_); (on_goal 2 => try clear_value v); dsimp only [v]) | intro v | lift_lets | (simp only [keeps_mk_iff]; apply keepsP_of) | with_reducible rfl | split | (clear_value *; split) | dsimp only)

theorem keeps_writeMbxTmo {s : State} (who) (c) (val) (h0 : Keeps s0 s) : Keeps s0 (@State.writeMbxTmo s who c val) := by
  unfold State.writeMbxTmo
  repeat' (first | with_reducible assumption | with_reducible apply keeps_byChan | with_reducible apply keeps_writeWord | (intro v; refine keeps_cut s0 v ?_ (fun hv => ?_); (on_goal 2 => try clear_value v); dsimp only [v]) | intro v | lift_lets | (simp only [keeps_mk_iff]; apply keepsP_of) | with_reducible rfl | split | (clear_value *; split) | dsimp only)

theorem keeps_regWrite {s : State} (who) (off) (val) (r) (i) (h0 : Keeps s0 s) : Keeps s0 (@State.regWrite s who off val r i) := by
  unfold State.regWrite
  repeat' (first | with_reducible assumption | with_reducible apply keeps_writeMsize | with_reducible apply keeps_writeGaugeSet | with_reducible apply keeps_writeGaugeCtl | with_reducible apply keeps_writeCrsChg | with_reducible apply keeps_writeCrsAt | with_reducible apply keeps_writeCil | with_reducible apply keeps_writeGrant | with_reducible apply keeps_writeAwin | with_reducible apply keeps_byPF | with_reducible apply keeps_writeWord | with_reducible apply keeps_hostBatten | with_reducible apply keeps_ctxWrite | with_reducible apply keeps_doorbell | with_reducible apply keeps_flush | with_reducible apply keeps_cancel | with_reducible apply keeps_writeStrCtl | with_reducible apply keeps_writeOptExp | with_reducible apply keeps_writeRteSelf | with_reducible apply keeps_writeRsetA | with_reducible apply keeps_writeRsetPart | with_reducible apply keeps_writeSchedA | with_reducible apply keeps_writeSchedB | with_reducible apply keeps_writeBanksw | with_reducible apply keeps_writeBankswAt | with_reducible apply keeps_writeGrpA | with_reducible apply keeps_writeGmask | with_reducible apply keeps_writeTrg | with_reducible apply keeps_writeTrgStat | with_reducible apply keeps_pownWrite | with_reducible apply keeps_writeFnA | with_reducible apply keeps_writeFnB | with_reducible apply keeps_writeBind | with_reducible apply keeps_writeMbxCtl | with_reducible apply keeps_writeMbxLock | with_reducible apply keeps_writeMbxTmo | with_reducible apply keeps_byChan | with_reducible apply keeps_writeErase | with_reducible apply keeps_writeScrb | with_reducible apply keeps_writeLogSel | with_reducible apply keeps_writeRaw | with_reducible apply keeps_writeRawData | with_reducible apply keeps_writePower | with_reducible apply keeps_writeThr | with_reducible apply keeps_writeEsc | with_reducible apply keeps_kick | with_reducible apply keeps_byManager | (intro v; refine keeps_cut s0 v ?_ (fun hv => ?_); (on_goal 2 => try clear_value v); dsimp only [v]) | intro v | lift_lets | with_reducible apply keeps_ite | (simp only [keeps_mk_iff]; apply keepsP_of) | with_reducible rfl | split | (clear_value *; split) | dsimp only)

theorem keeps_offsetWrite {s : State} (who) (off) (val) (h0 : Keeps s0 s) : Keeps s0 (@State.offsetWrite s who off val) := by
  unfold State.offsetWrite
  repeat' (first | with_reducible assumption | with_reducible apply keeps_regWrite | with_reducible apply keeps_writeStaging | (intro v; refine keeps_cut s0 v ?_ (fun hv => ?_); (on_goal 2 => try clear_value v); dsimp only [v]) | intro v | lift_lets | with_reducible apply keeps_ite | (simp only [keeps_mk_iff]; apply keepsP_of) | with_reducible rfl | split | (clear_value *; split) | dsimp only)

theorem keeps_execRegisterWrite (who) (off) (val) {s : State} (h0 : Keeps s0 s) : KeepsO s0 (@execRegisterWrite who off val s) := by
  unfold execRegisterWrite
  repeat' (first | with_reducible assumption | with_reducible apply keeps_offsetWrite | with_reducible apply keepsO_next | (intro v; refine keeps_cut s0 v ?_ (fun hv => ?_); (on_goal 2 => try clear_value v); dsimp only [v]) | intro v | lift_lets | (simp only [keeps_mk_iff]; apply keepsP_of) | with_reducible rfl | split | (clear_value *; split) | dsimp only)

theorem keeps_readClears {s : State} (r) (i) (h0 : Keeps s0 s) : Keeps s0 (@State.readClears s r i) := by
  unfold State.readClears
  repeat' (first | with_reducible assumption | with_reducible apply keeps_setReg | (intro v; refine keeps_cut s0 v ?_ (fun hv => ?_); (on_goal 2 => try clear_value v); dsimp only [v]) | intro v | lift_lets | with_reducible apply keeps_ite | (simp only [keeps_mk_iff]; apply keepsP_of) | with_reducible rfl | split | (clear_value *; split) | dsimp only)

/-! ### Machine/Vector.lean -/

theorem keeps_runVec {s : State} (n) (first) (count) (h0 : Keeps s0 s) : Keeps s0 (@State.runVec s n first count) := by
  unfold State.runVec
  repeat' (first | with_reducible assumption | with_reducible apply keeps_runHead | (intro v; refine keeps_cut s0 v ?_ (fun hv => ?_); (on_goal 2 => try clear_value v); dsimp only [v]) | intro v | lift_lets | (simp only [keeps_mk_iff]; apply keepsP_of) | with_reducible rfl | (refine keeps_of_snd (by with_reducible assumption) ?_) | (refine keeps_of_fst (by with_reducible assumption) ?_) | split | (clear_value *; split) | with_reducible apply keeps_vRun | dsimp only)

theorem keeps_execVadd (core) {s : State} (h0 : Keeps s0 s) : KeepsO s0 (@execVadd core s) := by
  unfold execVadd
  repeat' (first | with_reducible assumption | with_reducible apply keeps_runVec | with_reducible apply keepsO_next | (intro v; refine keeps_cut s0 v ?_ (fun hv => ?_); (on_goal 2 => try clear_value v); dsimp only [v]) | intro v | lift_lets | (simp only [keeps_mk_iff]; apply keepsP_of) | with_reducible rfl | split | (clear_value *; split) | dsimp only)

theorem keeps_execVsub (core) {s : State} (h0 : Keeps s0 s) : KeepsO s0 (@execVsub core s) := by
  unfold execVsub
  repeat' (first | with_reducible assumption | with_reducible apply keeps_runVec | with_reducible apply keepsO_next | (intro v; refine keeps_cut s0 v ?_ (fun hv => ?_); (on_goal 2 => try clear_value v); dsimp only [v]) | intro v | lift_lets | (simp only [keeps_mk_iff]; apply keepsP_of) | with_reducible rfl | split | (clear_value *; split) | dsimp only)

theorem keeps_execVmul (core) {s : State} (h0 : Keeps s0 s) : KeepsO s0 (@execVmul core s) := by
  unfold execVmul
  repeat' (first | with_reducible assumption | with_reducible apply keeps_runVec | with_reducible apply keepsO_next | (intro v; refine keeps_cut s0 v ?_ (fun hv => ?_); (on_goal 2 => try clear_value v); dsimp only [v]) | intro v | lift_lets | (simp only [keeps_mk_iff]; apply keepsP_of) | with_reducible rfl | split | (clear_value *; split) | dsimp only)

theorem keeps_execVfma (core) {s : State} (h0 : Keeps s0 s) : KeepsO s0 (@execVfma core s) := by
  unfold execVfma
  repeat' (first | with_reducible assumption | with_reducible apply keeps_runVec | with_reducible apply keepsO_next | (intro v; refine keeps_cut s0 v ?_ (fun hv => ?_); (on_goal 2 => try clear_value v); dsimp only [v]) | intro v | lift_lets | (simp only [keeps_mk_iff]; apply keepsP_of) | with_reducible rfl | split | (clear_value *; split) | dsimp only)

theorem keeps_execVmin (core) {s : State} (h0 : Keeps s0 s) : KeepsO s0 (@execVmin core s) := by
  unfold execVmin
  repeat' (first | with_reducible assumption | with_reducible apply keeps_runVec | with_reducible apply keepsO_next | (intro v; refine keeps_cut s0 v ?_ (fun hv => ?_); (on_goal 2 => try clear_value v); dsimp only [v]) | intro v | lift_lets | (simp only [keeps_mk_iff]; apply keepsP_of) | with_reducible rfl | split | (clear_value *; split) | dsimp only)

theorem keeps_execVmax (core) {s : State} (h0 : Keeps s0 s) : KeepsO s0 (@execVmax core s) := by
  unfold execVmax
  repeat' (first | with_reducible assumption | with_reducible apply keeps_runVec | with_reducible apply keepsO_next | (intro v; refine keeps_cut s0 v ?_ (fun hv => ?_); (on_goal 2 => try clear_value v); dsimp only [v]) | intro v | lift_lets | (simp only [keeps_mk_iff]; apply keepsP_of) | with_reducible rfl | split | (clear_value *; split) | dsimp only)

theorem keeps_execVabs (core) {s : State} (h0 : Keeps s0 s) : KeepsO s0 (@execVabs core s) := by
  unfold execVabs
  repeat' (first | with_reducible assumption | with_reducible apply keeps_runVec | with_reducible apply keepsO_next | (intro v; refine keeps_cut s0 v ?_ (fun hv => ?_); (on_goal 2 => try clear_value v); dsimp only [v]) | intro v | lift_lets | (simp only [keeps_mk_iff]; apply keepsP_of) | with_reducible rfl | split | (clear_value *; split) | dsimp only)

theorem keeps_execVneg (core) {s : State} (h0 : Keeps s0 s) : KeepsO s0 (@execVneg core s) := by
  unfold execVneg
  repeat' (first | with_reducible assumption | with_reducible apply keeps_runVec | with_reducible apply keepsO_next | (intro v; refine keeps_cut s0 v ?_ (fun hv => ?_); (on_goal 2 => try clear_value v); dsimp only [v]) | intro v | lift_lets | (simp only [keeps_mk_iff]; apply keepsP_of) | with_reducible rfl | split | (clear_value *; split) | dsimp only)

theorem keeps_execVand (core) {s : State} (h0 : Keeps s0 s) : KeepsO s0 (@execVand core s) := by
  unfold execVand
  repeat' (first | with_reducible assumption | with_reducible apply keeps_runVec | with_reducible apply keepsO_next | (intro v; refine keeps_cut s0 v ?_ (fun hv => ?_); (on_goal 2 => try clear_value v); dsimp only [v]) | intro v | lift_lets | (simp only [keeps_mk_iff]; apply keepsP_of) | with_reducible rfl | split | (clear_value *; split) | dsimp only)

theorem keeps_execVor (core) {s : State} (h0 : Keeps s0 s) : KeepsO s0 (@execVor core s) := by
  unfold execVor
  repeat' (first | with_reducible assumption | with_reducible apply keeps_runVec | with_reducible apply keepsO_next | (intro v; refine keeps_cut s0 v ?_ (fun hv => ?_); (on_goal 2 => try clear_value v); dsimp only [v]) | intro v | lift_lets | (simp only [keeps_mk_iff]; apply keepsP_of) | with_reducible rfl | split | (clear_value *; split) | dsimp only)

theorem keeps_execVxor (core) {s : State} (h0 : Keeps s0 s) : KeepsO s0 (@execVxor core s) := by
  unfold execVxor
  repeat' (first | with_reducible assumption | with_reducible apply keeps_runVec | with_reducible apply keepsO_next | (intro v; refine keeps_cut s0 v ?_ (fun hv => ?_); (on_goal 2 => try clear_value v); dsimp only [v]) | intro v | lift_lets | (simp only [keeps_mk_iff]; apply keepsP_of) | with_reducible rfl | split | (clear_value *; split) | dsimp only)

theorem keeps_execVshl (core) {s : State} (h0 : Keeps s0 s) : KeepsO s0 (@execVshl core s) := by
  unfold execVshl
  repeat' (first | with_reducible assumption | with_reducible apply keeps_runVec | with_reducible apply keepsO_next | (intro v; refine keeps_cut s0 v ?_ (fun hv => ?_); (on_goal 2 => try clear_value v); dsimp only [v]) | intro v | lift_lets | (simp only [keeps_mk_iff]; apply keepsP_of) | with_reducible rfl | split | (clear_value *; split) | dsimp only)

theorem keeps_execVshr (core) {s : State} (h0 : Keeps s0 s) : KeepsO s0 (@execVshr core s) := by
  unfold execVshr
  repeat' (first | with_reducible assumption | with_reducible apply keeps_runVec | with_reducible apply keepsO_next | (intro v; refine keeps_cut s0 v ?_ (fun hv => ?_); (on_goal 2 => try clear_value v); dsimp only [v]) | intro v | lift_lets | (simp only [keeps_mk_iff]; apply keepsP_of) | with_reducible rfl | split | (clear_value *; split) | dsimp only)

theorem keeps_execVsel (core) {s : State} (h0 : Keeps s0 s) : KeepsO s0 (@execVsel core s) := by
  unfold execVsel
  repeat' (first | with_reducible assumption | with_reducible apply keeps_runVec | with_reducible apply keepsO_next | (intro v; refine keeps_cut s0 v ?_ (fun hv => ?_); (on_goal 2 => try clear_value v); dsimp only [v]) | intro v | lift_lets | (simp only [keeps_mk_iff]; apply keepsP_of) | with_reducible rfl | split | (clear_value *; split) | dsimp only)

theorem keeps_execVmov (core) {s : State} (h0 : Keeps s0 s) : KeepsO s0 (@execVmov core s) := by
  unfold execVmov
  repeat' (first | with_reducible assumption | with_reducible apply keeps_runVec | with_reducible apply keepsO_next | (intro v; refine keeps_cut s0 v ?_ (fun hv => ?_); (on_goal 2 => try clear_value v); dsimp only [v]) | intro v | lift_lets | (simp only [keeps_mk_iff]; apply keepsP_of) | with_reducible rfl | split | (clear_value *; split) | dsimp only)

theorem keeps_execVidx (core) {s : State} (h0 : Keeps s0 s) : KeepsO s0 (@execVidx core s) := by
  unfold execVidx
  repeat' (first | with_reducible assumption | with_reducible apply keeps_runVec | with_reducible apply keepsO_next | (intro v; refine keeps_cut s0 v ?_ (fun hv => ?_); (on_goal 2 => try clear_value v); dsimp only [v]) | intro v | lift_lets | (simp only [keeps_mk_iff]; apply keepsP_of) | with_reducible rfl | split | (clear_value *; split) | dsimp only)

theorem keeps_execVcmp (core) {s : State} (h0 : Keeps s0 s) : KeepsO s0 (@execVcmp core s) := by
  unfold execVcmp
  repeat' (first | with_reducible assumption | with_reducible apply keeps_runVec | with_reducible apply keepsO_next | (intro v; refine keeps_cut s0 v ?_ (fun hv => ?_); (on_goal 2 => try clear_value v); dsimp only [v]) | intro v | lift_lets | (simp only [keeps_mk_iff]; apply keepsP_of) | with_reducible rfl | split | (clear_value *; split) | dsimp only)

theorem keeps_execVmand (core) {s : State} (h0 : Keeps s0 s) : KeepsO s0 (@execVmand core s) := by
  unfold execVmand
  repeat' (first | with_reducible assumption | with_reducible apply keeps_runVec | with_reducible apply keepsO_next | (intro v; refine keeps_cut s0 v ?_ (fun hv => ?_); (on_goal 2 => try clear_value v); dsimp only [v]) | intro v | lift_lets | (simp only [keeps_mk_iff]; apply keepsP_of) | with_reducible rfl | split | (clear_value *; split) | dsimp only)

theorem keeps_execVrcp (core) {s : State} (h0 : Keeps s0 s) : KeepsO s0 (@execVrcp core s) := by
  unfold execVrcp
  repeat' (first | with_reducible assumption | with_reducible apply keeps_runVec | with_reducible apply keepsO_next | (intro v; refine keeps_cut s0 v ?_ (fun hv => ?_); (on_goal 2 => try clear_value v); dsimp only [v]) | intro v | lift_lets | (simp only [keeps_mk_iff]; apply keepsP_of) | with_reducible rfl | split | (clear_value *; split) | dsimp only)

theorem keeps_execVrsqrt (core) {s : State} (h0 : Keeps s0 s) : KeepsO s0 (@execVrsqrt core s) := by
  unfold execVrsqrt
  repeat' (first | with_reducible assumption | with_reducible apply keeps_runVec | with_reducible apply keepsO_next | (intro v; refine keeps_cut s0 v ?_ (fun hv => ?_); (on_goal 2 => try clear_value v); dsimp only [v]) | intro v | lift_lets | (simp only [keeps_mk_iff]; apply keepsP_of) | with_reducible rfl | split | (clear_value *; split) | dsimp only)

theorem keeps_execVsqrt (core) {s : State} (h0 : Keeps s0 s) : KeepsO s0 (@execVsqrt core s) := by
  unfold execVsqrt
  repeat' (first | with_reducible assumption | with_reducible apply keeps_runVec | with_reducible apply keepsO_next | (intro v; refine keeps_cut s0 v ?_ (fun hv => ?_); (on_goal 2 => try clear_value v); dsimp only [v]) | intro v | lift_lets | (simp only [keeps_mk_iff]; apply keepsP_of) | with_reducible rfl | split | (clear_value *; split) | dsimp only)

theorem keeps_execVdiv (core) {s : State} (h0 : Keeps s0 s) : KeepsO s0 (@execVdiv core s) := by
  unfold execVdiv
  repeat' (first | with_reducible assumption | with_reducible apply keeps_runVec | with_reducible apply keepsO_next | (intro v; refine keeps_cut s0 v ?_ (fun hv => ?_); (on_goal 2 => try clear_value v); dsimp only [v]) | intro v | lift_lets | (simp only [keeps_mk_iff]; apply keepsP_of) | with_reducible rfl | split | (clear_value *; split) | dsimp only)

theorem keeps_execVexp2 (core) {s : State} (h0 : Keeps s0 s) : KeepsO s0 (@execVexp2 core s) := by
  unfold execVexp2
  repeat' (first | with_reducible assumption | with_reducible apply keeps_runVec | with_reducible apply keepsO_next | (intro v; refine keeps_cut s0 v ?_ (fun hv => ?_); (on_goal 2 => try clear_value v); dsimp only [v]) | intro v | lift_lets | (simp only [keeps_mk_iff]; apply keepsP_of) | with_reducible rfl | split | (clear_value *; split) | dsimp only)

theorem keeps_execVlog2 (core) {s : State} (h0 : Keeps s0 s) : KeepsO s0 (@execVlog2 core s) := by
  unfold execVlog2
  repeat' (first | with_reducible assumption | with_reducible apply keeps_runVec | with_reducible apply keepsO_next | (intro v; refine keeps_cut s0 v ?_ (fun hv => ?_); (on_goal 2 => try clear_value v); dsimp only [v]) | intro v | lift_lets | (simp only [keeps_mk_iff]; apply keepsP_of) | with_reducible rfl | split | (clear_value *; split) | dsimp only)

theorem keeps_execVexp (core) {s : State} (h0 : Keeps s0 s) : KeepsO s0 (@execVexp core s) := by
  unfold execVexp
  repeat' (first | with_reducible assumption | with_reducible apply keeps_runVec | with_reducible apply keepsO_next | (intro v; refine keeps_cut s0 v ?_ (fun hv => ?_); (on_goal 2 => try clear_value v); dsimp only [v]) | intro v | lift_lets | (simp only [keeps_mk_iff]; apply keepsP_of) | with_reducible rfl | split | (clear_value *; split) | dsimp only)

theorem keeps_execVtanh (core) {s : State} (h0 : Keeps s0 s) : KeepsO s0 (@execVtanh core s) := by
  unfold execVtanh
  repeat' (first | with_reducible assumption | with_reducible apply keeps_runVec | with_reducible apply keepsO_next | (intro v; refine keeps_cut s0 v ?_ (fun hv => ?_); (on_goal 2 => try clear_value v); dsimp only [v]) | intro v | lift_lets | (simp only [keeps_mk_iff]; apply keepsP_of) | with_reducible rfl | split | (clear_value *; split) | dsimp only)

theorem keeps_execVsig (core) {s : State} (h0 : Keeps s0 s) : KeepsO s0 (@execVsig core s) := by
  unfold execVsig
  repeat' (first | with_reducible assumption | with_reducible apply keeps_runVec | with_reducible apply keepsO_next | (intro v; refine keeps_cut s0 v ?_ (fun hv => ?_); (on_goal 2 => try clear_value v); dsimp only [v]) | intro v | lift_lets | (simp only [keeps_mk_iff]; apply keepsP_of) | with_reducible rfl | split | (clear_value *; split) | dsimp only)

theorem keeps_execVsinpi (core) {s : State} (h0 : Keeps s0 s) : KeepsO s0 (@execVsinpi core s) := by
  unfold execVsinpi
  repeat' (first | with_reducible assumption | with_reducible apply keeps_runVec | with_reducible apply keepsO_next | (intro v; refine keeps_cut s0 v ?_ (fun hv => ?_); (on_goal 2 => try clear_value v); dsimp only [v]) | intro v | lift_lets | (simp only [keeps_mk_iff]; apply keepsP_of) | with_reducible rfl | split | (clear_value *; split) | dsimp only)

theorem keeps_execVcospi (core) {s : State} (h0 : Keeps s0 s) : KeepsO s0 (@execVcospi core s) := by
  unfold execVcospi
  repeat' (first | with_reducible assumption | with_reducible apply keeps_runVec | with_reducible apply keepsO_next | (intro v; refine keeps_cut s0 v ?_ (fun hv => ?_); (on_goal 2 => try clear_value v); dsimp only [v]) | intro v | lift_lets | (simp only [keeps_mk_iff]; apply keepsP_of) | with_reducible rfl | split | (clear_value *; split) | dsimp only)

theorem keeps_execVftoi (core) {s : State} (h0 : Keeps s0 s) : KeepsO s0 (@execVftoi core s) := by
  unfold execVftoi
  repeat' (first | with_reducible assumption | with_reducible apply keeps_runVec | with_reducible apply keepsO_next | (intro v; refine keeps_cut s0 v ?_ (fun hv => ?_); (on_goal 2 => try clear_value v); dsimp only [v]) | intro v | lift_lets | (simp only [keeps_mk_iff]; apply keepsP_of) | with_reducible rfl | split | (clear_value *; split) | dsimp only)

theorem keeps_execVitof (core) {s : State} (h0 : Keeps s0 s) : KeepsO s0 (@execVitof core s) := by
  unfold execVitof
  repeat' (first | with_reducible assumption | with_reducible apply keeps_runVec | with_reducible apply keepsO_next | (intro v; refine keeps_cut s0 v ?_ (fun hv => ?_); (on_goal 2 => try clear_value v); dsimp only [v]) | intro v | lift_lets | (simp only [keeps_mk_iff]; apply keepsP_of) | with_reducible rfl | split | (clear_value *; split) | dsimp only)

theorem keeps_execVrsum (core) {s : State} (h0 : Keeps s0 s) : KeepsO s0 (@execVrsum core s) := by
  unfold execVrsum
  repeat' (first | with_reducible assumption | with_reducible apply keeps_runVec | with_reducible apply keepsO_next | (intro v; refine keeps_cut s0 v ?_ (fun hv => ?_); (on_goal 2 => try clear_value v); dsimp only [v]) | intro v | lift_lets | (simp only [keeps_mk_iff]; apply keepsP_of) | with_reducible rfl | split | (clear_value *; split) | dsimp only)

theorem keeps_execVrmax (core) {s : State} (h0 : Keeps s0 s) : KeepsO s0 (@execVrmax core s) := by
  unfold execVrmax
  repeat' (first | with_reducible assumption | with_reducible apply keeps_runVec | with_reducible apply keepsO_next | (intro v; refine keeps_cut s0 v ?_ (fun hv => ?_); (on_goal 2 => try clear_value v); dsimp only [v]) | intro v | lift_lets | (simp only [keeps_mk_iff]; apply keepsP_of) | with_reducible rfl | split | (clear_value *; split) | dsimp only)

theorem keeps_execVrmin (core) {s : State} (h0 : Keeps s0 s) : KeepsO s0 (@execVrmin core s) := by
  unfold execVrmin
  repeat' (first | with_reducible assumption | with_reducible apply keeps_runVec | with_reducible apply keepsO_next | (intro v; refine keeps_cut s0 v ?_ (fun hv => ?_); (on_goal 2 => try clear_value v); dsimp only [v]) | intro v | lift_lets | (simp only [keeps_mk_iff]; apply keepsP_of) | with_reducible rfl | split | (clear_value *; split) | dsimp only)

theorem keeps_execVramax (core) {s : State} (h0 : Keeps s0 s) : KeepsO s0 (@execVramax core s) := by
  unfold execVramax
  repeat' (first | with_reducible assumption | with_reducible apply keeps_runVec | with_reducible apply keepsO_next | (intro v; refine keeps_cut s0 v ?_ (fun hv => ?_); (on_goal 2 => try clear_value v); dsimp only [v]) | intro v | lift_lets | (simp only [keeps_mk_iff]; apply keepsP_of) | with_reducible rfl | split | (clear_value *; split) | dsimp only)

theorem keeps_execVld (core) {s : State} (h0 : Keeps s0 s) : KeepsO s0 (@execVld core s) := by
  unfold execVld
  repeat' (first | with_reducible assumption | with_reducible apply keeps_runVec | with_reducible apply keepsO_next | (intro v; refine keeps_cut s0 v ?_ (fun hv => ?_); (on_goal 2 => try clear_value v); dsimp only [v]) | intro v | lift_lets | (simp only [keeps_mk_iff]; apply keepsP_of) | with_reducible rfl | split | (clear_value *; split) | dsimp only)

theorem keeps_execVst (core) {s : State} (h0 : Keeps s0 s) : KeepsO s0 (@execVst core s) := by
  unfold execVst
  repeat' (first | with_reducible assumption | with_reducible apply keeps_runVec | with_reducible apply keepsO_next | (intro v; refine keeps_cut s0 v ?_ (fun hv => ?_); (on_goal 2 => try clear_value v); dsimp only [v]) | intro v | lift_lets | (simp only [keeps_mk_iff]; apply keepsP_of) | with_reducible rfl | split | (clear_value *; split) | dsimp only)

theorem keeps_execVlds (core) {s : State} (h0 : Keeps s0 s) : KeepsO s0 (@execVlds core s) := by
  unfold execVlds
  repeat' (first | with_reducible assumption | with_reducible apply keeps_runVec | with_reducible apply keepsO_next | (intro v; refine keeps_cut s0 v ?_ (fun hv => ?_); (on_goal 2 => try clear_value v); dsimp only [v]) | intro v | lift_lets | (simp only [keeps_mk_iff]; apply keepsP_of) | with_reducible rfl | split | (clear_value *; split) | dsimp only)

theorem keeps_execVsts (core) {s : State} (h0 : Keeps s0 s) : KeepsO s0 (@execVsts core s) := by
  unfold execVsts
  repeat' (first | with_reducible assumption | with_reducible apply keeps_runVec | with_reducible apply keepsO_next | (intro v; refine keeps_cut s0 v ?_ (fun hv => ?_); (on_goal 2 => try clear_value v); dsimp only [v]) | intro v | lift_lets | (simp only [keeps_mk_iff]; apply keepsP_of) | with_reducible rfl | split | (clear_value *; split) | dsimp only)

theorem keeps_execVgather (core) {s : State} (h0 : Keeps s0 s) : KeepsO s0 (@execVgather core s) := by
  unfold execVgather
  repeat' (first | with_reducible assumption | with_reducible apply keeps_runVec | with_reducible apply keepsO_next | (intro v; refine keeps_cut s0 v ?_ (fun hv => ?_); (on_goal 2 => try clear_value v); dsimp only [v]) | intro v | lift_lets | (simp only [keeps_mk_iff]; apply keepsP_of) | with_reducible rfl | split | (clear_value *; split) | dsimp only)

theorem keeps_execVscatter (core) {s : State} (h0 : Keeps s0 s) : KeepsO s0 (@execVscatter core s) := by
  unfold execVscatter
  repeat' (first | with_reducible assumption | with_reducible apply keeps_runVec | with_reducible apply keepsO_next | (intro v; refine keeps_cut s0 v ?_ (fun hv => ?_); (on_goal 2 => try clear_value v); dsimp only [v]) | intro v | lift_lets | (simp only [keeps_mk_iff]; apply keepsP_of) | with_reducible rfl | split | (clear_value *; split) | dsimp only)

theorem keeps_execVldm (core) {s : State} (h0 : Keeps s0 s) : KeepsO s0 (@execVldm core s) := by
  unfold execVldm
  repeat' (first | with_reducible assumption | with_reducible apply keeps_runVec | with_reducible apply keepsO_next | (intro v; refine keeps_cut s0 v ?_ (fun hv => ?_); (on_goal 2 => try clear_value v); dsimp only [v]) | intro v | lift_lets | (simp only [keeps_mk_iff]; apply keepsP_of) | with_reducible rfl | split | (clear_value *; split) | dsimp only)

theorem keeps_execVstm (core) {s : State} (h0 : Keeps s0 s) : KeepsO s0 (@execVstm core s) := by
  unfold execVstm
  repeat' (first | with_reducible assumption | with_reducible apply keeps_runVec | with_reducible apply keepsO_next | (intro v; refine keeps_cut s0 v ?_ (fun hv => ?_); (on_goal 2 => try clear_value v); dsimp only [v]) | intro v | lift_lets | (simp only [keeps_mk_iff]; apply keepsP_of) | with_reducible rfl | split | (clear_value *; split) | dsimp only)

theorem keeps_execVcvtIn (core) {s : State} (h0 : Keeps s0 s) : KeepsO s0 (@execVcvtIn core s) := by
  unfold execVcvtIn
  repeat' (first | with_reducible assumption | with_reducible apply keeps_runVec | with_reducible apply keepsO_next | (intro v; refine keeps_cut s0 v ?_ (fun hv => ?_); (on_goal 2 => try clear_value v); dsimp only [v]) | intro v | lift_lets | (simp only [keeps_mk_iff]; apply keepsP_of) | with_reducible rfl | split | (clear_value *; split) | dsimp only)

theorem keeps_execVcvtOut (core) {s : State} (h0 : Keeps s0 s) : KeepsO s0 (@execVcvtOut core s) := by
  unfold execVcvtOut
  repeat' (first | with_reducible assumption | with_reducible apply keeps_runVec | with_reducible apply keepsO_next | (intro v; refine keeps_cut s0 v ?_ (fun hv => ?_); (on_goal 2 => try clear_value v); dsimp only [v]) | intro v | lift_lets | (simp only [keeps_mk_iff]; apply keepsP_of) | with_reducible rfl | split | (clear_value *; split) | dsimp only)

theorem keeps_execVcvtMxin (core) {s : State} (h0 : Keeps s0 s) : KeepsO s0 (@execVcvtMxin core s) := by
  unfold execVcvtMxin
  repeat' (first | with_reducible assumption | with_reducible apply keeps_runVec | with_reducible apply keepsO_next | (intro v; refine keeps_cut s0 v ?_ (fun hv => ?_); (on_goal 2 => try clear_value v); dsimp only [v]) | intro v | lift_lets | (simp only [keeps_mk_iff]; apply keepsP_of) | with_reducible rfl | split | (clear_value *; split) | dsimp only)

theorem keeps_execVcvtMxout (core) {s : State} (h0 : Keeps s0 s) : KeepsO s0 (@execVcvtMxout core s) := by
  unfold execVcvtMxout
  repeat' (first | with_reducible assumption | with_reducible apply keeps_runVec | with_reducible apply keepsO_next | (intro v; refine keeps_cut s0 v ?_ (fun hv => ?_); (on_goal 2 => try clear_value v); dsimp only [v]) | intro v | lift_lets | (simp only [keeps_mk_iff]; apply keepsP_of) | with_reducible rfl | split | (clear_value *; split) | dsimp only)

theorem keeps_execVstream (core) {s : State} (h0 : Keeps s0 s) : KeepsO s0 (@execVstream core s) := by
  unfold execVstream
  repeat' (first | with_reducible assumption | with_reducible apply keeps_runVec | with_reducible apply keepsO_next | (intro v; refine keeps_cut s0 v ?_ (fun hv => ?_); (on_goal 2 => try clear_value v); dsimp only [v]) | intro v | lift_lets | (simp only [keeps_mk_iff]; apply keepsP_of) | with_reducible rfl | split | (clear_value *; split) | dsimp only)

/-! ### Machine/HostPages.lean -/

theorem keeps_chanRead {s : State} (who) (c) (o) (h0 : Keeps s0 s) : Keeps s0 (@State.chanRead s who c o).2 := by
  unfold State.chanRead
  repeat' (first | with_reducible assumption | with_reducible apply keeps_record | (intro v; refine keeps_cut s0 v ?_ (fun hv => ?_); (on_goal 2 => try clear_value v); dsimp only [v]) | intro v | lift_lets | with_reducible apply keeps_ite | (simp only [keeps_mk_iff]; apply keepsP_of) | with_reducible rfl | split | (clear_value *; split) | dsimp only)

theorem keeps_chanWrite {s : State} (who) (c) (o) (data) (h0 : Keeps s0 s) : Keeps s0 (@State.chanWrite s who c o data) := by
  unfold State.chanWrite
  repeat' (first | with_reducible assumption | with_reducible apply keeps_writeStaging | with_reducible apply keeps_offsetWrite | (intro v; refine keeps_cut s0 v ?_ (fun hv => ?_); (on_goal 2 => try clear_value v); dsimp only [v]) | intro v | lift_lets | with_reducible apply keeps_foldl | with_reducible apply keeps_foldl_fst | with_reducible apply keeps_foldl_snd | with_reducible apply keeps_ite | (simp only [keeps_mk_iff]; apply keepsP_of) | with_reducible rfl | split | (clear_value *; split) | dsimp only)

theorem keeps_ctlRead {s : State} (who) (off) (h0 : Keeps s0 s) : Keeps s0 (@State.ctlRead s who off).2 := by
  unfold State.ctlRead
  repeat' (first | with_reducible assumption | with_reducible apply keeps_readClears | (intro v; refine keeps_cut s0 v ?_ (fun hv => ?_); (on_goal 2 => try clear_value v); dsimp only [v]) | intro v | lift_lets | with_reducible apply keeps_ite | (simp only [keeps_mk_iff]; apply keepsP_of) | with_reducible rfl | (refine keeps_of_snd (by with_reducible assumption) ?_) | (refine keeps_of_fst (by with_reducible assumption) ?_) | split | (clear_value *; split) | with_reducible apply keeps_chanRead | dsimp only)

theorem keeps_ctlWrite {s : State} (who) (off) (data) (h0 : Keeps s0 s) : Keeps s0 (@State.ctlWrite s who off data) := by
  unfold State.ctlWrite
  repeat' (first | with_reducible assumption | with_reducible apply keeps_chanWrite | with_reducible apply keeps_offsetWrite | (intro v; refine keeps_cut s0 v ?_ (fun hv => ?_); (on_goal 2 => try clear_value v); dsimp only [v]) | intro v | lift_lets | with_reducible apply keeps_ite | (simp only [keeps_mk_iff]; apply keepsP_of) | with_reducible rfl | split | (clear_value *; split) | dsimp only)

theorem keeps_writeEntry {s : State} (fn) (vec) (o) (data) (h0 : Keeps s0 s) : Keeps s0 (@State.writeEntry s fn vec o data) := by
  unfold State.writeEntry
  repeat' (first | with_reducible assumption | with_reducible apply keeps_setVector | with_reducible apply keeps_unmasked | (intro v; refine keeps_cut s0 v ?_ (fun hv => ?_); (on_goal 2 => try clear_value v); dsimp only [v]) | intro v | lift_lets | (simp only [keeps_mk_iff]; apply keepsP_of) | with_reducible rfl | split | (clear_value *; split) | dsimp only)

theorem keeps_pageRead {s : State} (fn) (off) (h0 : Keeps s0 s) : Keeps s0 (@State.pageRead s fn off).2 := by
  unfold State.pageRead
  repeat' (first | with_reducible assumption | with_reducible apply keeps_readClears | (intro v; refine keeps_cut s0 v ?_ (fun hv => ?_); (on_goal 2 => try clear_value v); dsimp only [v]) | intro v | lift_lets | (simp only [keeps_mk_iff]; apply keepsP_of) | with_reducible rfl | (refine keeps_of_snd (by with_reducible assumption) ?_) | (refine keeps_of_fst (by with_reducible assumption) ?_) | split | (clear_value *; split) | with_reducible apply keeps_chanRead | dsimp only)

theorem keeps_doorbellWrite {s : State} (fn) (o) (data) (h0 : Keeps s0 s) : Keeps s0 (@State.doorbellWrite s fn o data) := by
  unfold State.doorbellWrite
  repeat' (first | with_reducible assumption | with_reducible apply keeps_copySubmit | with_reducible apply keeps_doorbell | with_reducible apply keeps_flush | with_reducible apply keeps_cancel | with_reducible apply keeps_badAccess | (intro v; refine keeps_cut s0 v ?_ (fun hv => ?_); (on_goal 2 => try clear_value v); dsimp only [v]) | intro v | lift_lets | with_reducible apply keeps_ite | (simp only [keeps_mk_iff]; apply keepsP_of) | with_reducible rfl | split | (clear_value *; split) | dsimp only)

theorem keeps_pageWrite {s : State} (fn) (off) (data) (h0 : Keeps s0 s) : Keeps s0 (@State.pageWrite s fn off data) := by
  unfold State.pageWrite
  repeat' (first | with_reducible assumption | with_reducible apply keeps_doorbellWrite | with_reducible apply keeps_writeFnA | with_reducible apply keeps_writeFnB | with_reducible apply keeps_writeEntry | with_reducible apply keeps_chanWrite | (intro v; refine keeps_cut s0 v ?_ (fun hv => ?_); (on_goal 2 => try clear_value v); dsimp only [v]) | intro v | lift_lets | with_reducible apply keeps_ite | (simp only [keeps_mk_iff]; apply keepsP_of) | with_reducible rfl | split | (clear_value *; split) | dsimp only)

theorem keeps_reqRead {s : State} (fn) (bar) (off) (len) (h0 : Keeps s0 s) : Keeps s0 (@State.reqRead s fn bar off len) := by
  unfold State.reqRead
  repeat' (first | with_reducible assumption | with_reducible apply keeps_emit | (intro v; refine keeps_cut s0 v ?_ (fun hv => ?_); (on_goal 2 => try clear_value v); dsimp only [v]) | intro v | lift_lets | with_reducible apply keeps_ite | (simp only [keeps_mk_iff]; apply keepsP_of) | with_reducible rfl | (refine keeps_of_snd (by with_reducible assumption) ?_) | (refine keeps_of_fst (by with_reducible assumption) ?_) | split | (clear_value *; split) | with_reducible apply keeps_ctlRead | with_reducible apply keeps_pageRead | dsimp only)

theorem keeps_reqWrite {s : State} (fn) (bar) (off) (data) (h0 : Keeps s0 s) : Keeps s0 (@State.reqWrite s fn bar off data) := by
  unfold State.reqWrite
  repeat' (first | with_reducible assumption | with_reducible apply keeps_ctlWrite | with_reducible apply keeps_pageWrite | (intro v; refine keeps_cut s0 v ?_ (fun hv => ?_); (on_goal 2 => try clear_value v); dsimp only [v]) | intro v | lift_lets | with_reducible apply keeps_ite | (simp only [keeps_mk_iff]; apply keepsP_of) | with_reducible rfl | split | (clear_value *; split) | dsimp only)

theorem keeps_setMaskAll {s : State} (fn) (on) (h0 : Keeps s0 s) : Keeps s0 (@State.setMaskAll s fn on) := by
  unfold State.setMaskAll
  repeat' (first | with_reducible assumption | with_reducible apply keeps_unmasked | (intro v; refine keeps_cut s0 v ?_ (fun hv => ?_); (on_goal 2 => try clear_value v); dsimp only [v]) | intro v | lift_lets | with_reducible apply keeps_foldl | with_reducible apply keeps_foldl_fst | with_reducible apply keeps_foldl_snd | with_reducible apply keeps_ite | (simp only [keeps_mk_iff]; apply keepsP_of) | with_reducible rfl | split | (clear_value *; split) | dsimp only)

theorem keeps_serveReq {s : State} (a) (h0 : Keeps s0 s) : Keeps s0 (@State.serveReq s a) := by
  unfold State.serveReq
  repeat' (first | with_reducible assumption | with_reducible apply keeps_reqRead | with_reducible apply keeps_reqWrite | with_reducible apply keeps_setMaskAll | with_reducible apply keeps_i3cRead | (intro v; refine keeps_cut s0 v ?_ (fun hv => ?_); (on_goal 2 => try clear_value v); dsimp only [v]) | intro v | lift_lets | with_reducible apply keeps_ite | (simp only [keeps_mk_iff]; apply keepsP_of) | with_reducible rfl | split | (clear_value *; split) | dsimp only)

/-! ### Machine/Idle.lean -/

theorem keeps_storeLost {s : State} (src) (cls) (job) (h0 : Keeps s0 s) : Keeps s0 (@State.storeLost s src cls job) := by
  unfold State.storeLost
  repeat' (first | with_reducible assumption | with_reducible apply keeps_record | with_reducible apply keeps_raiseAbort | (intro v; refine keeps_cut s0 v ?_ (fun hv => ?_); (on_goal 2 => try clear_value v); dsimp only [v]) | intro v | lift_lets | with_reducible apply keeps_ite | (simp only [keeps_mk_iff]; apply keepsP_of) | with_reducible rfl | split | (clear_value *; split) | dsimp only)

theorem keeps_takeSram {s : State} (f) (h0 : Keeps s0 s) : Keeps s0 (@State.takeSram s f) := by
  unfold State.takeSram
  repeat' (first | with_reducible assumption | with_reducible apply keeps_createPoison | with_reducible apply keeps_mergeWrite | with_reducible apply keeps_setSlot | with_reducible apply keeps_startReplay | with_reducible apply keeps_setCore | with_reducible apply keeps_storeLost | (intro v; refine keeps_cut s0 v ?_ (fun hv => ?_); (on_goal 2 => try clear_value v); dsimp only [v]) | intro v | lift_lets | with_reducible apply keeps_ite | (simp only [keeps_mk_iff]; apply keepsP_of) | with_reducible rfl | split | (clear_value *; split) | dsimp only)

theorem keeps_idle {s : State} (h0 : Keeps s0 s) : Keeps s0 (@State.idle s) := by
  unfold State.idle
  repeat' (first | with_reducible assumption | with_reducible apply keeps_takeSram | with_reducible apply keeps_serveReq | with_reducible apply keeps_tick | (intro v; refine keeps_cut s0 v ?_ (fun hv => ?_); (on_goal 2 => try clear_value v); dsimp only [v]) | intro v | lift_lets | (simp only [keeps_mk_iff]; apply keepsP_of) | with_reducible rfl | split | (clear_value *; split) | dsimp only)

end Sys2Proof.Laws
end

