-- ==== Sys2Proof/Laws/KeepsExec.lean ====
section
/-!
SUPPORT. Laws/KeepsExec.lean: every command keeps the queue and hands on `Safety.Sound`.
-/
namespace Sys2Proof.Laws
open Sys2Proof.Machine

/-- What each command's meaning keeps. -/
theorem keeps_exec (i : Instr) (s : State) : KeepsO s (exec i s) := by
  cases i with
  | registerWrite => exact keeps_execRegisterWrite _ _ _ (.refl s)
  | topMsizeWrite => exact keeps_execTopMsizeWrite _ _ (.refl s)
  | gaugeSet => exact keeps_execGaugeSet _ _ (.refl s)
  | gaugeLock => exact keeps_execGaugeLock _ _ (.refl s)
  | timeExchangeTick => exact keeps_execTimeExchangeTick _ (.refl s)
  | timeReq => exact keeps_execTimeReq _ _ (.refl s)
  | timeRsp => exact keeps_execTimeRsp _ _ _ (.refl s)
  | holdoverExpiry => exact keeps_execHoldoverExpiry (.refl s)
  | gaugeReacquire => exact keeps_execGaugeReacquire _ (.refl s)
  | gaugeWrap => exact keeps_execGaugeWrap (.refl s)
  | courseBoundary => exact keeps_execCourseBoundary (.refl s)
  | courseChangeArm => exact keeps_execCourseChangeArm _ _ (.refl s)
  | courseChangeCancel => exact keeps_execCourseChangeCancel _ _ (.refl s)
  | courseLengthSwitch => exact keeps_execCourseLengthSwitch (.refl s)
  | oldEpochExpiry => exact keeps_execOldEpochExpiry (.refl s)
  | lagFifoPop => exact keeps_execLagFifoPop _ (.refl s)
  | alu => exact keeps_execAlu _ _ _ _ _ (.refl s)
  | addi => exact keeps_execAddi _ _ _ _ (.refl s)
  | andi => exact keeps_execAndi _ _ _ _ (.refl s)
  | ori => exact keeps_execOri _ _ _ _ (.refl s)
  | xori => exact keeps_execXori _ _ _ _ (.refl s)
  | shifti => exact keeps_execShifti _ _ _ _ _ (.refl s)
  | slti => exact keeps_execSlti _ _ _ _ (.refl s)
  | lui => exact keeps_execLui _ _ _ _ (.refl s)
  | shin => exact keeps_execShin _ _ _ _ (.refl s)
  | cmp => exact keeps_execCmp _ _ _ _ _ (.refl s)
  | cmpi => exact keeps_execCmpi _ _ _ _ (.refl s)
  | plog => exact keeps_execPlog _ _ _ _ _ (.refl s)
  | ldD => exact keeps_execLdD _ _ _ _ (.refl s)
  | ldW => exact keeps_execLdW _ _ _ _ (.refl s)
  | ldWu => exact keeps_execLdWu _ _ _ _ (.refl s)
  | ldH => exact keeps_execLdH _ _ _ _ (.refl s)
  | ldHu => exact keeps_execLdHu _ _ _ _ (.refl s)
  | ldB => exact keeps_execLdB _ _ _ _ (.refl s)
  | ldBu => exact keeps_execLdBu _ _ _ _ (.refl s)
  | stD => exact keeps_execStD _ _ _ _ (.refl s)
  | stW => exact keeps_execStW _ _ _ _ (.refl s)
  | stH => exact keeps_execStH _ _ _ _ (.refl s)
  | stB => exact keeps_execStB _ _ _ _ (.refl s)
  | ldvD => exact keeps_execLdvD _ _ _ _ (.refl s)
  | ldvW => exact keeps_execLdvW _ _ _ _ (.refl s)
  | amo => exact keeps_execAmo _ _ _ _ _ (.refl s)
  | loadReturn => exact keeps_execLoadReturn _ _ (.refl s)
  | storeReachHome => exact keeps_execStoreReachHome _ (.refl s)
  | heldSetApply => exact keeps_execHeldSetApply _ (.refl s)
  | fence => exact keeps_execFence _ _ _ _ _ (.refl s)
  | jal => exact keeps_execJal _ _ _ (.refl s)
  | jalr => exact keeps_execJalr _ _ _ _ (.refl s)
  | beq => exact keeps_execBeq _ _ _ _ (.refl s)
  | bne => exact keeps_execBne _ _ _ _ (.refl s)
  | blt => exact keeps_execBlt _ _ _ _ (.refl s)
  | bge => exact keeps_execBge _ _ _ _ (.refl s)
  | bltu => exact keeps_execBltu _ _ _ _ (.refl s)
  | bgeu => exact keeps_execBgeu _ _ _ _ (.refl s)
  | bp => exact keeps_execBp _ _ _ _ (.refl s)
  | cwr => exact keeps_execCwr _ _ _ _ _ (.refl s)
  | cww => exact keeps_execCww _ _ _ _ _ (.refl s)
  | ewait => exact keeps_execEwait _ _ _ _ (.refl s)
  | eset => exact keeps_execEset _ _ _ _ (.refl s)
  | eclr => exact keeps_execEclr _ _ _ _ (.refl s)
  | etst => exact keeps_execEtst _ _ _ _ (.refl s)
  | btnRd => exact keeps_execBtnRd _ _ _ _ (.refl s)
  | btnAdd => exact keeps_execBtnAdd _ _ _ _ (.refl s)
  | btnSet => exact keeps_execBtnSet _ _ _ _ (.refl s)
  | btnWait => exact keeps_execBtnWait _ _ _ _ (.refl s)
  | btnTest => exact keeps_execBtnTest _ _ _ _ (.refl s)
  | sysNop => exact keeps_execSysNop _ (.refl s)
  | sysDone => exact keeps_execSysDone _ _ (.refl s)
  | sysTrap => exact keeps_execSysTrap _ _ (.refl s)
  | sysIinv => exact keeps_execSysIinv _ (.refl s)
  | sel => exact keeps_execSel _ _ _ _ _ (.refl s)
  | limm => exact keeps_execLimm _ _ _ _ _ (.refl s)
  | mx => exact keeps_execMx _ _ (.refl s)
  | vx => exact keeps_execVx _ _ (.refl s)
  | dmaSubmit => exact keeps_execDmaSubmit _ _ (.refl s)
  | icacheFill => exact keeps_execIcacheFill _ _ (.refl s)
  | coreFault => exact keeps_execCoreFault _ _ _ _ (.refl s)
  | enginePost => exact keeps_execEnginePost _ _ (.refl s)
  | mxZero => exact keeps_execMxZero _ (.refl s)
  | mxMac => exact keeps_execMxMac _ (.refl s)
  | mxOut => exact keeps_execMxOut _ (.refl s)
  | mxStore => exact keeps_execMxStore _ (.refl s)
  | mxAddw => exact keeps_execMxAddw _ (.refl s)
  | mxBias => exact keeps_execMxBias _ (.refl s)
  | mxFlags => exact keeps_execMxFlags _ (.refl s)
  | vadd => exact keeps_execVadd _ (.refl s)
  | vsub => exact keeps_execVsub _ (.refl s)
  | vmul => exact keeps_execVmul _ (.refl s)
  | vfma => exact keeps_execVfma _ (.refl s)
  | vmin => exact keeps_execVmin _ (.refl s)
  | vmax => exact keeps_execVmax _ (.refl s)
  | vabs => exact keeps_execVabs _ (.refl s)
  | vneg => exact keeps_execVneg _ (.refl s)
  | vand => exact keeps_execVand _ (.refl s)
  | vor => exact keeps_execVor _ (.refl s)
  | vxor => exact keeps_execVxor _ (.refl s)
  | vshl => exact keeps_execVshl _ (.refl s)
  | vshr => exact keeps_execVshr _ (.refl s)
  | vsel => exact keeps_execVsel _ (.refl s)
  | vmov => exact keeps_execVmov _ (.refl s)
  | vidx => exact keeps_execVidx _ (.refl s)
  | vcmp => exact keeps_execVcmp _ (.refl s)
  | vmand => exact keeps_execVmand _ (.refl s)
  | vrcp => exact keeps_execVrcp _ (.refl s)
  | vrsqrt => exact keeps_execVrsqrt _ (.refl s)
  | vsqrt => exact keeps_execVsqrt _ (.refl s)
  | vdiv => exact keeps_execVdiv _ (.refl s)
  | vexp2 => exact keeps_execVexp2 _ (.refl s)
  | vlog2 => exact keeps_execVlog2 _ (.refl s)
  | vexp => exact keeps_execVexp _ (.refl s)
  | vtanh => exact keeps_execVtanh _ (.refl s)
  | vsig => exact keeps_execVsig _ (.refl s)
  | vsinpi => exact keeps_execVsinpi _ (.refl s)
  | vcospi => exact keeps_execVcospi _ (.refl s)
  | vftoi => exact keeps_execVftoi _ (.refl s)
  | vitof => exact keeps_execVitof _ (.refl s)
  | vrsum => exact keeps_execVrsum _ (.refl s)
  | vrmax => exact keeps_execVrmax _ (.refl s)
  | vrmin => exact keeps_execVrmin _ (.refl s)
  | vramax => exact keeps_execVramax _ (.refl s)
  | vld => exact keeps_execVld _ (.refl s)
  | vst => exact keeps_execVst _ (.refl s)
  | vlds => exact keeps_execVlds _ (.refl s)
  | vsts => exact keeps_execVsts _ (.refl s)
  | vgather => exact keeps_execVgather _ (.refl s)
  | vscatter => exact keeps_execVscatter _ (.refl s)
  | vldm => exact keeps_execVldm _ (.refl s)
  | vstm => exact keeps_execVstm _ (.refl s)
  | vcvtIn => exact keeps_execVcvtIn _ (.refl s)
  | vcvtOut => exact keeps_execVcvtOut _ (.refl s)
  | vcvtMxin => exact keeps_execVcvtMxin _ (.refl s)
  | vcvtMxout => exact keeps_execVcvtMxout _ (.refl s)
  | vstream => exact keeps_execVstream _ (.refl s)
  | dmaCopy => exact keeps_execDmaCopy _ (.refl s)
  | dmaFill => exact keeps_execDmaFill _ (.refl s)
  | dmaAccum => exact keeps_execDmaAccum _ (.refl s)
  | tierAccumApply => exact keeps_execTierAccumApply _ (.refl s)
  | dmaPut => exact keeps_execDmaPut _ (.refl s)
  | dmaGet => exact keeps_execDmaGet _ (.refl s)
  | dmaSignal => exact keeps_execDmaSignal _ (.refl s)
  | dmaComplete => exact keeps_execDmaComplete _ _ (.refl s)
  | dmaTimeout => exact keeps_execDmaTimeout _ _ (.refl s)
  | awinWrite => exact keeps_execAwinWrite _ _ _ _ (.refl s)
  | topCilWrite => exact keeps_execTopCilWrite _ _ (.refl s)
  | place => exact keeps_execPlace _ (.refl s)
  | battenWatchWake => exact keeps_execBattenWatchWake _ (.refl s)
  | watchRetry => exact keeps_execWatchRetry _ (.refl s)
  | btnHostAdd => exact keeps_execBtnHostAdd _ _ (.refl s)
  | btnHostSet => exact keeps_execBtnHostSet _ _ (.refl s)
  | queueEnable => exact keeps_execQueueEnable _ _ _ (.refl s)
  | queueDisable => exact keeps_execQueueDisable _ _ _ (.refl s)
  | qmDoorbell => exact keeps_execQmDoorbell _ _ (.refl s)
  | qmFlush => exact keeps_execQmFlush _ _ (.refl s)
  | qmCancel => exact keeps_execQmCancel _ _ (.refl s)
  | owedCompletionWrite => exact keeps_execOwedCompletionWrite (.refl s)
  | shadowWrite => exact keeps_execShadowWrite _ (.refl s)
  | workItemRead => exact keeps_execWorkItemRead _ (.refl s)
  | taskGrant => exact keeps_execTaskGrant _ (.refl s)
  | taskFinish => exact keeps_execTaskFinish _ (.refl s)
  | taskTimeout => exact keeps_execTaskTimeout _ (.refl s)
  | flitReceive => exact keeps_execFlitReceive _ _ _ (.refl s)
  | replayTimeout => exact keeps_execReplayTimeout _ _ (.refl s)
  | creditSend => exact keeps_execCreditSend _ _ (.refl s)
  | credit => exact keeps_execCredit _ _ _ (.refl s)
  | init => exact keeps_execInit _ _ _ _ (.refl s)
  | ident => exact keeps_execIdent _ _ _ (.refl s)
  | swap => exact keeps_execSwap _ _ _ (.refl s)
  | strandTrainingStageDone => exact keeps_execStrandTrainingStageDone _ _ _ (.refl s)
  | trainingStageTimeout => exact keeps_execTrainingStageTimeout _ _ (.refl s)
  | lstateSend => exact keeps_execLstateSend _ (.refl s)
  | lstate => exact keeps_execLstate _ _ _ (.refl s)
  | trainingPatternDetect => exact keeps_execTrainingPatternDetect _ _ (.refl s)
  | strandEn => exact keeps_execStrandEn _ _ _ _ (.refl s)
  | strandRetrain => exact keeps_execStrandRetrain _ _ _ _ (.refl s)
  | strandLoop => exact keeps_execStrandLoop _ _ _ _ (.refl s)
  | sluOptExpWrite => exact keeps_execSluOptExpWrite _ _ _ _ (.refl s)
  | laneFail => exact keeps_execLaneFail _ _ _ (.refl s)
  | loopbackTestDone => exact keeps_execLoopbackTestDone _ _ _ _ (.refl s)
  | swapComplete => exact keeps_execSwapComplete _ _ (.refl s)
  | routeSetValidate => exact keeps_execRouteSetValidate _ _ _ (.refl s)
  | routeSetInvalidate => exact keeps_execRouteSetInvalidate _ _ _ (.refl s)
  | schedEntryValidate => exact keeps_execSchedEntryValidate _ _ _ (.refl s)
  | bankSwapArm => exact keeps_execBankSwapArm _ _ (.refl s)
  | bankSwapCancel => exact keeps_execBankSwapCancel _ _ (.refl s)
  | bankSwap => exact keeps_execBankSwap (.refl s)
  | packetForward => exact keeps_execPacketForward _ _ _ (.refl s)
  | putPacket => exact keeps_execPutPacket _ _ _ (.refl s)
  | heldWriteLand => exact keeps_execHeldWriteLand _ (.refl s)
  | finalHoldExpiry => exact keeps_execFinalHoldExpiry _ (.refl s)
  | getPacket => exact keeps_execGetPacket _ _ _ (.refl s)
  | getRsp => exact keeps_execGetRsp _ _ _ (.refl s)
  | signalPacket => exact keeps_execSignalPacket _ _ _ (.refl s)
  | ack => exact keeps_execAck _ _ _ (.refl s)
  | groupValidate => exact keeps_execGroupValidate _ _ _ (.refl s)
  | triggerArm => exact keeps_execTriggerArm _ _ _ (.refl s)
  | triggerDisarm => exact keeps_execTriggerDisarm _ _ _ (.refl s)
  | junctionReserve => exact keeps_execJunctionReserve _ (.refl s)
  | cctlGrant => exact keeps_execCctlGrant _ _ _ (.refl s)
  | cctlReady => exact keeps_execCctlReady _ _ _ (.refl s)
  | triggerLaunch => exact keeps_execTriggerLaunch _ (.refl s)
  | cbcast => exact keeps_execCbcast _ _ _ (.refl s)
  | creduce => exact keeps_execCreduce _ _ _ _ (.refl s)
  | cctlYack => exact keeps_execCctlYack _ _ _ (.refl s)
  | cctlDone => exact keeps_execCctlDone _ _ _ (.refl s)
  | cnak => exact keeps_execCnak _ _ _ (.refl s)
  | triggerComplete => exact keeps_execTriggerComplete _ (.refl s)
  | collectiveTimeout => exact keeps_execCollectiveTimeout _ (.refl s)
  | apertureRead => exact keeps_execApertureRead _ _ _ (.refl s)
  | apertureWrite => exact keeps_execApertureWrite _ _ _ _ (.refl s)
  | apertureBaseWrite => exact keeps_execApertureBaseWrite _ _ _ (.refl s)
  | partitionOwnerWrite => exact keeps_execPartitionOwnerWrite _ _ _ (.refl s)
  | copySubmit => exact keeps_execCopySubmit _ _ (.refl s)
  | copyStart => exact keeps_execCopyStart _ _ _ (.refl s)
  | copyComplete => exact keeps_execCopyComplete _ (.refl s)
  | functionLevelReset => exact keeps_execFunctionLevelReset _ (.refl s)
  | portReset => exact keeps_execPortReset _ (.refl s)
  | vfRemove => exact keeps_execVfRemove _ (.refl s)
  | msixIntervalEnd => exact keeps_execMsixIntervalEnd _ _ (.refl s)
  | mailboxBind => exact keeps_execMailboxBind _ _ _ (.refl s)
  | mbxSend => exact keeps_execMbxSend _ _ (.refl s)
  | mbxPop => exact keeps_execMbxPop _ _ (.refl s)
  | mbxReset => exact keeps_execMbxReset _ _ (.refl s)
  | mbxTake => exact keeps_execMbxTake _ _ _ (.refl s)
  | mbxGive => exact keeps_execMbxGive _ _ _ (.refl s)
  | mailboxTimeout => exact keeps_execMailboxTimeout _ (.refl s)
  | mailboxBadOpcode => exact keeps_execMailboxBadOpcode _ (.refl s)
  | echo => exact keeps_execEcho _ (.refl s)
  | info => exact keeps_execInfo _ (.refl s)
  | dieEraseWrite => exact keeps_execDieEraseWrite _ _ _ (.refl s)
  | dieMark => exact keeps_execDieMark _ _ (.refl s)
  | mergeWriteback => exact keeps_execMergeWriteback _ _ _ (.refl s)
  | rowRepair => exact keeps_execRowRepair _ _ _ (.refl s)
  | scrubRead => exact keeps_execScrubRead _ _ (.refl s)
  | cisternFail => exact keeps_execCisternFail _ (.refl s)
  | recordFlashCopy => exact keeps_execRecordFlashCopy _ (.refl s)
  | logSelect => exact keeps_execLogSelect _ _ (.refl s)
  | rawRead => exact keeps_execRawRead _ _ (.refl s)
  | rawWrite => exact keeps_execRawWrite _ _ (.refl s)
  | patternTest => exact keeps_execPatternTest _ (.refl s)
  | pilotFrame => exact keeps_execPilotFrame _ _ _ _ _ (.refl s)
  | pilotLost => exact keeps_execPilotLost _ (.refl s)
  | feedOutOfSpec => exact keeps_execFeedOutOfSpec _ (.refl s)
  | feedInSpec => exact keeps_execFeedInSpec _ (.refl s)
  | holdEnd => exact keeps_execHoldEnd (.refl s)
  | feedReturn => exact keeps_execFeedReturn (.refl s)
  | powerLossStop => exact keeps_execPowerLossStop (.refl s)
  | busHoldupExhausted => exact keeps_execBusHoldupExhausted (.refl s)
  | powerSample => exact keeps_execPowerSample _ (.refl s)
  | fastLimiterRelease => exact keeps_execFastLimiterRelease (.refl s)
  | controlInterval => exact keeps_execControlInterval _ (.refl s)
  | capWrite => exact keeps_execCapWrite _ _ (.refl s)
  | capArm => exact keeps_execCapArm _ _ (.refl s)
  | capCancel => exact keeps_execCapCancel _ _ (.refl s)
  | capApply => exact keeps_execCapApply (.refl s)
  | energyViewUpdate => exact keeps_execEnergyViewUpdate (.refl s)
  | demandSnapshot => exact keeps_execDemandSnapshot (.refl s)
  | snap => exact keeps_execSnap _ _ (.refl s)
  | thermalSample => exact keeps_execThermalSample _ (.refl s)
  | energy => exact keeps_execEnergy _ (.refl s)
  | snapshot => exact keeps_execSnapshot _ (.refl s)
  | power => exact keeps_execPower _ (.refl s)
  | caps => exact keeps_execCaps _ (.refl s)
  | getVersion => exact keeps_execGetVersion _ (.refl s)
  | getCapabilities => exact keeps_execGetCapabilities _ (.refl s)
  | negotiateAlgorithms => exact keeps_execNegotiateAlgorithms _ _ (.refl s)
  | getDigests => exact keeps_execGetDigests _ (.refl s)
  | getCertificate => exact keeps_execGetCertificate _ _ _ _ (.refl s)
  | challenge => exact keeps_execChallenge _ _ _ (.refl s)
  | getMeasurements => exact keeps_execGetMeasurements _ _ _ (.refl s)
  | keyExchange => exact keeps_execKeyExchange _ _ _ (.refl s)
  | finish => exact keeps_execFinish _ _ _ _ (.refl s)
  | heartbeat => exact keeps_execHeartbeat _ _ (.refl s)
  | keyUpdate => exact keeps_execKeyUpdate _ _ (.refl s)
  | endSession => exact keeps_execEndSession _ _ (.refl s)
  | keyDeliver => exact keeps_execKeyDeliver _ _ _ (.refl s)
  | bind => exact keeps_execBind _ (.refl s)
  | unbind => exact keeps_execUnbind _ (.refl s)
  | unbindClearDone => exact keeps_execUnbindClearDone _ (.refl s)
  | bindStatus => exact keeps_execBindStatus _ (.refl s)
  | keyStatus => exact keeps_execKeyStatus _ (.refl s)
  | keyAdvance => exact keeps_execKeyAdvance _ (.refl s)
  | keyDrop => exact keeps_execKeyDrop _ (.refl s)
  | keySlotAutoDestroy => exact keeps_execKeySlotAutoDestroy _ (.refl s)
  | unsealBlob => exact keeps_execUnseal _ (.refl s)
  | unsealComplete => exact keeps_execUnsealComplete _ (.refl s)
  | lockInterfaceRequest => exact keeps_execLockInterfaceRequest _ _ _ (.refl s)
  | getDeviceInterfaceReport => exact keeps_execGetDeviceInterfaceReport _ _ (.refl s)
  | stopInterfaceRequest => exact keeps_execStopInterfaceRequest _ _ (.refl s)
  | tdiTlpViolation => exact keeps_execTdiTlpViolation _ (.refl s)
  | ideKm => exact keeps_execIdeKm _ _ _ _ (.refl s)
  | fabricKeyInstall => exact keeps_execFabricKeyInstall _ _ _ (.refl s)
  | mgmtSessionOpen => exact keeps_execMgmtSessionOpen _ _ (.refl s)
  | mgmtFrame => exact keeps_execMgmtFrame _ _ (.refl s)
  | debugUnlock => exact keeps_execDebugUnlock _ (.refl s)
  | fuseProgramming => exact keeps_execFuseProgramming _ (.refl s)
  | forcedRecoveryBoot => exact keeps_execForcedRecoveryBoot _ (.refl s)
  | credentialReset => exact keeps_execCredentialReset (.refl s)
  | presenceDeassert => exact keeps_execPresenceDeassert (.refl s)
  | busPowerUp => exact keeps_execBusPowerUp _ _ _ (.refl s)
  | riderRelease => exact keeps_execRiderRelease (.refl s)
  | consistencyCheck => exact keeps_execConsistencyCheck (.refl s)
  | consistencyTimeout => exact keeps_execConsistencyTimeout (.refl s)
  | slateWave => exact keeps_execSlateWave _ (.refl s)
  | coreBootReport => exact keeps_execCoreBootReport _ _ _ (.refl s)
  | topologyCheck => exact keeps_execTopologyCheck (.refl s)
  | partReset => exact keeps_execPartReset _ (.refl s)
  | partResetComplete => exact keeps_execPartResetComplete _ (.refl s)
  | computeReset => exact keeps_execComputeReset _ (.refl s)
  | computeResetComplete => exact keeps_execComputeResetComplete (.refl s)
  | abort => exact keeps_execAbort _ (.refl s)
  | abortPacket => exact keeps_execAbortPacket _ _ _ (.refl s)
  | abortFenceEnd => exact keeps_execAbortFenceEnd _ (.refl s)
  | abortWindowEnd => exact keeps_execAbortWindowEnd _ (.refl s)
  | abortQuiesceTimeout => exact keeps_execAbortQuiesceTimeout _ (.refl s)
  | partResetTimeout => exact keeps_execPartResetTimeout _ (.refl s)
  | computeResetTimeout => exact keeps_execComputeResetTimeout (.refl s)
  | resetStatus => exact keeps_execResetStatus _ (.refl s)
  | restore => exact keeps_execRestore _ (.refl s)
  | topoRecheck => exact keeps_execTopoRecheck _ (.refl s)
  | fmapRead => exact keeps_execFmapRead _ (.refl s)
  | riderLoadWindow => exact keeps_execRiderLoadWindow _ (.refl s)
  | watchdogKick => exact keeps_execWatchdogKick _ (.refl s)
  | riderWatchdogExpiry => exact keeps_execRiderWatchdogExpiry (.refl s)
  | flashEraseDone => exact keeps_execFlashEraseDone _ (.refl s)
  | updBegin => exact keeps_execUpdBegin _ (.refl s)
  | updBlock => exact keeps_execUpdBlock _ (.refl s)
  | stagingProgram => exact keeps_execStagingProgram (.refl s)
  | updVerify => exact keeps_execUpdVerify _ (.refl s)
  | updVerifyDone => exact keeps_execUpdVerifyDone (.refl s)
  | updActivate => exact keeps_execUpdActivate _ (.refl s)
  | updStatus => exact keeps_execUpdStatus _ (.refl s)
  | updCancel => exact keeps_execUpdCancel _ (.refl s)
  | confirm => exact keeps_execConfirm _ (.refl s)
  | trialConfirmTimer => exact keeps_execTrialConfirmTimer (.refl s)
  | setRead => exact keeps_execSetRead _ (.refl s)
  | setReset => exact keeps_execSetReset _ (.refl s)
  | settingsSave => exact keeps_execSettingsSave (.refl s)
  | dumpList => exact keeps_execDumpList _ (.refl s)
  | dumpRead => exact keeps_execDumpRead _ (.refl s)
  | updateComponent => exact keeps_execUpdateComponent _ _ (.refl s)
  | requestFirmwareData => exact keeps_execRequestFirmwareData _ _ _ (.refl s)
  | transferComplete => exact keeps_execTransferComplete _ (.refl s)
  | activateFirmware => exact keeps_execActivateFirmware _ _ (.refl s)
  | telemetryFrame => exact keeps_execTelemetryFrame (.refl s)
  | i3cEntdaa => exact keeps_execI3cEntdaa _ (.refl s)
  | i3cRstdaa => exact keeps_execI3cRstdaa (.refl s)
  | i3cBoardW => exact keeps_execI3cBoardW _ (.refl s)
  | i3cSnapshot => exact keeps_execI3cSnapshot (.refl s)
  | modRstAssert => exact keeps_execModRstAssert _ (.refl s)
  | slotIdChange => exact keeps_execSlotIdChange _ (.refl s)
  | jtagInstruction => exact keeps_execJtagInstruction _ (.refl s)
  | flitBoundary => exact keeps_execFlitBoundary _ _ (.refl s)
  | modRstRelease => exact keeps_execModRstRelease (.refl s)
  | tdiRunRequest => exact keeps_execTdiRunRequest _ _ (.refl s)
  | trialReadyTimeout => exact keeps_execTrialReadyTimeout (.refl s)

end Sys2Proof.Laws
end

