-- ==== Sys2Proof/Laws/State.lean ====
section
/-!
SUPPORT. Laws/State.lean: for each update of the state, one lemma per field that it leaves alone; and a read after a write of the parts
that are kept by key.
-/
namespace Sys2Proof.Machine

/-! ### State.setReg -/

@[simp] theorem State.setReg_pending (s : State) (r) (i) (v) : (s.setReg r i v).pending = s.pending := rfl
@[simp] theorem State.setReg_mem (s : State) (r) (i) (v) : (s.setReg r i v).mem = s.mem := rfl
@[simp] theorem State.setReg_poison (s : State) (r) (i) (v) : (s.setReg r i v).poison = s.poison := rfl
@[simp] theorem State.setReg_clock (s : State) (r) (i) (v) : (s.setReg r i v).clock = s.clock := rfl
@[simp] theorem State.setReg_gauge (s : State) (r) (i) (v) : (s.setReg r i v).gauge = s.gauge := rfl
@[simp] theorem State.setReg_course (s : State) (r) (i) (v) : (s.setReg r i v).course = s.course := rfl
@[simp] theorem State.setReg_host (s : State) (r) (i) (v) : (s.setReg r i v).host = s.host := rfl
@[simp] theorem State.setReg_store (s : State) (r) (i) (v) : (s.setReg r i v).store = s.store := rfl
@[simp] theorem State.setReg_rst (s : State) (r) (i) (v) : (s.setReg r i v).rst = s.rst := rfl
@[simp] theorem State.setReg_core (s : State) (r) (i) (v) : (s.setReg r i v).core = s.core := rfl
@[simp] theorem State.setReg_task (s : State) (r) (i) (v) : (s.setReg r i v).task = s.task := rfl
@[simp] theorem State.setReg_link (s : State) (r) (i) (v) : (s.setReg r i v).link = s.link := rfl
@[simp] theorem State.setReg_route (s : State) (r) (i) (v) : (s.setReg r i v).route = s.route := rfl
@[simp] theorem State.setReg_coll (s : State) (r) (i) (v) : (s.setReg r i v).coll = s.coll := rfl
@[simp] theorem State.setReg_power (s : State) (r) (i) (v) : (s.setReg r i v).power = s.power := rfl
@[simp] theorem State.setReg_rider (s : State) (r) (i) (v) : (s.setReg r i v).rider = s.rider := rfl
@[simp] theorem State.setReg_edge (s : State) (r) (i) (v) : (s.setReg r i v).edge = s.edge := rfl
@[simp] theorem State.setReg_sec (s : State) (r) (i) (v) : (s.setReg r i v).sec = s.sec := rfl
@[simp] theorem State.setReg_free (s : State) (r) (i) (v) : (s.setReg r i v).free = s.free := rfl
@[simp] theorem State.setReg_out (s : State) (r) (i) (v) : (s.setReg r i v).out = s.out := rfl
@[simp] theorem State.byte_setReg (s : State) (r) (i) (v) (ad : Nat) : (s.setReg r i v).byte ad = s.byte ad := rfl

/-! ### State.setF -/

@[simp] theorem State.setF_pending (s : State) (f) (i) (v) : (s.setF f i v).pending = s.pending := rfl
@[simp] theorem State.setF_mem (s : State) (f) (i) (v) : (s.setF f i v).mem = s.mem := rfl
@[simp] theorem State.setF_poison (s : State) (f) (i) (v) : (s.setF f i v).poison = s.poison := rfl
@[simp] theorem State.setF_clock (s : State) (f) (i) (v) : (s.setF f i v).clock = s.clock := rfl
@[simp] theorem State.setF_gauge (s : State) (f) (i) (v) : (s.setF f i v).gauge = s.gauge := rfl
@[simp] theorem State.setF_course (s : State) (f) (i) (v) : (s.setF f i v).course = s.course := rfl
@[simp] theorem State.setF_host (s : State) (f) (i) (v) : (s.setF f i v).host = s.host := rfl
@[simp] theorem State.setF_store (s : State) (f) (i) (v) : (s.setF f i v).store = s.store := rfl
@[simp] theorem State.setF_rst (s : State) (f) (i) (v) : (s.setF f i v).rst = s.rst := rfl
@[simp] theorem State.setF_core (s : State) (f) (i) (v) : (s.setF f i v).core = s.core := rfl
@[simp] theorem State.setF_task (s : State) (f) (i) (v) : (s.setF f i v).task = s.task := rfl
@[simp] theorem State.setF_link (s : State) (f) (i) (v) : (s.setF f i v).link = s.link := rfl
@[simp] theorem State.setF_route (s : State) (f) (i) (v) : (s.setF f i v).route = s.route := rfl
@[simp] theorem State.setF_coll (s : State) (f) (i) (v) : (s.setF f i v).coll = s.coll := rfl
@[simp] theorem State.setF_power (s : State) (f) (i) (v) : (s.setF f i v).power = s.power := rfl
@[simp] theorem State.setF_rider (s : State) (f) (i) (v) : (s.setF f i v).rider = s.rider := rfl
@[simp] theorem State.setF_edge (s : State) (f) (i) (v) : (s.setF f i v).edge = s.edge := rfl
@[simp] theorem State.setF_sec (s : State) (f) (i) (v) : (s.setF f i v).sec = s.sec := rfl
@[simp] theorem State.setF_free (s : State) (f) (i) (v) : (s.setF f i v).free = s.free := rfl
@[simp] theorem State.setF_out (s : State) (f) (i) (v) : (s.setF f i v).out = s.out := rfl
@[simp] theorem State.byte_setF (s : State) (f) (i) (v) (ad : Nat) : (s.setF f i v).byte ad = s.byte ad := rfl

/-! ### State.bump -/

@[simp] theorem State.bump_pending (s : State) (f) (i) (n) : (s.bump f i n).pending = s.pending := rfl
@[simp] theorem State.bump_mem (s : State) (f) (i) (n) : (s.bump f i n).mem = s.mem := rfl
@[simp] theorem State.bump_poison (s : State) (f) (i) (n) : (s.bump f i n).poison = s.poison := rfl
@[simp] theorem State.bump_clock (s : State) (f) (i) (n) : (s.bump f i n).clock = s.clock := rfl
@[simp] theorem State.bump_gauge (s : State) (f) (i) (n) : (s.bump f i n).gauge = s.gauge := rfl
@[simp] theorem State.bump_course (s : State) (f) (i) (n) : (s.bump f i n).course = s.course := rfl
@[simp] theorem State.bump_host (s : State) (f) (i) (n) : (s.bump f i n).host = s.host := rfl
@[simp] theorem State.bump_store (s : State) (f) (i) (n) : (s.bump f i n).store = s.store := rfl
@[simp] theorem State.bump_rst (s : State) (f) (i) (n) : (s.bump f i n).rst = s.rst := rfl
@[simp] theorem State.bump_core (s : State) (f) (i) (n) : (s.bump f i n).core = s.core := rfl
@[simp] theorem State.bump_task (s : State) (f) (i) (n) : (s.bump f i n).task = s.task := rfl
@[simp] theorem State.bump_link (s : State) (f) (i) (n) : (s.bump f i n).link = s.link := rfl
@[simp] theorem State.bump_route (s : State) (f) (i) (n) : (s.bump f i n).route = s.route := rfl
@[simp] theorem State.bump_coll (s : State) (f) (i) (n) : (s.bump f i n).coll = s.coll := rfl
@[simp] theorem State.bump_power (s : State) (f) (i) (n) : (s.bump f i n).power = s.power := rfl
@[simp] theorem State.bump_rider (s : State) (f) (i) (n) : (s.bump f i n).rider = s.rider := rfl
@[simp] theorem State.bump_edge (s : State) (f) (i) (n) : (s.bump f i n).edge = s.edge := rfl
@[simp] theorem State.bump_sec (s : State) (f) (i) (n) : (s.bump f i n).sec = s.sec := rfl
@[simp] theorem State.bump_free (s : State) (f) (i) (n) : (s.bump f i n).free = s.free := rfl
@[simp] theorem State.bump_out (s : State) (f) (i) (n) : (s.bump f i n).out = s.out := rfl
@[simp] theorem State.byte_bump (s : State) (f) (i) (n) (ad : Nat) : (s.bump f i n).byte ad = s.byte ad := rfl

/-! ### State.clearRegs -/

@[simp] theorem State.clearRegs_pending (s : State) (r) (sel) : (s.clearRegs r sel).pending = s.pending := rfl
@[simp] theorem State.clearRegs_mem (s : State) (r) (sel) : (s.clearRegs r sel).mem = s.mem := rfl
@[simp] theorem State.clearRegs_poison (s : State) (r) (sel) : (s.clearRegs r sel).poison = s.poison := rfl
@[simp] theorem State.clearRegs_clock (s : State) (r) (sel) : (s.clearRegs r sel).clock = s.clock := rfl
@[simp] theorem State.clearRegs_gauge (s : State) (r) (sel) : (s.clearRegs r sel).gauge = s.gauge := rfl
@[simp] theorem State.clearRegs_course (s : State) (r) (sel) : (s.clearRegs r sel).course = s.course := rfl
@[simp] theorem State.clearRegs_host (s : State) (r) (sel) : (s.clearRegs r sel).host = s.host := rfl
@[simp] theorem State.clearRegs_store (s : State) (r) (sel) : (s.clearRegs r sel).store = s.store := rfl
@[simp] theorem State.clearRegs_rst (s : State) (r) (sel) : (s.clearRegs r sel).rst = s.rst := rfl
@[simp] theorem State.clearRegs_core (s : State) (r) (sel) : (s.clearRegs r sel).core = s.core := rfl
@[simp] theorem State.clearRegs_task (s : State) (r) (sel) : (s.clearRegs r sel).task = s.task := rfl
@[simp] theorem State.clearRegs_link (s : State) (r) (sel) : (s.clearRegs r sel).link = s.link := rfl
@[simp] theorem State.clearRegs_route (s : State) (r) (sel) : (s.clearRegs r sel).route = s.route := rfl
@[simp] theorem State.clearRegs_coll (s : State) (r) (sel) : (s.clearRegs r sel).coll = s.coll := rfl
@[simp] theorem State.clearRegs_power (s : State) (r) (sel) : (s.clearRegs r sel).power = s.power := rfl
@[simp] theorem State.clearRegs_rider (s : State) (r) (sel) : (s.clearRegs r sel).rider = s.rider := rfl
@[simp] theorem State.clearRegs_edge (s : State) (r) (sel) : (s.clearRegs r sel).edge = s.edge := rfl
@[simp] theorem State.clearRegs_sec (s : State) (r) (sel) : (s.clearRegs r sel).sec = s.sec := rfl
@[simp] theorem State.clearRegs_free (s : State) (r) (sel) : (s.clearRegs r sel).free = s.free := rfl
@[simp] theorem State.clearRegs_out (s : State) (r) (sel) : (s.clearRegs r sel).out = s.out := rfl
@[simp] theorem State.byte_clearRegs (s : State) (r) (sel) (ad : Nat) : (s.clearRegs r sel).byte ad = s.byte ad := rfl

/-! ### State.emit -/

@[simp] theorem State.emit_pending (s : State) (o) : (s.emit o).pending = s.pending := rfl
@[simp] theorem State.emit_regs (s : State) (o) : (s.emit o).regs = s.regs := rfl
@[simp] theorem State.emit_mem (s : State) (o) : (s.emit o).mem = s.mem := rfl
@[simp] theorem State.emit_poison (s : State) (o) : (s.emit o).poison = s.poison := rfl
@[simp] theorem State.emit_clock (s : State) (o) : (s.emit o).clock = s.clock := rfl
@[simp] theorem State.emit_gauge (s : State) (o) : (s.emit o).gauge = s.gauge := rfl
@[simp] theorem State.emit_course (s : State) (o) : (s.emit o).course = s.course := rfl
@[simp] theorem State.emit_host (s : State) (o) : (s.emit o).host = s.host := rfl
@[simp] theorem State.emit_store (s : State) (o) : (s.emit o).store = s.store := rfl
@[simp] theorem State.emit_rst (s : State) (o) : (s.emit o).rst = s.rst := rfl
@[simp] theorem State.emit_core (s : State) (o) : (s.emit o).core = s.core := rfl
@[simp] theorem State.emit_task (s : State) (o) : (s.emit o).task = s.task := rfl
@[simp] theorem State.emit_link (s : State) (o) : (s.emit o).link = s.link := rfl
@[simp] theorem State.emit_route (s : State) (o) : (s.emit o).route = s.route := rfl
@[simp] theorem State.emit_coll (s : State) (o) : (s.emit o).coll = s.coll := rfl
@[simp] theorem State.emit_power (s : State) (o) : (s.emit o).power = s.power := rfl
@[simp] theorem State.emit_rider (s : State) (o) : (s.emit o).rider = s.rider := rfl
@[simp] theorem State.emit_edge (s : State) (o) : (s.emit o).edge = s.edge := rfl
@[simp] theorem State.emit_sec (s : State) (o) : (s.emit o).sec = s.sec := rfl
@[simp] theorem State.emit_free (s : State) (o) : (s.emit o).free = s.free := rfl
@[simp] theorem State.reg_emit (s : State) (o) (rg : Reg) (j : Nat) : (s.emit o).reg rg j = s.reg rg j := rfl
@[simp] theorem State.getF_emit (s : State) (o) (fl : Fld) (j : Nat) : (s.emit o).getF fl j = s.getF fl j := rfl
@[simp] theorem State.flag_emit (s : State) (o) (fl : Fld) (j : Nat) : (s.emit o).flag fl j = s.flag fl j := rfl
@[simp] theorem State.byte_emit (s : State) (o) (ad : Nat) : (s.emit o).byte ad = s.byte ad := rfl

/-! ### State.setVector -/

@[simp] theorem State.setVector_pending (s : State) (fn) (vec) (v) : (s.setVector fn vec v).pending = s.pending := rfl
@[simp] theorem State.setVector_regs (s : State) (fn) (vec) (v) : (s.setVector fn vec v).regs = s.regs := rfl
@[simp] theorem State.setVector_mem (s : State) (fn) (vec) (v) : (s.setVector fn vec v).mem = s.mem := rfl
@[simp] theorem State.setVector_poison (s : State) (fn) (vec) (v) : (s.setVector fn vec v).poison = s.poison := rfl
@[simp] theorem State.setVector_clock (s : State) (fn) (vec) (v) : (s.setVector fn vec v).clock = s.clock := rfl
@[simp] theorem State.setVector_gauge (s : State) (fn) (vec) (v) : (s.setVector fn vec v).gauge = s.gauge := rfl
@[simp] theorem State.setVector_course (s : State) (fn) (vec) (v) : (s.setVector fn vec v).course = s.course := rfl
@[simp] theorem State.setVector_store (s : State) (fn) (vec) (v) : (s.setVector fn vec v).store = s.store := rfl
@[simp] theorem State.setVector_rst (s : State) (fn) (vec) (v) : (s.setVector fn vec v).rst = s.rst := rfl
@[simp] theorem State.setVector_core (s : State) (fn) (vec) (v) : (s.setVector fn vec v).core = s.core := rfl
@[simp] theorem State.setVector_task (s : State) (fn) (vec) (v) : (s.setVector fn vec v).task = s.task := rfl
@[simp] theorem State.setVector_link (s : State) (fn) (vec) (v) : (s.setVector fn vec v).link = s.link := rfl
@[simp] theorem State.setVector_route (s : State) (fn) (vec) (v) : (s.setVector fn vec v).route = s.route := rfl
@[simp] theorem State.setVector_coll (s : State) (fn) (vec) (v) : (s.setVector fn vec v).coll = s.coll := rfl
@[simp] theorem State.setVector_power (s : State) (fn) (vec) (v) : (s.setVector fn vec v).power = s.power := rfl
@[simp] theorem State.setVector_rider (s : State) (fn) (vec) (v) : (s.setVector fn vec v).rider = s.rider := rfl
@[simp] theorem State.setVector_edge (s : State) (fn) (vec) (v) : (s.setVector fn vec v).edge = s.edge := rfl
@[simp] theorem State.setVector_sec (s : State) (fn) (vec) (v) : (s.setVector fn vec v).sec = s.sec := rfl
@[simp] theorem State.setVector_free (s : State) (fn) (vec) (v) : (s.setVector fn vec v).free = s.free := rfl
@[simp] theorem State.setVector_out (s : State) (fn) (vec) (v) : (s.setVector fn vec v).out = s.out := rfl
@[simp] theorem State.reg_setVector (s : State) (fn) (vec) (v) (rg : Reg) (j : Nat) : (s.setVector fn vec v).reg rg j = s.reg rg j := rfl
@[simp] theorem State.getF_setVector (s : State) (fn) (vec) (v) (fl : Fld) (j : Nat) : (s.setVector fn vec v).getF fl j = s.getF fl j := rfl
@[simp] theorem State.flag_setVector (s : State) (fn) (vec) (v) (fl : Fld) (j : Nat) : (s.setVector fn vec v).flag fl j = s.flag fl j := rfl
@[simp] theorem State.byte_setVector (s : State) (fn) (vec) (v) (ad : Nat) : (s.setVector fn vec v).byte ad = s.byte ad := rfl

/-! ### State.setByte -/

@[simp] theorem State.setByte_pending (s : State) (a) (b) : (s.setByte a b).pending = s.pending := rfl
@[simp] theorem State.setByte_regs (s : State) (a) (b) : (s.setByte a b).regs = s.regs := rfl
@[simp] theorem State.setByte_poison (s : State) (a) (b) : (s.setByte a b).poison = s.poison := rfl
@[simp] theorem State.setByte_clock (s : State) (a) (b) : (s.setByte a b).clock = s.clock := rfl
@[simp] theorem State.setByte_gauge (s : State) (a) (b) : (s.setByte a b).gauge = s.gauge := rfl
@[simp] theorem State.setByte_course (s : State) (a) (b) : (s.setByte a b).course = s.course := rfl
@[simp] theorem State.setByte_host (s : State) (a) (b) : (s.setByte a b).host = s.host := rfl
@[simp] theorem State.setByte_store (s : State) (a) (b) : (s.setByte a b).store = s.store := rfl
@[simp] theorem State.setByte_rst (s : State) (a) (b) : (s.setByte a b).rst = s.rst := rfl
@[simp] theorem State.setByte_core (s : State) (a) (b) : (s.setByte a b).core = s.core := rfl
@[simp] theorem State.setByte_task (s : State) (a) (b) : (s.setByte a b).task = s.task := rfl
@[simp] theorem State.setByte_link (s : State) (a) (b) : (s.setByte a b).link = s.link := rfl
@[simp] theorem State.setByte_route (s : State) (a) (b) : (s.setByte a b).route = s.route := rfl
@[simp] theorem State.setByte_coll (s : State) (a) (b) : (s.setByte a b).coll = s.coll := rfl
@[simp] theorem State.setByte_power (s : State) (a) (b) : (s.setByte a b).power = s.power := rfl
@[simp] theorem State.setByte_rider (s : State) (a) (b) : (s.setByte a b).rider = s.rider := rfl
@[simp] theorem State.setByte_edge (s : State) (a) (b) : (s.setByte a b).edge = s.edge := rfl
@[simp] theorem State.setByte_sec (s : State) (a) (b) : (s.setByte a b).sec = s.sec := rfl
@[simp] theorem State.setByte_free (s : State) (a) (b) : (s.setByte a b).free = s.free := rfl
@[simp] theorem State.setByte_out (s : State) (a) (b) : (s.setByte a b).out = s.out := rfl
@[simp] theorem State.reg_setByte (s : State) (a) (b) (rg : Reg) (j : Nat) : (s.setByte a b).reg rg j = s.reg rg j := rfl
@[simp] theorem State.getF_setByte (s : State) (a) (b) (fl : Fld) (j : Nat) : (s.setByte a b).getF fl j = s.getF fl j := rfl
@[simp] theorem State.flag_setByte (s : State) (a) (b) (fl : Fld) (j : Nat) : (s.setByte a b).flag fl j = s.flag fl j := rfl

/-! ### State.setPoison -/

@[simp] theorem State.setPoison_pending (s : State) (a) (v) : (s.setPoison a v).pending = s.pending := rfl
@[simp] theorem State.setPoison_regs (s : State) (a) (v) : (s.setPoison a v).regs = s.regs := rfl
@[simp] theorem State.setPoison_mem (s : State) (a) (v) : (s.setPoison a v).mem = s.mem := rfl
@[simp] theorem State.setPoison_clock (s : State) (a) (v) : (s.setPoison a v).clock = s.clock := rfl
@[simp] theorem State.setPoison_gauge (s : State) (a) (v) : (s.setPoison a v).gauge = s.gauge := rfl
@[simp] theorem State.setPoison_course (s : State) (a) (v) : (s.setPoison a v).course = s.course := rfl
@[simp] theorem State.setPoison_host (s : State) (a) (v) : (s.setPoison a v).host = s.host := rfl
@[simp] theorem State.setPoison_store (s : State) (a) (v) : (s.setPoison a v).store = s.store := rfl
@[simp] theorem State.setPoison_rst (s : State) (a) (v) : (s.setPoison a v).rst = s.rst := rfl
@[simp] theorem State.setPoison_core (s : State) (a) (v) : (s.setPoison a v).core = s.core := rfl
@[simp] theorem State.setPoison_task (s : State) (a) (v) : (s.setPoison a v).task = s.task := rfl
@[simp] theorem State.setPoison_link (s : State) (a) (v) : (s.setPoison a v).link = s.link := rfl
@[simp] theorem State.setPoison_route (s : State) (a) (v) : (s.setPoison a v).route = s.route := rfl
@[simp] theorem State.setPoison_coll (s : State) (a) (v) : (s.setPoison a v).coll = s.coll := rfl
@[simp] theorem State.setPoison_power (s : State) (a) (v) : (s.setPoison a v).power = s.power := rfl
@[simp] theorem State.setPoison_rider (s : State) (a) (v) : (s.setPoison a v).rider = s.rider := rfl
@[simp] theorem State.setPoison_edge (s : State) (a) (v) : (s.setPoison a v).edge = s.edge := rfl
@[simp] theorem State.setPoison_sec (s : State) (a) (v) : (s.setPoison a v).sec = s.sec := rfl
@[simp] theorem State.setPoison_free (s : State) (a) (v) : (s.setPoison a v).free = s.free := rfl
@[simp] theorem State.setPoison_out (s : State) (a) (v) : (s.setPoison a v).out = s.out := rfl
@[simp] theorem State.reg_setPoison (s : State) (a) (v) (rg : Reg) (j : Nat) : (s.setPoison a v).reg rg j = s.reg rg j := rfl
@[simp] theorem State.getF_setPoison (s : State) (a) (v) (fl : Fld) (j : Nat) : (s.setPoison a v).getF fl j = s.getF fl j := rfl
@[simp] theorem State.flag_setPoison (s : State) (a) (v) (fl : Fld) (j : Nat) : (s.setPoison a v).flag fl j = s.flag fl j := rfl
@[simp] theorem State.byte_setPoison (s : State) (a) (v) (ad : Nat) : (s.setPoison a v).byte ad = s.byte ad := rfl

/-! ### State.eraseRaw -/

@[simp] theorem State.eraseRaw_pending (s : State) (g) : (s.eraseRaw g).pending = s.pending := rfl
@[simp] theorem State.eraseRaw_regs (s : State) (g) : (s.eraseRaw g).regs = s.regs := rfl
@[simp] theorem State.eraseRaw_mem (s : State) (g) : (s.eraseRaw g).mem = s.mem := rfl
@[simp] theorem State.eraseRaw_poison (s : State) (g) : (s.eraseRaw g).poison = s.poison := rfl
@[simp] theorem State.eraseRaw_clock (s : State) (g) : (s.eraseRaw g).clock = s.clock := rfl
@[simp] theorem State.eraseRaw_gauge (s : State) (g) : (s.eraseRaw g).gauge = s.gauge := rfl
@[simp] theorem State.eraseRaw_course (s : State) (g) : (s.eraseRaw g).course = s.course := rfl
@[simp] theorem State.eraseRaw_host (s : State) (g) : (s.eraseRaw g).host = s.host := rfl
@[simp] theorem State.eraseRaw_rst (s : State) (g) : (s.eraseRaw g).rst = s.rst := rfl
@[simp] theorem State.eraseRaw_core (s : State) (g) : (s.eraseRaw g).core = s.core := rfl
@[simp] theorem State.eraseRaw_task (s : State) (g) : (s.eraseRaw g).task = s.task := rfl
@[simp] theorem State.eraseRaw_link (s : State) (g) : (s.eraseRaw g).link = s.link := rfl
@[simp] theorem State.eraseRaw_route (s : State) (g) : (s.eraseRaw g).route = s.route := rfl
@[simp] theorem State.eraseRaw_coll (s : State) (g) : (s.eraseRaw g).coll = s.coll := rfl
@[simp] theorem State.eraseRaw_power (s : State) (g) : (s.eraseRaw g).power = s.power := rfl
@[simp] theorem State.eraseRaw_rider (s : State) (g) : (s.eraseRaw g).rider = s.rider := rfl
@[simp] theorem State.eraseRaw_edge (s : State) (g) : (s.eraseRaw g).edge = s.edge := rfl
@[simp] theorem State.eraseRaw_sec (s : State) (g) : (s.eraseRaw g).sec = s.sec := rfl
@[simp] theorem State.eraseRaw_free (s : State) (g) : (s.eraseRaw g).free = s.free := rfl
@[simp] theorem State.eraseRaw_out (s : State) (g) : (s.eraseRaw g).out = s.out := rfl
@[simp] theorem State.reg_eraseRaw (s : State) (g) (rg : Reg) (j : Nat) : (s.eraseRaw g).reg rg j = s.reg rg j := rfl
@[simp] theorem State.getF_eraseRaw (s : State) (g) (fl : Fld) (j : Nat) : (s.eraseRaw g).getF fl j = s.getF fl j := rfl
@[simp] theorem State.flag_eraseRaw (s : State) (g) (fl : Fld) (j : Nat) : (s.eraseRaw g).flag fl j = s.flag fl j := rfl
@[simp] theorem State.byte_eraseRaw (s : State) (g) (ad : Nat) : (s.eraseRaw g).byte ad = s.byte ad := rfl

/-! ### State.setQueue -/

@[simp] theorem State.setQueue_pending (s : State) (q) (x) : (s.setQueue q x).pending = s.pending := rfl
@[simp] theorem State.setQueue_regs (s : State) (q) (x) : (s.setQueue q x).regs = s.regs := rfl
@[simp] theorem State.setQueue_mem (s : State) (q) (x) : (s.setQueue q x).mem = s.mem := rfl
@[simp] theorem State.setQueue_poison (s : State) (q) (x) : (s.setQueue q x).poison = s.poison := rfl
@[simp] theorem State.setQueue_clock (s : State) (q) (x) : (s.setQueue q x).clock = s.clock := rfl
@[simp] theorem State.setQueue_gauge (s : State) (q) (x) : (s.setQueue q x).gauge = s.gauge := rfl
@[simp] theorem State.setQueue_course (s : State) (q) (x) : (s.setQueue q x).course = s.course := rfl
@[simp] theorem State.setQueue_host (s : State) (q) (x) : (s.setQueue q x).host = s.host := rfl
@[simp] theorem State.setQueue_store (s : State) (q) (x) : (s.setQueue q x).store = s.store := rfl
@[simp] theorem State.setQueue_rst (s : State) (q) (x) : (s.setQueue q x).rst = s.rst := rfl
@[simp] theorem State.setQueue_core (s : State) (q) (x) : (s.setQueue q x).core = s.core := rfl
@[simp] theorem State.setQueue_link (s : State) (q) (x) : (s.setQueue q x).link = s.link := rfl
@[simp] theorem State.setQueue_route (s : State) (q) (x) : (s.setQueue q x).route = s.route := rfl
@[simp] theorem State.setQueue_coll (s : State) (q) (x) : (s.setQueue q x).coll = s.coll := rfl
@[simp] theorem State.setQueue_power (s : State) (q) (x) : (s.setQueue q x).power = s.power := rfl
@[simp] theorem State.setQueue_rider (s : State) (q) (x) : (s.setQueue q x).rider = s.rider := rfl
@[simp] theorem State.setQueue_edge (s : State) (q) (x) : (s.setQueue q x).edge = s.edge := rfl
@[simp] theorem State.setQueue_sec (s : State) (q) (x) : (s.setQueue q x).sec = s.sec := rfl
@[simp] theorem State.setQueue_free (s : State) (q) (x) : (s.setQueue q x).free = s.free := rfl
@[simp] theorem State.setQueue_out (s : State) (q) (x) : (s.setQueue q x).out = s.out := rfl
@[simp] theorem State.reg_setQueue (s : State) (q) (x) (rg : Reg) (j : Nat) : (s.setQueue q x).reg rg j = s.reg rg j := rfl
@[simp] theorem State.getF_setQueue (s : State) (q) (x) (fl : Fld) (j : Nat) : (s.setQueue q x).getF fl j = s.getF fl j := rfl
@[simp] theorem State.flag_setQueue (s : State) (q) (x) (fl : Fld) (j : Nat) : (s.setQueue q x).flag fl j = s.flag fl j := rfl
@[simp] theorem State.byte_setQueue (s : State) (q) (x) (ad : Nat) : (s.setQueue q x).byte ad = s.byte ad := rfl

/-! ### State.setCore -/

@[simp] theorem State.setCore_pending (s : State) (n) (c) : (s.setCore n c).pending = s.pending := rfl
@[simp] theorem State.setCore_regs (s : State) (n) (c) : (s.setCore n c).regs = s.regs := rfl
@[simp] theorem State.setCore_mem (s : State) (n) (c) : (s.setCore n c).mem = s.mem := rfl
@[simp] theorem State.setCore_poison (s : State) (n) (c) : (s.setCore n c).poison = s.poison := rfl
@[simp] theorem State.setCore_clock (s : State) (n) (c) : (s.setCore n c).clock = s.clock := rfl
@[simp] theorem State.setCore_gauge (s : State) (n) (c) : (s.setCore n c).gauge = s.gauge := rfl
@[simp] theorem State.setCore_course (s : State) (n) (c) : (s.setCore n c).course = s.course := rfl
@[simp] theorem State.setCore_host (s : State) (n) (c) : (s.setCore n c).host = s.host := rfl
@[simp] theorem State.setCore_store (s : State) (n) (c) : (s.setCore n c).store = s.store := rfl
@[simp] theorem State.setCore_rst (s : State) (n) (c) : (s.setCore n c).rst = s.rst := rfl
@[simp] theorem State.setCore_task (s : State) (n) (c) : (s.setCore n c).task = s.task := rfl
@[simp] theorem State.setCore_link (s : State) (n) (c) : (s.setCore n c).link = s.link := rfl
@[simp] theorem State.setCore_route (s : State) (n) (c) : (s.setCore n c).route = s.route := rfl
@[simp] theorem State.setCore_coll (s : State) (n) (c) : (s.setCore n c).coll = s.coll := rfl
@[simp] theorem State.setCore_power (s : State) (n) (c) : (s.setCore n c).power = s.power := rfl
@[simp] theorem State.setCore_rider (s : State) (n) (c) : (s.setCore n c).rider = s.rider := rfl
@[simp] theorem State.setCore_edge (s : State) (n) (c) : (s.setCore n c).edge = s.edge := rfl
@[simp] theorem State.setCore_sec (s : State) (n) (c) : (s.setCore n c).sec = s.sec := rfl
@[simp] theorem State.setCore_free (s : State) (n) (c) : (s.setCore n c).free = s.free := rfl
@[simp] theorem State.setCore_out (s : State) (n) (c) : (s.setCore n c).out = s.out := rfl
@[simp] theorem State.reg_setCore (s : State) (n) (c) (rg : Reg) (j : Nat) : (s.setCore n c).reg rg j = s.reg rg j := rfl
@[simp] theorem State.getF_setCore (s : State) (n) (c) (fl : Fld) (j : Nat) : (s.setCore n c).getF fl j = s.getF fl j := rfl
@[simp] theorem State.flag_setCore (s : State) (n) (c) (fl : Fld) (j : Nat) : (s.setCore n c).flag fl j = s.flag fl j := rfl
@[simp] theorem State.byte_setCore (s : State) (n) (c) (ad : Nat) : (s.setCore n c).byte ad = s.byte ad := rfl

/-! ### State.setStrand -/

@[simp] theorem State.setStrand_pending (s : State) (d) (l) (x) : (s.setStrand d l x).pending = s.pending := rfl
@[simp] theorem State.setStrand_regs (s : State) (d) (l) (x) : (s.setStrand d l x).regs = s.regs := rfl
@[simp] theorem State.setStrand_mem (s : State) (d) (l) (x) : (s.setStrand d l x).mem = s.mem := rfl
@[simp] theorem State.setStrand_poison (s : State) (d) (l) (x) : (s.setStrand d l x).poison = s.poison := rfl
@[simp] theorem State.setStrand_clock (s : State) (d) (l) (x) : (s.setStrand d l x).clock = s.clock := rfl
@[simp] theorem State.setStrand_gauge (s : State) (d) (l) (x) : (s.setStrand d l x).gauge = s.gauge := rfl
@[simp] theorem State.setStrand_course (s : State) (d) (l) (x) : (s.setStrand d l x).course = s.course := rfl
@[simp] theorem State.setStrand_host (s : State) (d) (l) (x) : (s.setStrand d l x).host = s.host := rfl
@[simp] theorem State.setStrand_store (s : State) (d) (l) (x) : (s.setStrand d l x).store = s.store := rfl
@[simp] theorem State.setStrand_rst (s : State) (d) (l) (x) : (s.setStrand d l x).rst = s.rst := rfl
@[simp] theorem State.setStrand_core (s : State) (d) (l) (x) : (s.setStrand d l x).core = s.core := rfl
@[simp] theorem State.setStrand_task (s : State) (d) (l) (x) : (s.setStrand d l x).task = s.task := rfl
@[simp] theorem State.setStrand_route (s : State) (d) (l) (x) : (s.setStrand d l x).route = s.route := rfl
@[simp] theorem State.setStrand_coll (s : State) (d) (l) (x) : (s.setStrand d l x).coll = s.coll := rfl
@[simp] theorem State.setStrand_power (s : State) (d) (l) (x) : (s.setStrand d l x).power = s.power := rfl
@[simp] theorem State.setStrand_rider (s : State) (d) (l) (x) : (s.setStrand d l x).rider = s.rider := rfl
@[simp] theorem State.setStrand_edge (s : State) (d) (l) (x) : (s.setStrand d l x).edge = s.edge := rfl
@[simp] theorem State.setStrand_sec (s : State) (d) (l) (x) : (s.setStrand d l x).sec = s.sec := rfl
@[simp] theorem State.setStrand_free (s : State) (d) (l) (x) : (s.setStrand d l x).free = s.free := rfl
@[simp] theorem State.setStrand_out (s : State) (d) (l) (x) : (s.setStrand d l x).out = s.out := rfl
@[simp] theorem State.reg_setStrand (s : State) (d) (l) (x) (rg : Reg) (j : Nat) : (s.setStrand d l x).reg rg j = s.reg rg j := rfl
@[simp] theorem State.getF_setStrand (s : State) (d) (l) (x) (fl : Fld) (j : Nat) : (s.setStrand d l x).getF fl j = s.getF fl j := rfl
@[simp] theorem State.flag_setStrand (s : State) (d) (l) (x) (fl : Fld) (j : Nat) : (s.setStrand d l x).flag fl j = s.flag fl j := rfl
@[simp] theorem State.byte_setStrand (s : State) (d) (l) (x) (ad : Nat) : (s.setStrand d l x).byte ad = s.byte ad := rfl

/-! ### State.setSrcFlow -/

@[simp] theorem State.setSrcFlow_pending (s : State) (k) (f) : (s.setSrcFlow k f).pending = s.pending := rfl
@[simp] theorem State.setSrcFlow_regs (s : State) (k) (f) : (s.setSrcFlow k f).regs = s.regs := rfl
@[simp] theorem State.setSrcFlow_mem (s : State) (k) (f) : (s.setSrcFlow k f).mem = s.mem := rfl
@[simp] theorem State.setSrcFlow_poison (s : State) (k) (f) : (s.setSrcFlow k f).poison = s.poison := rfl
@[simp] theorem State.setSrcFlow_clock (s : State) (k) (f) : (s.setSrcFlow k f).clock = s.clock := rfl
@[simp] theorem State.setSrcFlow_gauge (s : State) (k) (f) : (s.setSrcFlow k f).gauge = s.gauge := rfl
@[simp] theorem State.setSrcFlow_course (s : State) (k) (f) : (s.setSrcFlow k f).course = s.course := rfl
@[simp] theorem State.setSrcFlow_host (s : State) (k) (f) : (s.setSrcFlow k f).host = s.host := rfl
@[simp] theorem State.setSrcFlow_store (s : State) (k) (f) : (s.setSrcFlow k f).store = s.store := rfl
@[simp] theorem State.setSrcFlow_rst (s : State) (k) (f) : (s.setSrcFlow k f).rst = s.rst := rfl
@[simp] theorem State.setSrcFlow_core (s : State) (k) (f) : (s.setSrcFlow k f).core = s.core := rfl
@[simp] theorem State.setSrcFlow_task (s : State) (k) (f) : (s.setSrcFlow k f).task = s.task := rfl
@[simp] theorem State.setSrcFlow_link (s : State) (k) (f) : (s.setSrcFlow k f).link = s.link := rfl
@[simp] theorem State.setSrcFlow_coll (s : State) (k) (f) : (s.setSrcFlow k f).coll = s.coll := rfl
@[simp] theorem State.setSrcFlow_power (s : State) (k) (f) : (s.setSrcFlow k f).power = s.power := rfl
@[simp] theorem State.setSrcFlow_rider (s : State) (k) (f) : (s.setSrcFlow k f).rider = s.rider := rfl
@[simp] theorem State.setSrcFlow_edge (s : State) (k) (f) : (s.setSrcFlow k f).edge = s.edge := rfl
@[simp] theorem State.setSrcFlow_sec (s : State) (k) (f) : (s.setSrcFlow k f).sec = s.sec := rfl
@[simp] theorem State.setSrcFlow_free (s : State) (k) (f) : (s.setSrcFlow k f).free = s.free := rfl
@[simp] theorem State.setSrcFlow_out (s : State) (k) (f) : (s.setSrcFlow k f).out = s.out := rfl
@[simp] theorem State.reg_setSrcFlow (s : State) (k) (f) (rg : Reg) (j : Nat) : (s.setSrcFlow k f).reg rg j = s.reg rg j := rfl
@[simp] theorem State.getF_setSrcFlow (s : State) (k) (f) (fl : Fld) (j : Nat) : (s.setSrcFlow k f).getF fl j = s.getF fl j := rfl
@[simp] theorem State.flag_setSrcFlow (s : State) (k) (f) (fl : Fld) (j : Nat) : (s.setSrcFlow k f).flag fl j = s.flag fl j := rfl
@[simp] theorem State.byte_setSrcFlow (s : State) (k) (f) (ad : Nat) : (s.setSrcFlow k f).byte ad = s.byte ad := rfl

/-! ### State.setDstFlow -/

@[simp] theorem State.setDstFlow_pending (s : State) (k) (f) : (s.setDstFlow k f).pending = s.pending := rfl
@[simp] theorem State.setDstFlow_regs (s : State) (k) (f) : (s.setDstFlow k f).regs = s.regs := rfl
@[simp] theorem State.setDstFlow_mem (s : State) (k) (f) : (s.setDstFlow k f).mem = s.mem := rfl
@[simp] theorem State.setDstFlow_poison (s : State) (k) (f) : (s.setDstFlow k f).poison = s.poison := rfl
@[simp] theorem State.setDstFlow_clock (s : State) (k) (f) : (s.setDstFlow k f).clock = s.clock := rfl
@[simp] theorem State.setDstFlow_gauge (s : State) (k) (f) : (s.setDstFlow k f).gauge = s.gauge := rfl
@[simp] theorem State.setDstFlow_course (s : State) (k) (f) : (s.setDstFlow k f).course = s.course := rfl
@[simp] theorem State.setDstFlow_host (s : State) (k) (f) : (s.setDstFlow k f).host = s.host := rfl
@[simp] theorem State.setDstFlow_store (s : State) (k) (f) : (s.setDstFlow k f).store = s.store := rfl
@[simp] theorem State.setDstFlow_rst (s : State) (k) (f) : (s.setDstFlow k f).rst = s.rst := rfl
@[simp] theorem State.setDstFlow_core (s : State) (k) (f) : (s.setDstFlow k f).core = s.core := rfl
@[simp] theorem State.setDstFlow_task (s : State) (k) (f) : (s.setDstFlow k f).task = s.task := rfl
@[simp] theorem State.setDstFlow_link (s : State) (k) (f) : (s.setDstFlow k f).link = s.link := rfl
@[simp] theorem State.setDstFlow_coll (s : State) (k) (f) : (s.setDstFlow k f).coll = s.coll := rfl
@[simp] theorem State.setDstFlow_power (s : State) (k) (f) : (s.setDstFlow k f).power = s.power := rfl
@[simp] theorem State.setDstFlow_rider (s : State) (k) (f) : (s.setDstFlow k f).rider = s.rider := rfl
@[simp] theorem State.setDstFlow_edge (s : State) (k) (f) : (s.setDstFlow k f).edge = s.edge := rfl
@[simp] theorem State.setDstFlow_sec (s : State) (k) (f) : (s.setDstFlow k f).sec = s.sec := rfl
@[simp] theorem State.setDstFlow_free (s : State) (k) (f) : (s.setDstFlow k f).free = s.free := rfl
@[simp] theorem State.setDstFlow_out (s : State) (k) (f) : (s.setDstFlow k f).out = s.out := rfl
@[simp] theorem State.reg_setDstFlow (s : State) (k) (f) (rg : Reg) (j : Nat) : (s.setDstFlow k f).reg rg j = s.reg rg j := rfl
@[simp] theorem State.getF_setDstFlow (s : State) (k) (f) (fl : Fld) (j : Nat) : (s.setDstFlow k f).getF fl j = s.getF fl j := rfl
@[simp] theorem State.flag_setDstFlow (s : State) (k) (f) (fl : Fld) (j : Nat) : (s.setDstFlow k f).flag fl j = s.flag fl j := rfl
@[simp] theorem State.byte_setDstFlow (s : State) (k) (f) (ad : Nat) : (s.setDstFlow k f).byte ad = s.byte ad := rfl

/-! ### State.setSlot -/

@[simp] theorem State.setSlot_pending (s : State) (n) (x) : (s.setSlot n x).pending = s.pending := rfl
@[simp] theorem State.setSlot_regs (s : State) (n) (x) : (s.setSlot n x).regs = s.regs := rfl
@[simp] theorem State.setSlot_mem (s : State) (n) (x) : (s.setSlot n x).mem = s.mem := rfl
@[simp] theorem State.setSlot_poison (s : State) (n) (x) : (s.setSlot n x).poison = s.poison := rfl
@[simp] theorem State.setSlot_clock (s : State) (n) (x) : (s.setSlot n x).clock = s.clock := rfl
@[simp] theorem State.setSlot_gauge (s : State) (n) (x) : (s.setSlot n x).gauge = s.gauge := rfl
@[simp] theorem State.setSlot_course (s : State) (n) (x) : (s.setSlot n x).course = s.course := rfl
@[simp] theorem State.setSlot_host (s : State) (n) (x) : (s.setSlot n x).host = s.host := rfl
@[simp] theorem State.setSlot_store (s : State) (n) (x) : (s.setSlot n x).store = s.store := rfl
@[simp] theorem State.setSlot_rst (s : State) (n) (x) : (s.setSlot n x).rst = s.rst := rfl
@[simp] theorem State.setSlot_core (s : State) (n) (x) : (s.setSlot n x).core = s.core := rfl
@[simp] theorem State.setSlot_task (s : State) (n) (x) : (s.setSlot n x).task = s.task := rfl
@[simp] theorem State.setSlot_link (s : State) (n) (x) : (s.setSlot n x).link = s.link := rfl
@[simp] theorem State.setSlot_route (s : State) (n) (x) : (s.setSlot n x).route = s.route := rfl
@[simp] theorem State.setSlot_power (s : State) (n) (x) : (s.setSlot n x).power = s.power := rfl
@[simp] theorem State.setSlot_rider (s : State) (n) (x) : (s.setSlot n x).rider = s.rider := rfl
@[simp] theorem State.setSlot_edge (s : State) (n) (x) : (s.setSlot n x).edge = s.edge := rfl
@[simp] theorem State.setSlot_sec (s : State) (n) (x) : (s.setSlot n x).sec = s.sec := rfl
@[simp] theorem State.setSlot_free (s : State) (n) (x) : (s.setSlot n x).free = s.free := rfl
@[simp] theorem State.setSlot_out (s : State) (n) (x) : (s.setSlot n x).out = s.out := rfl
@[simp] theorem State.reg_setSlot (s : State) (n) (x) (rg : Reg) (j : Nat) : (s.setSlot n x).reg rg j = s.reg rg j := rfl
@[simp] theorem State.getF_setSlot (s : State) (n) (x) (fl : Fld) (j : Nat) : (s.setSlot n x).getF fl j = s.getF fl j := rfl
@[simp] theorem State.flag_setSlot (s : State) (n) (x) (fl : Fld) (j : Nat) : (s.setSlot n x).flag fl j = s.flag fl j := rfl
@[simp] theorem State.byte_setSlot (s : State) (n) (x) (ad : Nat) : (s.setSlot n x).byte ad = s.byte ad := rfl

/-! ### State.setCopies -/

@[simp] theorem State.setCopies_pending (s : State) (fn) (x) : (s.setCopies fn x).pending = s.pending := rfl
@[simp] theorem State.setCopies_regs (s : State) (fn) (x) : (s.setCopies fn x).regs = s.regs := rfl
@[simp] theorem State.setCopies_mem (s : State) (fn) (x) : (s.setCopies fn x).mem = s.mem := rfl
@[simp] theorem State.setCopies_poison (s : State) (fn) (x) : (s.setCopies fn x).poison = s.poison := rfl
@[simp] theorem State.setCopies_clock (s : State) (fn) (x) : (s.setCopies fn x).clock = s.clock := rfl
@[simp] theorem State.setCopies_gauge (s : State) (fn) (x) : (s.setCopies fn x).gauge = s.gauge := rfl
@[simp] theorem State.setCopies_course (s : State) (fn) (x) : (s.setCopies fn x).course = s.course := rfl
@[simp] theorem State.setCopies_store (s : State) (fn) (x) : (s.setCopies fn x).store = s.store := rfl
@[simp] theorem State.setCopies_rst (s : State) (fn) (x) : (s.setCopies fn x).rst = s.rst := rfl
@[simp] theorem State.setCopies_core (s : State) (fn) (x) : (s.setCopies fn x).core = s.core := rfl
@[simp] theorem State.setCopies_task (s : State) (fn) (x) : (s.setCopies fn x).task = s.task := rfl
@[simp] theorem State.setCopies_link (s : State) (fn) (x) : (s.setCopies fn x).link = s.link := rfl
@[simp] theorem State.setCopies_route (s : State) (fn) (x) : (s.setCopies fn x).route = s.route := rfl
@[simp] theorem State.setCopies_coll (s : State) (fn) (x) : (s.setCopies fn x).coll = s.coll := rfl
@[simp] theorem State.setCopies_power (s : State) (fn) (x) : (s.setCopies fn x).power = s.power := rfl
@[simp] theorem State.setCopies_rider (s : State) (fn) (x) : (s.setCopies fn x).rider = s.rider := rfl
@[simp] theorem State.setCopies_edge (s : State) (fn) (x) : (s.setCopies fn x).edge = s.edge := rfl
@[simp] theorem State.setCopies_sec (s : State) (fn) (x) : (s.setCopies fn x).sec = s.sec := rfl
@[simp] theorem State.setCopies_free (s : State) (fn) (x) : (s.setCopies fn x).free = s.free := rfl
@[simp] theorem State.setCopies_out (s : State) (fn) (x) : (s.setCopies fn x).out = s.out := rfl
@[simp] theorem State.reg_setCopies (s : State) (fn) (x) (rg : Reg) (j : Nat) : (s.setCopies fn x).reg rg j = s.reg rg j := rfl
@[simp] theorem State.getF_setCopies (s : State) (fn) (x) (fl : Fld) (j : Nat) : (s.setCopies fn x).getF fl j = s.getF fl j := rfl
@[simp] theorem State.flag_setCopies (s : State) (fn) (x) (fl : Fld) (j : Nat) : (s.setCopies fn x).flag fl j = s.flag fl j := rfl
@[simp] theorem State.byte_setCopies (s : State) (fn) (x) (ad : Nat) : (s.setCopies fn x).byte ad = s.byte ad := rfl

/-! ### State.setChan -/

@[simp] theorem State.setChan_pending (s : State) (c) (x) : (s.setChan c x).pending = s.pending := rfl
@[simp] theorem State.setChan_regs (s : State) (c) (x) : (s.setChan c x).regs = s.regs := rfl
@[simp] theorem State.setChan_mem (s : State) (c) (x) : (s.setChan c x).mem = s.mem := rfl
@[simp] theorem State.setChan_poison (s : State) (c) (x) : (s.setChan c x).poison = s.poison := rfl
@[simp] theorem State.setChan_clock (s : State) (c) (x) : (s.setChan c x).clock = s.clock := rfl
@[simp] theorem State.setChan_gauge (s : State) (c) (x) : (s.setChan c x).gauge = s.gauge := rfl
@[simp] theorem State.setChan_course (s : State) (c) (x) : (s.setChan c x).course = s.course := rfl
@[simp] theorem State.setChan_store (s : State) (c) (x) : (s.setChan c x).store = s.store := rfl
@[simp] theorem State.setChan_rst (s : State) (c) (x) : (s.setChan c x).rst = s.rst := rfl
@[simp] theorem State.setChan_core (s : State) (c) (x) : (s.setChan c x).core = s.core := rfl
@[simp] theorem State.setChan_task (s : State) (c) (x) : (s.setChan c x).task = s.task := rfl
@[simp] theorem State.setChan_link (s : State) (c) (x) : (s.setChan c x).link = s.link := rfl
@[simp] theorem State.setChan_route (s : State) (c) (x) : (s.setChan c x).route = s.route := rfl
@[simp] theorem State.setChan_coll (s : State) (c) (x) : (s.setChan c x).coll = s.coll := rfl
@[simp] theorem State.setChan_power (s : State) (c) (x) : (s.setChan c x).power = s.power := rfl
@[simp] theorem State.setChan_rider (s : State) (c) (x) : (s.setChan c x).rider = s.rider := rfl
@[simp] theorem State.setChan_edge (s : State) (c) (x) : (s.setChan c x).edge = s.edge := rfl
@[simp] theorem State.setChan_sec (s : State) (c) (x) : (s.setChan c x).sec = s.sec := rfl
@[simp] theorem State.setChan_free (s : State) (c) (x) : (s.setChan c x).free = s.free := rfl
@[simp] theorem State.setChan_out (s : State) (c) (x) : (s.setChan c x).out = s.out := rfl
@[simp] theorem State.reg_setChan (s : State) (c) (x) (rg : Reg) (j : Nat) : (s.setChan c x).reg rg j = s.reg rg j := rfl
@[simp] theorem State.getF_setChan (s : State) (c) (x) (fl : Fld) (j : Nat) : (s.setChan c x).getF fl j = s.getF fl j := rfl
@[simp] theorem State.flag_setChan (s : State) (c) (x) (fl : Fld) (j : Nat) : (s.setChan c x).flag fl j = s.flag fl j := rfl
@[simp] theorem State.byte_setChan (s : State) (c) (x) (ad : Nat) : (s.setChan c x).byte ad = s.byte ad := rfl

/-! ### State.setLinkTime -/

@[simp] theorem State.setLinkTime_pending (s : State) (l) (x) : (s.setLinkTime l x).pending = s.pending := rfl
@[simp] theorem State.setLinkTime_regs (s : State) (l) (x) : (s.setLinkTime l x).regs = s.regs := rfl
@[simp] theorem State.setLinkTime_mem (s : State) (l) (x) : (s.setLinkTime l x).mem = s.mem := rfl
@[simp] theorem State.setLinkTime_poison (s : State) (l) (x) : (s.setLinkTime l x).poison = s.poison := rfl
@[simp] theorem State.setLinkTime_clock (s : State) (l) (x) : (s.setLinkTime l x).clock = s.clock := rfl
@[simp] theorem State.setLinkTime_course (s : State) (l) (x) : (s.setLinkTime l x).course = s.course := rfl
@[simp] theorem State.setLinkTime_host (s : State) (l) (x) : (s.setLinkTime l x).host = s.host := rfl
@[simp] theorem State.setLinkTime_store (s : State) (l) (x) : (s.setLinkTime l x).store = s.store := rfl
@[simp] theorem State.setLinkTime_rst (s : State) (l) (x) : (s.setLinkTime l x).rst = s.rst := rfl
@[simp] theorem State.setLinkTime_core (s : State) (l) (x) : (s.setLinkTime l x).core = s.core := rfl
@[simp] theorem State.setLinkTime_task (s : State) (l) (x) : (s.setLinkTime l x).task = s.task := rfl
@[simp] theorem State.setLinkTime_link (s : State) (l) (x) : (s.setLinkTime l x).link = s.link := rfl
@[simp] theorem State.setLinkTime_route (s : State) (l) (x) : (s.setLinkTime l x).route = s.route := rfl
@[simp] theorem State.setLinkTime_coll (s : State) (l) (x) : (s.setLinkTime l x).coll = s.coll := rfl
@[simp] theorem State.setLinkTime_power (s : State) (l) (x) : (s.setLinkTime l x).power = s.power := rfl
@[simp] theorem State.setLinkTime_rider (s : State) (l) (x) : (s.setLinkTime l x).rider = s.rider := rfl
@[simp] theorem State.setLinkTime_edge (s : State) (l) (x) : (s.setLinkTime l x).edge = s.edge := rfl
@[simp] theorem State.setLinkTime_sec (s : State) (l) (x) : (s.setLinkTime l x).sec = s.sec := rfl
@[simp] theorem State.setLinkTime_free (s : State) (l) (x) : (s.setLinkTime l x).free = s.free := rfl
@[simp] theorem State.setLinkTime_out (s : State) (l) (x) : (s.setLinkTime l x).out = s.out := rfl
@[simp] theorem State.reg_setLinkTime (s : State) (l) (x) (rg : Reg) (j : Nat) : (s.setLinkTime l x).reg rg j = s.reg rg j := rfl
@[simp] theorem State.getF_setLinkTime (s : State) (l) (x) (fl : Fld) (j : Nat) : (s.setLinkTime l x).getF fl j = s.getF fl j := rfl
@[simp] theorem State.flag_setLinkTime (s : State) (l) (x) (fl : Fld) (j : Nat) : (s.setLinkTime l x).flag fl j = s.flag fl j := rfl
@[simp] theorem State.byte_setLinkTime (s : State) (l) (x) (ad : Nat) : (s.setLinkTime l x).byte ad = s.byte ad := rfl

/-! ### State.setFeed -/

@[simp] theorem State.setFeed_pending (s : State) (f) (x) : (s.setFeed f x).pending = s.pending := rfl
@[simp] theorem State.setFeed_regs (s : State) (f) (x) : (s.setFeed f x).regs = s.regs := rfl
@[simp] theorem State.setFeed_mem (s : State) (f) (x) : (s.setFeed f x).mem = s.mem := rfl
@[simp] theorem State.setFeed_poison (s : State) (f) (x) : (s.setFeed f x).poison = s.poison := rfl
@[simp] theorem State.setFeed_clock (s : State) (f) (x) : (s.setFeed f x).clock = s.clock := rfl
@[simp] theorem State.setFeed_gauge (s : State) (f) (x) : (s.setFeed f x).gauge = s.gauge := rfl
@[simp] theorem State.setFeed_course (s : State) (f) (x) : (s.setFeed f x).course = s.course := rfl
@[simp] theorem State.setFeed_host (s : State) (f) (x) : (s.setFeed f x).host = s.host := rfl
@[simp] theorem State.setFeed_store (s : State) (f) (x) : (s.setFeed f x).store = s.store := rfl
@[simp] theorem State.setFeed_rst (s : State) (f) (x) : (s.setFeed f x).rst = s.rst := rfl
@[simp] theorem State.setFeed_core (s : State) (f) (x) : (s.setFeed f x).core = s.core := rfl
@[simp] theorem State.setFeed_task (s : State) (f) (x) : (s.setFeed f x).task = s.task := rfl
@[simp] theorem State.setFeed_link (s : State) (f) (x) : (s.setFeed f x).link = s.link := rfl
@[simp] theorem State.setFeed_route (s : State) (f) (x) : (s.setFeed f x).route = s.route := rfl
@[simp] theorem State.setFeed_coll (s : State) (f) (x) : (s.setFeed f x).coll = s.coll := rfl
@[simp] theorem State.setFeed_rider (s : State) (f) (x) : (s.setFeed f x).rider = s.rider := rfl
@[simp] theorem State.setFeed_edge (s : State) (f) (x) : (s.setFeed f x).edge = s.edge := rfl
@[simp] theorem State.setFeed_sec (s : State) (f) (x) : (s.setFeed f x).sec = s.sec := rfl
@[simp] theorem State.setFeed_free (s : State) (f) (x) : (s.setFeed f x).free = s.free := rfl
@[simp] theorem State.setFeed_out (s : State) (f) (x) : (s.setFeed f x).out = s.out := rfl
@[simp] theorem State.reg_setFeed (s : State) (f) (x) (rg : Reg) (j : Nat) : (s.setFeed f x).reg rg j = s.reg rg j := rfl
@[simp] theorem State.getF_setFeed (s : State) (f) (x) (fl : Fld) (j : Nat) : (s.setFeed f x).getF fl j = s.getF fl j := rfl
@[simp] theorem State.flag_setFeed (s : State) (f) (x) (fl : Fld) (j : Nat) : (s.setFeed f x).flag fl j = s.flag fl j := rfl
@[simp] theorem State.byte_setFeed (s : State) (f) (x) (ad : Nat) : (s.setFeed f x).byte ad = s.byte ad := rfl

/-! ### State.setKeyMat -/

@[simp] theorem State.setKeyMat_pending (s : State) (slot) (m) : (s.setKeyMat slot m).pending = s.pending := rfl
@[simp] theorem State.setKeyMat_regs (s : State) (slot) (m) : (s.setKeyMat slot m).regs = s.regs := rfl
@[simp] theorem State.setKeyMat_mem (s : State) (slot) (m) : (s.setKeyMat slot m).mem = s.mem := rfl
@[simp] theorem State.setKeyMat_poison (s : State) (slot) (m) : (s.setKeyMat slot m).poison = s.poison := rfl
@[simp] theorem State.setKeyMat_clock (s : State) (slot) (m) : (s.setKeyMat slot m).clock = s.clock := rfl
@[simp] theorem State.setKeyMat_gauge (s : State) (slot) (m) : (s.setKeyMat slot m).gauge = s.gauge := rfl
@[simp] theorem State.setKeyMat_course (s : State) (slot) (m) : (s.setKeyMat slot m).course = s.course := rfl
@[simp] theorem State.setKeyMat_host (s : State) (slot) (m) : (s.setKeyMat slot m).host = s.host := rfl
@[simp] theorem State.setKeyMat_store (s : State) (slot) (m) : (s.setKeyMat slot m).store = s.store := rfl
@[simp] theorem State.setKeyMat_rst (s : State) (slot) (m) : (s.setKeyMat slot m).rst = s.rst := rfl
@[simp] theorem State.setKeyMat_core (s : State) (slot) (m) : (s.setKeyMat slot m).core = s.core := rfl
@[simp] theorem State.setKeyMat_task (s : State) (slot) (m) : (s.setKeyMat slot m).task = s.task := rfl
@[simp] theorem State.setKeyMat_link (s : State) (slot) (m) : (s.setKeyMat slot m).link = s.link := rfl
@[simp] theorem State.setKeyMat_route (s : State) (slot) (m) : (s.setKeyMat slot m).route = s.route := rfl
@[simp] theorem State.setKeyMat_coll (s : State) (slot) (m) : (s.setKeyMat slot m).coll = s.coll := rfl
@[simp] theorem State.setKeyMat_power (s : State) (slot) (m) : (s.setKeyMat slot m).power = s.power := rfl
@[simp] theorem State.setKeyMat_rider (s : State) (slot) (m) : (s.setKeyMat slot m).rider = s.rider := rfl
@[simp] theorem State.setKeyMat_edge (s : State) (slot) (m) : (s.setKeyMat slot m).edge = s.edge := rfl
@[simp] theorem State.setKeyMat_free (s : State) (slot) (m) : (s.setKeyMat slot m).free = s.free := rfl
@[simp] theorem State.setKeyMat_out (s : State) (slot) (m) : (s.setKeyMat slot m).out = s.out := rfl
@[simp] theorem State.reg_setKeyMat (s : State) (slot) (m) (rg : Reg) (j : Nat) : (s.setKeyMat slot m).reg rg j = s.reg rg j := rfl
@[simp] theorem State.getF_setKeyMat (s : State) (slot) (m) (fl : Fld) (j : Nat) : (s.setKeyMat slot m).getF fl j = s.getF fl j := rfl
@[simp] theorem State.flag_setKeyMat (s : State) (slot) (m) (fl : Fld) (j : Nat) : (s.setKeyMat slot m).flag fl j = s.flag fl j := rfl
@[simp] theorem State.byte_setKeyMat (s : State) (slot) (m) (ad : Nat) : (s.setKeyMat slot m).byte ad = s.byte ad := rfl

/-! ### State.setFlashSlot -/

@[simp] theorem State.setFlashSlot_pending (s : State) (i) (x) : (s.setFlashSlot i x).pending = s.pending := rfl
@[simp] theorem State.setFlashSlot_regs (s : State) (i) (x) : (s.setFlashSlot i x).regs = s.regs := rfl
@[simp] theorem State.setFlashSlot_mem (s : State) (i) (x) : (s.setFlashSlot i x).mem = s.mem := rfl
@[simp] theorem State.setFlashSlot_poison (s : State) (i) (x) : (s.setFlashSlot i x).poison = s.poison := rfl
@[simp] theorem State.setFlashSlot_clock (s : State) (i) (x) : (s.setFlashSlot i x).clock = s.clock := rfl
@[simp] theorem State.setFlashSlot_gauge (s : State) (i) (x) : (s.setFlashSlot i x).gauge = s.gauge := rfl
@[simp] theorem State.setFlashSlot_course (s : State) (i) (x) : (s.setFlashSlot i x).course = s.course := rfl
@[simp] theorem State.setFlashSlot_host (s : State) (i) (x) : (s.setFlashSlot i x).host = s.host := rfl
@[simp] theorem State.setFlashSlot_store (s : State) (i) (x) : (s.setFlashSlot i x).store = s.store := rfl
@[simp] theorem State.setFlashSlot_rst (s : State) (i) (x) : (s.setFlashSlot i x).rst = s.rst := rfl
@[simp] theorem State.setFlashSlot_core (s : State) (i) (x) : (s.setFlashSlot i x).core = s.core := rfl
@[simp] theorem State.setFlashSlot_task (s : State) (i) (x) : (s.setFlashSlot i x).task = s.task := rfl
@[simp] theorem State.setFlashSlot_link (s : State) (i) (x) : (s.setFlashSlot i x).link = s.link := rfl
@[simp] theorem State.setFlashSlot_route (s : State) (i) (x) : (s.setFlashSlot i x).route = s.route := rfl
@[simp] theorem State.setFlashSlot_coll (s : State) (i) (x) : (s.setFlashSlot i x).coll = s.coll := rfl
@[simp] theorem State.setFlashSlot_power (s : State) (i) (x) : (s.setFlashSlot i x).power = s.power := rfl
@[simp] theorem State.setFlashSlot_edge (s : State) (i) (x) : (s.setFlashSlot i x).edge = s.edge := rfl
@[simp] theorem State.setFlashSlot_sec (s : State) (i) (x) : (s.setFlashSlot i x).sec = s.sec := rfl
@[simp] theorem State.setFlashSlot_free (s : State) (i) (x) : (s.setFlashSlot i x).free = s.free := rfl
@[simp] theorem State.setFlashSlot_out (s : State) (i) (x) : (s.setFlashSlot i x).out = s.out := rfl
@[simp] theorem State.reg_setFlashSlot (s : State) (i) (x) (rg : Reg) (j : Nat) : (s.setFlashSlot i x).reg rg j = s.reg rg j := rfl
@[simp] theorem State.getF_setFlashSlot (s : State) (i) (x) (fl : Fld) (j : Nat) : (s.setFlashSlot i x).getF fl j = s.getF fl j := rfl
@[simp] theorem State.flag_setFlashSlot (s : State) (i) (x) (fl : Fld) (j : Nat) : (s.setFlashSlot i x).flag fl j = s.flag fl j := rfl
@[simp] theorem State.byte_setFlashSlot (s : State) (i) (x) (ad : Nat) : (s.setFlashSlot i x).byte ad = s.byte ad := rfl

/-! ### State.setConn -/

@[simp] theorem State.setConn_pending (s : State) (t) (c) : (s.setConn t c).pending = s.pending := rfl
@[simp] theorem State.setConn_regs (s : State) (t) (c) : (s.setConn t c).regs = s.regs := rfl
@[simp] theorem State.setConn_mem (s : State) (t) (c) : (s.setConn t c).mem = s.mem := rfl
@[simp] theorem State.setConn_poison (s : State) (t) (c) : (s.setConn t c).poison = s.poison := rfl
@[simp] theorem State.setConn_clock (s : State) (t) (c) : (s.setConn t c).clock = s.clock := rfl
@[simp] theorem State.setConn_gauge (s : State) (t) (c) : (s.setConn t c).gauge = s.gauge := rfl
@[simp] theorem State.setConn_course (s : State) (t) (c) : (s.setConn t c).course = s.course := rfl
@[simp] theorem State.setConn_host (s : State) (t) (c) : (s.setConn t c).host = s.host := rfl
@[simp] theorem State.setConn_store (s : State) (t) (c) : (s.setConn t c).store = s.store := rfl
@[simp] theorem State.setConn_rst (s : State) (t) (c) : (s.setConn t c).rst = s.rst := rfl
@[simp] theorem State.setConn_core (s : State) (t) (c) : (s.setConn t c).core = s.core := rfl
@[simp] theorem State.setConn_task (s : State) (t) (c) : (s.setConn t c).task = s.task := rfl
@[simp] theorem State.setConn_link (s : State) (t) (c) : (s.setConn t c).link = s.link := rfl
@[simp] theorem State.setConn_route (s : State) (t) (c) : (s.setConn t c).route = s.route := rfl
@[simp] theorem State.setConn_coll (s : State) (t) (c) : (s.setConn t c).coll = s.coll := rfl
@[simp] theorem State.setConn_power (s : State) (t) (c) : (s.setConn t c).power = s.power := rfl
@[simp] theorem State.setConn_rider (s : State) (t) (c) : (s.setConn t c).rider = s.rider := rfl
@[simp] theorem State.setConn_edge (s : State) (t) (c) : (s.setConn t c).edge = s.edge := rfl
@[simp] theorem State.setConn_free (s : State) (t) (c) : (s.setConn t c).free = s.free := rfl
@[simp] theorem State.setConn_out (s : State) (t) (c) : (s.setConn t c).out = s.out := rfl
@[simp] theorem State.reg_setConn (s : State) (t) (c) (rg : Reg) (j : Nat) : (s.setConn t c).reg rg j = s.reg rg j := rfl
@[simp] theorem State.getF_setConn (s : State) (t) (c) (fl : Fld) (j : Nat) : (s.setConn t c).getF fl j = s.getF fl j := rfl
@[simp] theorem State.flag_setConn (s : State) (t) (c) (fl : Fld) (j : Nat) : (s.setConn t c).flag fl j = s.flag fl j := rfl
@[simp] theorem State.byte_setConn (s : State) (t) (c) (ad : Nat) : (s.setConn t c).byte ad = s.byte ad := rfl

/-! ### State.fresh -/

@[simp] theorem State.fresh_pending (s : State) : s.fresh.2.pending = s.pending := rfl
@[simp] theorem State.fresh_regs (s : State) : s.fresh.2.regs = s.regs := rfl
@[simp] theorem State.fresh_mem (s : State) : s.fresh.2.mem = s.mem := rfl
@[simp] theorem State.fresh_poison (s : State) : s.fresh.2.poison = s.poison := rfl
@[simp] theorem State.fresh_clock (s : State) : s.fresh.2.clock = s.clock := rfl
@[simp] theorem State.fresh_gauge (s : State) : s.fresh.2.gauge = s.gauge := rfl
@[simp] theorem State.fresh_course (s : State) : s.fresh.2.course = s.course := rfl
@[simp] theorem State.fresh_host (s : State) : s.fresh.2.host = s.host := rfl
@[simp] theorem State.fresh_store (s : State) : s.fresh.2.store = s.store := rfl
@[simp] theorem State.fresh_rst (s : State) : s.fresh.2.rst = s.rst := rfl
@[simp] theorem State.fresh_core (s : State) : s.fresh.2.core = s.core := rfl
@[simp] theorem State.fresh_task (s : State) : s.fresh.2.task = s.task := rfl
@[simp] theorem State.fresh_link (s : State) : s.fresh.2.link = s.link := rfl
@[simp] theorem State.fresh_route (s : State) : s.fresh.2.route = s.route := rfl
@[simp] theorem State.fresh_coll (s : State) : s.fresh.2.coll = s.coll := rfl
@[simp] theorem State.fresh_power (s : State) : s.fresh.2.power = s.power := rfl
@[simp] theorem State.fresh_rider (s : State) : s.fresh.2.rider = s.rider := rfl
@[simp] theorem State.fresh_edge (s : State) : s.fresh.2.edge = s.edge := rfl
@[simp] theorem State.fresh_sec (s : State) : s.fresh.2.sec = s.sec := rfl
@[simp] theorem State.fresh_out (s : State) : s.fresh.2.out = s.out := rfl
@[simp] theorem State.reg_fresh (s : State) (r : Reg) (j : Nat) : s.fresh.2.reg r j = s.reg r j := rfl
@[simp] theorem State.getF_fresh (s : State) (g : Fld) (j : Nat) : s.fresh.2.getF g j = s.getF g j := rfl
@[simp] theorem State.byte_fresh (s : State) (x : Nat) : s.fresh.2.byte x = s.byte x := rfl

/-! ### State.freshWord -/

@[simp] theorem State.freshWord_pending (s : State) : s.freshWord.2.pending = s.pending := rfl
@[simp] theorem State.freshWord_regs (s : State) : s.freshWord.2.regs = s.regs := rfl
@[simp] theorem State.freshWord_mem (s : State) : s.freshWord.2.mem = s.mem := rfl
@[simp] theorem State.freshWord_poison (s : State) : s.freshWord.2.poison = s.poison := rfl
@[simp] theorem State.freshWord_clock (s : State) : s.freshWord.2.clock = s.clock := rfl
@[simp] theorem State.freshWord_gauge (s : State) : s.freshWord.2.gauge = s.gauge := rfl
@[simp] theorem State.freshWord_course (s : State) : s.freshWord.2.course = s.course := rfl
@[simp] theorem State.freshWord_host (s : State) : s.freshWord.2.host = s.host := rfl
@[simp] theorem State.freshWord_store (s : State) : s.freshWord.2.store = s.store := rfl
@[simp] theorem State.freshWord_rst (s : State) : s.freshWord.2.rst = s.rst := rfl
@[simp] theorem State.freshWord_core (s : State) : s.freshWord.2.core = s.core := rfl
@[simp] theorem State.freshWord_task (s : State) : s.freshWord.2.task = s.task := rfl
@[simp] theorem State.freshWord_link (s : State) : s.freshWord.2.link = s.link := rfl
@[simp] theorem State.freshWord_route (s : State) : s.freshWord.2.route = s.route := rfl
@[simp] theorem State.freshWord_coll (s : State) : s.freshWord.2.coll = s.coll := rfl
@[simp] theorem State.freshWord_power (s : State) : s.freshWord.2.power = s.power := rfl
@[simp] theorem State.freshWord_rider (s : State) : s.freshWord.2.rider = s.rider := rfl
@[simp] theorem State.freshWord_edge (s : State) : s.freshWord.2.edge = s.edge := rfl
@[simp] theorem State.freshWord_sec (s : State) : s.freshWord.2.sec = s.sec := rfl
@[simp] theorem State.freshWord_out (s : State) : s.freshWord.2.out = s.out := rfl
@[simp] theorem State.reg_freshWord (s : State) (r : Reg) (j : Nat) : s.freshWord.2.reg r j = s.reg r j := rfl
@[simp] theorem State.getF_freshWord (s : State) (g : Fld) (j : Nat) : s.freshWord.2.getF g j = s.getF g j := rfl
@[simp] theorem State.byte_freshWord (s : State) (x : Nat) : s.freshWord.2.byte x = s.byte x := rfl

/-! ### Read after write of the parts kept by key -/

@[simp] theorem State.getCore_setCore_same (s : State) (n : Nat) (c : Core) : (s.setCore n c).getCore n = c := SMap.get_put_same _ _ _ _
theorem State.getCore_setCore_ne (s : State) {n j : Nat} (c : Core) (h : j ≠ n) : (s.setCore n c).getCore j = s.getCore j := SMap.get_put_ne _ _ _ _ h
@[simp] theorem State.queue_setQueue_same (s : State) (q : Nat) (x : QueueSt) : (s.setQueue q x).queue q = x := SMap.get_put_same _ _ _ _
theorem State.queue_setQueue_ne (s : State) {q j : Nat} (x : QueueSt) (h : j ≠ q) : (s.setQueue q x).queue j = s.queue j := SMap.get_put_ne _ _ _ _ h
@[simp] theorem State.slot_setSlot_same (s : State) (n : Nat) (x : SlotSt) : (s.setSlot n x).slot n = x := SMap.get_put_same _ _ _ _
theorem State.slot_setSlot_ne (s : State) {n j : Nat} (x : SlotSt) (h : j ≠ n) : (s.setSlot n x).slot j = s.slot j := SMap.get_put_ne _ _ _ _ h
@[simp] theorem State.copies_setCopies_same (s : State) (fn : Nat) (x : CopyQueue) : (s.setCopies fn x).copies fn = x := SMap.get_put_same _ _ _ _
theorem State.copies_setCopies_ne (s : State) {fn j : Nat} (x : CopyQueue) (h : j ≠ fn) : (s.setCopies fn x).copies j = s.copies j := SMap.get_put_ne _ _ _ _ h
@[simp] theorem State.chan_setChan_same (s : State) (c : Nat) (x : Channel) : (s.setChan c x).chan c = x := SMap.get_put_same _ _ _ _
theorem State.chan_setChan_ne (s : State) {c j : Nat} (x : Channel) (h : j ≠ c) : (s.setChan c x).chan j = s.chan j := SMap.get_put_ne _ _ _ _ h
@[simp] theorem State.linkTime_setLinkTime_same (s : State) (l : Nat) (x : LinkTime) : (s.setLinkTime l x).linkTime l = x := SMap.get_put_same _ _ _ _
theorem State.linkTime_setLinkTime_ne (s : State) {l j : Nat} (x : LinkTime) (h : j ≠ l) : (s.setLinkTime l x).linkTime j = s.linkTime j := SMap.get_put_ne _ _ _ _ h
@[simp] theorem State.feed_setFeed_same (s : State) (f : Nat) (x : FeedSt) : (s.setFeed f x).feed f = x := SMap.get_put_same _ _ _ _
theorem State.feed_setFeed_ne (s : State) {f j : Nat} (x : FeedSt) (h : j ≠ f) : (s.setFeed f x).feed j = s.feed j := SMap.get_put_ne _ _ _ _ h
@[simp] theorem State.keyMat_setKeyMat_same (s : State) (i : Nat) (m : KeyMat) : (s.setKeyMat i m).keyMat i = m := SMap.get_put_same _ _ _ _
theorem State.keyMat_setKeyMat_ne (s : State) {i j : Nat} (m : KeyMat) (h : j ≠ i) : (s.setKeyMat i m).keyMat j = s.keyMat j := SMap.get_put_ne _ _ _ _ h
@[simp] theorem State.flashSlot_setFlashSlot_same (s : State) (i : Nat) (x : FlashSlot) : (s.setFlashSlot i x).flashSlot i = x := SMap.get_put_same _ _ _ _
theorem State.flashSlot_setFlashSlot_ne (s : State) {i j : Nat} (x : FlashSlot) (h : j ≠ i) : (s.setFlashSlot i x).flashSlot j = s.flashSlot j := SMap.get_put_ne _ _ _ _ h
@[simp] theorem State.strand_setStrand_same (s : State) (d l : Nat) (x : Strand) : (s.setStrand d l x).strand d l = x :=
  SMap.get_put_same _ _ _ _
theorem State.strand_setStrand_ne (s : State) {d l e m : Nat} (x : Strand) (h : strandIx e m ≠ strandIx d l) :
    (s.setStrand d l x).strand e m = s.strand e m := SMap.get_put_ne _ _ _ _ h
@[simp] theorem State.byte_setByte_same (s : State) (a : Nat) (b : Byte) : (s.setByte a b).byte a = b := SMap.get_put_same _ _ _ _
theorem State.byte_setByte_ne (s : State) {a c : Nat} (b : Byte) (h : c ≠ a) : (s.setByte a b).byte c = s.byte c := SMap.get_put_ne _ _ _ _ h
theorem State.poisoned_setPoison_same (s : State) (a : Nat) (v : Bool) : (s.setPoison a v).poisoned a = v := SMap.get_put_same _ _ _ _
theorem State.poisoned_setPoison_ne (s : State) {a c : Nat} (v : Bool) (h : c / 64 ≠ a / 64) :
    (s.setPoison a v).poisoned c = s.poisoned c := SMap.get_put_ne _ _ _ _ h

/-! ### Bytes in a row -/

theorem State.byte_setBytes_below (s : State) (a : Nat) (bs : List Byte) {c : Nat} (h : c < a) : (s.setBytes a bs).byte c = s.byte c := by
  induction bs generalizing s a with
  | nil => rfl
  | cons b bs ih =>
    have h1 := ih (s.setByte a b) (a + 1) (by omega)
    rw [State.setBytes, h1, s.byte_setByte_ne b (by omega)]

/-- What a byte reads as after a run of bytes has been written. -/
theorem State.byte_setBytes (s : State) (a : Nat) (bs : List Byte) (c : Nat) :
    (s.setBytes a bs).byte c = if a ≤ c ∧ c < a + bs.length then bs.getD (c - a) 0 else s.byte c := by
  induction bs generalizing s a with
  | nil =>
    have : ¬(a ≤ c ∧ c < a + ([] : List Byte).length) := by simp only [List.length_nil]; omega
    simp only [this, if_false, State.setBytes]
  | cons b bs ih =>
    rw [State.setBytes, ih]
    by_cases h1 : a + 1 ≤ c ∧ c < a + 1 + bs.length
    · have h2 : a ≤ c ∧ c < a + (b :: bs).length := by simp only [List.length_cons]; omega
      have h3 : c - a = c - (a + 1) + 1 := by omega
      simp only [h1, h2, and_self, if_true, h3, List.getD_cons_succ]
    · by_cases hc : c = a
      · subst hc
        have h2 : c ≤ c ∧ c < c + (b :: bs).length := by simp only [List.length_cons]; omega
        simp only [h1, h2, and_self, if_false, if_true, State.byte_setByte_same, Nat.sub_self, List.getD_cons_zero]
      · have h2 : ¬(a ≤ c ∧ c < a + (b :: bs).length) := by simp only [List.length_cons]; omega
        simp only [h1, h2, if_false, s.byte_setByte_ne b hc]

/-! ### State.dropRecords -/

@[simp] theorem State.dropRecords_pending (s : State) (p) : (s.dropRecords p).pending = s.pending := rfl
@[simp] theorem State.dropRecords_regs (s : State) (p) : (s.dropRecords p).regs = s.regs := rfl
@[simp] theorem State.dropRecords_mem (s : State) (p) : (s.dropRecords p).mem = s.mem := rfl
@[simp] theorem State.dropRecords_poison (s : State) (p) : (s.dropRecords p).poison = s.poison := rfl
@[simp] theorem State.dropRecords_clock (s : State) (p) : (s.dropRecords p).clock = s.clock := rfl
@[simp] theorem State.dropRecords_gauge (s : State) (p) : (s.dropRecords p).gauge = s.gauge := rfl
@[simp] theorem State.dropRecords_course (s : State) (p) : (s.dropRecords p).course = s.course := rfl
@[simp] theorem State.dropRecords_host (s : State) (p) : (s.dropRecords p).host = s.host := rfl
@[simp] theorem State.dropRecords_store (s : State) (p) : (s.dropRecords p).store = s.store := rfl
@[simp] theorem State.dropRecords_rst (s : State) (p) : (s.dropRecords p).rst = s.rst := rfl
@[simp] theorem State.dropRecords_core (s : State) (p) : (s.dropRecords p).core = s.core := rfl
@[simp] theorem State.dropRecords_task (s : State) (p) : (s.dropRecords p).task = s.task := rfl
@[simp] theorem State.dropRecords_link (s : State) (p) : (s.dropRecords p).link = s.link := rfl
@[simp] theorem State.dropRecords_coll (s : State) (p) : (s.dropRecords p).coll = s.coll := rfl
@[simp] theorem State.dropRecords_power (s : State) (p) : (s.dropRecords p).power = s.power := rfl
@[simp] theorem State.dropRecords_rider (s : State) (p) : (s.dropRecords p).rider = s.rider := rfl
@[simp] theorem State.dropRecords_edge (s : State) (p) : (s.dropRecords p).edge = s.edge := rfl
@[simp] theorem State.dropRecords_sec (s : State) (p) : (s.dropRecords p).sec = s.sec := rfl
@[simp] theorem State.dropRecords_free (s : State) (p) : (s.dropRecords p).free = s.free := rfl
@[simp] theorem State.dropRecords_out (s : State) (p) : (s.dropRecords p).out = s.out := rfl
@[simp] theorem State.reg_dropRecords (s : State) (p) (rg : Reg) (j : Nat) : (s.dropRecords p).reg rg j = s.reg rg j := rfl
@[simp] theorem State.getF_dropRecords (s : State) (p) (fl : Fld) (j : Nat) : (s.dropRecords p).getF fl j = s.getF fl j := rfl
@[simp] theorem State.flag_dropRecords (s : State) (p) (fl : Fld) (j : Nat) : (s.dropRecords p).flag fl j = s.flag fl j := rfl
@[simp] theorem State.byte_dropRecords (s : State) (p) (ad : Nat) : (s.dropRecords p).byte ad = s.byte ad := rfl

/-! ### State.dropFan -/

@[simp] theorem State.dropFan_pending (s : State) (n) : (s.dropFan n).pending = s.pending := rfl
@[simp] theorem State.dropFan_regs (s : State) (n) : (s.dropFan n).regs = s.regs := rfl
@[simp] theorem State.dropFan_mem (s : State) (n) : (s.dropFan n).mem = s.mem := rfl
@[simp] theorem State.dropFan_poison (s : State) (n) : (s.dropFan n).poison = s.poison := rfl
@[simp] theorem State.dropFan_clock (s : State) (n) : (s.dropFan n).clock = s.clock := rfl
@[simp] theorem State.dropFan_gauge (s : State) (n) : (s.dropFan n).gauge = s.gauge := rfl
@[simp] theorem State.dropFan_course (s : State) (n) : (s.dropFan n).course = s.course := rfl
@[simp] theorem State.dropFan_host (s : State) (n) : (s.dropFan n).host = s.host := rfl
@[simp] theorem State.dropFan_store (s : State) (n) : (s.dropFan n).store = s.store := rfl
@[simp] theorem State.dropFan_rst (s : State) (n) : (s.dropFan n).rst = s.rst := rfl
@[simp] theorem State.dropFan_core (s : State) (n) : (s.dropFan n).core = s.core := rfl
@[simp] theorem State.dropFan_task (s : State) (n) : (s.dropFan n).task = s.task := rfl
@[simp] theorem State.dropFan_link (s : State) (n) : (s.dropFan n).link = s.link := rfl
@[simp] theorem State.dropFan_coll (s : State) (n) : (s.dropFan n).coll = s.coll := rfl
@[simp] theorem State.dropFan_power (s : State) (n) : (s.dropFan n).power = s.power := rfl
@[simp] theorem State.dropFan_rider (s : State) (n) : (s.dropFan n).rider = s.rider := rfl
@[simp] theorem State.dropFan_edge (s : State) (n) : (s.dropFan n).edge = s.edge := rfl
@[simp] theorem State.dropFan_sec (s : State) (n) : (s.dropFan n).sec = s.sec := rfl
@[simp] theorem State.dropFan_free (s : State) (n) : (s.dropFan n).free = s.free := rfl
@[simp] theorem State.dropFan_out (s : State) (n) : (s.dropFan n).out = s.out := rfl
@[simp] theorem State.reg_dropFan (s : State) (n) (rg : Reg) (j : Nat) : (s.dropFan n).reg rg j = s.reg rg j := rfl
@[simp] theorem State.getF_dropFan (s : State) (n) (fl : Fld) (j : Nat) : (s.dropFan n).getF fl j = s.getF fl j := rfl
@[simp] theorem State.flag_dropFan (s : State) (n) (fl : Fld) (j : Nat) : (s.dropFan n).flag fl j = s.flag fl j := rfl
@[simp] theorem State.byte_dropFan (s : State) (n) (ad : Nat) : (s.dropFan n).byte ad = s.byte ad := rfl

/-! ### State.waitTx -/

@[simp] theorem State.waitTx_pending (s : State) (t) : (s.waitTx t).pending = s.pending := rfl
@[simp] theorem State.waitTx_regs (s : State) (t) : (s.waitTx t).regs = s.regs := rfl
@[simp] theorem State.waitTx_mem (s : State) (t) : (s.waitTx t).mem = s.mem := rfl
@[simp] theorem State.waitTx_poison (s : State) (t) : (s.waitTx t).poison = s.poison := rfl
@[simp] theorem State.waitTx_clock (s : State) (t) : (s.waitTx t).clock = s.clock := rfl
@[simp] theorem State.waitTx_gauge (s : State) (t) : (s.waitTx t).gauge = s.gauge := rfl
@[simp] theorem State.waitTx_course (s : State) (t) : (s.waitTx t).course = s.course := rfl
@[simp] theorem State.waitTx_host (s : State) (t) : (s.waitTx t).host = s.host := rfl
@[simp] theorem State.waitTx_store (s : State) (t) : (s.waitTx t).store = s.store := rfl
@[simp] theorem State.waitTx_rst (s : State) (t) : (s.waitTx t).rst = s.rst := rfl
@[simp] theorem State.waitTx_core (s : State) (t) : (s.waitTx t).core = s.core := rfl
@[simp] theorem State.waitTx_task (s : State) (t) : (s.waitTx t).task = s.task := rfl
@[simp] theorem State.waitTx_link (s : State) (t) : (s.waitTx t).link = s.link := rfl
@[simp] theorem State.waitTx_coll (s : State) (t) : (s.waitTx t).coll = s.coll := rfl
@[simp] theorem State.waitTx_power (s : State) (t) : (s.waitTx t).power = s.power := rfl
@[simp] theorem State.waitTx_rider (s : State) (t) : (s.waitTx t).rider = s.rider := rfl
@[simp] theorem State.waitTx_edge (s : State) (t) : (s.waitTx t).edge = s.edge := rfl
@[simp] theorem State.waitTx_sec (s : State) (t) : (s.waitTx t).sec = s.sec := rfl
@[simp] theorem State.waitTx_free (s : State) (t) : (s.waitTx t).free = s.free := rfl
@[simp] theorem State.waitTx_out (s : State) (t) : (s.waitTx t).out = s.out := rfl
@[simp] theorem State.reg_waitTx (s : State) (t) (rg : Reg) (j : Nat) : (s.waitTx t).reg rg j = s.reg rg j := rfl
@[simp] theorem State.getF_waitTx (s : State) (t) (fl : Fld) (j : Nat) : (s.waitTx t).getF fl j = s.getF fl j := rfl
@[simp] theorem State.flag_waitTx (s : State) (t) (fl : Fld) (j : Nat) : (s.waitTx t).flag fl j = s.flag fl j := rfl
@[simp] theorem State.byte_waitTx (s : State) (t) (ad : Nat) : (s.waitTx t).byte ad = s.byte ad := rfl

/-! ### State.mergeRec -/

@[simp] theorem State.mergeRec_pending (s : State) (seq) : (s.mergeRec seq).pending = s.pending := rfl
@[simp] theorem State.mergeRec_regs (s : State) (seq) : (s.mergeRec seq).regs = s.regs := rfl
@[simp] theorem State.mergeRec_mem (s : State) (seq) : (s.mergeRec seq).mem = s.mem := rfl
@[simp] theorem State.mergeRec_poison (s : State) (seq) : (s.mergeRec seq).poison = s.poison := rfl
@[simp] theorem State.mergeRec_clock (s : State) (seq) : (s.mergeRec seq).clock = s.clock := rfl
@[simp] theorem State.mergeRec_gauge (s : State) (seq) : (s.mergeRec seq).gauge = s.gauge := rfl
@[simp] theorem State.mergeRec_course (s : State) (seq) : (s.mergeRec seq).course = s.course := rfl
@[simp] theorem State.mergeRec_host (s : State) (seq) : (s.mergeRec seq).host = s.host := rfl
@[simp] theorem State.mergeRec_rst (s : State) (seq) : (s.mergeRec seq).rst = s.rst := rfl
@[simp] theorem State.mergeRec_core (s : State) (seq) : (s.mergeRec seq).core = s.core := rfl
@[simp] theorem State.mergeRec_task (s : State) (seq) : (s.mergeRec seq).task = s.task := rfl
@[simp] theorem State.mergeRec_link (s : State) (seq) : (s.mergeRec seq).link = s.link := rfl
@[simp] theorem State.mergeRec_route (s : State) (seq) : (s.mergeRec seq).route = s.route := rfl
@[simp] theorem State.mergeRec_coll (s : State) (seq) : (s.mergeRec seq).coll = s.coll := rfl
@[simp] theorem State.mergeRec_power (s : State) (seq) : (s.mergeRec seq).power = s.power := rfl
@[simp] theorem State.mergeRec_rider (s : State) (seq) : (s.mergeRec seq).rider = s.rider := rfl
@[simp] theorem State.mergeRec_edge (s : State) (seq) : (s.mergeRec seq).edge = s.edge := rfl
@[simp] theorem State.mergeRec_sec (s : State) (seq) : (s.mergeRec seq).sec = s.sec := rfl
@[simp] theorem State.mergeRec_free (s : State) (seq) : (s.mergeRec seq).free = s.free := rfl
@[simp] theorem State.mergeRec_out (s : State) (seq) : (s.mergeRec seq).out = s.out := rfl
@[simp] theorem State.reg_mergeRec (s : State) (seq) (rg : Reg) (j : Nat) : (s.mergeRec seq).reg rg j = s.reg rg j := rfl
@[simp] theorem State.getF_mergeRec (s : State) (seq) (fl : Fld) (j : Nat) : (s.mergeRec seq).getF fl j = s.getF fl j := rfl
@[simp] theorem State.flag_mergeRec (s : State) (seq) (fl : Fld) (j : Nat) : (s.mergeRec seq).flag fl j = s.flag fl j := rfl
@[simp] theorem State.byte_mergeRec (s : State) (seq) (ad : Nat) : (s.mergeRec seq).byte ad = s.byte ad := rfl

/-! ### State.writeBack -/

@[simp] theorem State.writeBack_pending (s : State) (key) (i) : (s.writeBack key i).pending = s.pending := rfl
@[simp] theorem State.writeBack_regs (s : State) (key) (i) : (s.writeBack key i).regs = s.regs := rfl
@[simp] theorem State.writeBack_mem (s : State) (key) (i) : (s.writeBack key i).mem = s.mem := rfl
@[simp] theorem State.writeBack_poison (s : State) (key) (i) : (s.writeBack key i).poison = s.poison := rfl
@[simp] theorem State.writeBack_clock (s : State) (key) (i) : (s.writeBack key i).clock = s.clock := rfl
@[simp] theorem State.writeBack_gauge (s : State) (key) (i) : (s.writeBack key i).gauge = s.gauge := rfl
@[simp] theorem State.writeBack_course (s : State) (key) (i) : (s.writeBack key i).course = s.course := rfl
@[simp] theorem State.writeBack_host (s : State) (key) (i) : (s.writeBack key i).host = s.host := rfl
@[simp] theorem State.writeBack_rst (s : State) (key) (i) : (s.writeBack key i).rst = s.rst := rfl
@[simp] theorem State.writeBack_core (s : State) (key) (i) : (s.writeBack key i).core = s.core := rfl
@[simp] theorem State.writeBack_task (s : State) (key) (i) : (s.writeBack key i).task = s.task := rfl
@[simp] theorem State.writeBack_link (s : State) (key) (i) : (s.writeBack key i).link = s.link := rfl
@[simp] theorem State.writeBack_route (s : State) (key) (i) : (s.writeBack key i).route = s.route := rfl
@[simp] theorem State.writeBack_coll (s : State) (key) (i) : (s.writeBack key i).coll = s.coll := rfl
@[simp] theorem State.writeBack_power (s : State) (key) (i) : (s.writeBack key i).power = s.power := rfl
@[simp] theorem State.writeBack_rider (s : State) (key) (i) : (s.writeBack key i).rider = s.rider := rfl
@[simp] theorem State.writeBack_edge (s : State) (key) (i) : (s.writeBack key i).edge = s.edge := rfl
@[simp] theorem State.writeBack_sec (s : State) (key) (i) : (s.writeBack key i).sec = s.sec := rfl
@[simp] theorem State.writeBack_free (s : State) (key) (i) : (s.writeBack key i).free = s.free := rfl
@[simp] theorem State.writeBack_out (s : State) (key) (i) : (s.writeBack key i).out = s.out := rfl
@[simp] theorem State.reg_writeBack (s : State) (key) (i) (rg : Reg) (j : Nat) : (s.writeBack key i).reg rg j = s.reg rg j := rfl
@[simp] theorem State.getF_writeBack (s : State) (key) (i) (fl : Fld) (j : Nat) : (s.writeBack key i).getF fl j = s.getF fl j := rfl
@[simp] theorem State.flag_writeBack (s : State) (key) (i) (fl : Fld) (j : Nat) : (s.writeBack key i).flag fl j = s.flag fl j := rfl
@[simp] theorem State.byte_writeBack (s : State) (key) (i) (ad : Nat) : (s.writeBack key i).byte ad = s.byte ad := rfl

/-! ### State.unwatch -/

@[simp] theorem State.unwatch_pending (s : State) (who) : (s.unwatch who).pending = s.pending := rfl
@[simp] theorem State.unwatch_regs (s : State) (who) : (s.unwatch who).regs = s.regs := rfl
@[simp] theorem State.unwatch_mem (s : State) (who) : (s.unwatch who).mem = s.mem := rfl
@[simp] theorem State.unwatch_poison (s : State) (who) : (s.unwatch who).poison = s.poison := rfl
@[simp] theorem State.unwatch_clock (s : State) (who) : (s.unwatch who).clock = s.clock := rfl
@[simp] theorem State.unwatch_gauge (s : State) (who) : (s.unwatch who).gauge = s.gauge := rfl
@[simp] theorem State.unwatch_course (s : State) (who) : (s.unwatch who).course = s.course := rfl
@[simp] theorem State.unwatch_host (s : State) (who) : (s.unwatch who).host = s.host := rfl
@[simp] theorem State.unwatch_store (s : State) (who) : (s.unwatch who).store = s.store := rfl
@[simp] theorem State.unwatch_rst (s : State) (who) : (s.unwatch who).rst = s.rst := rfl
@[simp] theorem State.unwatch_core (s : State) (who) : (s.unwatch who).core = s.core := rfl
@[simp] theorem State.unwatch_link (s : State) (who) : (s.unwatch who).link = s.link := rfl
@[simp] theorem State.unwatch_route (s : State) (who) : (s.unwatch who).route = s.route := rfl
@[simp] theorem State.unwatch_coll (s : State) (who) : (s.unwatch who).coll = s.coll := rfl
@[simp] theorem State.unwatch_power (s : State) (who) : (s.unwatch who).power = s.power := rfl
@[simp] theorem State.unwatch_rider (s : State) (who) : (s.unwatch who).rider = s.rider := rfl
@[simp] theorem State.unwatch_edge (s : State) (who) : (s.unwatch who).edge = s.edge := rfl
@[simp] theorem State.unwatch_sec (s : State) (who) : (s.unwatch who).sec = s.sec := rfl
@[simp] theorem State.unwatch_free (s : State) (who) : (s.unwatch who).free = s.free := rfl
@[simp] theorem State.unwatch_out (s : State) (who) : (s.unwatch who).out = s.out := rfl
@[simp] theorem State.reg_unwatch (s : State) (who) (rg : Reg) (j : Nat) : (s.unwatch who).reg rg j = s.reg rg j := rfl
@[simp] theorem State.getF_unwatch (s : State) (who) (fl : Fld) (j : Nat) : (s.unwatch who).getF fl j = s.getF fl j := rfl
@[simp] theorem State.flag_unwatch (s : State) (who) (fl : Fld) (j : Nat) : (s.unwatch who).flag fl j = s.flag fl j := rfl
@[simp] theorem State.byte_unwatch (s : State) (who) (ad : Nat) : (s.unwatch who).byte ad = s.byte ad := rfl

/-! ### State.nameSlot -/

@[simp] theorem State.nameSlot_pending (s : State) (slot) : (s.nameSlot slot).pending = s.pending := rfl
@[simp] theorem State.nameSlot_regs (s : State) (slot) : (s.nameSlot slot).regs = s.regs := rfl
@[simp] theorem State.nameSlot_mem (s : State) (slot) : (s.nameSlot slot).mem = s.mem := rfl
@[simp] theorem State.nameSlot_poison (s : State) (slot) : (s.nameSlot slot).poison = s.poison := rfl
@[simp] theorem State.nameSlot_clock (s : State) (slot) : (s.nameSlot slot).clock = s.clock := rfl
@[simp] theorem State.nameSlot_gauge (s : State) (slot) : (s.nameSlot slot).gauge = s.gauge := rfl
@[simp] theorem State.nameSlot_course (s : State) (slot) : (s.nameSlot slot).course = s.course := rfl
@[simp] theorem State.nameSlot_host (s : State) (slot) : (s.nameSlot slot).host = s.host := rfl
@[simp] theorem State.nameSlot_store (s : State) (slot) : (s.nameSlot slot).store = s.store := rfl
@[simp] theorem State.nameSlot_rst (s : State) (slot) : (s.nameSlot slot).rst = s.rst := rfl
@[simp] theorem State.nameSlot_core (s : State) (slot) : (s.nameSlot slot).core = s.core := rfl
@[simp] theorem State.nameSlot_task (s : State) (slot) : (s.nameSlot slot).task = s.task := rfl
@[simp] theorem State.nameSlot_link (s : State) (slot) : (s.nameSlot slot).link = s.link := rfl
@[simp] theorem State.nameSlot_route (s : State) (slot) : (s.nameSlot slot).route = s.route := rfl
@[simp] theorem State.nameSlot_coll (s : State) (slot) : (s.nameSlot slot).coll = s.coll := rfl
@[simp] theorem State.nameSlot_power (s : State) (slot) : (s.nameSlot slot).power = s.power := rfl
@[simp] theorem State.nameSlot_rider (s : State) (slot) : (s.nameSlot slot).rider = s.rider := rfl
@[simp] theorem State.nameSlot_edge (s : State) (slot) : (s.nameSlot slot).edge = s.edge := rfl
@[simp] theorem State.nameSlot_free (s : State) (slot) : (s.nameSlot slot).free = s.free := rfl
@[simp] theorem State.nameSlot_out (s : State) (slot) : (s.nameSlot slot).out = s.out := rfl
@[simp] theorem State.reg_nameSlot (s : State) (slot) (rg : Reg) (j : Nat) : (s.nameSlot slot).reg rg j = s.reg rg j := rfl
@[simp] theorem State.getF_nameSlot (s : State) (slot) (fl : Fld) (j : Nat) : (s.nameSlot slot).getF fl j = s.getF fl j := rfl
@[simp] theorem State.flag_nameSlot (s : State) (slot) (fl : Fld) (j : Nat) : (s.nameSlot slot).flag fl j = s.flag fl j := rfl
@[simp] theorem State.byte_nameSlot (s : State) (slot) (ad : Nat) : (s.nameSlot slot).byte ad = s.byte ad := rfl

/-! ### State.setSessions -/

@[simp] theorem State.setSessions_pending (s : State) (l) : (s.setSessions l).pending = s.pending := rfl
@[simp] theorem State.setSessions_regs (s : State) (l) : (s.setSessions l).regs = s.regs := rfl
@[simp] theorem State.setSessions_mem (s : State) (l) : (s.setSessions l).mem = s.mem := rfl
@[simp] theorem State.setSessions_poison (s : State) (l) : (s.setSessions l).poison = s.poison := rfl
@[simp] theorem State.setSessions_clock (s : State) (l) : (s.setSessions l).clock = s.clock := rfl
@[simp] theorem State.setSessions_gauge (s : State) (l) : (s.setSessions l).gauge = s.gauge := rfl
@[simp] theorem State.setSessions_course (s : State) (l) : (s.setSessions l).course = s.course := rfl
@[simp] theorem State.setSessions_host (s : State) (l) : (s.setSessions l).host = s.host := rfl
@[simp] theorem State.setSessions_store (s : State) (l) : (s.setSessions l).store = s.store := rfl
@[simp] theorem State.setSessions_rst (s : State) (l) : (s.setSessions l).rst = s.rst := rfl
@[simp] theorem State.setSessions_core (s : State) (l) : (s.setSessions l).core = s.core := rfl
@[simp] theorem State.setSessions_task (s : State) (l) : (s.setSessions l).task = s.task := rfl
@[simp] theorem State.setSessions_link (s : State) (l) : (s.setSessions l).link = s.link := rfl
@[simp] theorem State.setSessions_route (s : State) (l) : (s.setSessions l).route = s.route := rfl
@[simp] theorem State.setSessions_coll (s : State) (l) : (s.setSessions l).coll = s.coll := rfl
@[simp] theorem State.setSessions_power (s : State) (l) : (s.setSessions l).power = s.power := rfl
@[simp] theorem State.setSessions_rider (s : State) (l) : (s.setSessions l).rider = s.rider := rfl
@[simp] theorem State.setSessions_edge (s : State) (l) : (s.setSessions l).edge = s.edge := rfl
@[simp] theorem State.setSessions_free (s : State) (l) : (s.setSessions l).free = s.free := rfl
@[simp] theorem State.setSessions_out (s : State) (l) : (s.setSessions l).out = s.out := rfl
@[simp] theorem State.reg_setSessions (s : State) (l) (rg : Reg) (j : Nat) : (s.setSessions l).reg rg j = s.reg rg j := rfl
@[simp] theorem State.getF_setSessions (s : State) (l) (fl : Fld) (j : Nat) : (s.setSessions l).getF fl j = s.getF fl j := rfl
@[simp] theorem State.flag_setSessions (s : State) (l) (fl : Fld) (j : Nat) : (s.setSessions l).flag fl j = s.flag fl j := rfl
@[simp] theorem State.byte_setSessions (s : State) (l) (ad : Nat) : (s.setSessions l).byte ad = s.byte ad := rfl

/-! ### State.setTally -/

@[simp] theorem State.setTally_pending (s : State) (c) (d) (t) : (s.setTally c d t).pending = s.pending := rfl
@[simp] theorem State.setTally_regs (s : State) (c) (d) (t) : (s.setTally c d t).regs = s.regs := rfl
@[simp] theorem State.setTally_mem (s : State) (c) (d) (t) : (s.setTally c d t).mem = s.mem := rfl
@[simp] theorem State.setTally_poison (s : State) (c) (d) (t) : (s.setTally c d t).poison = s.poison := rfl
@[simp] theorem State.setTally_clock (s : State) (c) (d) (t) : (s.setTally c d t).clock = s.clock := rfl
@[simp] theorem State.setTally_gauge (s : State) (c) (d) (t) : (s.setTally c d t).gauge = s.gauge := rfl
@[simp] theorem State.setTally_course (s : State) (c) (d) (t) : (s.setTally c d t).course = s.course := rfl
@[simp] theorem State.setTally_host (s : State) (c) (d) (t) : (s.setTally c d t).host = s.host := rfl
@[simp] theorem State.setTally_rst (s : State) (c) (d) (t) : (s.setTally c d t).rst = s.rst := rfl
@[simp] theorem State.setTally_core (s : State) (c) (d) (t) : (s.setTally c d t).core = s.core := rfl
@[simp] theorem State.setTally_task (s : State) (c) (d) (t) : (s.setTally c d t).task = s.task := rfl
@[simp] theorem State.setTally_link (s : State) (c) (d) (t) : (s.setTally c d t).link = s.link := rfl
@[simp] theorem State.setTally_route (s : State) (c) (d) (t) : (s.setTally c d t).route = s.route := rfl
@[simp] theorem State.setTally_coll (s : State) (c) (d) (t) : (s.setTally c d t).coll = s.coll := rfl
@[simp] theorem State.setTally_power (s : State) (c) (d) (t) : (s.setTally c d t).power = s.power := rfl
@[simp] theorem State.setTally_rider (s : State) (c) (d) (t) : (s.setTally c d t).rider = s.rider := rfl
@[simp] theorem State.setTally_edge (s : State) (c) (d) (t) : (s.setTally c d t).edge = s.edge := rfl
@[simp] theorem State.setTally_sec (s : State) (c) (d) (t) : (s.setTally c d t).sec = s.sec := rfl
@[simp] theorem State.setTally_free (s : State) (c) (d) (t) : (s.setTally c d t).free = s.free := rfl
@[simp] theorem State.setTally_out (s : State) (c) (d) (t) : (s.setTally c d t).out = s.out := rfl
@[simp] theorem State.reg_setTally (s : State) (c) (d) (t) (rg : Reg) (j : Nat) : (s.setTally c d t).reg rg j = s.reg rg j := rfl
@[simp] theorem State.getF_setTally (s : State) (c) (d) (t) (fl : Fld) (j : Nat) : (s.setTally c d t).getF fl j = s.getF fl j := rfl
@[simp] theorem State.flag_setTally (s : State) (c) (d) (t) (fl : Fld) (j : Nat) : (s.setTally c d t).flag fl j = s.flag fl j := rfl
@[simp] theorem State.byte_setTally (s : State) (c) (d) (t) (ad : Nat) : (s.setTally c d t).byte ad = s.byte ad := rfl

/-! ### State.newPass -/

@[simp] theorem State.newPass_pending (s : State) (c) : (s.newPass c).pending = s.pending := rfl
@[simp] theorem State.newPass_regs (s : State) (c) : (s.newPass c).regs = s.regs := rfl
@[simp] theorem State.newPass_mem (s : State) (c) : (s.newPass c).mem = s.mem := rfl
@[simp] theorem State.newPass_poison (s : State) (c) : (s.newPass c).poison = s.poison := rfl
@[simp] theorem State.newPass_clock (s : State) (c) : (s.newPass c).clock = s.clock := rfl
@[simp] theorem State.newPass_gauge (s : State) (c) : (s.newPass c).gauge = s.gauge := rfl
@[simp] theorem State.newPass_course (s : State) (c) : (s.newPass c).course = s.course := rfl
@[simp] theorem State.newPass_host (s : State) (c) : (s.newPass c).host = s.host := rfl
@[simp] theorem State.newPass_rst (s : State) (c) : (s.newPass c).rst = s.rst := rfl
@[simp] theorem State.newPass_core (s : State) (c) : (s.newPass c).core = s.core := rfl
@[simp] theorem State.newPass_task (s : State) (c) : (s.newPass c).task = s.task := rfl
@[simp] theorem State.newPass_link (s : State) (c) : (s.newPass c).link = s.link := rfl
@[simp] theorem State.newPass_route (s : State) (c) : (s.newPass c).route = s.route := rfl
@[simp] theorem State.newPass_coll (s : State) (c) : (s.newPass c).coll = s.coll := rfl
@[simp] theorem State.newPass_power (s : State) (c) : (s.newPass c).power = s.power := rfl
@[simp] theorem State.newPass_rider (s : State) (c) : (s.newPass c).rider = s.rider := rfl
@[simp] theorem State.newPass_edge (s : State) (c) : (s.newPass c).edge = s.edge := rfl
@[simp] theorem State.newPass_sec (s : State) (c) : (s.newPass c).sec = s.sec := rfl
@[simp] theorem State.newPass_free (s : State) (c) : (s.newPass c).free = s.free := rfl
@[simp] theorem State.newPass_out (s : State) (c) : (s.newPass c).out = s.out := rfl
@[simp] theorem State.reg_newPass (s : State) (c) (rg : Reg) (j : Nat) : (s.newPass c).reg rg j = s.reg rg j := rfl
@[simp] theorem State.getF_newPass (s : State) (c) (fl : Fld) (j : Nat) : (s.newPass c).getF fl j = s.getF fl j := rfl
@[simp] theorem State.flag_newPass (s : State) (c) (fl : Fld) (j : Nat) : (s.newPass c).flag fl j = s.flag fl j := rfl
@[simp] theorem State.byte_newPass (s : State) (c) (ad : Nat) : (s.newPass c).byte ad = s.byte ad := rfl

/-! ### State.dropCaches -/

@[simp] theorem State.dropCaches_pending (s : State) (p) : (s.dropCaches p).pending = s.pending := rfl
@[simp] theorem State.dropCaches_regs (s : State) (p) : (s.dropCaches p).regs = s.regs := rfl
@[simp] theorem State.dropCaches_mem (s : State) (p) : (s.dropCaches p).mem = s.mem := rfl
@[simp] theorem State.dropCaches_poison (s : State) (p) : (s.dropCaches p).poison = s.poison := rfl
@[simp] theorem State.dropCaches_clock (s : State) (p) : (s.dropCaches p).clock = s.clock := rfl
@[simp] theorem State.dropCaches_gauge (s : State) (p) : (s.dropCaches p).gauge = s.gauge := rfl
@[simp] theorem State.dropCaches_course (s : State) (p) : (s.dropCaches p).course = s.course := rfl
@[simp] theorem State.dropCaches_host (s : State) (p) : (s.dropCaches p).host = s.host := rfl
@[simp] theorem State.dropCaches_store (s : State) (p) : (s.dropCaches p).store = s.store := rfl
@[simp] theorem State.dropCaches_rst (s : State) (p) : (s.dropCaches p).rst = s.rst := rfl
@[simp] theorem State.dropCaches_task (s : State) (p) : (s.dropCaches p).task = s.task := rfl
@[simp] theorem State.dropCaches_link (s : State) (p) : (s.dropCaches p).link = s.link := rfl
@[simp] theorem State.dropCaches_route (s : State) (p) : (s.dropCaches p).route = s.route := rfl
@[simp] theorem State.dropCaches_coll (s : State) (p) : (s.dropCaches p).coll = s.coll := rfl
@[simp] theorem State.dropCaches_power (s : State) (p) : (s.dropCaches p).power = s.power := rfl
@[simp] theorem State.dropCaches_rider (s : State) (p) : (s.dropCaches p).rider = s.rider := rfl
@[simp] theorem State.dropCaches_edge (s : State) (p) : (s.dropCaches p).edge = s.edge := rfl
@[simp] theorem State.dropCaches_sec (s : State) (p) : (s.dropCaches p).sec = s.sec := rfl
@[simp] theorem State.dropCaches_free (s : State) (p) : (s.dropCaches p).free = s.free := rfl
@[simp] theorem State.dropCaches_out (s : State) (p) : (s.dropCaches p).out = s.out := rfl
@[simp] theorem State.reg_dropCaches (s : State) (p) (rg : Reg) (j : Nat) : (s.dropCaches p).reg rg j = s.reg rg j := rfl
@[simp] theorem State.getF_dropCaches (s : State) (p) (fl : Fld) (j : Nat) : (s.dropCaches p).getF fl j = s.getF fl j := rfl
@[simp] theorem State.flag_dropCaches (s : State) (p) (fl : Fld) (j : Nat) : (s.dropCaches p).flag fl j = s.flag fl j := rfl
@[simp] theorem State.byte_dropCaches (s : State) (p) (ad : Nat) : (s.dropCaches p).byte ad = s.byte ad := rfl

/-! ### State.startClear -/

@[simp] theorem State.startClear_pending (s : State) (p) : (s.startClear p).pending = s.pending := rfl
@[simp] theorem State.startClear_regs (s : State) (p) : (s.startClear p).regs = s.regs := rfl
@[simp] theorem State.startClear_mem (s : State) (p) : (s.startClear p).mem = s.mem := rfl
@[simp] theorem State.startClear_poison (s : State) (p) : (s.startClear p).poison = s.poison := rfl
@[simp] theorem State.startClear_clock (s : State) (p) : (s.startClear p).clock = s.clock := rfl
@[simp] theorem State.startClear_gauge (s : State) (p) : (s.startClear p).gauge = s.gauge := rfl
@[simp] theorem State.startClear_course (s : State) (p) : (s.startClear p).course = s.course := rfl
@[simp] theorem State.startClear_host (s : State) (p) : (s.startClear p).host = s.host := rfl
@[simp] theorem State.startClear_store (s : State) (p) : (s.startClear p).store = s.store := rfl
@[simp] theorem State.startClear_rst (s : State) (p) : (s.startClear p).rst = s.rst := rfl
@[simp] theorem State.startClear_core (s : State) (p) : (s.startClear p).core = s.core := rfl
@[simp] theorem State.startClear_task (s : State) (p) : (s.startClear p).task = s.task := rfl
@[simp] theorem State.startClear_link (s : State) (p) : (s.startClear p).link = s.link := rfl
@[simp] theorem State.startClear_route (s : State) (p) : (s.startClear p).route = s.route := rfl
@[simp] theorem State.startClear_coll (s : State) (p) : (s.startClear p).coll = s.coll := rfl
@[simp] theorem State.startClear_power (s : State) (p) : (s.startClear p).power = s.power := rfl
@[simp] theorem State.startClear_rider (s : State) (p) : (s.startClear p).rider = s.rider := rfl
@[simp] theorem State.startClear_edge (s : State) (p) : (s.startClear p).edge = s.edge := rfl
@[simp] theorem State.startClear_free (s : State) (p) : (s.startClear p).free = s.free := rfl
@[simp] theorem State.startClear_out (s : State) (p) : (s.startClear p).out = s.out := rfl
@[simp] theorem State.reg_startClear (s : State) (p) (rg : Reg) (j : Nat) : (s.startClear p).reg rg j = s.reg rg j := rfl
@[simp] theorem State.getF_startClear (s : State) (p) (fl : Fld) (j : Nat) : (s.startClear p).getF fl j = s.getF fl j := rfl
@[simp] theorem State.flag_startClear (s : State) (p) (fl : Fld) (j : Nat) : (s.startClear p).flag fl j = s.flag fl j := rfl
@[simp] theorem State.byte_startClear (s : State) (p) (ad : Nat) : (s.startClear p).byte ad = s.byte ad := rfl

/-! ### State.zeroMemory -/

@[simp] theorem State.zeroMemory_pending (s : State) : (s.zeroMemory).pending = s.pending := rfl
@[simp] theorem State.zeroMemory_regs (s : State) : (s.zeroMemory).regs = s.regs := rfl
@[simp] theorem State.zeroMemory_clock (s : State) : (s.zeroMemory).clock = s.clock := rfl
@[simp] theorem State.zeroMemory_gauge (s : State) : (s.zeroMemory).gauge = s.gauge := rfl
@[simp] theorem State.zeroMemory_course (s : State) : (s.zeroMemory).course = s.course := rfl
@[simp] theorem State.zeroMemory_host (s : State) : (s.zeroMemory).host = s.host := rfl
@[simp] theorem State.zeroMemory_rst (s : State) : (s.zeroMemory).rst = s.rst := rfl
@[simp] theorem State.zeroMemory_core (s : State) : (s.zeroMemory).core = s.core := rfl
@[simp] theorem State.zeroMemory_task (s : State) : (s.zeroMemory).task = s.task := rfl
@[simp] theorem State.zeroMemory_link (s : State) : (s.zeroMemory).link = s.link := rfl
@[simp] theorem State.zeroMemory_route (s : State) : (s.zeroMemory).route = s.route := rfl
@[simp] theorem State.zeroMemory_coll (s : State) : (s.zeroMemory).coll = s.coll := rfl
@[simp] theorem State.zeroMemory_power (s : State) : (s.zeroMemory).power = s.power := rfl
@[simp] theorem State.zeroMemory_rider (s : State) : (s.zeroMemory).rider = s.rider := rfl
@[simp] theorem State.zeroMemory_edge (s : State) : (s.zeroMemory).edge = s.edge := rfl
@[simp] theorem State.zeroMemory_sec (s : State) : (s.zeroMemory).sec = s.sec := rfl
@[simp] theorem State.zeroMemory_free (s : State) : (s.zeroMemory).free = s.free := rfl
@[simp] theorem State.zeroMemory_out (s : State) : (s.zeroMemory).out = s.out := rfl
@[simp] theorem State.reg_zeroMemory (s : State)  (rg : Reg) (j : Nat) : (s.zeroMemory).reg rg j = s.reg rg j := rfl
@[simp] theorem State.getF_zeroMemory (s : State)  (fl : Fld) (j : Nat) : (s.zeroMemory).getF fl j = s.getF fl j := rfl
@[simp] theorem State.flag_zeroMemory (s : State)  (fl : Fld) (j : Nat) : (s.zeroMemory).flag fl j = s.flag fl j := rfl

end Sys2Proof.Machine
end

