-- ==== Sys2Proof/Tests/Slice0.lean ====
section
/-!
SUPPORT. Tests/Slice0.lean: refusals of ill-formed commands, single steps with results worked out from the spec, and for the statements with
hypotheses a state and operands that meet them (`witness_…`).
-/
namespace Sys2Proof.Tests
open Sys2Proof Sys2Proof.Machine
set_option maxRecDepth 100000
set_option Elab.async false

/-! ## Well-formed commands -/

theorem test_wf_identity : (Instr.gaugeSet 0 5).wf = false ∧ (Instr.gaugeSet 0x401 5).wf = true := by decide +kernel
theorem test_wf_function : (Instr.apertureRead 0x800 0 64).wf = false ∧ (Instr.apertureRead 0x402 0 0).wf = false := by decide +kernel
theorem test_wf_link : (Instr.timeExchangeTick 7).wf = false ∧ (Instr.timeExchangeTick 15).wf = false ∧ (Instr.timeExchangeTick 31).wf = true := by
  decide +kernel
theorem test_wf_strand : (Instr.replayTimeout 1 16).wf = false ∧ (Instr.replayTimeout 0 16).wf = true := by decide +kernel
theorem test_wf_packet : (Instr.putPacket 0 0 { w0 := 0, w1 := 0, w2 := 0, w3 := 0, payload := List.replicate 8193 0, tag := 0 }).wf = false := by
  decide +kernel
theorem test_wf_flit : (Instr.flitReceive 0 0 [⟨0, []⟩]).wf = false := by decide +kernel
theorem test_wf_freed : (Instr.credit 0 0 [1, 2]).wf = false ∧ (Instr.credit 0 0 (List.replicate 8 0)).wf = true := by decide +kernel
theorem test_wf_site : (Instr.coreBootReport 0 136 true).wf = false ∧ (Instr.slateWave ⟨[(16, 0)], []⟩).wf = false := by decide +kernel
theorem test_wf_finding : (Instr.patternTest [.die 0 18 [1]]).wf = false ∧ (Instr.patternTest [.dramRow 15 31 true]).wf = true := by decide +kernel
theorem test_wf_die : (Instr.dieMark 0 18).wf = false ∧ (Instr.rowRepair 0 192 0).wf = false := by decide +kernel
theorem test_wf_frame : (Instr.mgmtFrame 0 (List.replicate 16385 0)).wf = false := by decide +kernel
theorem test_wf_time : let m : TimeMsg := ⟨17, false, 0, 0, 0, 0, 0, 0, 0, 0, 0⟩
    (Instr.timeReq 0 m).wf = false ∧ (Instr.timeReq 0 { m with k := 16 }).wf = true ∧ (Instr.timeRsp 0 { m with k := 9 } 0).wf = false := by decide +kernel
theorem test_wf_readings :
    let z := fun (n : Nat) => List.replicate n 0
    let p : PowerReading := ⟨0, 0, 0, 0, z 16, z 16, z 4, z 16, 0, z 16, false⟩
    let t : ThermalReading := ⟨List.replicate 16 (z 8), List.replicate 16 (z 2), z 4, z 16, 0, 0, 0⟩
    (Instr.powerSample p).wf = true ∧ (Instr.powerSample { p with slates := z 15 }).wf = false ∧ (Instr.controlInterval ⟨[[(256, 1)]]⟩).wf = false ∧
      (Instr.thermalSample t).wf = true ∧ (Instr.thermalSample { t with cisterns := [] }).wf = false := by decide +kernel
theorem test_wf_observed : (Instr.scrubRead (.cistern 0 0) ⟨[(0, 18, 1)], []⟩).wf = false ∧ (Instr.scrubRead (.tier 0) ⟨[], [3]⟩).wf = false ∧
    (Instr.scrubRead (.scratch 5) ⟨[(3, 38, 1)], []⟩).wf = true := by decide +kernel

/-! ## Cores -/

/-- An abort window that has not ended. -/
def fenceWindow : AbortWin := ⟨0, false, Status.jobAbort, 0, 5, 0, false, 65536, 16842752, false, false⟩
/-- A task of queue 0 on a core. -/
def task : Task := ⟨0, 0, 0, 0, false, 0, false, 0, 0, 0, 1000⟩
/-- A core of partition 0 at PC 0 that runs a task, with a line of its instruction cache and its registers. -/
def coreWith (line : Nat) (s : SMap Word) : Core := { task := some task, icache := [(0, BitVec.ofNat 512 line)], s := s }
/-- Partition 0 holds slate 0, and core 0 is as given. -/
def on (c : Core) : State := (State.reset.setF HIF_POWN.SLATES 0 1).setCore 0 c
/-- The next state of a command; the state itself where it answers none. -/
def after (i : Instr) (s : State) : State := match exec i s with | .next t => t | _ => s

/-- ADD s1, s2, s3: major 0, rd 1, rs1 2, rs2 3, function 0. -/
theorem test_alu_add_wraps :
    ((after (.alu 0 1 2 3 0) (on (coreWith 0x0022_1800 [(2, 0xFFFF_FFFF_FFFF_FFFF), (3, 2)]))).getCore 0).sreg 1 = 1 := by decide +kernel
/-- ADDI s1, s1, -1 sign-extends. -/
theorem test_addi_negative : ((after (.addi 0 1 1 0xFFFF) (on (coreWith 0x0421_FFFF [(1, 0)]))).getCore 0).sreg 1 = 0xFFFF_FFFF_FFFF_FFFF := by
  decide +kernel
/-- s0 discards a write and the PC goes on. -/
theorem test_addi_s0 : let c := (after (.addi 0 0 1 7) (on (coreWith 0x0401_0007 [(1, 1)]))).getCore 0
    c.sreg 0 = 0 ∧ c.pc = 4 ∧ c.retired = 1 := by decide +kernel
/-- R94's corners: DIV by 0, REM by 0, DIV and REM of -2^63 by -1. -/
theorem test_division_corners : aluFn 0x014 5 0 = some (-1) ∧ aluFn 0x016 5 0 = some 5 ∧ aluFn 0x014 (BitVec.intMin 64) (-1) = some (BitVec.intMin 64) ∧
    aluFn 0x016 (BitVec.intMin 64) (-1) = some 0 ∧ aluFn 0x014 (-7) 2 = some (-3) ∧ aluFn 0x016 (-7) 2 = some (-1) := by decide +kernel
/-- MULH of -1 and 1 is -1, MULHU of all ones squared is all ones but the lowest bit. -/
theorem test_mul_high : aluFn 0x011 (-1) 1 = some (-1) ∧ aluFn 0x012 (-1) (-1) = some (-2) := by decide +kernel
/-- A reserved word at the PC faults with ILLEGAL: cause 1, status BAD_ARG. -/
theorem test_alu_reserved : let t := after (.alu 0 1 2 3 0x7FF) (on (coreWith 0x0022_1FFF []))
    t.getF TSK_CFLT_A.CAUSE 0 = 1 ∧ t.getF TSK_CFLT_A.STATUS 0 = Status.badArg ∧ (t.getCore 0).busy = false := by decide +kernel

theorem witness_scalar_arithmetic :
    Say.finds (on (coreWith 0x0022_1800 [])) 0 { word := wordRR 0x00 1 2 3 0 } [1, 2, 3] = true ∧
    Say.finds (on (coreWith 0x0421_FFFF [])) 0 { word := wordRI 0x01 1 1 0xFFFF } [1, 1] = true ∧
    Say.finds (on (coreWith 0x0821_FFFF [])) 0 { word := wordRI 0x02 1 1 0xFFFF } [1, 1] = true ∧
    Say.finds (on (coreWith 0x0C21_FFFF [])) 0 { word := wordRI 0x03 1 1 0xFFFF } [1, 1] = true ∧
    Say.finds (on (coreWith 0x1021_FFFF [])) 0 { word := wordRI 0x04 1 1 0xFFFF } [1, 1] = true ∧
    Say.finds (on (coreWith 0x1422_003F [])) 0 { word := wordRR 0x05 1 2 0 0x03F } [1, 2] = true ∧
    Say.finds (on (coreWith 0x1422_0040 [])) 0 { word := wordRR 0x05 1 2 0 0x040 } [1, 2] = true ∧
    Say.finds (on (coreWith 0x1422_0080 [])) 0 { word := wordRR 0x05 1 2 0 0x080 } [1, 2] = true ∧
    Say.finds (on (coreWith 0x1822_8000 [])) 0 { word := wordRI 0x06 1 2 0x8000 } [1, 2] = true ∧
    Say.finds (on (coreWith 0x1C20_8000 [])) 0 { word := wordRI 0x07 1 0 0x8000 } [1] = true ∧
    Say.finds (on (coreWith 0x2022_8000 [])) 0 { word := wordRI 0x08 1 2 0x8000 } [1, 2] = true ∧
    Say.finds (on (coreWith 0xB022_1807 [])) 0 { word := wordRR 0x2C 1 2 3 7 } [1, 2, 3] = true ∧
    Say.finds (on (coreWith 0x0000_0001_F000_FFE1 [])) 0
      { word := 0x3C * 2 ^ 26 + 0 * 2 ^ 23 + 0x7FF * 2 ^ 5 + 1, second := some 1 } [1] = true := by decide +kernel
theorem witness_division : (0x014 ≤ (0x017 : BitVec 11).toNat ∧ (0x017 : BitVec 11).toNat ≤ 0x017) ∧
    Say.finds (on (coreWith 0x0022_1817 [])) 0 { word := wordRR 0x00 1 2 3 0x017 } [1, 2, 3] = true ∧
    aluFn 0x014 (-7) 2 = some (-3) ∧ aluFn 0x016 (-7) 2 = some (-1) ∧ aluFn 0x015 7 2 = some 3 ∧ aluFn 0x017 7 2 = some 1 := by decide +kernel
theorem witness_product : aluFn 0x010 3 5 = some 15 ∧ aluFn 0x011 3 5 = some 0 ∧ aluFn 0x012 3 5 = some 0 := by decide +kernel
theorem witness_predicates :
    Say.finds (on (coreWith 0x24E2_183D [])) 0 { word := wordRR 0x09 7 2 3 0x03D } [2, 3] = true ∧
    Say.finds (on (coreWith 0x2BE2_8000 [])) 0 { word := wordRI 0x0A 31 2 0x8000 } [2] = true ∧
    Say.finds (on (coreWith 0x2CE7_3803 [])) 0 { word := wordRR 0x0B 7 7 7 3 } [] = true ∧
    Say.finds (on (coreWith 0x2CE7_0004 [])) 0 { word := wordRR 0x0B 7 7 0 4 } [] = true ∧
    Say.finds (on (coreWith 0x2C20_0010 [])) 0 { word := wordRR 0x0B 1 0 0 0x010 } [1] = true ∧
    Say.finds (on (coreWith 0x2C02_0011 [])) 0 { word := wordRR 0x0B 0 2 0 0x011 } [2] = true ∧
    Say.finds (on (coreWith 0x9C00_8001 [])) 0 { word := wordRI 0x27 0 0 0x8001 } [] = true ∧
    Say.finds (on { coreWith 0x9C00_8001 [] with sb := [.btn 0] }) 0 { word := wordRI 0x27 0 0 0x8001 } [] = true ∧
    Say.finds (on (coreWith 0xA000_8001 [])) 0 { word := wordRI 0x28 0 0 0x8001 } [] = true ∧
    Say.finds (on (coreWith 0xA4E0_8001 [])) 0 { word := wordRI 0x29 7 0 0x8001 } [] = true ∧
    Say.finds (on (coreWith 0x9020_000E [])) 0 { word := wordRR 0x24 1 0 0 0x00E } [1] = true ∧
    Say.finds (on (coreWith 0x9402_000B [])) 0 { word := wordRR 0x25 0 2 0 0x00B } [2] = true ∧
    Say.finds (on (coreWith 0xAC00_0000 [])) 0 (sysFetch 0) [] = true ∧ Say.finds (on (coreWith 0xAC00_0003 [])) 0 (sysFetch 3) [] = true := by
  decide +kernel
theorem witness_jumps :
    Say.finds (on (coreWith 0x6C30_0000 [])) 0 { word := wordJ 0x1B 1 0x10_0000 } [1] = true ∧
    Say.finds (on (coreWith 0x7022_FFFC [(2, 4)])) 0 { word := wordRI 0x1C 1 2 0xFFFC } [1, 2] = true ∧
    ((4 : Word) + (0xFFFC : BitVec 16).signExtend 64).toNat % 4 = 0 ∧ ((3 : Word) + (0xFFFC : BitVec 16).signExtend 64).toNat % 4 ≠ 0 ∧
    Say.finds (on (coreWith 0x7422_8000 [])) 0 { word := wordRI 0x1D 1 2 0x8000 } [1, 2] = true ∧
    Say.finds (on (coreWith 0x7822_8000 [])) 0 { word := wordRI 0x1E 1 2 0x8000 } [1, 2] = true ∧
    Say.finds (on (coreWith 0x7C22_8000 [])) 0 { word := wordRI 0x1F 1 2 0x8000 } [1, 2] = true ∧
    Say.finds (on (coreWith 0x8022_8000 [])) 0 { word := wordRI 0x20 1 2 0x8000 } [1, 2] = true ∧
    Say.finds (on (coreWith 0x8422_8000 [])) 0 { word := wordRI 0x21 1 2 0x8000 } [1, 2] = true ∧
    Say.finds (on (coreWith 0x8822_8000 [])) 0 { word := wordRI 0x22 1 2 0x8000 } [1, 2] = true ∧
    Say.finds (on (coreWith 0x8EE0_8000 [])) 0 { word := wordRI 0x23 0x17 0 0x8000 } [] = true ∧ bit (0x17 : BitVec 5) 3 = false := by decide +kernel
theorem witness_scalar_frame : exec (.addi 0 1 1 5) (on (coreWith 0x0421_0005 [])) = .next (after (.addi 0 1 1 5) (on (coreWith 0x0421_0005 []))) ∧
    aluLegal (0x017 : BitVec 11).toNat 3 = true := ⟨rfl, by decide +kernel⟩

/-- Scratch of core 0. -/
def scr0 : Nat := 0x0200_0000_0000
/-- A load or other operation that has been issued, as the first. -/
def issued (op : OutOp) : Outst := ⟨0, 0, 0, op⟩

/-- LDB sign-extends, LDBU does not. -/
theorem test_load_byte_sign :
    ((after (.loadReturn 0 0) ((on { coreWith 0 [] with out := [issued (.load 1 scr0 1 true false none)] }).setBytes scr0 [0x80])).getCore 0).sreg 1 =
      0xFFFF_FFFF_FFFF_FF80 ∧
    ((after (.loadReturn 0 0) ((on { coreWith 0 [] with out := [issued (.load 1 scr0 1 false false none)] }).setBytes scr0 [0x80])).getCore 0).sreg 1 =
      0x80 := by decide +kernel
/-- STD stores the least significant byte first. -/
theorem test_store_little_endian : (after (.storeReachHome 0) (on { coreWith 0 [] with sb := [.store 0 scr0 8 0x0102_0304_0506_0708] })).bytes scr0 8 =
    [8, 7, 6, 5, 4, 3, 2, 1] := by decide +kernel
/-- An aligned double word that crosses out of the grant faults with ACCESS: status DENIED. -/
theorem test_load_outside_grant : let t := after (.ldD 0 1 2 0) (on (coreWith 0x3022_0000 [(2, 0x0300_0000_0040)]))
    t.getF TSK_CFLT_A.CAUSE 0 = 4 ∧ t.getF TSK_CFLT_A.STATUS 0 = Status.denied := by decide +kernel
/-- An unaligned load faults with ALIGN. -/
theorem test_load_unaligned : (after (.ldD 0 1 2 4) (on (coreWith 0x3022_0004 [(2, BitVec.ofNat 64 scr0)]))).getF TSK_CFLT_A.CAUSE 0 = 2 := by decide +kernel
/-- CAS swaps where the comparand is found. -/
theorem test_amo_cas : amoFn 4 64 7 9 7 = 9 ∧ amoFn 4 64 7 9 8 = 7 ∧ amoFn 1 64 (2 ^ 64 - 1) 1 0 = 2 ^ 64 - 1 ∧ amoFn 0x11 64 (2 ^ 64 - 1) 1 0 = 1 := by
  decide +kernel

theorem witness_loads :
    (let s := on (coreWith 0x3022_0000 [(2, BitVec.ofNat 64 scr0)])
     Say.finds s 0 { word := wordRI 0x0C 1 2 0 } [1, 2] = true ∧ (s.getCore 0).loads.length < 8 ∧ s.accessFaults (s.getCore 0) scr0 8 false = []) ∧
    (let s := on (coreWith 0x3022_0004 [(2, BitVec.ofNat 64 scr0)])
     Say.finds s 0 { word := wordRI 0x0C 1 2 4 } [1, 2] = true ∧ s.accessFaults (s.getCore 0) (scr0 + 4) 8 false = [.align]) := by decide +kernel
theorem witness_access :
    let s := on (coreWith 0 [])
    (region 0x0380_0000_0000 = .none ∨ 2 ^ 42 ≤ 2 ^ 42) ∧ region scr0 = .scratch ∧ region tierBase = .tier ∧ region 0 = .cistern ∧
      s.granted (s.getCore 0).part scr0 = true ∧ s.granted (s.getCore 0).part (scr0 + 0x1000_0000) = false := by decide +kernel
theorem witness_load_return :
    let o := issued (.load 1 scr0 8 false false none)
    let s := on { coreWith 0 [] with out := [o] }
    s.power.stopped = false ∧ (s.getCore 0).out[0]? = some o ∧ (s.getCore 0).mayServe o = true ∧ s.doomedBefore (s.getCore 0) o.ord = false ∧ region scr0 ≠ .control ∧
      (s.noteRead scr0 8).poisoned scr0 = false := by
  decide +kernel
theorem witness_atomics :
    (let s := on (coreWith 0x6422_1814 [(2, BitVec.ofNat 64 scr0)])
     Say.finds s 0 { word := wordRR 0x19 1 2 3 0x014 } [1, 2, 3] = true ∧ (s.getCore 0).loads.length < 8 ∧
       s.accessFaults (s.getCore 0) scr0 8 true = []) ∧
    (let o := issued (.amo 1 scr0 0 5 0)
     let s := on { coreWith 0 [] with out := [o] }
     s.power.stopped = false ∧ (s.getCore 0).out[0]? = some o ∧ (s.getCore 0).mayServe o = true ∧ s.doomedBefore (s.getCore 0) o.ord = false ∧
       (s.fillAmo scr0).poisoned scr0 = false) := by decide +kernel
theorem witness_stores :
    (let s := on (coreWith 0x4C22_0000 [(2, BitVec.ofNat 64 scr0)])
     Say.finds s 0 { word := wordRI 0x13 1 2 0 } [1, 2] = true ∧ (s.getCore 0).stores.length < 8 ∧ s.accessFaults (s.getCore 0) scr0 8 false = []) ∧
    (let s := on (coreWith 0x4C22_0004 [(2, BitVec.ofNat 64 scr0)])
     Say.finds s 0 { word := wordRI 0x13 1 2 4 } [1, 2] = true ∧ s.accessFaults (s.getCore 0) (scr0 + 4) 8 false = [.align]) ∧
    (let s := on { coreWith 0 [] with sb := [.store 0 scr0 8 1] }
     s.power.stopped = false ∧ s.drainable (s.getCore 0) ≠ []) := by decide +kernel
theorem witness_held_changes :
    (let c := { coreWith 0 [] with sb := [SbItem.eset 0 1] }
     (on c).power.stopped = false ∧ c.sb = .eset 0 1 :: [] ∧ c.wait = .none ∧ (on c).doomedBefore c 0 = false) ∧
    (let o := issued (.btn 1 1 7 5 none)
     let c := { coreWith 0 [] with sb := [SbItem.btn 0], out := [o] }
     (on c).power.stopped = false ∧ c.sb = .btn 0 :: [] ∧ c.out.find? (fun x => x.ord == 0) = some o ∧ (on c).doomedBefore c 0 = false) := by decide +kernel
theorem witness_battens :
    (let s := on (coreWith 0xA822_1801 [(2, 7), (3, 0x7FFF_FFFF)])
     Say.finds s 0 { word := wordRR 0x2A 1 2 3 (BitVec.ofNat 11 1) } [1, 2, 3] = true ∧ (s.slatesOf (s.getCore 0).part).testBit 0 = true) ∧
    (let s := on (coreWith 0xA822_1801 [(2, 0x1000), (3, 1)])
     Say.finds s 0 { word := wordRR 0x2A 1 2 3 (BitVec.ofNat 11 1) } [1, 2, 3] = true ∧ (s.slatesOf (s.getCore 0).part).testBit 1 = false) ∧
    (let s := on (coreWith 0xA822_1801 [(2, 7), (3, 0x8000_0000)])
     Say.finds s 0 { word := wordRR 0x2A 1 2 3 (BitVec.ofNat 11 1) } [1, 2, 3] = true ∧ ¬(1 ≤ 0x8000_0000 ∧ 0x8000_0000 ≤ 0x7FFF_FFFF)) := by decide +kernel
theorem witness_batten_results :
    let o := issued (.btn 1 4 7 5 none)
    let s := on { coreWith 0 [] with out := [o] }
    s.power.stopped = false ∧ (s.getCore 0).out[0]? = some o ∧ s.doomedBefore (s.getCore 0) o.ord = false ∧ ((4 : Nat) = 0 ∧ (none : Option Nat) = none ∨ (4 : Nat) = 4 ∧ (none : Option Nat) = none) := by decide +kernel
theorem witness_waits :
    Say.finds (on (coreWith 0x9860_8001 [])) 0 { word := wordRI 0x26 3 0 0x8001 } [] = true ∧
    Say.finds (on (coreWith 0x6800_001F [])) 0 { word := wordRR 0x1A 0 0 0 0x01F } [] = true ∧
    Say.finds (on (coreWith 0xAC02_0001 [])) 0 (sysFetch1 1 2) [2] = true ∧ Say.finds (on (coreWith 0xAC02_0002 [])) 0 (sysFetch1 2 2) [2] = true := by
  decide +kernel
theorem witness_batten_wait :
    let s := on (coreWith 0xA822_1803 [(2, 7)])
    Say.finds s 0 { word := wordRR 0x2A 1 2 3 3 } [1, 2, 3] = true ∧ (s.slatesOf (s.getCore 0).part).testBit 0 = true := by decide +kernel
theorem witness_icache_fill :
    let s := on { coreWith 0 [] with icache := [] }
    s.power.stopped = false ∧ (s.getCore 0).busy = true ∧ (s.getCore 0).pc / 64 = 0 ∧ SMap.find? (s.getCore 0).icache 0 = none ∧ s.poisoned scr0 = false := by decide +kernel
theorem witness_core_fault : ((on (coreWith 0 [])).getCore 0).busy = true ∧ topCause [.timeout, .align, .hw] = some .hw := by decide +kernel
theorem witness_core_fault_causes :
    let r : Running := ⟨4, 0, false, 0⟩
    let s := on { coreWith 0 [] with mrun := [r], vrun := [r], task := some { task with courses := 1000 } }
    let c := s.getCore 0
    c.mrun = r :: [] ∧ c.vrun = r :: [] ∧ (∃ t, c.task = some t ∧ t.limit ≤ t.courses) := ⟨rfl, rfl, { task with courses := 1000 }, rfl, by decide⟩
theorem witness_core_fault_fetched :
    (let s : State := { on { coreWith 0 [] with job := 5 } with rst := { State.reset.rst with aborts := [(5, fenceWindow)] } }
     (s.abortWin (s.getCore 0).job).isSome = true) ∧
    (let s := on { coreWith 0 [] with pc := 2 ^ 21 }
     (s.getCore 0).busy = true ∧ (s.getCore 0).wait = .none ∧ 2 ^ 21 ≤ (s.getCore 0).pc ∧
       (∃ f, s.standingAt 0 .scalar = some f ∧ f.cause ∉ [FaultCause.hw, .timeout, .extAbort])) ∧
    (let s := on (coreWith 0xFFFF_FFFF [])
     (s.getCore 0).busy = true ∧ (s.getCore 0).wait = .none ∧ (s.getCore 0).pc < 2 ^ 21 ∧ (s.getCore 0).cachedWord (s.getCore 0).pc = some 0xFFFF_FFFF ∧
       reservedWord 0xFFFF_FFFF = true ∧ reservedWord 0xAC00_0004 = true ∧ reservedWord 0xAC00_0003 = false) :=
  ⟨by decide +kernel, ⟨by decide +kernel, by decide +kernel, by decide +kernel,
    ((on { coreWith 0 [] with pc := 2 ^ 21 }).standingAt 0 .scalar).get (by decide +kernel), by decide +kernel, by decide +kernel⟩, by decide +kernel⟩
theorem witness_long_forms :
    let w : Word := 0x0000_0000_E000_0000
    let v : Word := 0x0000_0000_E400_0000
    let d : Word := 0x0000_0000_E800_0000
    let f := fun (w : Word) => ({ word := w.toNat % 2 ^ 32, second := some (w.toNat >>> 32) } : Fetch)
    Say.finds (on (coreWith w.toNat [])) 0 (f w) [0] = true ∧ Say.finds (on (coreWith v.toNat [])) 0 (f v) [0] = true ∧
      Say.finds (on (coreWith d.toNat [])) 0 (f d) [0] = true ∧ (w.toNat >>> 26) % 64 = 0x38 ∧ (v.toNat >>> 26) % 64 = 0x39 ∧
      (d.toNat >>> 26) % 64 = 0x3A ∧ (bit w 15 || !bit w 5) = true ∧ (on (coreWith d.toNat [])).poisoned scr0 = false ∧
      (let u : Word := 0x0000_0000_E080_0000
       Say.finds (on (coreWith u.toNat [])) 0 (f u) [] = true ∧ ((on (coreWith u.toNat [])).getCore 0).pred ((u.toNat >>> 23) % 8) = false) ∧
      (let u : Word := 0x0000_0001_E800_0000
       (u.toNat >>> 26) % 64 = 0x3A ∧ Say.finds (on (coreWith u.toNat [])) 0 (f u) [] = true ∧ (u.toNat >>> 32) % 2 ^ 22 ≠ 0) ∧
      (let u : Word := 0x0000_0001_E801_0000
       (u.toNat >>> 16) % 128 ≠ 0 ∧ Say.finds (on (coreWith u.toNat [])) 0 (f u) [0] = true) ∧
      (let u : Word := 0x0000_0000_E000_0020
       Say.finds (on (coreWith u.toNat [])) 0 (f u) [] = true ∧ (bit u 15 || !bit u 5) = false) := by
  decide +kernel

/-! ## Engines -/

/-- A queued command with no wait and no post. -/
def queued (func imm : Nat) (a b c : Word) : QEntry :=
  { func, imm, waitEn := false, waitEv := 0, waitClr := false, postEn := false, postEv := 0, a, b, c, seed := 0, tile := 0, phase := 0, pc := 0
    instr := 0, job := 0, gen := 0, part := 0, desc := [] }
/-- A core whose matrix, or vector, engine has one command. -/
def matrix (h : QEntry) : State := on { coreWith 0 [] with mq := [h] }
def vector (h : QEntry) : State := on { coreWith 0 [] with vq := [h] }
/-- The words of a row of FP32 ones, and of the lane numbers. -/
def ones : BitVec 2048 := BitVec.ofNat 2048 (((upFrom 0 64).map fun i => 0x3F80_0000 * 2 ^ (32 * i)).sum)

/-- MX.ZERO sets the tag's anchor: -126 in 16 bits. -/
theorem test_mx_zero : ((after (.mxZero 0) (matrix (queued 0x00 (0xFF82 * 4) 0 0 0))).getCore 0).tag 0 = 0xFF82 := by decide +kernel
/-- MX.FLAGS writes 64 bits to RA.OFF. -/
theorem test_mx_flags : (after (.mxFlags 0) (on { coreWith 0 [] with mq := [queued 0x06 0 64 0 0], tag0 := 0x0001_FF82 })).bytes (scr0 + 64) 8 =
    [0x82, 0xFF, 1, 0, 0, 0, 0, 0] := by decide +kernel
/-- VADD of ones and ones is two in every lane: vd 1, va 2, vb 2. -/
theorem test_vadd : field (SMap.get 0 ((after (.vadd 0) (on { coreWith 0 [] with vq := [queued 0x00 (1 + 2 * 32 + 2 * 1024) 0 0 0], v := [(2, ones)] })).getCore 0).v
    1) (32 * 63) 32 = 0x4000_0000 := by decide +kernel
/-- A command whose flag is not set stays at the head. -/
theorem test_engine_waits : ((after (.mxZero 0) (matrix { queued 0x00 0 0 0 0 with waitEn := true, waitEv := 3 })).getCore 0).mq.length = 1 := by
  decide +kernel
/-- A reserved field refuses it with ILLEGAL and engine MATRIX. -/
theorem test_engine_refuses : let t := after (.mxZero 0) (matrix (queued 0x00 (2 ^ 18) 0 0 0))
    t.getF TSK_CFLT_A.CAUSE 0 = 1 ∧ t.getF TSK_CFLT_A.ENGINE 0 = 1 := by decide +kernel

/-- A misaligned word at the head of the matrix queue ranks before the reserved word at the PC. -/
theorem witness_ranked :
    let h := queued 0x06 0 4 0 0
    let s := on { coreWith 0xFFFF_FFFF [] with mq := [h] }
    (s.getCore 0).busy = true ∧ (s.standing 0 .scalar).map (·.cause) = [.align] ∧
      ((s.standingAt 0 .scalar).map fun f => (s.recorded 0 f).cause) = some .align := by decide +kernel
theorem witness_refused : topCause (((mxFlagsBad (queued 0x06 0 4 0 0)).map Prod.fst).eraseDups) = some .align ∧
    topCause (((mxBad (queued 0x07 0 0 0 0)).map Prod.fst).eraseDups) = some .illegal ∧ mxBad (queued 0x07 0 0 0 0) ≠ [] ∧ 0x07 ≤ (queued 0x07 0 0 0 0).func := by
  decide +kernel
theorem witness_engine_heads :
    (let h := queued 0x00 0 0 0 0
     Say.heads (matrix h) 0 .matrix h [] = true ∧ mxZeroBad h = [] ∧ ((matrix h).getCore 0).waitMet .matrix h = true) ∧
    (let h := { queued 0x00 0 0 0 0 with waitEn := true }
     Say.heads (matrix h) 0 .matrix h [] = true ∧ mxZeroBad h = [] ∧ ((matrix h).getCore 0).waitMet .matrix h = false) ∧
    mxZeroBad (queued 0x00 (2 ^ 18) 0 0 0) ≠ [] ∧
    (let h := queued 0x00 0 0 0 0
     Say.heads (vector h) 0 .vector h [] = true ∧ vBad ((vector h).getCore 0) h = [] ∧ ((vector h).getCore 0).waitMet .vector h = true) ∧
    vBad ((vector (queued 0x10 (2 ^ 5) 0 0 0)).getCore 0) (queued 0x7F 0 0 0 0) ≠ [] := by decide +kernel
theorem witness_engine_post :
    let r : Running := ⟨0, 0, true, 15⟩
    let c := { coreWith 0 [] with mrun := [r], vrun := [r] }
    (on c).power.stopped = false ∧ c.wait = .none ∧ c.mrun = r :: [] ∧ c.vrun = r :: [] := by decide +kernel
theorem witness_matrix_elements :
    (let h := queued 0x00 0 0 0 0
     Say.heads (matrix h) 0 .matrix h [] = true ∧ mxZeroBad h = []) ∧
    (let h := queued 0x01 (2 * 2 + 2 * 32) (0x40 * 2 ^ 32) (0x1000 + 0x40 * 2 ^ 32) 0
     Say.heads (matrix h) 0 .matrix h [] = true ∧ mxMacBad h = [] ∧
       (matrix h).scrPoison 0 (operandRegions (h.im 1 4) h.aOff h.aAux (macK h) ++ operandRegions (h.im 5 4) h.bOff h.bAux (macK h)) = []) ∧
    (let h := queued 0x04 0 (0x400 * 2 ^ 32) 0x1_0000 0
     Say.heads (matrix h) 0 .matrix h [] = true ∧ mxRawBad h = [] ∧
       (matrix h).scrPoison 0 (((upFrom 0 64).map fun r => (h.aOff + r * h.aAux, 1024)) ++ [(h.bOff, 4)]) = []) ∧
    (let h := queued 0x05 0 0 0 0
     Say.heads (matrix h) 0 .matrix h [] = true ∧ mxBiasBad h = [] ∧ (matrix h).scrPoison 0 (biasRegions h) = []) := by decide +kernel
theorem witness_matrix_writes :
    (let h := queued 0x02 0 (0x100 * 2 ^ 32) 0 0
     Say.heads (matrix h) 0 .matrix h [] = true ∧ mxOutBad h = [] ∧ outFmt (h.im 1 3) = some (.flt .fp32)) ∧
    (let h := queued 0x03 0 (0x400 * 2 ^ 32) 0x1_0000 0
     Say.heads (matrix h) 0 .matrix h [] = true ∧ mxRawBad h = [] ∧
       ∀ r < 64, h.bOff + 4 ≤ h.aOff + r * h.aAux ∨ h.aOff + r * h.aAux + 1024 ≤ h.bOff) ∧
    (let h := queued 0x06 0 0 0 0
     Say.heads (matrix h) 0 .matrix h [] = true ∧ mxFlagsBad h = []) := by decide +kernel
theorem witness_vector_lanes :
    let h := queued 0x22 (1 + 2 * 32) 0 0 0
    Say.heads (vector h) 0 .vector h [] = true ∧ vBad ((vector h).getCore 0) h = [] ∧ ((vector h).getCore 0).waitMet .vector h = true ∧
      ((.vcospi 0 : Instr), 0x22) ∈ Say.laneRows 0 := by decide +kernel
theorem witness_vector_masks :
    (let h := queued 0x13 1 0 0 0
     Say.heads (vector h) 0 .vector h [] = true ∧ vBad ((vector h).getCore 0) h = []) ∧
    (let h := queued 0x17 1 0 0 0
     Say.heads (vector h) 0 .vector h [] = true ∧ vBad ((vector h).getCore 0) h = []) ∧
    (let h := queued 0x2B 1 0 0 0
     Say.heads (vector h) 0 .vector h [] = true ∧ vBad ((vector h).getCore 0) h = []) := by decide +kernel
theorem witness_vector_moves :
    (∀ e ∈ [(0x30, 1), (0x31, 32), (0x34, 1), (0x35, 32), (0x36, 1), (0x37, 32)],
      let h := queued e.1 e.2 0 0 0
      Say.heads (vector h) 0 .vector h [] = true ∧ vBad ((vector h).getCore 0) h = [] ∧ (vector h).poisoned scr0 = false ∧
        ((vector h).getCore 0).act h ≠ 0) ∧
    (∀ e ∈ [(0x32, 1), (0x33, 32)],
      let h := queued e.1 e.2 (4 * 2 ^ 32) (4 * 2 ^ 32) 0
      Say.heads (vector h) 0 .vector h [] = true ∧ vBad ((vector h).getCore 0) h = []) := by decide +kernel
theorem witness_conversions :
    (∀ e ∈ [(0x23, 0), (0x24, 0), (0x38, 2 * 32), (0x39, 2 * 32), (0x3A, 8 * 32), (0x3B, 8 * 32)],
      let h := queued e.1 e.2 (0x1000 * 2 ^ 32) (0x1000 * 2 ^ 32) 0
      Say.heads (vector h) 0 .vector h [] = true ∧ vBad ((vector h).getCore 0) h = []) ∧ elemOf 2 = some (.flt .bf16) ∧
    (let h := queued 0x40 0 (0x100 * 2 ^ 32) (0x100 * 2 ^ 32) 1
     Say.heads (vector h) 0 .vector h [] = true ∧ vBad ((vector h).getCore 0) h = []) := by decide +kernel

/-! ## DMA -/

/-- A DMA command: word 0, source, destination, bytes of a row. -/
def dma (w0 src dst row : Word) : QEntry := { queued 0 0 0 0 0 with desc := [w0, src, dst, row, 0, 0, 0, 0] }
def dmaOn (h : QEntry) (s : State) : State := s.setCore 0 { coreWith 0 [] with dq := [h] }
/-- A run of a DMA command that has nothing outstanding. -/
def running (h : QEntry) : DmaRun := ⟨h, 0, false, 0, 4, 64, false, 0, 0, 0, [⟨scr0 + 64, [1, 2], false⟩], [], none, false, 9⟩
/-- A module of EPN 0 with a route set for job 5 over its rack, which partition 0 is bound to. -/
def routed : State :=
  ((((((((State.reset.setF HIF_POWN.SLATES 0 1).setF HIF_POWN.BOUND 0 1).setF RTE_SELF.RACK_VALID 0 1).setF RTE_RSET_A.VALID 0 1).setF
    RTE_RSET_A.JOB 0 5).setF RTE_RSET_B.BOARD_HI 0 7).setF RTE_RSET_B.SLOT_HI 0 7).setReg .RTE_RACK 0 3)

/-- A COPY of 64 bytes has its bytes where it completes. -/
theorem test_dma_copy :
    let s := dmaOn (dma 0 (BitVec.ofNat 64 scr0) (BitVec.ofNat 64 (scr0 + 64)) 64) ((on (coreWith 0 [])).setBytes scr0 [7])
    (after (.dmaComplete 0 0) (after (.dmaCopy 0) s)).byte (scr0 + 64) = 7 := by decide +kernel
/-- Two FP32 ones add to two where an accumulating write applies. -/
theorem test_tier_accum :
    let a : AccWrite := ⟨0, 9, tierBase, 0x3F80_0000, 0xF, 0, 0, false⟩
    let s := (on (coreWith 0 [])).setBytes tierBase [0, 0, 0x80, 0x3F]
    (after (.tierAccumApply 0) { s with core := { s.core with accs := [a] } }).bytes tierBase 4 = [0, 0, 0, 0x40] := by decide +kernel

theorem witness_local_dma :
    (∀ e ∈ [(0x00, scr0), (0x01, 0), (0x02, scr0)],
      let dst := if e.1 = 0x02 then tierBase else scr0 + 64
      let h := dma (BitVec.ofNat 64 e.1) (BitVec.ofNat 64 e.2) (BitVec.ofNat 64 dst) 64
      let s := dmaOn h (on (coreWith 0 []))
      (s.getCore 0).dq = h :: [] ∧ h.dop = e.1 ∧ s.power.stopped = false ∧ s.dmaBad h = [] ∧ (s.getCore 0).waitMet .dma h = true) ∧
    DOp.copy = 0 ∧ DOp.fill = 1 ∧ DOp.accum = 2 := by decide +kernel
theorem witness_remote_dma :
    ∀ op ∈ [DOp.put, DOp.signal, DOp.get],
      let row := if op = DOp.signal then 0 else 64
      let at_ := if op = DOp.signal then 0 else scr0
      let h := { dma (BitVec.ofNat 64 op + 1 * 2 ^ 48) (BitVec.ofNat 64 at_) (BitVec.ofNat 64 at_) (BitVec.ofNat 64 row) with job := 5 }
      let h := if op = DOp.signal then { h with desc := h.desc.set 5 1 } else h
      let s := dmaOn h routed
      (s.getCore 0).dq = h :: [] ∧ h.dop = op ∧ s.power.stopped = false ∧ s.dmaBad h = [] ∧ (s.getCore 0).waitMet .dma h = true ∧ s.flowReady h = true ∧
        s.injectionHeld h.job = false := by decide +kernel
theorem witness_accumulation :
    (let a : AccWrite := ⟨0, 9, tierBase, 0, 0xF, 0, 0, false⟩
     a.granule % 64 = 0 ∧ 15 < 64 / accSize a.atype) ∧
    (let a : AccWrite := ⟨0, 9, tierBase, 0, 0xFFFF, 2, 0, false⟩
     let d := running (dma 0 0 0 64)
     let s := on { coreWith 0 [] with drun := [d] }
     s.power.stopped = false ∧ (s.accumulate a).isNone = true ∧ (s.getCore 0).drun.find? (fun d => d.id == a.dma) = some d) := by decide +kernel
theorem witness_dma_ends :
    let d := running (dma 0 0 0 64)
    let s := on { coreWith 0 [] with drun := [d, { d with counted := 4 }] }
    s.power.stopped = false ∧ (s.getCore 0).drun[0]? = some d ∧ d.posted = false ∧ d.pendingParts = 0 ∧ d.counted < d.limit ∧
      (s.getCore 0).drun[1]? = some { d with counted := 4 } ∧ d.limit ≤ 4 := by decide +kernel

/-! ## Registers, the gauge, battens, queues and tasks -/

/-- PF0. -/
def pf : Ident := 0x401
/-- A ready module: partition 0 holds slate 0, whose 128 cores are in service, and is bound to job 5 by route set 0. -/
def ready : State :=
  let s := ((((routed.setF BOOT_STAT.STAGE 0 Stage.ready).setF TOP_SITES_HI.OK 0 1).setF TOP_SITES_LO.SITES 0 (2 ^ 64 - 1)).setF TOP_SITES_MID.SITES 0
    (2 ^ 64 - 1))
  { s with sec := { s.sec with bindings := [(0, ⟨5, 0⟩)] } }
/-- WORK queue 0 of slate 0 with a ring of 16 entries in scratch of core 0, and CPL queue 1 after it. -/
def queues (s : State) : State :=
  ((((((((s.setF QM_CTX.EN 0 1).setF QM_CTX.STATE 0 QS.active).setF QM_CTX.LOG2_E 0 4).setF QM_CTX.BASE 0 scr0).setF QM_CTX.EN 1 1).setF
    QM_CTX.TYPE 1 1).setF QM_CTX.STATE 1 QS.active).setF QM_CTX.LOG2_E 1 4).setF QM_CTX.BASE 1 (scr0 + 0x400)
/-- Link 0's strand on die 0 in service. -/
def linked (s : State) : State := s.setF SLU_STR_STAT.STATE (strandIx 0 0) SS.active

/-- BTN_HOSTOP adds to batten 7: operand 2 in the upper half. -/
theorem test_host_add : (after (.btnHostAdd pf 0x2_0000_0007) (ready.setF BTN_CNT.COUNT 7 (2 ^ 32 - 1))).batten 7 = 1 := by decide +kernel
/-- A host add of 0 is BAD_ARG and changes nothing. -/
theorem test_host_add_zero : (after (.btnHostAdd pf 7) ready).batten 7 = 0 ∧ (after (.btnHostAdd pf 7) ready).store.log.length = 1 := by decide +kernel
/-- A doorbell past the ring is counted in BAD_DB. -/
theorem test_doorbell_far : (after (.qmDoorbell pf (16 * 2 ^ 32)) (queues ready)).getF QM_CTX.BAD_DB 0 = 1 ∧
    (after (.qmDoorbell pf (15 * 2 ^ 32)) (queues ready)).getF QM_CTX.PROD 0 = 15 := by decide +kernel
/-- A course change at the wrong time is WINDOW, to the length in force BAD_ARG. -/
theorem test_course_arm_refused :
    let s := (ready.setF GAUGE_STAT.STATE 0 GS.locked).setF CRS_CHG_AT.AT 0 262144
    (after (.courseChangeArm pf 0x10D) s).flag CRS_CHG.ARM = true ∧ (after (.courseChangeArm pf 0x10C) s).getF CRS_CHG.STATUS = Status.badArg ∧
      (after (.courseChangeArm pf 0x10D) (s.setF CRS_CHG_AT.AT 0 196608)).getF CRS_CHG.STATUS = Status.window := by decide +kernel
/-- The empty queue's step passes one nanosecond. -/
theorem test_tick : State.reset.tick.gauge.now = 1 ∧ State.reset.tick.clock = 1 := by decide +kernel
/-- 32,768 is before, 32,767 is after (R42); exactly 2^31 is before (R207). -/
theorem test_serial : diff16 32768 0 = -32768 ∧ diff16 32767 0 = 32767 ∧ batMet (2 ^ 31) 0 = false ∧ batMet 0 (2 ^ 32 - 1) = true := by decide +kernel

theorem witness_empty_queue : State.reset.pending = [] ∧ State.reset.store.faults = [] ∧ State.reset.host.reqs = [] ∧ State.reset.gauge.load = none ∧ State.reset.power.switching = none ∧
    State.reset.sec.presence = [] ∧ State.reset.edge.offDue = false ∧ State.reset.rst.rejudge = [] ∧
    ({ State.reset with pending := [.courseBoundary] } : State).pending = .courseBoundary :: [] ∧
    ({ State.reset with store := { State.reset.store with faults := [.batten 7] } } : State).store.faults = .batten 7 :: [] ∧
    ({ State.reset with host := { State.reset.host with reqs := [.barSize 0 1] } } : State).host.reqs = .barSize 0 1 :: [] := by decide +kernel
theorem witness_sound : Safety.Sound State.reset := by unfold Safety.Sound; decide +kernel
theorem witness_fields : TOP_MSIZE.RACKS_M1 ∈ Reg.TOP_MSIZE.fields ∧ TOP_MSIZE.COURSE_K ∈ Reg.TOP_MSIZE.fields ∧
    TOP_MSIZE.COURSE_K ≠ TOP_MSIZE.RACKS_M1 ∧ 255 < 2 ^ TOP_MSIZE.RACKS_M1.w := by decide +kernel
theorem witness_register_write : Reg.find 0x200 ≠ none ∧ (∃ r i, Reg.find (Reg.COL_TMO.place.base) = some (r, i) ∧ r ∈ [Reg.COL_TMO]) ∧
    (∃ r i, Reg.find (Reg.GAUGE_NOW.place.base) = some (r, i) ∧ r ∈ [Reg.GAUGE_NOW]) ∧ Reg.find 0x8 = none ∧ Who.isManager pf.toNat = true ∧
    Who.isManager 1 = false := ⟨by decide +kernel, ⟨.COL_TMO, 0, by decide +kernel⟩, ⟨.GAUGE_NOW, 0, by decide +kernel⟩, by decide +kernel⟩
theorem witness_msize : Who.isManager pf.toNat = true ∧ State.reset.anyBound = false ∧ ready.anyBound = true ∧
    (let v : Word := 0x1F00_00FF
     ¬(1 ≤ (v.toNat >>> 24) % 32 ∧ (v.toNat >>> 24) % 32 ≤ 16)) ∧
    (let v : Word := 0x1007_07FF
     1 ≤ (v.toNat >>> 24) % 32 ∧ (v.toNat >>> 24) % 32 ≤ 16) := by decide +kernel
theorem witness_gauge_load : Who.isManager pf.toNat = true ∧ State.reset.anyBound = false ∧ State.reset.gstate = GS.free ∧
    ({ State.reset with gauge := { State.reset.gauge with load := some 9 } } : State).gauge.load = some 9 ∧ Say.quiet State.reset := by
  unfold Say.quiet; decide +kernel
theorem witness_gauge_lock : bit (0x100 : Word) 8 = true ∧ State.reset.flag GAUGE_CTL.LOCK = false ∧
    (State.reset.setF GAUGE_CTL.LOCK 0 1).flag GAUGE_CTL.LOCK = true ∧
    State.reset.flag GAUGE_CTL.SYNC_EN = true ∧ State.reset.anyBound = false ∧ bit (0x100 : Word) 0 = false ∧ bit (0x101 : Word) 0 = true ∧
    bit (0x101 : Word) 1 = false ∧ (State.reset.setF GAUGE_STAT.IS_ROOT 0 1).flag GAUGE_STAT.IS_ROOT = true ∧
    (let s : State := { State.reset with gauge := { State.reset.gauge with now := BitVec.allOnes 64 } }
     s.gauge.load = none ∧ 2 ^ 64 ≤ s.gauge.now.toNat + Say.pace s) := by decide +kernel
/-- A request of this module with t1 = 64 is out on link 0. -/
def asked (s : State) : State := (linked s).setLinkTime 0 { sent := some 64 }
/-- A reply to it: the root it names, its hops and its stamps t2 and t3; it agrees with length and epoch. -/
def replyOf (root : BitVec 16) (t2 t3 : Word) : TimeMsg := ⟨12, false, 2, 0, root, 64, 64, t2, t3, 0, 0⟩
/-- The state that has noted the reply. -/
def heardOf (s : State) (m : TimeMsg) (t4 : Word) : State :=
  s.setLinkTime 0 { s.linkTime 0 with sent := none, view := some ⟨m.rootEpn.toNat, m.hops.toNat, s.peerOf 0, m.k.toNat, m.epoch⟩, offset := timeOffset m t4
                                      delay := s.timeDelay 0 0 m t4 }
/-- Module 0 has the smallest offer itself; where it is not eligible, root 1 on link 0 has, or root 3 on link 1 before root 5 on link 0. -/
theorem witness_replies :
    (let s := asked ready
     let m := replyOf 1 64 64
     s.timeStrand 0 = some 0 ∧ s.flag GAUGE_CTL.SYNC_EN = true ∧ (s.linkTime 0).sent = some m.t1.toNat ∧ m.reqId.toNat = m.t1.toNat % 65536 ∧
       m.k.toNat = s.k ∧ m.epoch = s.epoch ∧ (bestOffer (heardOf s m 64).offers).map (·.link) = some 0xFF ∧ s.gstate ≠ GS.out) ∧
    (let s := (asked ready).setF GAUGE_CTL.ROOT_ELIG 0 0
     let m := replyOf 1 64 64
     (bestOffer (heardOf s m 64).offers).map (·.link) = some 0 ∧
       (let u := (asked State.reset).setF GAUGE_CTL.ROOT_ELIG 0 0
        u.gstate = GS.free ∧ u.anyBound = false ∧ u.timeStrand 0 = some 0 ∧ (bestOffer (heardOf u m 64).offers).map (·.link) = some 0)) ∧
    (let s : State := { ((((asked ready).setF GAUGE_CTL.ROOT_ELIG 0 0).setF GAUGE_STAT.PARENT_LINK 0 0).setF GAUGE_STAT.ROOT_EPN 0 1).setF GAUGE_STAT.STATE 0 GS.acquiring
                          with gauge := { (asked ready).gauge with good := 15, bad := 3 } }
     let m := replyOf 1 64 64
     let n := replyOf 1 8064 8064
     s.getF GAUGE_STAT.PARENT_LINK = 0 ∧ (bestOffer (heardOf s m 64).offers).map (·.link) = some 0 ∧
       (bestOffer (heardOf s m 64).offers).map (·.root) = some (s.getF GAUGE_STAT.ROOT_EPN) ∧ (-80 ≤ timeOffset m 64 ∧ timeOffset m 64 ≤ 80) ∧
       15 ≤ s.gauge.good ∧ 3 ≤ s.gauge.bad ∧ s.gstate = GS.acquiring ∧ 4000 < timeOffset n 64 ∧
       (bestOffer (heardOf s n 64).offers).map (·.link) = some 0 ∧ (s.setG GS.locked).gstate = GS.locked ∧
       ¬(4000 < timeOffset m 64 ∨ timeOffset m 64 < -4000)) ∧
    (let s := (((asked ready).setF GAUGE_CTL.ROOT_ELIG 0 0).setLinkTime 1 { view := some ⟨3, 0, 2, 12, false⟩ }).setF SLU_STR_STAT.STATE (strandIx 0 1) SS.active
     let m := replyOf 5 8064 8064
     s.timeStrand 0 = some 0 ∧ (bestOffer (heardOf s m 64).offers).map (·.link) = some 1 ∧ s.getF GAUGE_STAT.PARENT_LINK ≠ 0 ∧ 640 < timeOffset m 64) := by
  decide +kernel
theorem witness_time_exchange : (linked ready).timeStrand 0 = some 0 ∧ (linked ready).flag GAUGE_CTL.SYNC_EN = true ∧
    ((linked ready).linkTime 0).asked = none ∧
    (let s := linked ready
     let u : State := { s with gauge := { s.gauge with links := SMap.insert s.gauge.links 0 { s.linkTime 0 with sent := some 16 } } }
     (u.linkTime 0).sent = some (16 : Word).toNat ∧ u.timeStrand 0 = some 0) := by decide +kernel
theorem witness_gauge_states :
    (State.reset.setF GAUGE_STAT.STATE 0 GS.acquiring).gstate = GS.acquiring ∧ (State.reset.setF GAUGE_STAT.STATE 0 GS.locked).gstate = GS.locked ∧
    (State.reset.setF GAUGE_STAT.STATE 0 GS.out).gstate = GS.out ∧
    (let s := State.reset.setF GAUGE_STAT.STATE 0 GS.holdover
     ({ s with clock := 250_000_000, gauge := { s.gauge with holdover := some 0 } } : State).gstate = GS.holdover) ∧
    ({ State.reset with gauge := { State.reset.gauge with stopped := true } } : State).gauge.stopped = true ∧ State.reset.anyBound = false := by
  decide +kernel
theorem witness_course_boundary :
    let s : State := { on (coreWith 0 []) with gauge := { State.reset.gauge with now := 4096 } }
    s.course.last ≠ s.courseNo ∧ (s.getCore 0).task = some task := by decide +kernel
theorem witness_course_change :
    (let s := (State.reset.setF GAUGE_STAT.STATE 0 GS.locked).setF CRS_CHG_AT.AT 0 262144
     bit (0x10D : Word) 8 = true ∧ bit (0x10D : Word) 9 = false ∧ s.flag CRS_CHG.ARM = false ∧ 13 ≠ s.k ∧ s.getF CRS_CHG_AT.AT % 65536 = 0 ∧
       s.time + 262144 ≤ s.getF CRS_CHG_AT.AT ∧ s.course.prevSwitch = none ∧ s.gstate = GS.locked) ∧
    (let s := (State.reset.setF CRS_CHG.ARM 0 1).setF CRS_CHG_AT.AT 0 65536
     bit (0x20C : Word) 9 = true ∧ bit (0x20C : Word) 8 = false ∧ s.flag CRS_CHG.ARM = true ∧ 12 = s.getF CRS_CHG.K_NEXT) ∧
    (let s := State.reset.setF CRS_CHG.ARM 0 1
     s.flag CRS_CHG.ARM = true ∧ s.getF CRS_CHG_AT.AT ≤ s.time) ∧
    (let s : State := { State.reset with course := { State.reset.course with prevSwitch := some 0 }, gauge := { State.reset.gauge with now := 0x10_0000 } }
     s.course.prevSwitch = some 0 ∧ 0 + 256 * 2 ^ s.getF CRS_CHG.K_PREV ≤ s.time) := by decide +kernel
theorem witness_host_batten : Who.isPF pf.toNat = true ∧
    (let v : Word := 0x7FFF_FFFF_0000_FFFF
     (v.toNat >>> 16) % 4 = 0 ∧ 1 ≤ v.toNat >>> 32 ∧ v.toNat >>> 32 ≤ 0x7FFF_FFFF) ∧
    (let v : Word := 0x8000_0000_0000_FFFF
     (v.toNat >>> 16) % 4 = 0 ∧ ¬(1 ≤ v.toNat >>> 32 ∧ v.toNat >>> 32 ≤ 0x7FFF_FFFF)) ∧
    (let v : Word := 0xFFFF_FFFF_0001_0000
     (v.toNat >>> 16) % 4 = 1) := by decide +kernel
theorem witness_watches :
    let w : Watch := ⟨.core 0, 7, 0, 0⟩
    let m : Met := ⟨w, 3, 0⟩
    let g : Met := ⟨⟨.gate 0, 7, 0, 0⟩, 3, 0⟩
    let s0 := on { coreWith 0 [] with wait := .btnWait 1 }
    let s : State := { s0 with task := { s0.task with met := [m, g], retry := [w], watches := [w, ⟨.core 1, 7, 1, 0⟩] } }
    s.power.stopped = false ∧ s.task.met[0]? = some m ∧ (s.getCore 0).wait = .btnWait 1 ∧ s.task.met[1]? = some g ∧ s.task.retry[0]? = some w ∧
      serialDiff 32 (s.batten w.batten) w.target ≥ 0 ∧ s.checkWatches.task.watches.length = 1 := by decide +kernel
theorem witness_queue_enable :
    let val : Word := 0x401_0000_4001
    let w := val.toNat &&& Reg.mask .QM_CTX 0 .rw
    let s := (ready.setF QM_CTX.BASE 0 scr0)
    Who.isManager pf.toNat = true ∧ bit val 0 = true ∧ s.flag QM_CTX.EN 0 = false ∧ s.reg .QM_CTX (0 * 4) = 0 ∧
      (s.setReg .QM_CTX (0 * 4) (BitVec.ofNat 64 (w - 1))).enableCheck 0 = none ∧ (queues ready).flag QM_CTX.EN 0 = true := by decide +kernel
theorem witness_doorbells :
    let s := (queues ready).setF QM_CTX.PROD 0 15
    s.mayRing pf.toNat 0 = true ∧ s.flag QM_CTX.EN 0 = true ∧ s.flag QM_CTX.TYPE 0 = false ∧ s.getF QM_CTX.STATE 0 = 1 ∧
      dist16 15 (s.getF QM_CTX.CONS 0) ≤ s.ringSize 0 - 1 ∧ dist16 15 (s.getF QM_CTX.PROD 0) ≤ s.ringSize 0 - 1 ∧
      dist16 14 (s.getF QM_CTX.CONS 0) < dist16 (s.getF QM_CTX.PROD 0) (s.getF QM_CTX.CONS 0) ∧ (s.queue 0).marks.length < 16 ∧ (s.queue 0).head = [] ∧
      s.mayRing pf.toNat 1 = true ∧ s.flag QM_CTX.TYPE 1 = true ∧ s.getF QM_CTX.STATE 1 = 1 ∧
      dist16 0 (s.getF QM_CTX.CONS 1) ≤ dist16 (s.getF QM_CTX.PROD 1) (s.getF QM_CTX.CONS 1) := by decide +kernel
theorem witness_completions :
    let o : Owed := ⟨1, 0, 0, 9, 0, 3⟩
    let s0 := (queues ready).setF QM_CTX.SHADOW_EN 0 1
    let s : State := { s0 with task := { s0.task with owed := [o], queues := [(0, { shadowDue := some (0, false) })] } }
    s.task.owed = o :: [] ∧ s.flag QM_CTX.EN o.cplq = true ∧ s.flag QM_CTX.TYPE o.cplq = true ∧ s.cplSpace o.cplq = true ∧
      (s.queue 0).shadowDue.isSome = true ∧ (s.queue 0).lastShadow = none ∧ s.flag QM_CTX.SHADOW_EN 0 = true ∧ s.flag QM_CTX.TYPE 0 = false := by
  decide +kernel
/-- A one-entry item that runs on any core of its slate. -/
def item : List Byte := leBytes 8 (2 ^ 39) ++ List.replicate 56 0
theorem witness_work :
    (let s := ((queues ready).setF QM_CTX.PROD 0 1).setBytes scr0 item
     s.power.stopped = false ∧ s.flag QM_CTX.EN 0 = true ∧ s.flag QM_CTX.TYPE 0 = false ∧ s.getF QM_CTX.STATE 0 = 1 ∧ s.itemLen 0 0 ≤ dist16 (s.getF QM_CTX.PROD 0) 0 ∧
       (s.queue 0).head = [] ∧ (s.queue 0).marks = [] ∧ s.store.raw = [] ∧ (∀ j < s.itemLen 0 0, s.poisoned (s.entryAddr 0 (0 + j)) = false) ∧
       (∀ j < s.itemLen 0 0, s.entryAddr 0 (0 + j) % 64 = 0) ∧ s.itemGood 0 (s.itemBytes 0 0 (s.itemLen 0 0)) = true) ∧
    (let s0 := queues ready
     let s : State := { s0 with task := { s0.task with queues := [(0, { head := item, gateMet := true })] } }
     s.arbitrate 0 = some 0 ∧ s.power.stopped = false ∧ s.itemCore 0 item = some 0) := by decide +kernel
theorem witness_tasks :
    let k := { task with cplEn := true, cplq := 1, doneEn := true, doneBtn := 7 }
    let s := (queues ready).setCore 0 { coreWith 0 [] with task := some k, wait := .done 0 }
    s.power.stopped = false ∧ (s.getCore 0).task = some k ∧ (s.getCore 0).wait = .done 0 ∧ (s.getCore 0).doneMet = true ∧ s.cplUsable 1 (s.getCore 0).part = true ∧
      s.cplSpace 1 = true ∧ (s.setF QM_CTX.PROD 1 15).cplSpace 1 = false ∧ task.cplEn = false ∧ ({ task with courses := 1000 } : Task).limit ≤ 1000 := by
  decide +kernel
theorem witness_windows : ready.mayAwin pf.toNat 15 = true ∧ Who.isManager pf.toNat = true ∧ State.reset.anyBound = false ∧
    (0x22 : Word).toNat % 4 ≠ 3 ∧ Safety.Sound State.reset := by unfold Safety.Sound; decide +kernel
theorem witness_register_commands : exec (.capWrite pf 0) State.reset = .next (after (.capWrite pf 0) State.reset) := rfl

/-! ## Links -/

/-- Link 0's strand on die 0 in a state, with its own state. -/
def strandIn (st : Nat) (x : Strand) : State := (ready.setF SLU_STR_STAT.STATE (strandIx 0 0) st).setStrand 0 0 x
/-- A DATA flit on VL 0 that starts a packet. -/
def dataFlit (seq : Nat) : List Byte := flitBytes (List.replicate 248 0) seq 0 1 1 0 true
/-- A strand that expects sequence number 4095 and has the bytes of a flit in its stream. -/
def facing (f : List (Option Byte)) : Strand := { e := 4095, phy := { rx := f } }
/-- The IDENT of module 1's strand at the other end of link 0. -/
def farIdent : IdentMsg := ⟨1, 1, 0, 1, 0, true, 0, 6, 0⟩
/-- A flit in the replay buffer. -/
def held : HeldFlit := ⟨5, dataFlit 5, 0⟩

/-- The CRC of the flits is CRC-32 over body and trailer: its check value over "123456789". -/
theorem test_crc32 : crc32 ((upFrom 0x31 9).map (BitVec.ofNat 8)) = 0xCBF4_3926 := by decide +kernel
/-- E wraps from 4095 to 0. -/
theorem test_flit_wraps : ((after (.flitReceive 0 0 []) (strandIn SS.active (facing ((dataFlit 4095).map some)))).strand 0 0).e = 0 := by decide +kernel
/-- Lane 9 is position 2 of link 2 and lane 28 the first of link 8. -/
theorem test_lanes : laneOf 2 1 = 9 ∧ laneOf 8 0 = 28 ∧ laneOf 17 3 = 63 := by decide +kernel
theorem witness_flits :
    let f := dataFlit 4095
    let x := facing (f.map some)
    let s := strandIn SS.active x
    let t := leNat (f.drop 248)
    let s1 := (s.mapStrand 0 0 fun x => { x with phy := {} }).applyAck 0 0 (natField t 56 2) (natField t 44 12)
    isStrand 0 0 = true ∧ flitState (s.strandState 0 0) = true ∧ (s.strand 0 0).phy.cutFlit = some (f.map some, {}) ∧ flitCrcGood f = true ∧
      natField t 58 2 = 1 ∧ s1.strandState 0 0 = SS.active ∧ natField t 32 12 = (s1.strand 0 0).e ∧ natBit t 63 = true ∧
      (Pkt.ofBytes (f.take 248)).isSome = true ∧ serialDiff 12 4095 0 < 0 ∧ serialDiff 12 0 4095 > 0 ∧
      (let g := 1 :: f.drop 1
       ((strandIn SS.active (facing (g.map some))).strand 0 0).phy.cutFlit = some (g.map some, {}) ∧ flitCrcGood g = false) ∧
      (let g := none :: (f.drop 1).map some
       ((strandIn SS.active (facing g)).strand 0 0).phy.cutFlit = some (g, {}) ∧ none ∈ g) ∧
      ((strandIn SS.verify x).mapStrand 0 0 fun x => { x with phy := {} }).strandState 0 0 < SS.cal ∧ flitState SS.verify = true ∧
      ((strandIn SS.verifyFail x).mapStrand 0 0 fun x => { x with phy := {} }).strandState 0 0 = SS.verifyFail := by decide +kernel
theorem symEval_zeros (x n : Nat) : symEval x (List.replicate n 0) = 0 := by
  have h : symMul 0 x = 0 := by simp [symMul, symDouble]
  unfold symEval
  induction n with
  | zero => rfl
  | succ k ih => simpa [List.replicate_succ, h] using ih
theorem rsDecode_zeros (n : Nat) : rsDecode (List.replicate n 0) = some (List.replicate n 0, 0) := by
  have h : (rsSyndromes (List.replicate n 0)).all (· == 0) = true := by simp [rsSyndromes, symEval_zeros]
  simp [rsDecode, h]
theorem ofSymbols_zeros (n : Nat) : ofSymbols (List.replicate n 0) = 0 := by
  unfold ofSymbols
  induction n with
  | zero => rfl
  | succ k ih => simp [List.replicate_succ, ih]
/-- A word of zeros is a codeword, without the alignment marker. -/
theorem take_zeros (x : LaneRx) (now n : Nat) : (x.take now (List.replicate n 0)).aligned = false := by
  simp [LaneRx.take, rsDecode_zeros, ofSymbols_zeros, alignMarker]
theorem witness_codewords : isStrand 0 0 = true ∧ (strandIn SS.active {}).strandState 0 0 = SS.active ∧ flitState SS.active = true ∧
    (List.replicate 560 (0 : BitVec 10)).length = 560 ∧ (LaneRx.take {} 0 (List.replicate 560 0)).aligned = false :=
  ⟨by decide +kernel, by decide +kernel, by decide +kernel, List.length_replicate, take_zeros _ _ _⟩
/-- Sixteen bytes over four lanes; a codeword of the lane layer; 100 bits through the scrambler. -/
theorem witness_lanes : ((upFrom 0 16).map (BitVec.ofNat 8)).length % 4 = 0 ∧ (9 : Nat) < ((upFrom 0 16).map (BitVec.ofNat 8)).length ∧
    (upFrom 0 520).length = 520 ∧ (100 : Nat) ≤ 39 * 3 ∧ (12345 : Nat) < 2 ^ 100 ∧ (678 : Nat) < 2 ^ 58 := by decide +kernel
theorem test_scrambler : descramble 100 (scramble 3 100 12345 678).1 678 = (12345, (scramble 3 100 12345 678).2) := by decide +kernel
theorem witness_packet_bytes : let p : Packet := { w0 := 0, w1 := 0, w2 := 0, w3 := 0, payload := [1, 2, 3, 4, 5, 6, 7, 8], tag := 7 }
    ({ p with payload := List.replicate (Pkt.payloadLen p) 1 } : Packet).payload.length = Pkt.payloadLen p := by decide +kernel
theorem witness_link_messages :
    (let s : State := { strandIn SS.active { replay := [held] } with clock := 8000 }
     isStrand 0 0 = true ∧ s.strandState 0 0 = SS.active ∧ (s.strand 0 0).replay = [held] ∧ (s.strand 0 0).resend = none ∧ held.sent + 8000 ≤ s.clock ∧
       (s.strand 0 0).fruitless < 4) ∧
    (let s := strandIn SS.active { freed := [(0, 3)] }
     s.strandState 0 0 = SS.active ∧ (s.strand 0 0).freed ≠ (s.strand 0 0).reported) ∧
    (strandIn SS.init { anew := true }).strandState 0 0 = SS.init ∧ ((strandIn SS.init { anew := true }).strand 0 0).anew = true ∧
    (strandIn SS.ident {}).strandState 0 0 = SS.ident ∧ (strandIn SS.verifyFail {}).strandState 0 0 = SS.verifyFail := by decide +kernel
theorem witness_flit_boundary :
    (let s := strandIn SS.active { linkTx := [List.replicate 248 0], replay := List.replicate 1535 held }
     isStrand 0 0 = true ∧ (∀ b ∈ (s.strand 0 0).linkTx, b.length = 248) ∧ (s.strand 0 0).resend = none ∧ s.strandState 0 0 = SS.active ∧
       (s.strand 0 0).tx = [] ∧ (s.strand 0 0).cur = [] ∧ (s.strand 0 0).replay.length < 1536) ∧
    (let s := strandIn SS.init {}
     (s.strand 0 0).linkTx = [] ∧ s.strandState 0 0 = SS.init) := by decide +kernel
theorem witness_training :
    (let s := (strandIn SS.detect {}).setF TOP_MSIZE.MODS_M1 0 7
     isStrand 0 0 = true ∧ Say.str s SLU_STR_CTL.LOOP 0 0 = 0 ∧ s.strandState 0 0 = SS.detect ∧ s.peerExists 0 0 = true ∧ (s.strand 0 0).attempt = .full) ∧
    ((strandIn SS.detect { attempt := .fast }).strand 0 0).attempt = .fast ∧ (strandIn SS.eq {}).strandState 0 0 = SS.eq ∧
    (strandIn SS.fecLock {}).strandState 0 0 = SS.fecLock ∧ ((strandIn SS.init { initSeen := true }).strand 0 0).initSeen = true ∧
    ((strandIn SS.ident { far := some farIdent }).strand 0 0).far.isSome ∧ (strandIn SS.cal {}).strandState 0 0 = SS.cal ∧
    (let s := ((strandIn SS.verify { far := some farIdent }).setF RTE_SELF.RACK_VALID 0 1)
     s.strandState 0 0 = SS.verify ∧ (s.strand 0 0).far = some farIdent ∧ s.farGood 0 0 farIdent = true ∧
       s.farGood 0 0 { farIdent with slot := 2 } = false) := by decide +kernel
theorem witness_training_fails :
    (let s : State := { (strandIn SS.eq { fails := 1 }).setF TOP_MSIZE.MODS_M1 0 7 with clock := 14_000_000 }
     isStrand 0 0 = true ∧ s.stageOverrun 0 0 = true ∧ s.strandState 0 0 ≠ SS.swap ∧ (s.strand 0 0).fails < 2 ∧
       (s.setStrand 0 0 { fails := 2 }).stageOverrun 0 0 = true) ∧
    (let s : State := { strandIn SS.swap {} with clock := 1_000_000 }
     s.stageOverrun 0 0 = true ∧ s.strandState 0 0 = SS.swap) ∧
    (let s := (strandIn SS.detect {}).setF TOP_MSIZE.MODS_M1 0 7
     (s.strandState 0 0, 1_000_000) ∈ [(SS.detect, 1_000_000), (SS.eq, 14_000_000)] ∧ Say.str s SLU_STR_CTL.LOOP 0 0 = 0 ∧ s.peerExists 0 0 = true ∧
       s.strandState 0 0 ≠ SS.verify) ∧
    ((strandIn SS.verify {}).strandState 0 0 = SS.verify ∧ Say.str (strandIn SS.verify {}) SLU_STR_CTL.LOOP 0 0 = 0) ∧
    (strandIn SS.down {}).strandState 0 0 = SS.down := by decide +kernel
theorem witness_strand_controls :
    isStrand 0 0 = true ∧ isStrand 0 16 = true ∧ Who.isManager pf.toNat = true ∧ bit (1 : Word) 0 = true ∧ bit (1 : Word) 1 = false ∧
    bit (3 : Word) 1 = true ∧ bit (0 : Word) 0 = false ∧ (ready.setF SLU_STR_CTL.EN 0 0).flag SLU_STR_CTL.EN 0 = false ∧
    (ready.setF SLU_STR_CTL.EN 0 1).flag SLU_STR_CTL.EN 0 = true ∧ bit (5 : Word) 0 = true ∧ bit (5 : Word) 1 = false ∧
    (ready.setF SLU_STR_CTL.EN 0 1).flag SLU_STR_CTL.LOOP 0 ≠ bit (5 : Word) 2 ∧
    (ready.setF SLU_STR_STAT.STATE (strandIx 0 16) SS.active).strandState 0 16 = SS.active := by decide +kernel
theorem witness_sparing :
    (linked ready).strandState 0 0 = SS.active ∧
    (let s := strandIn SS.eq { fails := 1 }
     1 ≤ s.strandState 0 0 ∧ s.strandState 0 0 ≤ 7 ∧ s.strandState 0 0 ≠ SS.detect ∧ (s.strand 0 0).fails < 2) ∧
    (strandIn SS.verifyFail {}).strandState 0 0 = SS.verifyFail ∧
    (let s := strandIn SS.swap { testing := some 3, peerSwap := some 3 }
     s.strandState 0 0 = SS.swap ∧ (s.strand 0 0).testing = some (3 : BitVec 2).toNat ∧ (s.strand 0 0).peerSwap = some (3 : BitVec 2).toNat ∧
       bit ((s.setReg .SLU_SPARE 0 0x80).reg .SLU_SPARE 0) (8 * (laneOf 0 3 / 18) + 7) = true) ∧
    (let s := strandIn SS.swap { testing := some 3 }
     isStrand 0 0 = true ∧ (s.strand 0 0).testing = some (3 : BitVec 2).toNat ∧ bit (s.reg .SLU_SPARE 0) (8 * (laneOf 0 3 / 18) + 7) = false) ∧
    (let s := strandIn SS.swap { initSeen := true }
     s.strandState 0 0 = SS.swap ∧ (s.strand 0 0).testing = none ∧ (s.strand 0 0).initSeen = true) := by decide +kernel

/-! ## Routes and remote operations -/

/-- A state in which module 0 has key slot 0 with job 5's key of generation 0, and accepts it. -/
def keyed : State :=
  let s := ((ready.setF SEC_KSLOT.JOB 0 5).setF SEC_KSLOT.GEN0 0 1).setF RTE_RSET_A.KGEN_RX 0 1
  { s with sec := { s.sec with slots := [(0, {})] } }
/-- The counter that a receiver takes a packet to have. -/
def counterOf (s : State) (p : Packet) : Nat := nearestCtr (SMap.get 0 s.route.gcmRx (Pkt.rxKey p)) (Pkt.ctrLo p)
/-- A packet with the tag that its receiver expects. -/
def tagged (s : State) (p : Packet) : Packet :=
  let ws := aesSchedule (natBytes 32 ((s.packetKey (Pkt.job p) (Pkt.kgen p)).getD 0).toNat)
  { p with tag := gcmTag ws (gcmIv (Pkt.src p) (Pkt.dst p) (counterOf s p)) (Pkt.header p) p.payload }
/-- A state that has noted the counter of a packet. -/
def noted (s : State) (p : Packet) : State :=
  { s with route := { s.route with gcmRx := SMap.put 0 s.route.gcmRx (Pkt.rxKey p) (max (SMap.get 0 s.route.gcmRx (Pkt.rxKey p)) (counterOf s p)) } }
/-- What a packet's receiver asks of it beside its tag. -/
def fits (s : State) (d l type : Nat) (p : Packet) : Bool :=
  isStrand d l && Pkt.type p == type && (Pkt.dst p == s.epn || isGroup (Pkt.dst p)) && Pkt.sane p && (s.strand d l).arrived.isEmpty &&
    (s.outOfAge p).isNone && s.inJob l p && s.modeGood p && (s.packetKey (Pkt.job p) (Pkt.kgen p)).isSome && !((noted s p).fenced p) &&
    !(s.landsLater d l p)

/-- The plaintext of a packet's payload. -/
def plain (s : State) (p : Packet) : List Byte :=
  let ws := aesSchedule (natBytes 32 ((s.packetKey (Pkt.job p) (Pkt.kgen p)).getD 0).toNat)
  gcmCtr ws (gcmIv (Pkt.src p) (Pkt.dst p) (counterOf s p)) 2 (chunksOf 16 (p.payload.length + 1) p.payload)

theorem opens_tagged (s : State) (p : Packet) (h : (s.packetKey (Pkt.job p) (Pkt.kgen p)).isSome = true) :
    s.open? (tagged s p) = (some (plain s p), noted s p) := by
  obtain ⟨k, hk⟩ := Option.isSome_iff_exists.mp h
  have h1 : (tagged s p).tag = gcmTag (aesSchedule (natBytes 32 k.toNat)) (gcmIv (Pkt.src p) (Pkt.dst p) (counterOf s p)) (Pkt.header p) p.payload := by
    simp [tagged, hk]
  have e1 : s.packetKey (Pkt.job (tagged s p)) (Pkt.kgen (tagged s p)) = some k := hk
  have e2 : gcmOpen k (gcmIv (Pkt.src (tagged s p)) (Pkt.dst (tagged s p)) (counterOf s (tagged s p))) (Pkt.header (tagged s p)) (tagged s p).payload
      (tagged s p).tag = some (gcmCtr (aesSchedule (natBytes 32 k.toNat)) (gcmIv (Pkt.src p) (Pkt.dst p) (counterOf s p)) 2
        (chunksOf 16 (p.payload.length + 1) p.payload)) := if_pos h1.symm
  unfold State.open?
  rw [e1]
  unfold counterOf at e2
  simp only [e2]
  simp only [plain, hk, Option.getD_some]
  rfl

theorem accepted_tagged (s : State) (d l type : Nat) (p : Packet) (h : fits s d l type p = true) :
    Say.accepted s d l type (tagged s p) none (plain s p) (noted s p) := by
  simp only [fits, Bool.and_eq_true, Bool.or_eq_true, beq_iff_eq, Option.isNone_iff_eq_none, List.isEmpty_iff, Bool.not_eq_true'] at h
  obtain ⟨⟨⟨⟨⟨⟨⟨⟨⟨⟨h1, h2⟩, h3⟩, h4⟩, h5⟩, h6⟩, h7⟩, h8⟩, h9⟩, h10⟩, h11⟩ := h
  have e : s.landsLater d l (tagged s p) = false := h11
  have turn : s.itsTurn d l (tagged s p) = true := by simp [State.itsTurn, h5, e]
  refine ⟨⟨h1, h2, h3, turn, h4, s, ?_, h6, h7, h8, opens_tagged s p h9⟩, h10⟩
  simp [State.takeArrived, h5]

/-- A packet for module 0 from module 1, of job 5. -/
def packet (type flags lenM1 addr count arg : Nat) (payload : List Byte) : Packet :=
  { w0 := BitVec.ofNat 64 (type + flags * 16 + 5 * 2 ^ 16), w1 := BitVec.ofNat 64 (1 + count * 2 ^ 32),
    w2 := BitVec.ofNat 64 (addr + lenM1 * 2 ^ 42), w3 := BitVec.ofNat 64 (arg * 2 ^ 32), payload := payload, tag := 0 }
def put : Packet := packet PT.put 0x20 0 scr0 0 0 [1, 2, 3, 4]
/-- A SIGNAL that adds 3 to batten 7, and one of an UNORDERED job that is the flow's second command. -/
def signal : Packet := packet PT.signal 0 0 7 0 3 []
def signalUnordered : Packet := packet PT.signal 0x80 0 7 1 3 []
def get : Packet := packet PT.get 0 1 scr0 9 0 [0, 0, 0, 0, 0, 2, 0, 0]
def getRsp : Packet := packet PT.getRsp 0 0 scr0 9 0 [1, 2, 3, 4]
def ack : Packet := packet PT.ack 0 0 0 9 0 []

theorem fits_all : fits keyed 0 0 PT.put put = true ∧ fits keyed 0 0 PT.signal signal = true ∧
    fits (keyed.setF RTE_RSET_A.MODE 0 1) 0 0 PT.signal signalUnordered = true ∧ fits keyed 0 0 PT.get get = true ∧ fits keyed 0 0 PT.getRsp getRsp = true ∧
    fits keyed 0 0 PT.ack ack = true := by decide +kernel

/-- A SIGNAL of value 0 is malformed. -/
theorem test_signal_zero : Pkt.sane (packet PT.signal 0 0 7 1 0 []) = false ∧ Pkt.sane signal = true := by decide +kernel
/-- From slot 7 of its row slot 0 is next: row link 0, and back by row link 6. -/
theorem test_links : rowLink 7 0 = 0 ∧ rowLink 0 7 = 6 ∧ colLink 0 1 = 8 := by decide +kernel
/-- Zero hash subkey case of the GCM specification: empty text under the zero key. -/
theorem test_gcm : (gcmSeal 0 0 [] []).2 = 0x530F_8AFB_C745_36B9_A963_B4F1_C4CB_738B := by decide +kernel

/-- Route set 1 as it stands before it is validated for job 6, whose key is in slot 1. -/
def unset : State := (((keyed.setF SEC_KSLOT.JOB 1 6).setF SEC_KSLOT.GEN0 1 1).setReg .RTE_RACK 32 1)
theorem witness_route_sets :
    let val : Word := 0x1_0006_0011
    let s1 := fun (s : State) => s.setReg .RTE_RSET_A 1 (Reg.written .RTE_RSET_A 0 (s.reg .RTE_RSET_A 1) val 0)
    Who.isManager pf.toNat = true ∧ unset.rsetBound 1 = false ∧ bit val 0 = true ∧ unset.flag RTE_RSET_A.VALID 1 = false ∧
      (s1 unset).slotHolds (field val 32 12) (field val 16 16) (bit val 3) = true ∧ bit val 4 = true ∧
      (s1 unset).slotHolds (field val 32 12) (field val 16 16) false = true ∧ bit val 5 = false ∧
      ((s1 unset).setF RTE_RSET_A.VALID 1 0).rsetCheck 1 = none ∧
      ((s1 (unset.setReg .RTE_RACK 32 0)).setF RTE_RSET_A.VALID 1 0).rsetCheck 1 = some Status.badArg ∧
      (let s := s1 unset
       let set : Word := 0x1_0006_0015
       let s2 := s.setReg .RTE_RSET_A 1 (Reg.written .RTE_RSET_A 0 (s.reg .RTE_RSET_A 1) set 0)
       bit set 0 = true ∧ s.rsetBound 1 = false ∧ s.flag RTE_RSET_A.VALID 1 = true ∧ bit set 2 = true ∧ bit (s.reg .RTE_RSET_A 1) 2 = false ∧
         s2.slotHolds (field set 32 12) (field set 16 16) (bit set 3) = true ∧ bit set 4 = true ∧
         s2.slotHolds (field set 32 12) (field set 16 16) false = true ∧ bit set 5 = false) := by decide +kernel
theorem witness_schedules :
    let val : Word := 0x1_0003
    let s1 := keyed.setReg .RTE_SCHED_A 0 (Reg.written .RTE_SCHED_A 0 ((keyed.setF RTE_SCHED_A.BANK 0 1).reg .RTE_SCHED_A 0) val 0)
    Who.isManager pf.toNat = true ∧ bit val 0 = true ∧ keyed.schedHeld 0 = true ∧ (keyed.setF RTE_SCHED_A.BANK 0 1).schedHeld 0 = false ∧
      s1.schedBad 0 = false ∧ (s1.setF RTE_SCHED_A.STRANDS 0 0).schedBad 0 = true := by decide +kernel
theorem witness_bank_swaps :
    (let s := (ready.setReg .RTE_BANKSW_AT 0 262144).setF GAUGE_STAT.STATE 0 GS.locked
     Who.isManager pf.toNat = true ∧ s.flag RTE_BANKSW.ARM = false ∧ (s.reg .RTE_BANKSW_AT).toNat % 65536 = 0 ∧
       s.time + 262144 ≤ (s.reg .RTE_BANKSW_AT).toNat ∧ s.gstate = GS.locked) ∧
    (let s := (ready.setReg .RTE_BANKSW_AT 0 65536).setF RTE_BANKSW.ARM 0 1
     bit (2 : Word) 0 = false ∧ bit (2 : Word) 1 = true ∧ s.flag RTE_BANKSW.ARM = true ∧ s.time + 65536 ≤ (s.reg .RTE_BANKSW_AT).toNat) ∧
    (let s := ready.setF RTE_BANKSW.ARM 0 1
     s.flag RTE_BANKSW.ARM = true ∧ (s.reg .RTE_BANKSW_AT).toNat ≤ s.time) ∧ ready.flag RTE_BANKSW.ARM = false := by decide +kernel
theorem witness_receive_checks :
    (let bad := { put with w2 := 1 }
     (Pkt.type bad, Instr.putPacket 0 0 bad) ∈ Say.packetRows 0 0 bad ∧ isStrand 0 0 = true ∧ Pkt.dst bad = keyed.epn ∧
       keyed.takeArrived 0 0 bad = (none, keyed) ∧ keyed.itsTurn 0 0 bad = true ∧ Pkt.sane bad = false) ∧
    (let old := { put with w0 := put.w0 ||| BitVec.ofNat 64 (65279 * 2 ^ 40) }
     keyed.itsTurn 0 0 old = true ∧ Pkt.sane old = true ∧ keyed.outOfAge old = some CRS_STALE.COUNT) ∧
    (let new := { put with w0 := put.w0 ||| BitVec.ofNat 64 (2 * 2 ^ 40) }
     keyed.itsTurn 0 0 new = true ∧ Pkt.sane new = true ∧ keyed.outOfAge new = some CRS_FUTURE.COUNT) ∧
    (let far := { put with w1 := 64 }
     keyed.itsTurn 0 0 far = true ∧ Pkt.sane far = true ∧ keyed.outOfAge far = none ∧ keyed.inJob 0 far = false) ∧
    (let s := keyed.setF RTE_RSET_A.MODE 0 1
     s.itsTurn 0 0 put = true ∧ s.outOfAge put = none ∧ s.inJob 0 put = true ∧ s.modeGood put = false) ∧
    (let s := keyed.setF SEC_KSLOT.GEN0 0 0
     s.itsTurn 0 0 put = true ∧ s.outOfAge put = none ∧ s.inJob 0 put = true ∧ s.modeGood put = true ∧ s.open? put = (none, s)) := by decide +kernel
/-- A PUT and a SIGNAL that have arrived on one VL, in this order; a PUT of an ORDERED job whose earlier write has not landed. -/
theorem witness_turns :
    (let s := keyed.setStrand 0 0 { arrived := [(0, put), (0, signal)] }
     (Pkt.type signal, Instr.signalPacket 0 0 signal) ∈ Say.packetRows 0 0 signal ∧ isStrand 0 0 = true ∧
       (s.strand 0 0).arrived.findIdx? (fun e => e.2 == signal) = some 1 ∧ (s.strand 0 0).arrived[1]? = some (0, signal) ∧
       (s.strand 0 0).arrived[0]? = some (0, put) ∧ s.arriving 0 0 signal = none) ∧
    (let p := { put with w1 := 1 + 1 * 2 ^ 32 }
     (Pkt.type p, Instr.putPacket 0 0 p) ∈ Say.packetRows 0 0 p ∧ Pkt.type p = PT.put ∧ Pkt.mode p = false ∧ Pkt.dst p = keyed.epn ∧
       Pkt.sane p = true ∧ keyed.outOfAge p = none ∧ keyed.inJob 0 p = true ∧ keyed.modeGood p = true ∧ keyed.fenced p = false ∧
       keyed.earlierLanded p = false) := by decide +kernel
/-- A state whose job 5 takes nothing because of an abort. -/
def fencing : State := { keyed with rst := { keyed.rst with aborts := [(5, fenceWindow)] } }
theorem witness_fence : fencing.open? (tagged fencing put) = (some (plain fencing put), noted fencing put) ∧ fencing.modeGood put = true ∧
    (noted fencing put).fenced put = true ∧ fencing.itsTurn 0 0 put = true :=
  ⟨opens_tagged _ _ (by decide +kernel), by decide +kernel⟩
theorem witness_put : Say.accepted keyed 0 0 PT.put (tagged keyed put) none (plain keyed put) (noted keyed put) ∧
    (noted keyed put).jobRange (Pkt.job put) (Pkt.addr put) (Pkt.len put) = true ∧ Pkt.rsig put = false ∧ Pkt.mode put = false ∧
    (let p := { put with w2 := 0x0380_0000_0000 }
     fits keyed 0 0 PT.put p = true ∧ (noted keyed p).jobRange (Pkt.job p) (Pkt.addr p) (Pkt.len p) = false) :=
  ⟨accepted_tagged _ _ _ _ _ fits_all.1, by decide +kernel⟩
theorem witness_signal : Say.accepted keyed 0 0 PT.signal (tagged keyed signal) none (plain keyed signal) (noted keyed signal) ∧
    (noted keyed signal).jobBatten (Pkt.job signal) (Pkt.addr signal % 65536) = true ∧ Pkt.mode signal = false ∧
    (let p := { signal with w2 := 0x1000 }
     fits keyed 0 0 PT.signal p = true ∧ (noted keyed p).jobBatten (Pkt.job p) (Pkt.addr p % 65536) = false) :=
  ⟨accepted_tagged _ _ _ _ _ fits_all.2.1, by decide +kernel⟩
theorem witness_held_writes :
    (let s := keyed.setF RTE_RSET_A.MODE 0 1
     Say.accepted s 0 0 PT.signal (tagged s signalUnordered) none (plain s signalUnordered) (noted s signalUnordered) ∧
       (noted s signalUnordered).jobBatten (Pkt.job signalUnordered) 7 = true ∧ Pkt.mode signalUnordered = true ∧
       (noted s signalUnordered).earlierLanded signalUnordered = false) ∧
    (let h : HeldPkt := ⟨0, 0, none, { signalUnordered with w1 := 1 }, false⟩
     let g : HeldPkt := ⟨0, 0, none, { put with w0 := put.w0 ||| 0x810 }, false⟩
     let s : State := { keyed with route := { keyed.route with holds := [h, g] } }
     s.route.holds[0]? = some h ∧ s.earlierLanded h.pkt = true ∧ Pkt.type h.pkt = PT.signal ∧ s.jobBatten (Pkt.job h.pkt) 7 = true ∧
       s.route.holds[1]? = some g ∧ s.earlierLanded g.pkt = true ∧ Pkt.type g.pkt ≠ PT.signal ∧ s.outOfAge h.pkt ≠ some CRS_STALE.COUNT ∧
       s.outOfAge { h.pkt with w0 := BitVec.ofNat 64 (65279 * 2 ^ 40) } = some CRS_STALE.COUNT) :=
  ⟨⟨accepted_tagged _ _ _ _ _ fits_all.2.2.1, by decide +kernel⟩, by decide +kernel⟩
theorem witness_gets : Say.accepted keyed 0 0 PT.get (tagged keyed get) none (plain keyed get) (noted keyed get) ∧
    (noted keyed get).jobRange (Pkt.job get) (Pkt.addr get) (Pkt.len get) = true ∧
    (let p := { get with w2 := 0x0380_0000_0000 }
     fits keyed 0 0 PT.get p = true ∧ (noted keyed p).jobRange (Pkt.job p) (Pkt.addr p) (Pkt.len p) = false) :=
  ⟨accepted_tagged _ _ _ _ _ fits_all.2.2.2.1, by decide +kernel⟩
/-- A state that awaits the answer to a GET of 4 bytes and to a PUT. -/
def awaiting : State :=
  { keyed with route := { keyed.route with gets := [⟨9, 0, 9, scr0, 4, 5, 0, 0, 1, 0⟩], src := [(Pkt.flow ack, { unacked := [⟨9, 0, 9, 0, 0⟩] })] } }
theorem fits_awaiting : fits awaiting 0 0 PT.getRsp getRsp = true ∧ fits awaiting 0 0 PT.ack ack = true := by decide +kernel
theorem witness_answers :
    (Say.accepted awaiting 0 0 PT.getRsp (tagged awaiting getRsp) none (plain awaiting getRsp) (noted awaiting getRsp) ∧
      Say.accepted awaiting 0 0 PT.ack (tagged awaiting ack) none (plain awaiting ack) (noted awaiting ack)) ∧
    (∃ g, awaiting.route.gets.find? (fun g => g.tag == Pkt.count getRsp && g.job == Pkt.job getRsp && g.peer == Pkt.src getRsp) = some g ∧
      Pkt.gen getRsp = awaiting.gen g.part) ∧
    (∃ u, (awaiting.srcFlow (Pkt.flow ack)).unacked.find? (fun u => u.count == Pkt.count ack) = some u ∧ Pkt.gen ack = awaiting.gen u.part) ∧
    (Pkt.arg getRsp = Status.ok ∧ Pkt.arg ack = Status.ok ∧
      (noted awaiting getRsp).jobRange (Pkt.job getRsp) (Pkt.addr getRsp) (Pkt.len getRsp) = true ∧
      keyed.route.gets.find? (fun g => g.tag == Pkt.count getRsp && g.job == Pkt.job getRsp && g.peer == Pkt.src getRsp) = none ∧
      (keyed.srcFlow (Pkt.flow ack)).unacked.find? (fun u => u.count == Pkt.count ack) = none) :=
  ⟨⟨accepted_tagged _ _ _ _ _ fits_awaiting.1, accepted_tagged _ _ _ _ _ fits_awaiting.2⟩, ⟨⟨9, 0, 9, scr0, 4, 5, 0, 0, 1, 0⟩, by decide +kernel⟩,
    ⟨⟨9, 0, 9, 0, 0⟩, by decide +kernel⟩, by decide +kernel⟩
/-- The header of a PUT to module 2 has arrived on link 0, and its payload has not. -/
theorem witness_cut_through :
    let p := { put with w1 := 0x2_0001, payload := List.replicate (Pkt.payloadLen put) 0 }
    let s := (keyed.setF SLU_STR_STAT.STATE (strandIx 0 1) SS.active).setStrand 0 0 { rx := [(6, (Pkt.toBytes p).take 32)] }
    isStrand 0 0 = true ∧ Pkt.dst p ≠ s.epn ∧ isGroup (Pkt.dst p) = false ∧ Pkt.sane p = true ∧ s.takeArrived 0 0 p = (none, s) ∧
      s.outOfAge p = none ∧ s.inJob 0 p = true ∧ s.arriving 0 0 p = some (6, Pkt.payloadLen put + 16) ∧ (s.headFails 0 0 p).isNone = true ∧
      s.wayOn p = some (0, 1) ∧ Pkt.cls p ≠ 1 ∧ 0 ∈ s.activeDies 1 := by decide +kernel
theorem witness_forwarding :
    let p := { put with w1 := 0x2_0001 }
    let q := { put with w1 := 0x40_0001 }
    let s := keyed.setF SLU_STR_STAT.STATE (strandIx 0 1) SS.active
    let u := keyed.setReg .RTE_RACK 0 0x103
    isStrand 0 0 = true ∧ Pkt.dst p ≠ s.epn ∧ isGroup (Pkt.dst p) = false ∧ Pkt.sane p = true ∧ s.takeArrived 0 0 p = (none, s) ∧ s.outOfAge p = none ∧
      s.inJob 0 p = true ∧ s.rsetOf (Pkt.job p) = some 0 ∧ s.forwardLink 0 (Pkt.dst p) = some 1 ∧ s.linkState 1 ≠ 2 ∧ s.inSlice 0 (s.peerOf 1) = true ∧
      Pkt.cls p ≠ 1 ∧ 0 ∈ s.activeDies 1 ∧ Pkt.dst q ≠ u.epn ∧ isGroup (Pkt.dst q) = false ∧ u.inJob 0 q = true ∧ u.forwardLink 0 (Pkt.dst q) = none ∧
      s.arriving 0 0 p = none ∧ s.itsTurn 0 0 p = true ∧ u.arriving 0 0 q = none ∧ u.itsTurn 0 0 q = true := by
  decide +kernel
/-- An LSTATE of module 1 that its link 3 is DOWN. -/
def lstate : Packet := { w0 := BitVec.ofNat 64 PT.lstate, w1 := 1, w2 := 0, w3 := BitVec.ofNat 64 (0x203 * 2 ^ 32), payload := [], tag := 0 }
theorem witness_link_states :
    Say.accepted keyed 0 0 PT.lstate (tagged keyed lstate) none (plain keyed lstate) (noted keyed lstate) ∧
    (let s : State := { linked keyed with route := { keyed.route with lstateDue := [(0, 7)] } }
     (∀ k, SMap.get 0 s.route.gcmTx k < 2 ^ 62) ∧ SMap.find? s.route.lstateDue 0 = some 7 ∧ s.flag SEC_STATE.FABRIC_KEY = false ∧ isLink 0 = true ∧
       s.linkUp 0 = true) :=
  ⟨accepted_tagged _ _ _ _ _ (by decide +kernel), fun _ => (by decide : (0 : Nat) < 2 ^ 62), by decide +kernel⟩

/-! ## Collectives -/

/-- Slot 3 in a state: a collective over modules 0 and 1 of the row, whose root is the module in slot `root`, of 256 bytes in one yelm. -/
def slotIn (op root st : Nat) : State :=
  (((((((((((keyed.setF COL_GRP_A.VALID 0 1).setF COL_GRP_A.HI 0 1).setF COL_GRP_A.ROOT 0 root).setF COL_TRG.OP 3 op).setF COL_TRG.DTYPE 3 DT.fp32).setF
    COL_TRG.YELM_LOG2 3 9).setF COL_TRG.BYTES 3 256).setF COL_TRG.SRC 3 scr0).setF COL_TRG.DST 3 (scr0 + 512)).setF COL_TRG_STAT.STATE 3 st))
/-- The kept part of slot 3. -/
def kept (s : State) (x : SlotSt) : State := s.setSlot 3 x
/-- A collective packet of module 1 for slot 3 at a byte offset in units of 256. -/
def collective (type off count arg : Nat) (payload : List Byte) : Packet := packet type 0 0 (12 + off * 2 ^ 18) count arg payload
def control (kind : Nat) : Packet := collective PT.cctl 0 0 (256 * kind) []
/-- The identity of a packet suits slot 3. -/
def names (u : State) (p : Packet) : Bool :=
  u.slotJob (Pkt.slot p) == Pkt.job p && u.roleTakes (Pkt.slot p) p && Pkt.inst p == u.getF COL_TRG_STAT.INST (Pkt.slot p) &&
    decide (Pkt.src p ∈ u.peersIn (u.grpOf (Pkt.slot p))) && Pkt.gen p == u.slotGen (Pkt.slot p)
theorem taken_tagged (s : State) (d l type : Nat) (p : Packet) (h : fits s d l type p = true) (g : names (noted s p) p = true) :
    Say.collTaken s d l type (tagged s p) none (plain s p) (noted s p) := by
  simp only [names, Bool.and_eq_true, beq_iff_eq, decide_eq_true_eq] at g
  exact ⟨noted s p, accepted_tagged s d l type p h, rfl, g.1.1.1.1, g.1.1.1.2, g.1.1.2, g.1.2, g.2⟩
/-- Yelm 0 of module 1, whose 256 bytes have come and are zero; the check value of 256 zeros. -/
def whole : YelmIn := { src := 1, yelm := 0, parts := [(0, List.replicate 256 0)] }

/-- CRC-32C's check value over "123456789". -/
theorem test_crc32c : crc32c ((upFrom 0x31 9).map (BitVec.ofNat 8)) = 0xE306_9283 := by decide +kernel
/-- Rank order matters: 1 + 2^24 rounds, so the sum of three is that of the first two, rounded, and the third. -/
theorem test_ordered : combineOrdered Fmt.fp32 4 [leBytes 4 0x4B80_0000, leBytes 4 0x3F80_0000, leBytes 4 0x3F80_0000] = leBytes 4 0x4B80_0000 ∧
    combineOrdered Fmt.fp32 4 [leBytes 4 0x3F80_0000, leBytes 4 0x3F80_0000, leBytes 4 0x4B80_0000] = leBytes 4 0x4B80_0001 := by decide +kernel
/-- Arming a slot that names no valid group fails with BAD_ARG. -/
theorem test_arm_bad : (after (.triggerArm pf 3 8) ((slotIn 2 0 TS.idle).setF COL_GRP_A.VALID 0 0)).getF COL_TRG_STAT.STATUS 3 = Status.badArg := by
  decide +kernel
theorem witness_groups :
    let val : Word := 0x801
    let s1 := ready.setReg .COL_GRP_A 0 (Reg.written .COL_GRP_A 0 (ready.reg .COL_GRP_A 0) val 0)
    Who.isManager pf.toNat = true ∧ bit val 0 = true ∧ ready.flag COL_GRP_A.VALID 0 = false ∧ ready.groupBusy 0 = false ∧ s1.groupGood 0 = true ∧
      (s1.setF COL_GRP_A.ROOT 0 2).groupGood 0 = false ∧ ((slotIn 1 0 TS.armed).setF COL_GRP_A.VALID 0 0).groupBusy 0 = true := by decide +kernel
theorem witness_arm :
    (let s := slotIn 2 0 TS.idle
     bit (8 : Word) 3 = true ∧ bit (8 : Word) 4 = false ∧ s.armCheck 3 = none ∧ s.flag COL_TRG.TRIG_EN 3 = false ∧
       (s.setF COL_TRG.TRIG_EN 3 1).armCheck 3 = none ∧ (s.setF COL_TRG.TRIG_EN 3 1).flag COL_TRG.TRIG_EN 3 = true ∧ s.task.watches.length < 2048 ∧
       (s.setF COL_TRG.BYTES 3 6).armCheck 3 = some Status.badArg) ∧
    bit (16 : Word) 4 = true ∧ bit (16 : Word) 3 = false ∧ (slotIn 2 0 TS.armed).trgState 3 = TS.armed ∧ (slotIn 2 0 TS.armed).launchTime 3 = false ∧
    (slotIn 2 0 TS.handshake).trgState 3 = TS.handshake ∧ (slotIn 2 0 TS.launched).trgState 3 = TS.launched ∧
    (let s := kept (slotIn 2 1 TS.handshake) { holds := some 0 }
     s.launchTime 3 = true ∧ s.gauge.stopped = false ∧ s.trgState 3 = TS.handshake) := by decide +kernel
theorem witness_trigger :
    let m : Met := ⟨⟨.trigger 3, 7, 1, 0⟩, 1, 0⟩
    let s0 := slotIn 2 0 TS.armed
    let s : State := { s0 with task := { s0.task with met := [m] } }
    s.task.met[0]? = some m ∧ m.watch.who = .trigger 3 ∧ s.trgState 3 = TS.armed := by decide +kernel
theorem witness_grant : let s := slotIn 2 1 TS.handshake
    Say.collTaken s 0 0 PT.cctl (tagged s (control Ctl.grant)) none (plain s (control Ctl.grant)) (noted s (control Ctl.grant)) ∧
      Pkt.arg (control Ctl.grant) / 256 = Ctl.grant ∧ s.trgState 3 = TS.handshake ∧ s.isBcast 3 = false :=
  ⟨taken_tagged _ _ _ _ _ (by decide +kernel) (by decide +kernel), by decide +kernel⟩
theorem witness_ready : let s := slotIn 1 0 TS.handshake
    Say.collTaken s 0 0 PT.cctl (tagged s (control Ctl.ready)) none (plain s (control Ctl.ready)) (noted s (control Ctl.ready)) ∧
      Pkt.arg (control Ctl.ready) / 256 = Ctl.ready ∧ s.trgState 3 = TS.handshake ∧ s.isBcast 3 = true ∧ s.isRoot 3 = true ∧ s.peersIn (s.grpOf 3) = [1] :=
  ⟨taken_tagged _ _ _ _ _ (by decide +kernel) (by decide +kernel), by decide +kernel⟩
theorem witness_done : let s := slotIn 1 0 TS.launched
    Say.collTaken s 0 0 PT.cctl (tagged s (control Ctl.done)) none (plain s (control Ctl.done)) (noted s (control Ctl.done)) ∧
      Pkt.arg (control Ctl.done) / 256 = Ctl.done :=
  ⟨taken_tagged _ _ _ _ _ (by decide +kernel) (by decide +kernel), by decide +kernel⟩
theorem witness_yack : let s := slotIn 2 1 TS.launched
    Say.collTaken s 0 0 PT.cctl (tagged s (control Ctl.yack)) none (plain s (control Ctl.yack)) (noted s (control Ctl.yack)) ∧
      Pkt.arg (control Ctl.yack) / 256 = Ctl.yack :=
  ⟨taken_tagged _ _ _ _ _ (by decide +kernel) (by decide +kernel), by decide +kernel⟩
theorem witness_reserve : let s := slotIn 2 0 TS.handshake
    s.trgState 3 = TS.handshake ∧ s.isReduce 3 = true ∧ s.isRoot 3 = true ∧ s.isBcast 3 = false ∧ (s.slot 3).reserved = 0 ∧
      s.junctionUsed + (s.members (s.grpOf 3)).length * 8 * s.yelmSize 3 ≤ 16777216 ∧
      (let u := s.setSlot 4 { reserved := 16777216 - 8191 }
       16777216 < u.junctionUsed + (u.members (u.grpOf 3)).length * 8 * u.yelmSize 3) := by decide +kernel
theorem witness_launch : let s := kept (slotIn 2 1 TS.handshake) { holds := some 0 }
    s.launchDue 3 = true ∧ (∀ e ∈ s.coll.slots, 3 ≤ e.1 ∨ s.launchDue e.1 = false) ∧ s.isBcast 3 = false ∧ s.isRoot 3 = false ∧ (s.slot 3).sent = [] ∧
      0 < s.yelms 3 ∧ (kept s { holds := some 1 }).launchDue 3 = false := by decide +kernel
/-- A yelm that is not whole: 4 of its 256 bytes. -/
theorem witness_broadcast : let s := slotIn 1 1 TS.launched
    let p := collective PT.cbcast 0 0 0 [1, 2, 3, 4]
    let v : YelmIn := { src := 1, yelm := 0, parts := [(0, plain s p)] }
    Say.collTaken s 0 0 PT.cbcast (tagged s p) none (plain s p) (noted s p) ∧
      (((noted s p).storeYelm 3 0 (tagged s p) (plain s p)).slot 3).inputs = [v] ∧ v.bytes.length < (noted s p).yelmLen 3 0 ∧
      0 < (noted s p).yelms 3 ∧ SMap.get false ((noted s p).slot 3).landed 0 = false :=
  ⟨taken_tagged _ _ _ _ _ (by decide +kernel) (by decide +kernel), rfl, by decide +kernel⟩
/-- The last packet of a yelm whose first 256 bytes, those that count, have come; the check value of 256 zeros is 0xb872b190. -/
def lastOf (type count : Nat) : Packet := collective type 1 count 0 [1, 2, 3, 4]
def wholeWith (s : State) (p : Packet) : YelmIn :=
  { whole with parts := SMap.insert whole.parts (Pkt.off p) (plain s p), crc := Pkt.count p, tag := Pkt.arg p, poison := Pkt.poison p }
/-- Its state: the slot in `st` with root `root`, the first part in. -/
def half (op root st : Nat) : State := kept (slotIn op root st) { inputs := [whole] }
theorem store_half (s u : State) (p : Packet) (h : u.slot 3 = { inputs := [whole] }) (hp : Pkt.src p = 1) :
    ((u.storeYelm 3 0 (tagged s p) (plain s p)).slot 3).inputs = [wholeWith s p] := by
  have e : ∀ (t : State) (x : SlotSt), (t.setSlot 3 x).slot 3 = x := fun t x => SMap.get_put_same _ _ _ _
  have e1 : Pkt.src (tagged s p) = 1 := hp
  have e2 : Pkt.off (tagged s p) = Pkt.off p := rfl
  have e3 : Pkt.count (tagged s p) = Pkt.count p := rfl
  have e4 : Pkt.arg (tagged s p) = Pkt.arg p := rfl
  have e5 : Pkt.poison (tagged s p) = Pkt.poison p := rfl
  simp [State.storeYelm, e, h, e1, e2, e3, e4, e5, whole, wholeWith]
theorem whole_long (s : State) (p : Packet) (h : Pkt.off p = 256) : 256 ≤ (wholeWith s p).bytes.length := by
  simp [wholeWith, whole, YelmIn.bytes, h, SMap.insert]
/-- A packet of a broadcast that no slot is armed for, and one of an earlier generation of the partition. -/
theorem witness_strays :
    (let s := slotIn 1 1 TS.idle
     let p := collective PT.cbcast 0 0 0 [1, 2, 3, 4]
     let u := (noted s p).consume none 0 0 (tagged s p)
     (PT.cbcast, Instr.cbcast 0 0 (tagged s p)) ∈ [(PT.cbcast, Instr.cbcast 0 0 (tagged s p))] ∧
       Say.accepted s 0 0 PT.cbcast (tagged s p) none (plain s p) (noted s p) ∧ u.roleTakes (Pkt.slot p) p = false) ∧
    (let s := slotIn 1 1 TS.launched
     let p := { collective PT.cbcast 0 0 0 [1, 2, 3, 4] with w0 := BitVec.ofNat 64 (PT.cbcast + 5 * 2 ^ 16 + 1 * 2 ^ 32) }
     let u := (noted s p).consume none 0 0 (tagged s p)
     Say.accepted s 0 0 PT.cbcast (tagged s p) none (plain s p) (noted s p) ∧
       (u.slotJob (Pkt.slot p) = Pkt.job p ∧ u.roleTakes (Pkt.slot p) p = true ∧ Pkt.inst p = u.getF COL_TRG_STAT.INST (Pkt.slot p) ∧
         Pkt.src p ∈ u.peersIn (u.grpOf (Pkt.slot p))) ∧ Pkt.gen p ≠ u.slotGen (Pkt.slot p)) :=
  ⟨⟨by simp, accepted_tagged _ _ _ _ _ (by decide +kernel), by decide +kernel⟩, accepted_tagged _ _ _ _ _ (by decide +kernel), by decide +kernel⟩
theorem witness_broadcast_whole : let s := half 1 1 TS.launched
    let p := lastOf PT.cbcast 3094524304
    Say.collTaken s 0 0 PT.cbcast (tagged s p) none (plain s p) (noted s p) ∧
      (((noted s p).storeYelm 3 0 (tagged s p) (plain s p)).slot 3).inputs = [wholeWith s p] ∧
      ((noted s p).yelmLen 3 0 = 256 ∧ 256 ≤ (wholeWith s p).bytes.length) ∧ (noted s p).yelmGood 3 (wholeWith s p) = true ∧
      (noted s p).yelmGood 3 (wholeWith s (lastOf PT.cbcast 0)) = false ∧ SMap.get 0 ((noted s p).slot 3).fails (1 * 65536 + 0) < 2 :=
  ⟨taken_tagged _ _ _ _ _ (by decide +kernel) (by decide +kernel), store_half _ _ _ (by decide +kernel) rfl, ⟨by decide +kernel, whole_long _ _ rfl⟩, by decide +kernel⟩
theorem witness_contributions : let s := half 2 0 TS.launched
    let p := lastOf PT.creduce 3094524304
    let g := (noted s p).setSlot 3 { inputs := [{ wholeWith s p with good := true }] }
    Say.collTaken s 0 0 PT.creduce (tagged s p) none (plain s p) (noted s p) ∧
      (((noted s p).storeYelm 3 0 (tagged s p) (plain s p)).slot 3).inputs = [wholeWith s p] ∧
      ((noted s p).yelmLen 3 0 = 256 ∧ 256 ≤ (wholeWith s p).bytes.length) ∧ (noted s p).yelmGood 3 (wholeWith s p) = true ∧
        (noted s p).trgState 3 = TS.launched ∧
      g.yelmReady 3 0 = true ∧
      (let r := g.noteYelm 3 0
       (r.combined 3 0).2.yelmCrc 3 (flipByte (r.combined 3 0).1.1 0 1, (r.combined 3 0).1.2) ≠ (r.combined 3 0).2.yelmCrc 3 (r.combined 3 0).1) :=
  ⟨taken_tagged _ _ _ _ _ (by decide +kernel) (by decide +kernel), store_half _ _ _ (by decide +kernel) rfl, ⟨by decide +kernel, whole_long _ _ rfl⟩, by decide +kernel⟩
theorem witness_resend : let s := slotIn 1 0 TS.launched
    let p := collective PT.cnak 0 0 Status.integrity []
    Say.collTaken s 0 0 PT.cnak (tagged s p) none (plain s p) (noted s p) :=
  taken_tagged _ _ _ _ _ (by decide +kernel) (by decide +kernel)
theorem witness_slot_ends :
    (let s := kept (slotIn 2 0 TS.launched) { landed := [(0, true)] }
     s.slotComplete 3 = true ∧ s.flag COL_TRG.CHAIN 3 = false ∧ s.flag COL_TRG.DONE_EN 3 = false ∧ (s.setF COL_TRG.DONE_EN 3 1).slotComplete 3 = true ∧
       s.flag COL_TRG.REARM 3 = false ∧ (s.setF COL_TRG.REARM 3 1).slotComplete 3 = true) ∧
    (let s := kept (slotIn 2 0 TS.handshake) { courses := 1024 }
     s.trgState 3 = TS.handshake ∧ s.collLimit 3 ≤ (s.slot 3).courses ∧ s.slotComplete 3 = false) := by decide +kernel

/-! ## Host ports -/

/-- PF0 owns partition 0, and its aperture begins at core 0's scratch. -/
def hosted : State := (ready.setF HIF_POWN.OWNER 0 0x401).setF HIF_FN_A.APBASE_GIB 0x401 2048
/-- Channel 2 is PF0's, with a request of these words before it; the words of a descriptor that copies 64 bytes to scratch. -/
def request (ws : List Nat) : MbxReq := { words := ws.map (BitVec.ofNat 32), sent := 0, expired := false }
def asking (ws : List Nat) (s : State) : State := (s.setF MBX_BIND.IDENT 2 0x401).setChan 2 { requests := [request ws] }
def copyWords (dir : Nat) : List Word := [BitVec.ofNat 64 (dir + 16 + 7 * 2 ^ 16), 0x1000, BitVec.ofNat 64 scr0, 64, 0, 0, 0, 0]

/-- SEND leaves LAST OK; a fourth waiting message makes the fifth BUSY. -/
theorem test_send_busy :
    let s := (hosted.setF MBX_BIND.IDENT 2 0x401).setChan 2 { requests := List.replicate 4 (request [1]) }
    (after (.mbxSend pf 2) s).getF MBX_STAT.LAST 2 = Status.busy ∧ (after (.mbxSend pf 2) (s.setChan 2 {})).getF MBX_STAT.LAST 2 = Status.ok := by
  decide +kernel
/-- The response's header: opcode and tag of the request, the count of words, STATUS in the top byte. -/
theorem test_response : (request [0x0001_2A02]).response Status.ok [5] = ([0x0001_2A02, 5] ++ List.replicate 14 0).map (BitVec.ofNat 32) := by decide +kernel
theorem test_read_through_aperture :
    (after (.apertureRead 0x401 4 2) (hosted.setBytes (scr0 + 4) [7, 8])).out.getLast? = some (.completion 0x401 (some [7, 8]) false) := by decide +kernel
theorem witness_apertures : Who.isFn 0x401 = true ∧ hosted.fnAccepts 0x401 = true ∧ 4 + 8191 ≤ hosted.apertureSize 0x401 ∧
    hosted.fnRange 0x401 (hosted.apAddr 0x401 4) 2 = true ∧ (ready.setF HIF_FN_A.APBASE_GIB 0x401 3584).fnRange 0x401 (3584 * 2 ^ 30 + 4) 2 = false := by
  decide +kernel
theorem witness_function_in_error : let s := ready.setF SEC_TDI.STATE 0 3
    Who.isVF 1 = true ∧ s.fnExists 1 = true ∧ s.tdi 1 = 3 ∧ 4 + 8191 ≤ s.apertureSize 1 := by decide +kernel
theorem witness_owners : mayFn pf.toNat 1 = true ∧ ready.tdiHeld 1 = false ∧ 8 * 2 ^ 30 % ready.apertureSize 1 = 0 ∧ 6 * 2 ^ 30 % ready.apertureSize 1 ≠ 0 ∧
    Who.isPF pf.toNat = true ∧ heldBy pf.toNat (ready.owner 1) = true ∧ heldBy pf.toNat 1 = true ∧ ready.tdiHeld (ready.owner 1) = false ∧
    ready.bound 1 = false ∧ (∀ q < 16, q ≠ 1 → ready.slatesOf q &&& 0xFFFE = 0) ∧ ready.bound 0 = true ∧ ready.host.pown = [] ∧
    (let s : State := { ready with pending := [.partitionOwnerWrite pf 0 0x1_0401] }
     Who.pf1 = (0x402 : Ident).toNat ∧ Who.pf0 = pf.toNat ∧ s.pending.any (pf0Pown (0 : BitVec 4).toNat) = true ∧
       s.pending.any (pf0Pown (1 : BitVec 4).toNat) = false) := by decide +kernel
theorem witness_copies :
    (hosted.getF HIF_FN_B.CFREE 0x401 ≠ 0 ∧ (hosted.setF HIF_FN_B.CFREE 0x401 0).getF HIF_FN_B.CFREE 0x401 = 0 ∧ hosted.fnAccepts 0x401 = true) ∧
    (let s := hosted.setCopies 0x401 { queue := [copyWords 0] }
     (s.copies 0x401).queue = [copyWords 0] ∧ (s.copies 0x401).running = none ∧ s.copyCheck 0x401 (copyWords 0) = none ∧
       dword (copyWords 0) 0 0 1 = 0 ∧ (([(List.replicate 64 0, false)] : List (List Byte × Bool)).map fun t => t.1.length).sum = dword (copyWords 0) 3 0 32 ∧
       s.copyCheck 0x401 (copyWords 1) = none ∧ dword (copyWords 1) 0 0 1 = 1 ∧ s.copyCheck 0x401 [2, 0, 0, 64] = some Status.badArg) ∧
    (let r : CopyRun := ⟨copyWords 0, Status.ok, [⟨scr0, [1], false⟩]⟩
     ((hosted.setCopies 0x401 { running := some r }).copies 0x401).running = some r) := by decide +kernel
theorem witness_function_resets : ready.fnExists 0x401 = true ∧ 1 ∈ family (Who.port 0x401) ∧ 0x401 ∈ family 0 ∧ Who.isFn 1 = true ∧
    (ready.setF MBX_BIND.IDENT 2 1).chanIdent 2 = 1 ∧ Who.isVF 1 = true ∧ ready.fnExists 1 = true ∧ (ready.setF HIF_POWN.OWNER 3 1).owner 3 = 1 := by
  decide +kernel
theorem witness_merged : let s : State := { (ready.setVector 1 5 { last := some 0, merged := true }).setF HIF_FN_B.IMOD_US 1 20 with clock := 20000 }
    (s.vector 1 5).last = some 0 ∧ (s.vector 1 5).merged = true ∧ 0 + 1000 * s.getF HIF_FN_B.IMOD_US 1 ≤ s.clock ∧
      (s.setVector 1 5 { last := some 0, merged := true, masked := false }).masked 1 5 = false ∧ s.masked 1 5 = true ∧
      (let u := ready.setVector 1 5 { pending := true, masked := false }
       (u.vector 1 5).pending = true ∧ u.masked 1 5 = false ∧ (u.vector 1 5).last = none) := by decide +kernel
/-- A PF's requests: a word of control space, HIF_FN_C in its page, doorbells, a narrow write, a mailbox window, a vector's mask, a larger BAR2. -/
theorem witness_host_pages :
    let s : State := { hosted with host := { hosted.host with reqs := [.read 0x401 0 0x204 4] } }
    let off := 0x6000040 + 0x1000 * 2
    s.pending = [] ∧ s.store.faults = [] ∧ s.host.reqs = .read 0x401 0 0x204 4 :: [] ∧ Who.isFn 0x401 = true ∧ s.fnAccepts 0x401 = true ∧
      Who.isPF 0x401 = true ∧ (0x204 < 0x6000000 ∨ 0x6040000 ≤ 0x204) ∧ (Reg.find (0x204 - 0x204 % 8)).isSome = true ∧ 0x814 - 0x814 % 8 = 0x810 ∧
      (List.replicate 8 (0 : Byte)).length = 8 ∧ (0x7FC < 0x800 ∧ 0x7FC ≠ 0x40 ∧ 0x7FC ≠ 0) ∧ off = 0x6002040 ∧
      (s.setF MBX_BIND.IDENT 2 0x401).mayChan 0x401 2 = true ∧ s.mayChan 0x401 2 = false ∧ 2047 < vectorsOf 0x401 ∧ 15 < vectorsOf 1 ∧
      (List.replicate 4 (0 : Byte)).length = 4 ∧ Who.pf0 = 0x401 ∧ 4 ≤ 4 := by decide +kernel
theorem witness_channels :
    let s := hosted.setF MBX_BIND.IDENT 2 0x401
    (heldBy pf.toNat (hosted.chanIdent 2) = true ∧ heldBy pf.toNat 1 = true ∧ hosted.tdiHeld (hosted.chanIdent 2) = false ∧ hosted.tdiHeld 1 = false ∧
      (hosted.chan 2).reqFill = 0 ∧ (hosted.chan 2).responses = [] ∧ hosted.flag MBX_LOCK.HELD 2 = false ∧
      ((upFrom 0 64).filter fun d => d != 2 && hosted.chanIdent d == 1).length < 4) ∧
    s.mayChan pf.toNat 2 = true ∧ (s.chan 2).full = false ∧ (s.setChan 2 { requests := List.replicate 4 (request [1]) }).mayChan pf.toNat 2 = true ∧
      ((s.setChan 2 { requests := List.replicate 4 (request [1]) }).chan 2).full = true ∧ ((s.setChan 2 { responses := [[1]] }).chan 2).responses = [[1]] ∧
      hosted.mayChan pf.toNat 2 = false := by decide +kernel
theorem witness_locks : let s := hosted.setF MBX_BIND.IDENT 2 0x401
    let t := (s.setF MBX_LOCK.HELD 2 1).setF MBX_LOCK.TOKEN 2 9
    s.mayChan pf.toNat 2 = true ∧ s.flag MBX_LOCK.HELD 2 = false ∧ t.mayChan pf.toNat 2 = true ∧ t.flag MBX_LOCK.HELD 2 = true ∧
      t.getF MBX_LOCK.TOKEN 2 = (9 : BitVec 16).toNat ∧ t.getF MBX_LOCK.TOKEN 2 ≠ (8 : BitVec 16).toNat := by decide +kernel
theorem witness_answered :
    (let s : State := { asking [0x01] hosted with clock := 10_000_000 }
     (s.chan 2).requests = [request [0x01]] ∧ (request [0x01]).expired = false ∧ s.getF MBX_TMO.MS 2 = 10 ∧ (request [0x01]).sent + 10 * 1000000 = s.clock ∧
       s.answerWaits 2 (request [0x01]) = false ∧ ({ s with pending := [.echo 2] } : State).answerWaits 2 (request [0x01]) = true) ∧
    hosted.stage ≠ Stage.recovery ∧ (request [0x10_0001]).headerGood = false ∧ (request [0x77]).headerGood = true ∧
    knownOpcode (request [0x77]).opcode = false ∧ Say.asks (asking [0x01] hosted) 2 0x01 (request [0x01]) [] ∧
    Say.asks (asking [0x02] hosted) 2 0x02 (request [0x02]) [] := by unfold Say.asks; decide +kernel
/-- A PLACE of one object of 4,096 bytes for slate 0, its list and result buffer in core 0's scratch. -/
def placing : State :=
  asking [0x5_0010, 0, 0, 0x200, 0x1000, 0x200] (hosted.setBytes scr0 (leBytes 8 4096 ++ leBytes 2 1 ++ List.replicate 22 0))
theorem witness_place : let h := request [0x5_0010, 0, 0, 0x200, 0x1000, 0x200]
    let os := (chunksOf 32 1 (placing.bytes scr0 32)).map placeObj
    Say.asks placing 2 0x10 h [] ∧ natField (h.word 1) 4 4 = 0 ∧ natField (h.word 1) 16 16 = 0 ∧ zeroFrom h.word 6 = true ∧
      placing.reaches (placing.chanIdent 2) 0 = true ∧ addr2 h.word 2 = scr0 ∧ placing.bufStatus (placing.chanIdent 2) scr0 32 true = none ∧
      (placing.noteRead scr0 32).anyPoison scr0 32 = false ∧ placing.bufStatus (placing.chanIdent 2) (addr2 h.word 4) 32 false = none ∧
      os.length = 1 ∧ (∀ o ∈ os, o.good (placing.slatesOf 0) = true) ∧ (placing.placeRun 0 os).1 = Status.ok := by unfold Say.asks; decide +kernel

/-! ## Stored data -/

/-- A ready module whose bus and rider are up. -/
def powered : State := { ready with rst := { ready.rst with riderUp := true, busUp := some 0 } }
/-- Damage to one die of codeword 0 is corrected; the same to two dies with no die named suspect is not. -/
theorem test_die_kill : cisDecode none [] (cisFlip (cisEncode (List.replicate 64 0x5A)) [(0, 3, 0xFFFF)]) = .corrected [(0, 3, 0xFFFF)] [3] ∧
    cisDecode none [] (cisFlip (cisEncode (List.replicate 64 0x5A)) [(0, 3, 0xFFFF), (0, 9, 1)]) = .uncorrectable := by decide +kernel
theorem test_scrub_corrects : let s := powered.setBytes 0 (List.replicate 64 7)
    (after (.scrubRead (.cistern 0 0) ⟨[(0, 3, 0xFFFF)], []⟩) s).bytes 0 64 = List.replicate 64 7 ∧
      (after (.scrubRead (.cistern 0 0) ⟨[(0, 3, 0xFFFF)], []⟩) s).getF ECC_DIE_CNT.CORR 3 = 1 := by decide +kernel
/-- The positions of a tier word's two flipped bits. -/
theorem witness_two_bits : (List.replicate 64 (0x5A : Byte)).length = 64 ∧ 3 < 4 ∧ 136 < 137 ∧ 0 < 137 ∧ 136 ≠ 0 := by decide
theorem witness_scrubbers_rest : State.reset.rst.busUp = none ∧ (State.reset.setF ECC_RAW_CTL.HOLD 0 1).flag ECC_RAW_CTL.HOLD = true ∧
    (State.reset.setF BOOT_STAT.STAGE 0 Stage.offline).stage = Stage.offline ∧ (State.reset.setF BOOT_STAT.STAGE 0 Stage.tripped).stage = Stage.tripped := by
  decide +kernel
theorem witness_sram_errors :
    let e : MergeEntry := ⟨64, 1, false, 0⟩
    let f : SramFault := .merge 0 1 0
    let s : State := { ready with store := { ready.store with merge := [(1, [e])], faults := [f] } }
    let u := ready.setSlot 3 { inputs := [{ src := 1, yelm := 0 }] }
    s.pending = [] ∧ s.store.faults = f :: [] ∧ (SMap.get [] s.store.merge (0 * 32 + 1))[0]? = some e ∧
      (u.slot 3).inputs.any (fun v => v.yelm == 0 && v.src == 1) = true ∧ (5 : Nat) ≠ 0 ∧ 5 ∈ ready.boundJobs ∧ ready.slateJob (7 / 4096) = 5 ∧
      ready.jobOf (ready.getF QM_CTX.PART 0) = 5 ∧ ready.getF RTE_RSET_A.JOB 0 = 5 := by decide +kernel
/-- ECC_RAW_CTL with a poisoned record's sequence number absent reads HELD 0. -/
theorem test_log_absent : bit (after (.logSelect pf 5) ready).logSel 32 = false := by decide +kernel
theorem witness_one_die : (List.replicate 64 (0x5A : Byte)).length = 64 ∧ 17 < 18 ∧ 65535 < 65536 ∧ (65535 ≠ 0 ∨ 0 ≠ 0) := by decide
theorem witness_erasure :
    let s := (State.reset.setF ECC_ERASE.VALID 3 1).setF ECC_ERASE.DIE 3 17
    let t := (ready.setF ECC_ERASE.VALID 3 1).setF ECC_ERASE.DIE 3 17
    let m : State := { ready with store := { ready.store with dies := [(3 * 18 + 17, { pass := 1000000, met := some 9 })] } }
    let w : State := { ready with store := { ready.store with dies := [(3 * 18 + 4, { pass := 1000000, met := some 8 }), (3 * 18 + 17, { pass := 1000000, met := some 9 })] } }
    Who.isManager pf.toNat = true ∧ field (0x31 : Word) 0 5 ≤ 17 ∧ ready.erasedDie 3 = none ∧ bit (0x31 : Word) 5 = true ∧ s.erasedDie 3 = some 17 ∧
      s.anyBound = false ∧ t.erasedDie 3 = some 17 ∧ t.anyBound = true ∧ 17 < field (0x12 : Word) 0 5 ∧ bit (0x11 : Word) 5 = false ∧
      m.markDue 3 17 = true ∧ m.erasedDie 3 = none ∧ m.dueBefore 3 17 = none ∧ w.markDue 3 17 = true ∧ w.dueBefore 3 17 = some 4 ∧ (m.rst.fuseMap.filter fun x => x.isField).length < 1024 ∧ ready.markDue 3 17 = false := by
  decide +kernel
theorem witness_write_backs :
    (let e : MergeEntry := ⟨0, 1, false, 0⟩
     let s : State := { ready with store := { ready.store with merge := [(33, [e])] }, clock := 32 }
     (SMap.get [] s.store.merge ((1 : BitVec 4).toNat * 32 + (1 : BitVec 5).toNat))[0]? = some e ∧ s.power.stopped = false ∧ e.last + 32 ≤ s.clock ∧
       ({ s with clock := 31 } : State).clock < e.last + 32) ∧
    (let s : State := { ready with store := { ready.store with rowCorr := [((31 * 192 + 191) * 8192 + 8191, 1000000)], spares := [(31 * 192 + 191, 31)] } }
     191 < 192 ∧ SMap.get 0 s.store.spares (31 * 192 + 191) < 32 ∧ 0 < s.getF ECC_THR.ROW ∧
       s.getF ECC_THR.ROW ≤ SMap.get 0 s.store.rowCorr ((31 * 192 + 191) * 8192 + 8191) ∧ (s.rst.fuseMap.filter fun x => x.isField).length < 1024) := by
  decide +kernel
theorem witness_scrub :
    let unit : ScrubUnit := .cistern 0 0
    let s := powered
    let e : MergeEntry := ⟨0, 1, false, 0⟩
    let u := s.scrubberOf unit
    let g := u.2.2.2 0
    let ws := fun (fs : List (Nat × Nat × Nat)) => cisWords (cisFlip (cisOfWords (s.rawWords g)) fs)
    u.1 = true ∧ s.flag ECC_RAW_CTL.HOLD = false ∧ s.powered unit = true ∧ ready.rst.busUp = none ∧ s.suspects g = [] ∧ region g = .cistern ∧ s.merging g = false ∧
      0 + 1 < u.2.2.1 ∧ ({ s with store := { s.store with merge := [(s.mergeKey g, [{ e with granule := g }])] } } : State).merging g = true ∧
      s.decodeRaw g (ws []) [] = .clean ∧ s.decodeRaw g (ws [(0, 3, 0xFFFF)]) [] = .corrected [(0, 3, 0xFFFF)] [3] ∧
      ¬(some [3] = (s.erasedDie (s.locate g).1).map fun e => [e]) ∧
      s.decodeRaw g (ws [(0, 3, 0xFFFF), (0, 9, 1)]) [] = .uncorrectable := by decide +kernel
theorem witness_cistern_fails :
    (let s : State := { ready with store := { ready.store with created := [(15, 1000000)] } }
     SMap.get false s.store.failed 15 = false ∧ 0 < SMap.get 0 s.store.created 15 ∧ s.getF ECC_THR.CIS_FAIL ≤ SMap.get 0 s.store.created 15) ∧
    SMap.get 0 ready.store.created 15 < ready.getF ECC_THR.CIS_FAIL := by decide +kernel
theorem witness_log :
    let s := ready.record { status := Status.denied, source := Src.die 0 }
    let t : State := { ready with store := { ready.store with logToFlash := [3] } }
    Who.isManager pf.toNat = true ∧ (s.store.log.find? fun r => r.seq == (s.store.log.map (·.seq)).headD 0).isSome ∧
      (∀ r ∈ ready.store.log, r.seq ≠ 5) ∧ (3 : BitVec 32).toNat ∈ t.store.logToFlash ∧ t.rider.pause = none ∧ 3 ∉ ready.store.logToFlash := by decide +kernel
theorem witness_raw :
    let read : Word := BitVec.ofNat 64 (2 ^ 49 + 64)
    let write : Word := BitVec.ofNat 64 (2 ^ 49 + 2 ^ 48 + 64)
    Who.isManager pf.toNat = true ∧ bit read 49 = true ∧ State.reset.anyBound = false ∧ field read 0 42 % 64 = 0 ∧ region (field read 0 42) = .cistern ∧
      bit read 48 = false ∧ bit write 48 = true ∧ bit write 49 = true ∧ region tierBase = .tier ∧ ready.anyBound = true := by decide +kernel
theorem witness_pattern_test :
    let s0 := State.reset.setF BOOT_STAT.STAGE 0 Stage.links
    let s : State := { s0 with rst := { s0.rst with riderUp := true } }
    let fs : List Finding := [.die 0 3 [8], .dramRow 0 31 true]
    s.rst.riderUp = true ∧ s.flag BOOT_STAT.CIS_DONE = false ∧ Stage.links ≤ s.stage ∧ s.stage ≤ Stage.slates ∧
      lostCisterns s.erasedDie fs = [] ∧ s.cisternLost = false := by decide +kernel

/-! ## Power and heat -/

/-- Both feeds in spec, A conducting, the rider running. -/
def fed : State :=
  let s := (ready.setF FEED_STAT.A_OK 0 1).setF FEED_STAT.B_OK 0 1
  { s with rst := { s.rst with riderUp := true, busUp := some 0 } }
def withFeed (x : FeedSt) : State := { fed with power := { fed.power with feeds := [(0, x)] } }
def calm : PowerReading := { mvA := 52000, daA := 100, mvB := 0, daB := 0, slates := [], cisterns := [], sluices := [], optics := [], rider := 0, comp := [],
                             compMax := false }

/-- The frame 7E 2A 01 D4: claim 42 with RAMP. -/
theorem test_pilot : ((after (.pilotFrame false 0x7E 0x2A 0x01 0xD4) fed).feed 0).claim = 42 ∧
  (after (.pilotFrame false 0x7E 0x2A 0x01 0xD5) fed).feed 0 = {} := by
  decide +kernel
/-- 1,500 W is the smallest cap, and 0 is none. -/
theorem test_caps : capValid 0 = true ∧ capValid 1499 = false ∧ capValid 1500 = true := by decide +kernel
/-- 52 V at 10 A for 1 µs is 520 µJ. -/
theorem test_energy : SMap.get 0 (after (.powerSample calm) fed).power.fracs 0 = 5_200_000 := by decide +kernel
theorem witness_pilots :
    (0x7E : Byte) = 0x7E ∧ (0xD4 : Byte) = 0x2A ^^^ 0x01 ^^^ 0xFF ∧ (0x01 : Byte) >>> 1 = 0 ∧ fed.rst.riderUp = true ∧ fed.held = false ∧
    (let s := withFeed { claim := 42, ramp := true, count := 2 }
     (s.feed 0).claim = (0x2A : Byte).toNat ∧ (s.feed 0).ramp = bit (0x01 : Byte) 0 ∧ 2 ≤ (s.feed 0).count ∧ s.held = false) ∧
    ((State.reset : State).rst.riderUp = false) ∧
    (let s : State := { fed with clock := 10_000_000 }
     (s.setF FEED_STAT.A_PILOT_LOST 0 0).flag FEED_STAT.A_PILOT_LOST = false ∧ s.held = false ∧ (s.feed 0).last + 10_000_000 ≤ s.clock) := by
  decide +kernel
theorem witness_feeds :
    (fed.feedOk 0 = true ∧ fed.rst.busUp.isSome = true ∧ fed.power.switching = none ∧ fed.power.lost = none ∧ fed.conducting = 0 ∧ fed.feedOk (1 - 0) = true ∧
      (fed.setFeedOk 1 false).feedOk (1 - 0) = false) ∧
    (let s : State := { fed with power := { fed.power with switching := some (1, 0) } }
     s.power.switching = some (1 - 0, 0) ∧ 0 ≤ s.clock) ∧
    (let s : State := { fed with power := { fed.power with lost := some 0 }, clock := 18_000 }
     s.power.lost = some 0 ∧ s.power.stopped = false ∧ 0 + 18_000 ≤ s.clock ∧ ({ s with clock := 17_999 } : State).clock < 0 + 18_000) ∧
    ({ fed with power := { fed.power with stopped := true } } : State).power.stopped = true := by decide +kernel
theorem witness_returns :
    (let s : State := { fed with power := { fed.power with preferred := some (1, 0) }, clock := 500_000_000 }
     s.power.preferred = some (1, 0) ∧ s.held = false ∧ s.getF FEED_CTL.RETURN_MS = 500 ∧ 0 + 500 * 1_000_000 ≤ s.clock) ∧
    (let s : State := { fed.setF FEED_STAT.HELD 0 1 with clock := 10_000 }
     s.held = true ∧ s.power.switching = none ∧ s.power.lost = none ∧ s.power.conducts + 10_000 ≤ s.clock ∧ s.power.heldWrites = [] ∧
       s.rider.pause = none) := by decide +kernel
theorem witness_capping :
    Who.isManager pf.toNat = true ∧ fed.held = false ∧ capValid (field (0x5DC : Word) 0 16) = true ∧ capValid (field (0x5DC : Word) 16 16) = true ∧
    field (0x5DC : Word) 16 16 = fed.getF PWC_CAP.JOB_W ∧ capValid (field (0x5DB : Word) 0 16) = false ∧ field (0x5DC : Word) 0 16 ≠ fed.getF PWC_CAP.GRID_W ∧
    (bit (0x1_05DC : Word) 16 = true ∧ bit (0x1_05DC : Word) 17 = false ∧ fed.flag PWC_CAP_NEXT.ARM = false ∧ capValid (field (0x1_05DC : Word) 0 16) = true) ∧
    (bit (0x1_05DB : Word) 16 = true ∧ bit (0x1_05DB : Word) 17 = false ∧ capValid (field (0x1_05DB : Word) 0 16) = false) ∧
    (let s := (fed.setF PWC_CAP_NEXT.ARM 0 1).setF PWC_CAP_NEXT.GRID_W 0 1500
     bit (0x2_05DC : Word) 17 = true ∧ bit (0x2_05DC : Word) 16 = false ∧ s.flag PWC_CAP_NEXT.ARM = true ∧
       field (0x2_05DC : Word) 0 16 = s.getF PWC_CAP_NEXT.GRID_W ∧ s.capDue (s.reg .PWC_CAP_AT).toNat = true ∧
       s.rider.pause = none) := by decide +kernel
theorem witness_energy : Say.divided fed + 5_200_000 < 2 ^ 64 * 10_000_000 := by decide +kernel
theorem witness_limiter :
    (let m := { calm with daB := 1901 }
     fed.power.limiter = false ∧ 1900 < m.daB ∧ 12_000 * (fed.setF PWC_EFF.EFF_W 0 433).getF PWC_EFF.EFF_W < calm.mvA * calm.daA + calm.mvB * calm.daB) ∧
    (let s : State := { fed with power := { fed.power with limiter := true, calm := 10 } }
     s.power.limiter = true ∧ 10 ≤ s.power.calm ∧ fed.power.calm < 10) := by decide +kernel
theorem witness_intervals :
    (let s : State := { fed with power := { fed.power with courses := 32 } }
     s.getF PWC_CTL.INTERVAL = 32 ∧ 32 ≤ s.power.courses ∧ s.outputsHeld = false ∧
       (s.setF THM_SLATE.MAX_C 3 200).getF THM_SLATE.THR_C 3 ≤ (s.setF THM_SLATE.MAX_C 3 200).slateTemp 3 ∧
       ({ s.setF FEED_STAT.HELD 0 1 with power := { fed.power with courses := 32 } } : State).held = true) ∧ fed.power.courses < 32 := by decide +kernel
theorem witness_views :
    (let s : State := { fed with gauge := { fed.gauge with now := 100_000_000 } }
     s.power.viewAt ≠ s.time / 100_000_000 * 100_000_000) ∧
    (let s : State := { fed.setF PWC_DINT.PERIOD_S 0 900 with gauge := { fed.gauge with now := 900_000_000_000 } }
     0 < s.getF PWC_DINT.PERIOD_S * 1_000_000_000 ∧
       s.power.demand ≠ s.time / (s.getF PWC_DINT.PERIOD_S * 1_000_000_000) * (s.getF PWC_DINT.PERIOD_S * 1_000_000_000) ∧ s.power.lost = none ∧
       s.power.latched = none ∧ s.latchDemand.power.latched = none ∧
       (({ s with gauge := { s.gauge with now := 900_000_000_400 } } : State).latchDemand.power.latched.map fun x => (x.1, x.2.length)) =
         some (900_000_000_000, 19)) ∧
    bit (BitVec.ofNat 64 (4096 + 3600) : Word) 12 = true ∧ field (BitVec.ofNat 64 (4096 + 3600) : Word) 0 12 ≤ 3600 := by decide +kernel
theorem witness_heat :
    (let m : ThermalReading := ⟨[[109, 40]], [[99]], [], [], 109, 30, 30⟩
     let n : ThermalReading := ⟨[[110]], [], [], [], 30, 30, 30⟩
     let s : State := { fed with power := { fed.power with hot := [0] } }
     ((thermalOver m).filter fun x => s.power.hot.contains x) = [] ∧ ((thermalOver n).filter fun x => s.power.hot.contains x) ≠ [] ∧
       ((thermalOver n).filter fun x => fed.power.hot.contains x) = [] ∧ s.flag TOP_PINS.THERMTRIP = false ∧
       fed.getF THM_CIS.THR_C 0 ≤ min 255 ((m.cisterns.getD 0 []).foldl max 0)) := by decide +kernel
theorem witness_power_commands :
    let h := request [0x1_0050]
    Say.asks (asking [0x1_0050] hosted) 2 0x50 h [] ∧ h.word 1 / 16 = 0 ∧ zeroFrom h.word 2 = true ∧
      hosted.reaches ((asking [0x1_0050] hosted).chanIdent 2) 0 = true ∧
      Say.asks (asking [0x1_0053, 16] hosted) 2 0x53 (request [0x1_0053, 16]) [] ∧ (request [0x1_0053, 16]).word 1 / 16 ≠ 0 ∧
      Say.asks (asking [0x1_0052] (hosted.setF HIF_POWN.OWNER 0 0x402)) 2 0x52 (request [0x1_0052]) [] ∧
      Say.asks (asking [0x1_0051] hosted) 2 0x51 (request [0x1_0051]) [] ∧
      (asking [0x1_0052] (hosted.setF HIF_POWN.OWNER 0 0x402)).reaches 0x401 0 = false := by unfold Say.asks; decide +kernel

/-! ## Keys, tenants and the security processor -/

/-- The management port's SPDM connection has agreed on its algorithms, and session 0 stands on it. -/
def spoken (s : State) (established : Bool) (t : Transport) : State :=
  (s.setConn t ⟨true, true, true⟩).setSessions [⟨0, t, established, false, 0⟩]
/-- A KEY_DELIVER body: job 6, one data key, ROOT and key. -/
def delivery : List Byte := [6, 0, 1, 0] ++ List.replicate 64 0x11
/-- A state in which partition 0 is bound to job 5 by route set 0 and may be unbound, or may be bound. -/
def owned : State := keyed.setF HIF_POWN.OWNER 0 0x401
def unbound : State := { (owned.setF HIF_POWN.BOUND 0 0).setF GAUGE_STAT.STATE 0 GS.locked with sec := { owned.sec with bindings := [] } }
def present (s : State) : State := s.setF SEC_STATE.PRESENCE 0 1
def operator (s : State) : State := { s with sec := { s.sec with mgmt := [(0, ⟨true, false⟩)] } }
/-- A management frame of an ECHO with a tag. -/
def echoFrame : List Byte := [0x7E, 0, 4, 0, 1, 0x2A, 0, 0]

/-- HMAC-SHA-384, first case of RFC 4231. -/
theorem test_hmac : (hmac384 (List.replicate 20 0x0B) (ascii "Hi There")).take 8 = [0xAF, 0xD0, 0x39, 0x44, 0xD8, 0x48, 0x95, 0x62] := by decide +kernel
/-- GET_VERSION is answered, anything before it with an error; an unlock without presence changes nothing but the log. -/
theorem test_spdm_order : ((after (.getVersion .mgmt) ready).conn .mgmt).version = true ∧
  ((after (.getCapabilities .mgmt) ready).conn .mgmt).capabilities = false := by
  decide +kernel
/-- BIND's checks in their order: a bound partition is BUSY before its route set is looked at. -/
theorem test_bind_order : owned.bindCheck 0x401 0 9 = some Status.busy ∧ unbound.bindCheck 0x401 0 9 = some Status.badArg ∧
    unbound.bindCheck 0x402 0 0 = some Status.denied := by decide +kernel
theorem witness_spdm :
    ready.spdmServes .mgmt = true ∧ (ready.setConn .mgmt { version := true }).spdmServes .mgmt = true ∧
    ((ready.setConn .mgmt { version := true }).conn .mgmt).version = true ∧ ((ready.setConn .mgmt ⟨true, true, false⟩).conn .mgmt).capabilities = true ∧
    (ready.conn .mgmt).negotiated = false ∧ (ready.setF BOOT_STAT.STAGE 0 Stage.recovery).spdmServes .i3c = false ∧
    Say.ready (spoken ready true .mgmt) .mgmt ∧ ((spoken ready true .mgmt).blocks 0).isSome = true := by unfold Say.ready; decide +kernel
/-- An offset within the certificate chain, whose bytes are the module's own: where there are any, 0 is one. -/
theorem witness_certificate (h : (spoken ready true .mgmt).chain0 ≠ []) : Say.ready (spoken ready true .mgmt) .mgmt ∧
    (0 : BitVec 16).toNat < (spoken ready true .mgmt).chain0.length :=
  ⟨by unfold Say.ready; decide +kernel, List.length_pos_iff.mpr h⟩
theorem witness_sessions :
    (let s := spoken ready false .mgmt
     Say.ready s .mgmt ∧ s.sessions.length < 8 ∧ s.session .mgmt 0 = some ⟨0, .mgmt, false, false, 0⟩ ∧ s.flag SEC_STATE.REQ_MUTUAL = false ∧
       (s.setF SEC_STATE.REQ_MUTUAL 0 1).flag SEC_STATE.REQ_MUTUAL = true ∧ s.secured .mgmt (some 0) = false ∧
       (SMap.find? ({ s with sec := { s.sec with tenantAnchors := [(2, true)] } } : State).sec.tenantAnchors 2).isSome = true ∧
       8 ≤ (s.setSessions (List.replicate 8 ⟨0, .mgmt, false, false, 0⟩)).sessions.length) ∧
    (spoken ready true .mgmt).secured .mgmt (some 0) = true := by unfold Say.ready; decide +kernel
theorem witness_delivery :
    let s := spoken keyed true .mgmt
    Say.secure s .mgmt (some 0) ∧ s.flag SEC_STATE.DEBUG = false ∧ leNat (delivery.take 2) = 6 ∧ leNat ((delivery.drop 2).take 1) = 1 ∧
      delivery.getD 3 0 = 0 ∧ delivery.length = 36 + 32 * 1 ∧ s.slotJobKey 1 = 0 ∧ (∀ m < 1, s.slotJobKey m ≠ 0) ∧ s.slotJobKey 0 = 5 ∧
      (s.setF SEC_STATE.DEBUG 0 1).flag SEC_STATE.DEBUG = true ∧ Say.secure (s.setF SEC_STATE.DEBUG 0 1) .mgmt (some 0) := by
  unfold Say.secure Say.ready; decide +kernel
theorem listed {m : SMap Word} {x : Nat} {v : Word} (h : SMap.find? m x = some v) : (x, v) ∈ m := by
  induction m with
  | nil => cases h
  | cons e m ih =>
    unfold SMap.find? at h
    split at h
    · next hx => cases h; rw [hx]; exact List.mem_cons_self
    · exact List.mem_cons_of_mem _ (ih h)
/-- No slot of that state holds a key of job 6. -/
theorem witness_delivery_job (m : Nat) : (spoken keyed true .mgmt).slotJobKey m ≠ 6 := by
  have all : ∀ e ∈ (spoken keyed true .mgmt).regs, e.1 % 256 = Reg.num .SEC_KSLOT → field e.2 0 16 ≠ 6 := by decide +kernel
  have reset : ∀ i, Reg.reset .SEC_KSLOT i = 0 := fun _ => rfl
  unfold State.slotJobKey State.getF State.reg
  cases h : SMap.find? (spoken keyed true .mgmt).regs (Reg.key SEC_KSLOT.JOB.reg (Fld.at SEC_KSLOT.JOB m)) with
  | none => rw [Option.getD_none, show Reg.reset SEC_KSLOT.JOB.reg (Fld.at SEC_KSLOT.JOB m) = 0 from reset _]; decide
  | some v =>
    have key : ∀ i, (Reg.key .SEC_KSLOT i) % 256 = Reg.num .SEC_KSLOT := fun i => by
      show (i * 256 + Reg.num .SEC_KSLOT) % 256 = _
      rw [Nat.mul_add_mod_self_right]; rfl
    exact all _ (listed h) (key _)
theorem witness_key_slots :
    let s := asking [0x1_0023] owned
    let t := asking [0x2_0024, 0, 2] (owned.setF RTE_RSET_A.VALID 0 0)
    let u := asking [0x1_0025] (owned.setF RTE_RSET_A.VALID 0 0)
    (Say.asks s 2 0x23 (request [0x1_0023]) [] ∧ unusedZero (request [0x1_0023]).word 0xFFF00 2 = true ∧ s.mayKey (s.chanIdent 2) 0 = true) ∧
    (Say.asks t 2 0x24 (request [0x2_0024, 0, 2]) [] ∧ unusedZero (request [0x2_0024, 0, 2]).word 0x3FFF00 3 = true ∧ t.mayKey (t.chanIdent 2) 0 = true ∧
      t.slotJobKey 0 ≠ 0 ∧ natField ((request [0x2_0024, 0, 2]).word 1) 20 2 ≤ 1 ∧
      (request [0x2_0024, 0, 2]).word 2 % 2 = natField ((request [0x2_0024, 0, 2]).word 1) 20 2 ∧ (t.keyMat 0).highest < (request [0x2_0024, 0, 2]).word 2 ∧
      ∀ i < 16, t.flag RTE_RSET_A.VALID i = false) ∧
    (Say.asks u 2 0x25 (request [0x1_0025]) [] ∧ unusedZero (request [0x1_0025]).word 0xFFF00 2 = true ∧ u.mayKey (u.chanIdent 2) 0 = true ∧
      u.slotJobKey 0 ≠ 0 ∧ u.slotNamed 0 = false) ∧ owned.slotNamed 0 = true ∧
    (let v := (unbound.setF RTE_RSET_A.VALID 0 0).setKeyMat 0 { named := true }
     v.slotJobKey 0 ≠ 0 ∧ (v.keyMat 0).named = true ∧ v.slotNamed 0 = false ∧ v.partsOf (v.slotJobKey 0) = []) := by
  unfold Say.asks; decide +kernel
theorem witness_binding :
    (let s := asking [0x1_0020] unbound
     Say.asks s 2 0x20 (request [0x1_0020]) [] ∧ unusedZero (request [0x1_0020]).word 0xFF 2 = true ∧ s.bindCheck (s.chanIdent 2) 0 0 = none ∧
       s.bindCheck (s.chanIdent 2) 0 9 = some Status.badArg) ∧
    (let s := asking [0x1_0021] owned
     Say.asks s 2 0x21 (request [0x1_0021]) [] ∧ unusedZero (request [0x1_0021]).word 0xF 2 = true ∧ s.reaches (s.chanIdent 2) 0 = true ∧
       s.bound 0 = true ∧ SMap.get false s.sec.clearing 0 = false ∧ s.partWorks 0 = false) ∧
    Say.asks (asking [0x1_0022] owned) 2 0x22 (request [0x1_0022]) [] := by unfold Say.asks; decide +kernel
theorem witness_clearing :
    let s : State := { owned with sec := { owned.sec with clearing := [(0, true)] } }
    SMap.get false s.sec.clearing 0 = true ∧ s.getF RST_PART.STATE 0 ≠ 1 ∧ s.granted 0 scr0 = true ∧
      (∀ q < 16, q ≠ 0 → s.bound q = true → s.granted q scr0 = false) ∧ s.granted 0 (scr0 + 0x1000_0000) = false ∧
      SMap.get false owned.sec.clearing 0 = false := by decide +kernel
/-- The header of a sealed blob of one byte for job 5 under data key 0, in one chunk of at most 4,096 bytes. -/
def blobHead : List Byte := leBytes 4 0x15EA1 ++ leBytes 2 5 ++ [0, 12] ++ leBytes 8 1 ++ List.replicate 48 0
def unsealWords : List Nat := [0x8_0026, 0, 0, 0x200, 0x1000, 0x200, 7, 0x2000, 0x200]
theorem witness_unseal :
    let h := request unsealWords
    let s := asking unsealWords ((owned.setF SEC_KSLOT.NDATA 0 1).setBytes scr0 blobHead)
    let b := blobOf blobHead
    Say.asks s 2 0x26 h [] ∧ s.sec.debugWait = none ∧ h.word 1 &&& 0x30000F = h.word 1 ∧ h.word 6 < 65536 ∧ zeroFrom h.word 9 = true ∧
      s.reaches (s.chanIdent 2) 0 = true ∧ s.bound 0 = true ∧ SMap.get false s.sec.clearing 0 = false ∧ SMap.find? s.sec.bindings 0 = some ⟨5, 0⟩ ∧ addr2 h.word 2 = scr0 ∧
      s.partRange 0 scr0 64 = true ∧ (s.noteRead scr0 64).anyPoison scr0 64 = false ∧ s.bytes scr0 64 = blobHead ∧ blobGood blobHead = true ∧
      s.partRange 0 scr0 b.bytes = true ∧ s.partRange 0 (addr2 h.word 4) b.len = true ∧ scr0 + b.bytes ≤ addr2 h.word 4 ∧
      (s.slatesOf 0).testBit (h.word 6 / 4096) = true ∧ s.partRange 0 (addr2 h.word 7) 16 = true ∧ b.job = 5 ∧
      b.key < s.getF SEC_KSLOT.NDATA (s.getF RTE_RSET_A.KEY 0) := by unfold Say.asks; decide +kernel
theorem witness_unsealed :
    let u : Unsealing := ⟨0, 3, scr0, scr0 + 0x1000, 7, scr0 + 0x2000, 0, blobHead, false⟩
    let s : State := { owned with sec := { owned.sec with unsealing := [u] } }
    let p := (s.setPoison scr0 true).setPoison (scr0 + 64) true
    s.sec.unsealing.findIdx? (fun u => u.part == (0 : BitVec 4).toNat) = some 0 ∧ s.sec.unsealing[0]? = some u ∧ s.sec.debugWait = none ∧ s.gen 0 ≠ u.gen ∧
      u.dst + (List.replicate (blobOf u.head).len (0 : Byte)).length ≤ u.record ∧
      none ∈ ((upFrom 0 (blobOf u.head).chunks).map fun j => p.openChunk u u.head j) ∧
      (let c : State := { s with sec := { s.sec with unsealing := [{ u with cleared := true }] } }
       c.sec.unsealing.findIdx? (fun u => u.part == (0 : BitVec 4).toNat) = some 0 ∧ c.sec.debugWait = none) := by decide +kernel
theorem witness_tdisp :
    let s := spoken owned true (.doe false)
    let l := s.setF SEC_TDI.STATE 0 1
    let r := l.setF SEC_TDI.STREAM_VALID 0 1
    Say.secure s (vfDoe 0) (some 0) ∧ s.fnExists (0 + 1) = true ∧ s.getF SEC_TDI.STATE 0 = 0 ∧ (∀ p ∈ s.vfParts 0, s.bound p = true) ∧
      s.streamTaken 0 9 = false ∧ Say.secure l (vfDoe 0) (some 0) ∧ l.getF SEC_TDI.STATE 0 = 1 ∧ l.flag SEC_TDI.STREAM_VALID 0 = false ∧
      Say.secure r (vfDoe 0) (some 0) ∧ r.getF SEC_TDI.STATE 0 = 1 ∧ r.flag SEC_TDI.STREAM_VALID 0 = true ∧
      (∀ p ∈ s.vfParts 0, SMap.get false s.sec.clearing p = false) ∧ (s.setF SEC_TDI.STATE 0 2).getF SEC_TDI.STATE 0 = 2 ∧ s.vfParts 0 = [] := by
  unfold Say.secure Say.ready; decide +kernel
theorem witness_module_keys :
    Say.secure (spoken owned true (.doe true)) (.doe true) (some 0) ∧
      ((spoken owned true (.doe true)).sec.ide.filter fun e => e.1 / 256 == b2n true).length < 9 ∧
    (operator ready).operatorOn 0 = true ∧ ready.operatorOn 0 = false ∧
    (let s : State := { ready with sec := { ready.sec with anchors := [(2, true)] } }
     (upFrom 0 4).find? (fun i => (SMap.find? s.sec.mgmt i).isNone) = some 0 ∧ s.sec.anchors ≠ [] ∧ SMap.find? s.sec.anchors (2 : BitVec 2).toNat = some true) ∧
    (upFrom 0 4).find? (fun i => (SMap.find? (present ready).sec.mgmt i).isNone) = some 0 ∧ (present ready).sec.anchors = [] ∧ (present ready).present = true ∧
    ready.present = false ∧
    (let s : State := { ready with sec := { ready.sec with mgmt := [(0, ⟨true, false⟩), (1, ⟨true, false⟩), (2, ⟨true, false⟩), (3, ⟨true, false⟩)] } }
     (upFrom 0 4).find? (fun i => (SMap.find? s.sec.mgmt i).isNone) = none) := by unfold Say.secure Say.ready; decide +kernel
theorem witness_management :
    let m := fun (op : Byte) => ([0x7E, 0, 4, 0, op, 0x2A, 0, 0] : List Byte)
    let w := fun (op : Byte) => frameWord ((m op).drop 4)
    let a : State := { ready with sec := { ready.sec with mgmt := [(0, ⟨false, false⟩)] } }
    8 ≤ echoFrame.length ∧ echoFrame.getD 0 0 = 0x7E ∧ echoFrame.getD 1 0 = 0 ∧ leNat ((echoFrame.drop 2).take 2) = echoFrame.length - 4 ∧
      echoFrame.length ≤ 68 ∧ (SMap.find? (operator ready).sec.mgmt 0).isSome = true ∧ m 1 = echoFrame ∧ w 1 0 / 2 ^ 20 = 0 ∧
      knownOpcode (w 1 0 % 256) = true ∧ (operator ready).operatorOn 0 = true ∧ w 1 0 % 256 ≠ 0x26 ∧ w 1 0 % 256 ≠ 0x30 ∧ w 1 0 % 256 ≠ 0x43 ∧
      knownOpcode (w 0x77 0 % 256) = false ∧ knownOpcode (w 0x25 0 % 256) = true ∧ (SMap.find? a.sec.mgmt 0).isSome = true ∧ a.operatorOn 0 = false ∧
      auditorOpcode (w 0x25 0 % 256) = false ∧ auditorOpcode (w 1 0 % 256) = true ∧ (operator ready).rider.pause = none ∧
      (operator ready).rider.frames = [] ∧
      (let s : State := { ready with rider := { ready.rider with frames := [(0, m 1)], pause := some ⟨50, false, false, 1, none⟩ } }
       s.rider.pause.isSome = true ∧ s.rider.frames = (0, m 1) :: [] ∧ (SMap.find? (operator s).sec.mgmt 0).isSome = true ∧
         ({ s with rider := { s.rider with pause := none } } : State).rider.frames = (0, m 1) :: []) := by decide +kernel
theorem witness_presence : ready.present = false ∧ ready.sec.unsealing = [] ∧ (present ready).present = true ∧ (present ready).sec.presence = [] ∧
    (operator (present ready)).operatorOn 0 = true ∧ (operator (present ready)).present = true ∧
    ({ ready with sec := { ready.sec with presence := [.clearMutual] } } : State).sec.presence = .clearMutual :: [] := by decide +kernel
theorem signed_alike (s t : State) (h : s.sec.revoked = t.sec.revoked) (g : Signature) : s.rootSigned g = t.rootSigned g := by
  unfold State.rootSigned State.rootGood; rw [h]
/-- A token and a fuse image whose signature verifies under a fused root, which only the module's own fuses tell, meet the rest of the conditions. -/
theorem witness_presence_signed (g : Signature) (h : (present ready).rootSigned g = true) :
    let s : State := { present ready with sec := { (present ready).sec with nonces := [(9, 0)] } }
    let image : FuseImage := ⟨BitVec.ofNat 48 Config.pid, g, 1, 1, 1, [0x1_0105]⟩
    s.mayUnlock ⟨BitVec.ofNat 48 Config.pid, 9, g⟩ = true ∧ s.sec.unsealing = [] ∧ image.pid.toNat = Config.pid ∧ s.rootSigned image.sig = true := by
  have e : ({ present ready with sec := { (present ready).sec with nonces := [(9, 0)] } } : State).rootSigned g = true := by
    rw [← h]; exact signed_alike _ _ (by decide +kernel) g
  refine ⟨?_, rfl, (by decide +kernel : (BitVec.ofNat 48 Config.pid).toNat = Config.pid), e⟩
  unfold State.mayUnlock
  rw [e]
  dsimp only
  decide +kernel

/-! ## The start, resets and aborts -/

def withReset (s : State) (f : ResetSt → ResetSt) : State := { s with rst := f s.rst }
def inStage (st : Nat) (s : State) : State := s.setF BOOT_STAT.STAGE 0 st
/-- A window of job 5's abort. -/
def window : AbortWin := ⟨64, false, Status.jobAbort, 0, 9, 0, false, 4259840, 21037056, false, false⟩
/-- An ABORT packet of job 5 with fence course 64. -/
def abortPacket : Packet := packet PT.abort 0 0 0 1 64 []

/-- Slates start in the order of the waves: 0, 4, 8 and 12 first. -/
theorem test_abort_fence : ((after (.abort 2) (asking [0x1_0032] hosted)).abortWin 5).map (fun w => (w.fence, w.epoch)) = some (64, false) := by decide +kernel
/-- PART_RESET of a partition the sender does not reach is DENIED before its state is looked at. -/
theorem test_part_refusal : (hosted.setF RST_PART.STATE 0 2).partRefusal 0x402 0 (fun _ => 0) = some Status.denied ∧
    (hosted.setF RST_PART.STATE 0 2).partRefusal 0x401 0 (fun _ => 0) = some Status.offline := by decide +kernel
theorem witness_start :
    (State.reset.rst.busUp = none ∧ State.reset.edge.off = false) ∧
    (let s := withReset State.reset fun r => { r with busUp := some 0 }
     s.rst.riderUp = false ∧ s.staggerOver = true ∧ s.bootSlot = some 0 ∧ ({ s with rider := { s.rider with recoveryNext := true } } : State).bootSlot = none ∧
       ({ s with rider := { s.rider with recoveryNext := true } } : State).staggerOver = true) ∧ fed.rst.riderUp = true := by decide +kernel
theorem witness_consistency :
    (let s := (inStage Stage.links (withReset ready fun r => { r with busUp := some 0 }))
     s.stage = Stage.links ∧ ({ s with clock := 3_800_000_000 } : State).linksOver = true) ∧
    (inStage Stage.rowCons ready).stage = Stage.rowCons ∧ (inStage Stage.rowCons ready).consistent true = true ∧
    (let s := (inStage Stage.colCons ready).setF BOOT_TOPO.ROW_CONS 0 1
     s.stage = Stage.colCons ∧ s.flag BOOT_TOPO.ROW_CONS = true ∧ s.consistent false = true) ∧
    ready.rst.stageStart + 1_000_000_000 ≤ ({ ready with clock := 1_000_000_000 } : State).clock ∧ ready.clock < ready.rst.stageStart + 1_000_000_000 := by
  decide +kernel
theorem witness_waves :
    (let s := inStage Stage.slates (ready.setF BOOT_STAT.CIS_DONE 0 1)
     s.stage = Stage.slates ∧ s.flag BOOT_STAT.CIS_DONE = true ∧ s.getF BOOT_STAT.WAVES < 4 ∧ s.rst.starting = [] ∧ s.held = false) ∧
    (inStage Stage.resetting ready).stage = Stage.resetting ∧
    (let x : SlateStart := { reports := (upFrom 0 135).map fun i => (i, true) }
     let s := withReset ready fun r => { r with starting := [(0, x)] }
     SMap.find? s.rst.starting 0 = some x ∧ 135 ∈ s.candidates 0 ∧ s.allReported 0 { x with reports := SMap.insert x.reports 135 true } = true ∧
       s.allReported 0 { x with reports := SMap.insert x.reports 134 true } = false ∧ 134 ∈ s.candidates 0) := by decide +kernel
theorem witness_topology :
    (let s := inStage Stage.topo ready
     s.stage = Stage.topo ∧ s.flag BOOT_CTL.EXP_VALID = false ∧ (s.setF BOOT_CTL.EXP_VALID 0 1).flag BOOT_CTL.EXP_VALID = true ∧
       (s.setF BOOT_CTL.EXP_VALID 0 1).mismatches = 0 ∧ ((s.setF BOOT_CTL.EXP_VALID 0 1).setF BOOT_EXP.PRESENT 1 1).mismatches ≠ 0) ∧
    Say.asks (asking [0x35] hosted) 2 0x35 (request [0x35]) [] ∧ zeroFrom (request [0x35]).word 1 = true ∧
    Who.isPF ((asking [0x35] hosted).chanIdent 2) = true ∧ (asking [0x35] hosted).stage = Stage.ready := by unfold Say.asks; decide +kernel
theorem witness_part_reset :
    (let s := asking [0x1_0030] hosted
     let h := request [0x1_0030]
     Say.asks s 2 0x30 h [] ∧ s.partRefusal (s.chanIdent 2) 0 h.word = none ∧ (s.partWindow 0).length + 1 < s.getF RST_ESC.PART_N ∧
       (asking [0x1_0030] (hosted.setF HIF_POWN.BOUND 0 0)).bound 0 = false) ∧
    (let h := request [0x1_0030, 16]
     Say.asks (asking [0x1_0030, 16] hosted) 2 0x30 h [] ∧ (asking [0x1_0030, 16] hosted).partRefusal 0x401 0 h.word = some Status.badArg) ∧
    (let x : PartReset := ⟨0, none, true⟩
     let s := withReset ready fun r => { r with parts := [(0, x)] }
     SMap.find? s.rst.parts 0 = some x ∧ s.rst.compute = none ∧ (∀ sl ∈ s.slateList 0, SMap.find? s.rst.starting sl = none) ∧
       (∀ sl ∈ s.slateList 0, s.slateWhole sl = true) ∧ (s.setReg .TOP_SITES_LO 0 0).slateWhole 0 = false ∧ 0 ∈ s.slateList 0) := by
  unfold Say.asks; decide +kernel
theorem witness_compute_reset :
    (let s := asking [0x31] hosted
     let h := request [0x31]
     Say.asks s 2 0x31 h [] ∧ zeroFrom h.word 1 = true ∧ Who.isPF (s.chanIdent 2) = true ∧ s.computeRefusal = none ∧
       s.compWindow.length + 1 < s.getF RST_ESC.MOD_N ∧
       Say.asks (inStage Stage.slates s) 2 0x31 h [] ∧ (inStage Stage.slates s).computeRefusal = some Status.busy) ∧
    (let s := (withReset ready fun r => { r with compute := some 0 }).setF BOOT_STAT.WAVES 0 4
     s.rst.compute.isSome = true ∧ s.getF BOOT_STAT.WAVES = 4 ∧ s.rst.starting = []) := by unfold Say.asks; decide +kernel
theorem witness_supervision :
    (let s : State := { withReset ready fun r => { r with aborts := [(5, window)] } with clock := 1_000_000 }
     let b := s.setCore 0 { coreWith 0 [] with task := some task }
     s.abortWin (s.jobOf 0) = some window ∧ s.bound 0 = true ∧ window.checked = false ∧ window.held + 1_000_000 ≤ s.clock ∧ s.partBusy 0 = false ∧
       b.abortWin (b.jobOf 0) = some window ∧ b.bound 0 = true ∧ b.partBusy 0 = true ∧ b.getF RST_PART.STATE 0 = 0) ∧
    ready.abortWin (ready.jobOf 0) = none ∧
    (let x : PartReset := ⟨0, none, true⟩
     let s : State := { withReset ready fun r => { r with parts := [(0, x)] } with clock := 5_000_000 }
     SMap.find? s.rst.parts 0 = some x ∧ s.rst.compute = none ∧ x.start + 5_000_000 ≤ s.activeTime ∧
       ({ s with clock := 4_999_999 } : State).activeTime < x.start + 5_000_000) ∧
    (let s : State := { withReset ready fun r => { r with compute := some 0 } with clock := 40_000_000 }
     s.rst.compute = some 0 ∧ 0 + 40_000_000 ≤ s.activeTime ∧ ({ s with clock := 39_999_999 } : State).activeTime < 0 + 40_000_000) := by decide +kernel
theorem witness_abort : ready.abortWin 5 = none ∧ ready.partsOf 5 = [0] := by decide +kernel
theorem witness_abort_packet : Say.opened keyed 0 0 PT.abort (tagged keyed abortPacket) none (plain keyed abortPacket) (noted keyed abortPacket) ∧
    keyed.abortWin (Pkt.job abortPacket) = none :=
  ⟨(accepted_tagged _ _ _ _ _ (by decide +kernel)).1, by decide +kernel⟩
theorem witness_aborting :
    (let s := asking [0x1_0032] hosted
     let h := request [0x1_0032]
     Say.asks s 2 0x32 h [] ∧ unusedZero h.word 0xF 2 = true ∧ s.reaches (s.chanIdent 2) 0 = true ∧ s.bound 0 = true ∧ s.jobOf 0 ≠ 0) ∧
    (let s := withReset ready fun r => { r with aborts := [(5, window)] }
     let t : State := { s with gauge := { s.gauge with now := 21037056 } }
     s.abortWin (5 : BitVec 16).toNat = some window ∧ s.reached window.fenceEnd = false ∧ s.reached window.winEnd = false ∧
       t.abortWin 5 = some window ∧ window.ended = false ∧ t.reached window.fenceEnd = true ∧ t.reached window.winEnd = true) := by unfold Say.asks; decide +kernel
theorem witness_reset_commands :
    let ask := fun (ws : List Nat) (s : State) => asking ws s
    (Say.asks (ask [0x1_0033] hosted) 2 0x33 (request [0x1_0033]) [] ∧ unusedZero (request [0x1_0033]).word 0xF 2 = true ∧ hosted.reaches 0x401 0 = true) ∧
    (let s := ask [0x1_0034, 256] (inStage Stage.offline (hosted.setF RST_ESC.HOST_RESTORE 0 1))
     let h := request [0x1_0034, 256]
     Say.asks s 2 0x34 h [] ∧ unusedZero h.word 0x10F 2 = true ∧ Who.isPF (s.chanIdent 2) = true ∧ s.flag RST_ESC.HOST_RESTORE = true ∧
       natBit (h.word 1) 8 = true ∧ s.cisternLost = false ∧ s.rst.compute = none ∧ s.stage = Stage.offline) ∧
    (let s := ask [0x1_0034] (hosted.setF RST_ESC.HOST_RESTORE 0 1)
     let h := request [0x1_0034]
     Say.asks s 2 0x34 h [] ∧ natBit (h.word 1) 8 = false ∧ s.stage = Stage.ready ∧ s.getF RST_PART.STATE 0 ≠ 1 ∧
       Say.asks (ask [0x1_0034] (hosted.setF RST_ESC.HOST_RESTORE 0 0)) 2 0x34 h [] ∧
       (ask [0x1_0034] (hosted.setF RST_ESC.HOST_RESTORE 0 0)).flag RST_ESC.HOST_RESTORE = false) ∧
    (let s := ask [0x3_0036, 1, 0, 0x200] (withReset hosted fun r => { r with fuseMap := [⟨1, true, 0⟩] })
     let h := request [0x3_0036, 1, 0, 0x200]
     Say.asks s 2 0x36 h [] ∧ unusedZero h.word 0xFFFF 4 = true ∧ min (natField (h.word 1) 0 16) s.rst.fuseMap.length = 1 ∧
       s.fnRange (s.chanIdent 2) (addr2 h.word 2) 8 = true) := by unfold Say.asks; decide +kernel

/-! ## The rider and field updates -/

def withRider (s : State) (f : RiderSt → RiderSt) : State := { s with rider := f s.rider }
/-- The header of a bundle whose images and chain are empty, and whose digests are those of nothing: it has no use but for a read-back that matches. -/
def emptyHead : List Byte := List.replicate 64 0 ++ (upFrom 1 5).flatMap fun i => leBytes 1 i ++ List.replicate 15 0 ++ sha384Bytes []
/-- A bundle's header without its CRC: five images of one byte each and a chain of one byte, in the six units after the header's. -/
def headBody : List Byte :=
  leBytes 4 0x52444742 ++ leBytes 2 1 ++ leBytes 2 2048 ++ leBytes 8 0x7000 ++ leBytes 2 5 ++ [1, 0] ++ leBytes 16 0 ++ leBytes 4 0x6000 ++ leBytes 4 1 ++
    leBytes 4 2 ++ List.replicate 16 0 ++ ((upFrom 1 5).flatMap fun i => leBytes 4 i ++ leBytes 4 63 ++ leBytes 4 (0x1000 * i) ++ leBytes 4 1 ++ List.replicate 48 0) ++
    List.replicate (2044 - 384) 0
def bundleHead : List Byte := headBody ++ leBytes 4 (crc32c headBody)
/-- The update of that bundle to slot B. -/
def update : Update := ⟨1, bundleHead, [0], [], [], [], false⟩
def updating (st : Nat) (u : Update) (s : State) : State := (withRider s fun r => { r with update := some u }).setF UPD_STAT.STATE_B 0 st

/-- A pause that ends at the clock 50. -/
def pausing (fallback watchdog : Bool) (slot : Nat) (reply : Option (Nat × Nat)) (s : State) : State :=
  withRider (s.setF RDR_STAT.PAUSED 0 1) fun r => { r with pause := some ⟨50, fallback, watchdog, slot, reply⟩ }

theorem test_load : (after (.riderLoadWindow 95) { ready with clock := 10_000_000 }).getF RDR_STAT.DECIM = 1 := by decide +kernel
theorem test_header : headerSound bundleHead = true ∧ headerPlaced bundleHead = true ∧ headerSound (0 :: bundleHead.drop 1) = false := by decide +kernel
/-- A block of the header's own unit is not admitted, the last, shorter one is. -/
theorem test_blocks : blockGood update 0 4096 = false ∧ blockGood update 4096 4095 = false ∧ blockGood update 0x6000 4096 = true := by decide +kernel
theorem witness_rider :
    (let s : State := { ready with clock := 600_000_000_000 }
     s.rider.loadAt + 10_000_000 ≤ s.clock ∧ s.rider.pause = none ∧ ready.clock < ready.rider.loadAt + 10_000_000 ∧ ready.rst.riderUp = false) ∧
    (let s : State := { fed with clock := 100_000_000 }
     s.rst.riderUp = true ∧ s.rider.kicked + 100_000_000 ≤ s.clock ∧ s.rider.pause = none ∧
       (pausing false true 1 none s).rider.pause = some ⟨50, false, true, 1, none⟩ ∧ s.held = false ∧ 50 ≤ s.clock ∧ s.expiriesNow.length < 3) ∧
    (let s := pausing true true 0 none { withRider (fed.setF UPD_STAT.TRIAL 0 1) (fun r => { r with expiries := [1, 2, 3] }) with clock := 50 }
     s.held = false ∧ 50 ≤ s.clock ∧ 3 ≤ s.expiriesNow.length ∧ s.flag UPD_STAT.TRIAL = true ∧ s.getF UPD_STAT.PREFERRED = 0) := by decide +kernel
theorem witness_erases :
    (let s := withRider fed fun r => { r with journal := [⟨0, 2320, true, false⟩], journalSeq := 1, setErase := [2320] }
     let u : Update := { update with erase := [1025], erasing := [1024] }
     s.erasingNow.any (· == 2320) = true ∧ s.rider.update = none ∧ fed.erasingNow.any (· == 1024) = false ∧
       (updating US.erasing u s).erasingNow.any (· == 1024) = true ∧ (updating US.erasing u s).rider.update = some u ∧
       (updating US.erasing { u with erase := [] } s).slotState 1 = US.erasing) ∧
    (let u : Update := { update with staged := [(1, [7])] }
     (updating US.receiving u fed).rider.update = some u ∧ (updating US.receiving u fed).rider.pause = none ∧ u.staged = (1, [7]) :: []) ∧
    fed.rider.update = none := by decide +kernel
/-- UPD_BEGIN's request, with the bundle's first 4,096 bytes and its chain in scratch. -/
def beginning : State := asking [0x3_0040, 0, 0, 0x200] ((hosted.setBytes scr0 bundleHead))
theorem witness_begin :
    let h := request [0x3_0040, 0, 0, 0x200]
    let s := beginning
    let z := asking [0x3_0040, 0, 0, 0x200] hosted
    (Say.asks s 2 0x40 h [] ∧ h.word 1 = 0 ∧ zeroFrom h.word 4 = true ∧ Who.isPF (s.chanIdent 2) = true ∧ s.bufStatus (s.chanIdent 2) scr0 4096 true = none ∧
      s.bufStatus (s.chanIdent 2) (scr0 + 0x6000) 1 true = none ∧ s.flag UPD_STAT.TRIAL = false ∧ s.rider.update = none) ∧
    (Say.asks z 2 0x40 h [] ∧ z.bufStatus (z.chanIdent 2) scr0 4096 true = none ∧ headerSound (List.replicate 4096 0) = false ∧
      z.headerCheck (List.replicate 4096 0) [] = some Status.badHeader) ∧
    (s.setF UPD_STAT.TRIAL 0 1).flag UPD_STAT.TRIAL = true := by unfold Say.asks; decide +kernel
/-- A header whose signature verifies under a fused root, which only the module's own fuses tell, passes the rest of the checks. -/
theorem witness_header_passes (s : State) (hs : s.sec.spSvn = 0) (hr : s.sec.riderSvn = 0) (h : s.headerSigned bundleHead [0] = true) :
    s.headerCheck bundleHead [0] = none := by
  unfold State.headerCheck State.fusedSvn
  rw [h, hs, hr]
  decide +kernel
theorem witness_blocks :
    let ask := fun (a : List Nat) (u : Update) (st : Nat) => asking a (updating st u (hosted.setBytes scr0 [1]))
    let h := request [0x4_0041, 0x1000, 4096, 0, 0x200]
    let s := ask [0x4_0041, 0x1000, 4096, 0, 0x200] update US.receiving
    let full : Update := { update with staged := [(9, List.replicate (4 * 2 ^ 20 - 4095) 0)] }
    (Say.asks s 2 0x41 h [] ∧ zeroFrom h.word 5 = true ∧ Who.isPF (s.chanIdent 2) = true ∧ s.rider.update = some update ∧
      s.slotState update.slot ≠ US.erasing ∧ blockGood update (h.word 1) (h.word 2) = true ∧ s.bufStatus (s.chanIdent 2) scr0 4096 true = none ∧
      (s.stageBlock update (h.word 1) (s.bytes scr0 4096)).1 = Status.ok) ∧
    (ask [0x4_0041, 0x1000, 4096, 0, 0x200] update US.erasing).slotState update.slot = US.erasing ∧
    (s.stageBlock { update with staged := [(1, [9])] } (h.word 1) (s.bytes scr0 4096)).1 = Status.badArg ∧
    blockGood full (h.word 1) 4095 = false ∧ (asking [0x4_0041, 0x1000, 4096, 0, 0x200] hosted).rider.update = none := by unfold Say.asks; decide +kernel
theorem witness_blocks_busy (l : List Byte) (h : l.length = 4 * 2 ^ 20) :
    blockGood { update with staged := [(9, l)] } 0x6000 4096 = true ∧ (hosted.stageBlock { update with staged := [(9, l)] } 0x6000 [7]).1 = Status.busy := by
  refine ⟨by show blockGood update 0x6000 4096 = true; decide +kernel, ?_⟩
  have f : SMap.find? (hosted.flashSlot 1).units 6 = none := by decide +kernel
  have w : hosted.unitHeld { update with staged := [(9, l)] } 6 = none := by simp [State.unitHeld, update, f]
  have u : (upFrom (0x6000 / 4096) (ceilDiv 1 4096)).zip (chunksOf 4096 1 [(7 : Byte)]) = [(6, [7])] := by decide +kernel
  have m : [(7 : Byte)].length = 1 := rfl
  simp only [State.stageBlock, m, u, List.any_cons, List.any_nil, w, List.filter_cons, List.filter_nil]
  simp [h]
theorem witness_verify :
    let h := request [0x0042]
    let full : State := withRider (updating US.receiving update hosted) fun r =>
      { r with slots := [(1, { units := (upFrom 1 6).map fun i => (i, [0]) })] }
    let s := asking [0x0042] full
    (Say.asks s 2 0x42 h [] ∧ zeroFrom h.word 1 = true ∧ Who.isPF (s.chanIdent 2) = true ∧ s.rider.update = some update ∧
      s.slotState update.slot = US.receiving ∧ s.allProgrammed update = true ∧ (updating US.receiving update hosted).allProgrammed update = false) ∧
    Say.asks (asking [0x0045] full) 2 0x45 (request [0x0045]) [] ∧ zeroFrom (request [0x0045]).word 1 = true ∧
    (let u : Update := { update with verifying := true }
     (updating US.verifying u hosted).rider.update = some u ∧ (updating US.verifying u hosted).rider.pause = none ∧ (({} : FlashSlot).matches bundleHead [0]) = false) ∧ update.verifying = false := by
  unfold Say.asks; decide +kernel
theorem witness_matches : ({} : FlashSlot).matches emptyHead [] = true := by decide +kernel
/-- Slot B holds a release, too, and has been verified. -/
def both (s : State) : State := (withRider s fun r => { r with slots := [(0, { factory := true }), (1, { factory := true })] }).setF UPD_STAT.STATE_B 0 US.verified
theorem witness_activation :
    (let s := asking [0x1_0043, 2] (both hosted)
     let h := request [0x1_0043, 2]
     Say.asks s 2 0x43 h [] ∧ unusedZero h.word 3 2 = true ∧ Who.isPF (s.chanIdent 2) = true ∧ s.activateRefusal (h.word 1) = none ∧
       s.activateRefusal 0 = none ∧ s.activateRefusal 1 = none ∧ (asking [0x1_0043, 2] hosted).activateRefusal (h.word 1) = some Status.badArg) ∧
    Say.asks (asking [0x0048] hosted) 2 0x48 (request [0x0048]) [] ∧ zeroFrom (request [0x0048]).word 1 = true ∧
    (let s : State := { (both fed).setF UPD_STAT.TRIAL 0 1 with clock := 600_000_000_000 }
     s.onTrial = true ∧ s.stage = Stage.ready ∧ s.rider.pause = none ∧ s.rider.trialSince + 600_000_000_000 ≤ s.clock ∧ s.rst.busUp = some 0 ∧
       s.power.readyAt = none ∧ 0 + 18_000_000_000 ≤ s.clock) ∧ fed.onTrial = false := by unfold Say.asks; decide +kernel
/-- A hitless activation of slot B comes to its end: its request is answered, and the rider runs from B. -/
theorem witness_pause_ends :
    let s := pausing false false 1 (some (0, (2 : BitVec 6).toNat)) { asking [0x1_0043, 1] (both hosted) with clock := 50 }
    s.rider.pause = some ⟨50, false, false, 1, some (0, 2)⟩ ∧ 50 ≤ s.clock ∧ s.held = false ∧
      (s.chan 2).requests = request [0x1_0043, 1] :: [] ∧ (request [0x1_0043, 1]).expired = false ∧ ({ s with clock := 49 } : State).clock < 50 ∧
      s.endPause.running = 1 ∧ (s.endPause.chan 2).responses = [(request [0x1_0043, 1]).response Status.ok []] := by decide +kernel
/-- A watchdog's third expiry, of the slot on trial, ends in a second pause before the other slot. -/
theorem test_third_expiry :
    let s := pausing true true 0 none { withRider (fed.setF UPD_STAT.TRIAL 0 1) (fun r => { r with expiries := [1, 2, 3] }) with clock := 50 }
    s.endPause.rider.pause.map (fun x => (x.fallback, x.watchdog, x.slot)) = some (true, false, 1) ∧ s.endPause.flag UPD_STAT.TRIAL = false := by
  decide +kernel
theorem witness_settings :
    (let s := fed.setF PWC_DINT.PERIOD_S 0 60
     s.rst.riderUp = true ∧ (match s.newestCopy with | some c => c.2.values | none => resetSettings) ≠ s.settings ∧ ready.rst.riderUp = false ∧
       s.rider.pause = none ∧ s.settingsDue = true ∧ s.rider.setErase = [] ∧ s.copyErased s.saveTo = true ∧ fed.settingsDue = false ∧
       (let t := after .settingsSave ((after .settingsSave s).setF PWC_DINT.PERIOD_S 0 120)
        let u := t.setF PWC_DINT.PERIOD_S 0 60
        u.saveTo = 0 ∧ u.copyErased 0 = false ∧ u.settingsDue = true ∧ u.rider.setErase = [] ∧ u.erasingNow.length ≤ 4 ∧
          (after .settingsSave u).rider.setErase = [2320, 2321, 2322, 2323])) := by decide +kernel
theorem witness_rider_answers :
    Who.isPF ((asking [0x44] hosted).chanIdent 2) = true ∧ Say.asks (asking [0x44] hosted) 2 0x44 (request [0x44]) [] ∧
      zeroFrom (request [0x44]).word 1 = true ∧
    Say.asks (asking [0x3_0046] hosted) 2 0x46 (request [0x3_0046]) [] ∧ zeroFrom (request [0x3_0046]).word 4 = true ∧ (request [0x3_0046]).word 1 = 0 ∧
    Say.asks (asking [0x47] hosted) 2 0x47 (request [0x47]) [] ∧
    (let s := asking [0x3_0049, 1, 0, 0x200] (withReset hosted fun r => { r with dumps := [⟨0, [], [], false, 0⟩] })
     let h := request [0x3_0049, 1, 0, 0x200]
     Say.asks s 2 0x49 h [] ∧ zeroFrom h.word 4 = true ∧ min (h.word 1) s.rst.dumps.length = 1 ∧ s.bufStatus (s.chanIdent 2) (addr2 h.word 2) 16 false = none) ∧
    (let s := asking [0x5_004A] (withReset hosted fun r => { r with dumps := [⟨0, [], [], false, 0⟩] })
     let h := request [0x5_004A]
     Say.asks s 2 0x4A h [] ∧ zeroFrom h.word 6 = true ∧ h.word 1 < s.rst.dumps.length ∧ h.word 3 = 0 ∧ hosted.rst.dumps.length ≤ h.word 1) := by
  unfold Say.asks; decide +kernel
theorem witness_pldm :
    (operator ready).operatorOn 0 = true ∧ ready.operatorOn 0 = false ∧ (operator ready).rider.pause = none ∧ ready.flag UPD_STAT.TRIAL = false ∧ ready.rider.update = none ∧
    (let s := operator (updating US.receiving update (withRider ready fun r => { r with slots := [(1, { units := (upFrom 1 6).map fun i => (i, [0]) })] }))
     s.operatorOn 0 = true ∧ s.rider.update = some update ∧ s.slotState update.slot ≠ US.erasing ∧ blockGood update (0x1000 : BitVec 32).toNat 4096 = true ∧
       s.slotState update.slot = US.receiving ∧ s.allProgrammed update = true) ∧ (both (operator ready)).activateRefusal (b2n true) = none := by decide +kernel
theorem witness_telemetry : let s : State := { (ready.setF RDR_TELE.EN 0 1) with clock := 100_000_000, sec := { ready.sec with mgmt := [(0, ⟨true, true⟩)] } }
    s.flag RDR_TELE.EN = true ∧ s.rider.pause = none ∧ s.rider.teleAt + 100 * 2 ^ s.getF RDR_STAT.DECIM * 1_000_000 ≤ s.clock ∧ s.getF RDR_TELE.PERIOD_MS = 100 ∧
      SMap.find? s.sec.mgmt 0 = some ⟨true, true⟩ ∧ (ready.setF RDR_TELE.EN 0 0).flag RDR_TELE.EN = false := by decide +kernel

/-! ## The edge -/

/-- A straps change before the rider has booted sets no SLOT_MOVED. -/
theorem test_slot_moved : (after (.slotIdChange 9) fed).flag TOP_PINS.SLOT_MOVED = true ∧ (after (.slotIdChange 9) ready).flag TOP_PINS.SLOT_MOVED = false := by
  decide +kernel
/-- At stepping 1 IDCODE reads 0x1714_1553 (R485). -/
theorem test_idcode : (after (.jtagInstruction .idcode) (ready.setF SEC_ID.STEP 0 1)).out.getLast? = some (.jtag 0x1714_1553) := by decide +kernel
theorem witness_i3c : ready.edge.i3c = none ∧ ({ ready with edge := { ready.edge with i3c := some 9 } } : State).edge.i3c.isSome = true ∧
    capValid (1500 : BitVec 16).toNat = true ∧ capValid (1499 : BitVec 16).toNat = false := by decide +kernel
theorem witness_power_line :
    (999_999 : BitVec 64).toNat < 1_000_000 ∧ 1_000_000 ≤ (1_000_000 : BitVec 64).toNat ∧ ready.rst.busUp = none ∧ fed.rst.busUp.isSome = true ∧
      fed.held = false ∧
    (fed.setF FEED_STAT.HELD 0 1).held = true ∧ (fed.setF FEED_STAT.HELD 0 1).rst.busUp.isSome = true ∧ ready.edge.off = false ∧
    (let s : State := { ready.setF FEED_STAT.B_OK 0 1 with edge := { ready.edge with off := true } }
     s.edge.off = true ∧ s.rst.busUp = none ∧ s.feedOk 1 = true) ∧
    ({ fed with edge := { fed.edge with off := true } } : State).edge.off = true := by decide +kernel
theorem witness_straps : (0 : BitVec 6).toNat = ready.getF TOP_PINS.SLOT_NOW ∧ (9 : BitVec 6).toNat ≠ ready.getF TOP_PINS.SLOT_NOW ∧ fed.rst.riderUp = true ∧
    (present State.reset).present = true ∧ (present State.reset).anyBound = false ∧ ready.present = false ∧ ready.anyBound = true := by decide +kernel

end Sys2Proof.Tests
end

section
/-!
Serial comparison (R42, R207) and the intervals of courses and slots (R39).
-/
namespace Sys2Proof

/-- The natural-number wrapped difference inside `serialDiff` is the integer difference modulo `2 ^ w`. -/
theorem natCast_wrappedDiff (w a b : Nat) : (((a + 2 ^ w - b % 2 ^ w) % 2 ^ w : Nat) : Int) = ((a : Int) - b) % 2 ^ w := by
  have hb : b % 2 ^ w ≤ a + 2 ^ w := (Nat.mod_lt b (Nat.two_pow_pos w)).le.trans (Nat.le_add_left _ _)
  push_cast [Nat.cast_sub hb]
  rw [add_sub_right_comm, Int.add_emod_right, Int.sub_emod_emod]

/-- A serial difference is the signed representative of `a - b` modulo `2 ^ w`, exactly half being before (R42, R207). -/
theorem serialDiff_eq (w a b : Nat) :
    serialDiff w a b = if 2 ^ (w - 1) ≤ ((a : Int) - b) % 2 ^ w then ((a : Int) - b) % 2 ^ w - 2 ^ w else ((a : Int) - b) % 2 ^ w := by
  simp only [serialDiff, ge_iff_le, ← natCast_wrappedDiff]
  norm_cast

/-- A count that has run less than half the range past `b` stands that far after it, though it may have wrapped. -/
theorem serialDiff_add_mod (w b : Nat) {v : Nat} (hv : v < 2 ^ (w - 1)) : serialDiff w ((b + v) % 2 ^ w) b = v := by
  have hw : v < 2 ^ w := hv.trans_le (Nat.pow_le_pow_right two_pos (Nat.sub_le w 1))
  have hd : ((((b + v) % 2 ^ w : Nat) : Int) - b) % 2 ^ w = v := by
    push_cast
    rw [Int.emod_sub_emod, add_sub_cancel_left]
    exact Int.emod_eq_of_lt (Int.natCast_nonneg v) (by exact_mod_cast hw)
  rw [serialDiff_eq, hd, if_neg (not_le.mpr (by exact_mod_cast hv))]

namespace Machine

theorem batMet_iff (count target : Nat) : batMet count target = true ↔ 0 ≤ diff32 count target := decide_eq_true_iff

/-- Course `c` is the gauge interval from `c * 2 ^ k` to `(c + 1) * 2 ^ k` (R39). -/
theorem State.courseNo_eq_iff (s : State) (c : Nat) : s.courseNo = c ↔ c * 2 ^ s.k ≤ s.time ∧ s.time < (c + 1) * 2 ^ s.k := by
  rw [State.courseNo, Nat.shiftRight_eq_div_pow, Nat.div_eq_iff (Nat.two_pow_pos s.k)]
  have := Nat.two_pow_pos s.k
  rw [add_one_mul]
  omega

/-- A course is 64 slots: the slots begun since gauge 0 hold 64 for each whole course. -/
theorem State.shiftRight_slot_div (s : State) (hk : 6 ≤ s.k) : (s.time >>> (s.k - 6)) / 64 = s.courseNo := by
  rw [State.courseNo, show (64 : Nat) = 2 ^ 6 from rfl, ← Nat.shiftRight_eq_div_pow, ← Nat.shiftRight_add, Nat.sub_add_cancel hk]

/-- The slot the model's strands send in is the number of slots begun since the course's start. -/
theorem State.slotNow_eq_sub (s : State) (hk : 6 ≤ s.k) : s.slotNow = s.time >>> (s.k - 6) - 64 * s.courseNo := by
  rw [State.slotNow, ← s.shiftRight_slot_div hk, Nat.mod_eq_sub]

/-- Slot `n` of a course is the gauge interval of `2 ^ (k - 6)` ns that begins `n` slots after the course does (R39). -/
theorem State.slotNow_interval (s : State) (hk : 6 ≤ s.k) :
    s.courseNo * 2 ^ s.k + s.slotNow * 2 ^ (s.k - 6) ≤ s.time ∧ s.time < s.courseNo * 2 ^ s.k + (s.slotNow + 1) * 2 ^ (s.k - 6) := by
  have hlen : 2 ^ s.k = 64 * 2 ^ (s.k - 6) := by rw [show (64 : Nat) = 2 ^ 6 from rfl, ← pow_add, Nat.add_sub_cancel' hk]
  have hslots : 64 * s.courseNo + s.slotNow = s.time / 2 ^ (s.k - 6) := by
    rw [← s.shiftRight_slot_div hk, State.slotNow, Nat.div_add_mod, Nat.shiftRight_eq_div_pow]
  have hbegin : s.courseNo * 2 ^ s.k + s.slotNow * 2 ^ (s.k - 6) = s.time / 2 ^ (s.k - 6) * 2 ^ (s.k - 6) := by rw [hlen, ← hslots]; ring
  rw [add_one_mul, ← add_assoc, hbegin]
  exact ⟨Nat.div_mul_le_self _ _, Nat.lt_div_mul_add (Nat.two_pow_pos _)⟩

end Machine

open Machine in
/-- Settles O22: courses and slots by division of the gauge, the comparisons by `serialDiff_eq` at 16 and 32 bits. -/
theorem coursesAndSerialNumbers : Obligations.CoursesAndSerialNumbers := by
  refine ⟨State.courseNo_eq_iff, fun s hk => ?slot, serialDiff_eq 16, fun count target => ⟨serialDiff_eq 32 count target, batMet_iff count target⟩,
    fun target _ hv => serialDiff_add_mod 32 target hv⟩
  case slot =>
    rw [← s.slotNow_eq_sub hk]
    exact ⟨Nat.mod_lt _ (by decide), s.slotNow_interval hk⟩

end Sys2Proof
end

section
/-!
Scalar issue and the ALU (R90 to R93), and division (R94).
-/
namespace Sys2Proof.Machine

/-! ## Issue of a scalar instruction -/

/-- A legal instruction that its core finds at the PC changes the core as it says, and retires. -/
theorem State.issueCore_of_finds {s : State} {n : CoreId} {f : Fetch} {regs : List (BitVec 5)} {legal : Bool}
    (hfinds : Say.finds s n f regs = true) (hlegal : legal = true) (cost : Nat) (run : Core → Core) :
    s.issueCore n.toNat f regs legal cost run = s.setCore n.toNat ((run (s.getCore n.toNat)).retire f.words cost) := by
  simp only [Say.finds, Bool.and_eq_true, Bool.not_eq_true'] at hfinds
  obtain ⟨⟨⟨⟨hfetches, hrunning⟩, haligned⟩, hready⟩, hpoison⟩ := hfinds
  simp [State.issueCore, State.issue, hfetches, hrunning, haligned, hready, hpoison, hlegal]

theorem exec_alu (n : CoreId) (rd rs1 rs2 : BitVec 5) (func : BitVec 11) (s : State) :
    exec (.alu n rd rs1 rs2 func) s = execAlu n rd rs1 rs2 func s := rfl

/-- A legal ALU instruction that its core finds at the PC writes the result of its function code to rd. -/
theorem exec_alu_of_finds {s : State} {n : CoreId} {rd rs1 rs2 : BitVec 5} {func : BitVec 11} {v : Word}
    (hfinds : Say.finds s n { word := wordRR 0x00 rd rs1 rs2 func } [rd, rs1, rs2] = true) (hlegal : aluLegal func.toNat rs2 = true)
    (hv : aluFn func.toNat ((s.getCore n.toNat).sreg rs1.toNat) ((s.getCore n.toNat).sreg rs2.toNat) = some v) :
    exec (.alu n rd rs1 rs2 func) s = Say.writes s n rd v := by
  rw [exec_alu, execAlu, State.issueCore_of_finds hfinds hlegal, hv]
  rfl

/-! ## The function codes of division -/

@[simp] theorem aluFn_div (a b : Word) : aluFn 0x014 a b = some (quotS a b) := rfl
@[simp] theorem aluFn_divu (a b : Word) : aluFn 0x015 a b = some (quotU a b) := rfl
@[simp] theorem aluFn_rem (a b : Word) : aluFn 0x016 a b = some (remS a b) := rfl
@[simp] theorem aluFn_remu (a b : Word) : aluFn 0x017 a b = some (remU a b) := rfl

/-- The four division codes give a result for all operands. -/
theorem aluFn_isSome_of_division {f : Nat} (hlo : 0x014 ≤ f) (hhi : f ≤ 0x017) (a b : Word) : (aluFn f a b).isSome = true := by
  obtain rfl | rfl | rfl | rfl : f = 0x014 ∨ f = 0x015 ∨ f = 0x016 ∨ f = 0x017 := by omega
  all_goals simp

theorem aluLegal_of_division {f : Nat} (hlo : 0x014 ≤ f) (hhi : f ≤ 0x017) (rs2 : BitVec 5) : aluLegal f rs2 = true := by
  have htwo : f < 0x018 := by omega
  simp [aluLegal, aluFn_isSome_of_division hlo hhi, htwo]

/-! ## Quotients and remainders -/

theorem quotS_zero (a : Word) : quotS a 0 = -1 := if_pos rfl
theorem quotU_zero (a : Word) : quotU a 0 = BitVec.ofNat 64 (2 ^ 64 - 1) := if_pos rfl
theorem remS_zero (a : Word) : remS a 0 = a := if_pos rfl
theorem remU_zero (a : Word) : remU a 0 = a := if_pos rfl

theorem quotS_of_ne {a b : Word} (hb : b ≠ 0) : quotS a b = a.sdiv b := if_neg hb
theorem quotU_of_ne {a b : Word} (hb : b ≠ 0) : quotU a b = a / b := if_neg hb
theorem remS_of_ne {a b : Word} (hb : b ≠ 0) : remS a b = a.srem b := if_neg hb
theorem remU_of_ne {a b : Word} (hb : b ≠ 0) : remU a b = a % b := if_neg hb

/-- The one signed quotient that 64 bits cannot hold wraps to the dividend. -/
theorem quotS_intMin_neg_one : quotS (BitVec.intMin 64) (-1) = BitVec.intMin 64 := by
  rw [quotS_of_ne (by decide)]
  exact BitVec.intMin_sdiv_neg_one

theorem remS_intMin_neg_one : remS (BitVec.intMin 64) (-1) = 0 := by
  rw [remS_of_ne (by decide)]
  decide

/-- Apart from zero divisors and the one overflow, the signed quotient is exact and truncated. -/
theorem toInt_quotS {a b : Word} (hb : b ≠ 0) (hfits : ¬(a = BitVec.intMin 64 ∧ b = -1)) : (quotS a b).toInt = a.toInt.tdiv b.toInt := by
  rw [quotS_of_ne hb]
  exact BitVec.toInt_sdiv_of_ne_or_ne a b (not_and_or.mp hfits)

/-- The signed remainder has the sign of the dividend, as `Int.tmod` has. -/
theorem toInt_remS {a b : Word} (hb : b ≠ 0) : (remS a b).toInt = a.toInt.tmod b.toInt := by rw [remS_of_ne hb, BitVec.toInt_srem]

theorem toNat_quotU {a b : Word} (hb : b ≠ 0) : (quotU a b).toNat = a.toNat / b.toNat := by rw [quotU_of_ne hb, BitVec.toNat_udiv]
theorem toNat_remU {a b : Word} (hb : b ≠ 0) : (remU a b).toNat = a.toNat % b.toNat := by rw [remU_of_ne hb, BitVec.toNat_umod]

end Sys2Proof.Machine

namespace Sys2Proof
open Machine

/-- Settles O9: the four codes are legal and have a result for all operands, whose values the lemmas on `quotS`, `quotU`, `remS` and
`remU` give. -/
theorem divisionNeverFaults : Obligations.DivisionNeverFaults := by
  refine ⟨?completes, ?byZero, ?overflowQuotient, ?overflowRemainder, ?signed, ?unsigned⟩
  case completes =>
    intro s n rd rs1 rs2 func hlo hhi hfinds
    obtain ⟨v, hv⟩ := Option.isSome_iff_exists.mp (aluFn_isSome_of_division hlo hhi _ _)
    exact ⟨v, hv, exec_alu_of_finds hfinds (aluLegal_of_division hlo hhi rs2) hv⟩
  case byZero =>
    intro a
    exact ⟨by rw [aluFn_div, quotS_zero], by rw [aluFn_divu, quotU_zero], by rw [aluFn_rem, remS_zero], by rw [aluFn_remu, remU_zero]⟩
  case overflowQuotient => rw [aluFn_div, quotS_intMin_neg_one]
  case overflowRemainder => rw [aluFn_rem, remS_intMin_neg_one]
  case signed =>
    intro a b q r hb hfits hq hr
    rw [aluFn_div, Option.some_inj] at hq
    rw [aluFn_rem, Option.some_inj] at hr
    exact hq ▸ hr ▸ ⟨toInt_quotS hb hfits, toInt_remS hb⟩
  case unsigned =>
    intro a b q r hb hq hr
    rw [aluFn_divu, Option.some_inj] at hq
    rw [aluFn_remu, Option.some_inj] at hr
    exact hq ▸ hr ▸ ⟨toNat_quotU hb, toNat_remU hb⟩

end Sys2Proof
end
